-- ==== Sys2Proof/Word.lean ====
section
/-! DEFINITION. Word.lean: the plain words of the block: bytes, the names of object numbers, and the
saturating 64-bit count. -/
namespace Sys2Proof

/-- One byte (R4). -/
abbrev Byte := BitVec 8
/-- One register of the block, 64 bits (R28). -/
abbrev Word := BitVec 64

/-- A function F0 to F2047 (00_scope.md, Numbers). -/
abbrev Fn := Fin 2048
/-- A port, named by its lowest slot, or a slot P0 to P15 (R15). -/
abbrev PortId := Fin 16
/-- A module cage (R76). -/
abbrev Cage := Fin 16
/-- A traffic class TC0 to TC7. -/
abbrev Tc := Fin 8
/-- A time base TB0 to TB3. -/
abbrev TbId := Fin 4
/-- A transmit queue, global number (R152). -/
abbrev TxqId := Fin 32768
/-- A receive ring, global number (R152). -/
abbrev RxqId := Fin 32768
/-- An event queue, global number (R152). -/
abbrev EqId := Fin 4096
/-- A Carry channel CH0 to CH63 (R358). -/
abbrev ChId := Fin 64
/-- A control processor thread T0 to T7 (R376). -/
abbrev ThreadId := Fin 8
/-- An inter-thread channel CHN0 to CHN31 (R381). -/
abbrev ChnId := Fin 32
/-- A retention bank RB0 to RB27 (R23). -/
abbrev BankId := Fin 28

end Sys2Proof
end

