-- ==== Sys2Proof/Syntax.lean ====
section
/-! DEFINITION. Syntax.lean: the commands of the block, one constructor per row of
spec/opcode_table.json, with what each takes from outside the engine as its operands. -/
namespace Sys2Proof

/-- Event classes of a fault source (R392). -/
inductive EvClass where
  | info | corrected | failure
  deriving DecidableEq, Repr

/-- An event record a unit presents to the fault collector (R393). -/
structure FaultEv where
  /-- the source, 0 to 63 (R392) -/
  src : Fin 64
  cls : EvClass
  /-- DETAIL as the source table gives it (R392) -/
  detail : BitVec 32
  /-- address, zero when the access type is NONE (R397) -/
  addr : BitVec 64
  /-- master code (R397) -/
  master : BitVec 16
  /-- access type, 0 NONE to 6 CSR (R397) -/
  access : BitVec 3
  deriving DecidableEq, Repr

/-- A register access on CSR_T (R499). -/
structure Csr where
  fn : Fn
  /-- false: the function window; true: the engine window (R40) -/
  win : Bool
  off : BitVec 22
  /-- bytes accessed: 4 and 8 are accepted, any other size is refused by R28 -/
  size : Nat
  data : BitVec 64
  deriving DecidableEq, Repr

/-- The hardware's part in the commit of a two-phase command (R61, R63): the unit whose commit fails and
the unit whose rollback fails, each by its R519 code. -/
structure Commit where
  fail : Option (BitVec 16)
  rollback : Option (BitVec 16)
  /-- where that unit is a leaf, node or root of the Dealer: the failure lies in its token or deficit memory (R549) -/
  tokens : Bool := false
  backTokens : Bool := false
  deriving DecidableEq, Repr

/-- A parity error met by a steering lookup (R253): the entry and how many of the four replicas fail. -/
structure ParityErr where
  entry : Fin 16384
  fails : Fin 5
  deriving DecidableEq, Repr

/-- A frame arriving on the media interface (R485, R486). -/
structure RxFrame where
  port : PortId
  /-- the frame from its destination address through its FCS -/
  bytes : List Byte
  /-- CLK_DP cycles since the last CLK_TS edge, at the beat of the first segment (R327) -/
  dp : Fin 4
  /-- the segment of that beat that holds the first byte (R327) -/
  seg : Fin 16
  /-- an error mark from the media interface (R103) -/
  err : Bool
  /-- cut short by a link fault (R103) -/
  cut : Bool
  /-- a beat that breaks R486, and its slot -/
  badBeat : Option PortId
  /-- parity errors in the steering lookup (R253) -/
  parity : Option ParityErr
  deriving DecidableEq, Repr

/-- A unit returned on SP_RCIRC: the metadata fields the engine reads (R240) and the frame bytes. -/
structure RcUnit where
  port : PortId
  tc : Tc
  gen : Bool
  serial : BitVec 16
  pass : BitVec 2
  ret : Bool
  fcsErr : Bool
  len : BitVec 14
  tag : BitVec 8
  bytes : List Byte
  dp : Fin 4
  seg : Fin 16
  parity : Option ParityErr
  deriving DecidableEq, Repr

/-- The Voxfold capability TLV (R86). -/
structure CapTlv where
  version : Byte
  thin : Bool
  trailerTx : Bool
  trailerRx : Bool
  pair : Bool
  steps : BitVec 4
  lanes : Byte
  engineId : Byte
  portNum : Byte
  deriving DecidableEq, Repr

/-- The Voxfold pair identity TLV (R86). -/
structure PairTlv where
  pairId : BitVec 64
  epoch : BitVec 32
  role : Byte
  engineId : Byte
  deriving DecidableEq, Repr

/-- A received LLDPDU with its TLVs taken apart (R85 to R87). -/
structure Lldpdu where
  chassis : List Byte
  portId : List Byte
  ttl : BitVec 16
  cap : Option CapTlv
  pair : Option PairTlv
  /-- Voxfold TLVs that R87 ignores and counts -/
  badTlvs : Nat
  deriving DecidableEq, Repr

/-- The fields of a thinning handshake frame (R138). -/
structure ThinMsg where
  seq : BitVec 16
  cur : Byte
  target : Byte
  restore : Bool
  cold : Bool
  warm : Byte
  reason : Byte
  switch : Byte
  deriving DecidableEq, Repr

/-- CMIS module state as the engine reads it (R80). -/
inductive ModState where
  | lowPwr | pwrUp | ready | pwrDn | fault
  deriving DecidableEq, Repr

/-- An application a module advertises (R81). -/
structure ModApp where
  code : BitVec 4
  hostLanes : Nat
  rate200 : Bool
  /-- host lanes at which the application may start, one bit each -/
  bases : BitVec 8
  /-- the module's default application for those lanes -/
  isDefault : Bool
  deriving DecidableEq, Repr

/-- The identity fields the engine reads in IDENTIFY (R80). -/
structure ModIdent where
  cmisId : Bool
  /-- revision compliance, the major revision in bits [7:4] -/
  rev : Byte
  flat : Bool
  media : Byte
  /-- vendor name 16, OUI 3, part number 16, revision 2, serial 16, date code 8: 61 bytes (R525) -/
  vendor : List Byte
  apps : List ModApp
  /-- advertised power-up and power-down maxima in ms, if any (R82) -/
  maxPwrUp : Option Nat
  maxPwrDown : Option Nat
  /-- advertised data path init and deinit maxima in ms, if any (R82) -/
  maxDpInit : Option Nat
  maxDpDeinit : Option Nat
  /-- pages 10h and 11h, bank 0, are among the advertised supported pages and banks (R80) -/
  pages : Bool
  deriving DecidableEq, Repr

/-- What a module bus transaction brought back (R79, R80). -/
inductive ModData where
  /-- the lower page answered, with the module state it shows -/
  | lowerPage (st : ModState)
  | identity (id : ModIdent)
  /-- the module state and the lanes whose data path is activated -/
  | status (st : ModState) (dpActive : BitVec 8)
  /-- not acknowledged; `prsN` is the level of MOD_PRS_N when the error was found (R77) -/
  | failed (prsN : Bool)
  deriving DecidableEq, Repr

/-- A MODULE_ACCESS's bus transaction as it went (R84). -/
inductive ModBus where
  | done (bytes : List Byte)
  /-- not acknowledged; `prsN` is the level of MOD_PRS_N when the error was found (R77) -/
  | failed (prsN : Bool)
  deriving DecidableEq, Repr

/-- The result of a TRANSLATION response (R495). -/
inductive XltResult where
  /-- physical page number PA[51:12]; page size 0 4 KiB, 1 2 MiB, 2 1 GiB; permissions -/
  | success (pa : BitVec 40) (size : Fin 3) (rd wr : Bool)
  | notPresent
  | denied
  deriving DecidableEq, Repr

/-- The scope of an INVALIDATE message (R201, R495). -/
inductive InvScope where
  | range (fn : Fn) (pasid : BitVec 20) (vpn : BitVec 52) (pages : Nat)
  | pasid (fn : Fn) (pasid : BitVec 20)
  | func (fn : Fn)
  | all
  deriving DecidableEq, Repr

/-- An object that can be in a fault wait (R204). -/
inductive FObj where
  | txq (q : TxqId)
  | rxq (q : RxqId)
  | eq (e : EqId)
  | carry (c : ChId)
  | mbx (f : Fn)
  deriving DecidableEq, Repr

/-- An object of the Dealer (R284). -/
inductive DObjId where
  | leaf (q : TxqId)
  | node (n : Fin 8192)
  | root (p : PortId)
  deriving DecidableEq, Repr

/-- A memory the scrubber reads (R543). -/
inductive ScrubMem where
  | packetBuffer (bank : Fin 32)
  | retention (bank : BankId)
  | tcam (entry : Fin 16384) (replica : Fin 4)
  | slotConfig (slot : PortId)
  | dealerTree (port : PortId)
  | tokens (o : DObjId)
  | policer (p : Fin 4096)
  | offloadProfile (i : Fin 256)
  | gateList (port : PortId)
  deriving DecidableEq, Repr

/-- What the scrubber finds (R544). -/
inductive ScrubResult where
  | clean | corrected | uncorrectable
  deriving DecidableEq, Repr

/-- Six self-test result masks, one per row of R476 in order (R522). -/
structure SelfTest where
  pbBanks : BitVec 32
  retBanks : BitVec 28
  tcam : BitVec 4
  mems : BitVec 4
  slots : BitVec 16
  vectors : BitVec 3
  deriving DecidableEq, Repr

/-- A firmware image's header and the verdict of its signature (R388, R535). -/
structure ImageInfo where
  version : BitVec 32
  secVersion : BitVec 32
  codeLen : BitVec 32
  /-- the ECDSA P-384 signature verifies -/
  sigOk : Bool
  /-- the security version is not below the chip's minimum -/
  secOk : Bool
  deriving DecidableEq, Repr

/-- A calendar time (R311). -/
structure TimeVal where
  sec : Nat
  ns : Nat
  sub : Nat
  deriving DecidableEq, Repr

/-- A change carried by a journal or copy message (R434, R442): index updates and state of a queue or ring, of an event
queue, tokens and deficit of a Dealer object, quench bits, a command whose commit the record carries whole, or a
register write. -/
inductive JChange where
  | txIdx (q : TxqId) (prod cons compl : BitVec 16) (state : Fin 5)
  | rxIdx (q : RxqId) (prod cons compl : BitVec 16) (state : Fin 5)
  | eqIdx (e : EqId) (head tail : BitVec 16)
  | dealer (o : DObjId) (tokens deficit : Int)
  | quench (f : Fn) (own admin : Bool)
  | cmd (fn : Fn) (opcode : BitVec 16) (params : List Byte)
  | reg (a : Csr)
  deriving DecidableEq, Repr

/-- A HELLO message (R437). -/
structure Hello where
  pairId : BitVec 64
  /-- true: ROLE ACTIVE -/
  active : Bool
  rev : BitVec 64
  fwVersion : BitVec 32
  /-- byte p is the port to which slot Pp belongs -/
  grouping : List Byte
  engineId : Byte
  deriving DecidableEq, Repr

/-- A HEARTBEAT message (R448, R504). -/
structure Heartbeat where
  seq : BitVec 32
  epoch : BitVec 32
  /-- TB0 to TB3 at the send edge -/
  tb0 : TimeVal
  tb1 : TimeVal
  tb2 : TimeVal
  tb3 : TimeVal
  /-- measured link delay from the echoed heartbeat, in ns -/
  delay : Nat
  engineId : Byte
  deriving DecidableEq, Repr

/-- How a lease compare-and-swap or read came back (R439, R492). -/
inductive CasResult where
  | old (w : BitVec 64)
  | error
  deriving DecidableEq, Repr

/-- Where a LOST bank is recovered from (R428). -/
inductive Recovery where
  | partner | bootStore | loss
  deriving DecidableEq, Repr


/-- A counting window of the fault collector (R395, R396): a source's or a packet buffer bank's. -/
inductive FaultWin where
  | src (s : Fin 64)
  | bank (b : Fin 32)
  deriving DecidableEq, Repr

/-- The commands of the block (opcode_table.json): those with operands, then those without, in table order. -/
inductive Instr where
  /-- TX_DOORBELL (R158). -/
  | txDoorbell (fn : Fn) (n : Fin 4096) (idx : BitVec 16)
  /-- RX_DOORBELL (R158). -/
  | rxDoorbell (fn : Fn) (n : Fin 4096) (idx : BitVec 16)
  /-- EQ_HEAD_UPDATE (R183). -/
  | eqHeadUpdate (fn : Fn) (n : Fin 512) (head : BitVec 16)
  /-- EQ_ARM (R185). -/
  | eqArm (fn : Fn) (n : Fin 512) (head : BitVec 16)
  /-- QUENCH (R35). -/
  | quench (fn : Fn) (on : Bool)
  /-- ADMIN_QUENCH (R42). -/
  | adminQuench (f : Fn) (on : Bool)
  /-- FAST_TIME_READ (R39). -/
  | fastTimeRead (fn : Fn)
  /-- MBX_GO (R49). -/
  | mbxGo (fn : Fn)
  /-- MBX_REQ_WRITE (R47). -/
  | mbxReqWrite (fn : Fn) (off : Fin 256) (size : Nat) (data : BitVec 64)
  /-- REGISTER_WRITE (R10). -/
  | registerWrite (a : Csr)
  /-- COMMAND_TIMEOUT (R52). -/
  | commandTimeout (fn : Fn)
  /-- PROGRESS_REPORT (R51). -/
  | progressReport (fn : Fn) (done total : BitVec 32)
  /-- FUNC_CONFIG (R153). -/
  | funcConfig (fn : Fn)
  /-- FUNC_RESET (R194). -/
  | funcReset (fn : Fn)
  /-- CONFIG_GET (R520). -/
  | configGet (fn : Fn)
  /-- REJECT_LOG_GET (R521). -/
  | rejectLogGet (fn : Fn)
  /-- COMMIT (R520). -/
  | commit (fn : Fn)
  /-- ENG_RESET (R477). -/
  | engReset (fn : Fn)
  /-- RESET_INFO_GET (R480). -/
  | resetInfoGet (fn : Fn)
  /-- PORT_GROUP (R67). -/
  | portGroup (fn : Fn) (cf : Commit)
  /-- PORT_CONFIG (R68). -/
  | portConfig (fn : Fn) (cf : Commit)
  /-- PORT_STATE_GET (R75). -/
  | portStateGet (fn : Fn)
  /-- PORT_EVENT_SUBSCRIBE (R75). -/
  | portEventSubscribe (fn : Fn)
  /-- MODULE_CONFIG (R79). -/
  | moduleConfig (fn : Fn)
  /-- MODULE_RESET (R78). -/
  | moduleReset (fn : Fn)
  /-- MODULE_INFO_GET (R525). -/
  | moduleInfoGet (fn : Fn)
  /-- MODULE_ACCESS (R84). -/
  | moduleAccess (fn : Fn) (bus : ModBus)
  /-- LLDP_CONFIG (R85). -/
  | lldpConfig (fn : Fn)
  /-- LLDP_PARTNER_GET (R89). -/
  | lldpPartnerGet (fn : Fn)
  /-- FC_CONFIG (R92). -/
  | fcConfig (fn : Fn) (cf : Commit)
  /-- KITTY_CONFIG (R120). -/
  | kittyConfig (fn : Fn)
  /-- THIN_STATUS_GET (R151). -/
  | thinStatusGet (fn : Fn)
  /-- TRAILER_CONFIG (R275). -/
  | trailerConfig (fn : Fn)
  /-- TRAILER_RING_CREATE (R281). -/
  | trailerRingCreate (fn : Fn)
  /-- TRAILER_RING_DESTROY (R281). -/
  | trailerRingDestroy (fn : Fn)
  /-- TXQ_CREATE (R161). -/
  | txqCreate (fn : Fn) (cf : Commit)
  /-- RXQ_CREATE (R172). -/
  | rxqCreate (fn : Fn)
  /-- EQ_CREATE (R181). -/
  | eqCreate (fn : Fn)
  /-- QUEUE_MODIFY (R161). -/
  | queueModify (fn : Fn)
  /-- QUEUE_START (R187). -/
  | queueStart (fn : Fn)
  /-- QUEUE_STOP (R188). -/
  | queueStop (fn : Fn)
  /-- QUEUE_STOPPED (R188). -/
  | queueStopped (o : FObj)
  /-- QUEUE_RESET (R189). -/
  | queueReset (fn : Fn)
  /-- QUEUE_DESTROY (R190). -/
  | queueDestroy (fn : Fn) (cf : Commit)
  /-- QUEUE_QUERY (R219). -/
  | queueQuery (fn : Fn)
  /-- QUEUE_STATS (R192). -/
  | queueStats (fn : Fn)
  /-- VECTOR_MASK (R186). -/
  | vectorMask (fn : Fn)
  /-- XLT_FUNC_CONFIG (R196). -/
  | xltFuncConfig (fn : Fn)
  /-- XLT_CONFIG (R205). -/
  | xltConfig (fn : Fn)
  /-- OFFLOAD_PROFILE_SET (R256). -/
  | offloadProfileSet (fn : Fn)
  /-- STEER_PORT_CONFIG (R227). -/
  | steerPortConfig (fn : Fn)
  /-- STEER_GEN_SET (R528). -/
  | steerGenSet (fn : Fn)
  /-- STEER_RULE_BATCH (R233). -/
  | steerRuleBatch (fn : Fn) (cf : Commit)
  /-- STEER_SWAP (R234). -/
  | steerSwap (fn : Fn)
  /-- STEER_STATUS_GET (R255). -/
  | steerStatusGet (fn : Fn)
  /-- STEER_CONFIG (R243). -/
  | steerConfig (fn : Fn)
  /-- STREAM_GROUP_SET (R238). -/
  | streamGroupSet (fn : Fn)
  /-- SPREAD_CREATE (R245). -/
  | spreadCreate (fn : Fn)
  /-- SPREAD_DESTROY (R245). -/
  | spreadDestroy (fn : Fn)
  /-- SPREAD_SET (R245). -/
  | spreadSet (fn : Fn)
  /-- POLICER_SET (R249). -/
  | policerSet (fn : Fn)
  /-- WAKE_PATTERN_SET (R251). -/
  | wakePatternSet (fn : Fn)
  /-- POLICER_STATS (R250). -/
  | policerStats (fn : Fn)
  /-- STEER_STATS (R255). -/
  | steerStats (fn : Fn)
  /-- DEALER_NODE_CREATE (R286). -/
  | dealerNodeCreate (fn : Fn)
  /-- DEALER_NODE_DESTROY (R286). -/
  | dealerNodeDestroy (fn : Fn)
  /-- DEALER_SET (R286). -/
  | dealerSet (fn : Fn) (cf : Commit)
  /-- DEALER_QUERY (R310). -/
  | dealerQuery (fn : Fn)
  /-- DEALER_SAMPLER_CONFIG (R305). -/
  | dealerSamplerConfig (fn : Fn)
  /-- DECK_SET (R338). -/
  | deckSet (fn : Fn)
  /-- DECK_CLEAR (R344). -/
  | deckClear (fn : Fn)
  /-- DECK_STATUS_GET (R357). -/
  | deckStatusGet (fn : Fn)
  /-- TS_QUEUE_READ (R334). -/
  | tsQueueRead (fn : Fn)
  /-- POWER_SET (R414). -/
  | powerSet (fn : Fn)
  /-- POWER_STATUS_GET (R433). -/
  | powerStatusGet (fn : Fn)
  /-- FAULT_INFO_GET (R532). -/
  | faultInfoGet (fn : Fn)
  /-- PAIR_CONFIG (R435). -/
  | pairConfig (fn : Fn)
  /-- PAIR_FORM (R437). -/
  | pairForm (fn : Fn)
  /-- PAIR_LEAVE (R451). -/
  | pairLeave (fn : Fn)
  /-- PAIR_SWITCHOVER (R447). -/
  | pairSwitchover (fn : Fn)
  /-- PAIR_RESYNC (R449). -/
  | pairResync (fn : Fn)
  /-- PAIR_WAKE (R450). -/
  | pairWake (fn : Fn)
  /-- PAIR_STATUS_GET (R454). -/
  | pairStatusGet (fn : Fn)
  /-- STATS_READ (R127). -/
  | statsRead (fn : Fn)
  /-- STATS_PEEK (R127). -/
  | statsPeek (fn : Fn)
  /-- OFFLOAD_STATS (R283). -/
  | offloadStats (fn : Fn)
  /-- XLT_STATS (R219). -/
  | xltStats (fn : Fn)
  /-- CARRY_FUNC_CONFIG (R359). -/
  | carryFuncConfig (fn : Fn)
  /-- CARRY_CLAIM (R359). -/
  | carryClaim (fn : Fn)
  /-- CARRY_RELEASE (R359). -/
  | carryRelease (fn : Fn)
  /-- CARRY_SUBMIT (R359). -/
  | carrySubmit (fn : Fn)
  /-- CARRY_STATUS (R359). -/
  | carryStatus (fn : Fn)
  /-- CARRY_ABORT (R372). -/
  | carryAbort (fn : Fn)
  /-- CARRY_STATS (R375). -/
  | carryStats (fn : Fn)
  /-- FW_INFO_GET (R390). -/
  | fwInfoGet (fn : Fn)
  /-- FW_UPDATE (R389). -/
  | fwUpdate (fn : Fn) (sigOk secOk writeOk : Bool)
  /-- FW_RESTART (R382). -/
  | fwRestart (fn : Fn)
  /-- FW_DEBUG_ENABLE (R386). -/
  | fwDebugEnable (fn : Fn)
  /-- RX_FRAME (R220). -/
  | rxFrame (r : RxFrame)
  /-- RX_PAUSE (R110). -/
  | rxPause (p : PortId) (quanta : BitVec 16)
  /-- RX_PFC (R111). -/
  | rxPfc (p : PortId) (en : BitVec 8) (times : List (BitVec 16))
  /-- RX_LLDPDU (R89). -/
  | rxLldpdu (p : PortId) (r : RxFrame)
  /-- RX_PROPOSE (R141). -/
  | rxPropose (p : PortId) (m : ThinMsg)
  /-- RX_ACCEPT (R140). -/
  | rxAccept (p : PortId) (m : ThinMsg)
  /-- RX_REJECT (R148). -/
  | rxReject (p : PortId) (m : ThinMsg)
  /-- RX_READY (R140). -/
  | rxReady (p : PortId) (m : ThinMsg)
  /-- RX_MARK (R140). -/
  | rxMark (p : PortId) (m : ThinMsg)
  /-- RCIRC_RETURN (R240). -/
  | rcircReturn (u : RcUnit)
  /-- RCIRC_DISCARD_NOTICE (R240). -/
  | rcircDiscardNotice (port : PortId) (serial : BitVec 16)
  /-- SP_CREDIT_RETURN (R498). -/
  | spCreditReturn (sp : Fin 2) (dest : Fin 8) (count : BitVec 10)
  /-- TX_DESCRIPTORS_READ (R97). -/
  | txDescriptorsRead (q : TxqId) (descs : List (BitVec 128)) (hdrs : List (List Byte))
  /-- RX_POST_ENTRIES_READ (R173). -/
  | rxPostEntriesRead (q : RxqId) (ents : List (BitVec 64))
  /-- DEALER_DECISION (R290). -/
  | dealerDecision (p : PortId)
  /-- SHAPER_REFILL (R299). -/
  | shaperRefill (o : DObjId)
  /-- PACING_REFILL (R303). -/
  | pacingRefill (p : PortId)
  /-- TX_FRAME_START (R350). -/
  | txFrameStart (p : PortId) (dp : Fin 4) (seg : Fin 16)
  /-- TX_FRAME_END (R166). -/
  | txFrameEnd (p : PortId)
  /-- TX_UNDERRUN (R107). -/
  | txUnderrun (p : PortId)
  /-- TRUMP_FRAME_START (R118). -/
  | trumpFrameStart (p : PortId)
  /-- TX_HOLD (R487). -/
  | txHold (slot : PortId) (on : Bool)
  /-- TX_BATCH_TIMEOUT (R170). -/
  | txBatchTimeout (q : TxqId)
  /-- RX_COAL_TIMEOUT (R183). -/
  | rxCoalTimeout (q : RxqId)
  /-- PACK_TIMEOUT (R175). -/
  | packTimeout (q : RxqId)
  /-- EQ_MOD_TIME (R185). -/
  | eqModTime (e : EqId)
  /-- ANCHOR_TIMER (R178). -/
  | anchorTimer (q : RxqId)
  /-- PAUSE_TIMER_EXPIRY (R110). -/
  | pauseTimerExpiry (p : PortId) (c : Option Tc)
  /-- FC_REFRESH (R116). -/
  | fcRefresh (p : PortId) (c : Tc)
  /-- PFC_WATCHDOG_EXPIRY (R125). -/
  | pfcWatchdogExpiry (p : PortId) (c : Tc)
  /-- DRAIN_RESTORE (R126). -/
  | drainRestore (p : PortId) (c : Tc)
  /-- CT_THRESHOLD_LOWER (R108). -/
  | ctThresholdLower (p : PortId)
  /-- LLDP_TX_TIMER (R85). -/
  | lldpTxTimer (p : PortId)
  /-- PARTNER_TTL_EXPIRY (R89). -/
  | partnerTtlExpiry (p : PortId)
  /-- LINK_UP (R488). -/
  | linkUp (p : PortId)
  /-- LINK_FAULT (R73). -/
  | linkFault (slot : PortId) (sigdet : Bool)
  /-- UP_DEBOUNCE_EXPIRY (R73). -/
  | upDebounceExpiry (p : PortId)
  /-- TRAIN_TIMEOUT (R73). -/
  | trainTimeout (p : PortId)
  /-- PRESENCE_CONFIRMED (R77). -/
  | presenceConfirmed (cage : Cage) (present : Bool)
  /-- MODULE_INTERRUPT (R83). -/
  | moduleInterrupt (cage : Cage) (flags : BitVec 64) (laneFlags : BitVec 512) (st : ModState)
  /-- MODULE_POLL (R82). -/
  | modulePoll (cage : Cage) (st : ModState) (dpActive : BitVec 8)
  /-- MODULE_BUS_TRANSACTION_DONE (R79). -/
  | moduleBusTransactionDone (cage : Cage) (d : ModData)
  /-- MODULE_BUS_RETRY (R79). -/
  | moduleBusRetry (cage : Cage)
  /-- MGMT_INIT_TIMEOUT (R78). -/
  | mgmtInitTimeout (cage : Cage)
  /-- MODULE_STATE_TIMEOUT (R82). -/
  | moduleStateTimeout (cage : Cage)
  /-- THIN_INTERVAL (R135). -/
  | thinInterval (p : PortId)
  /-- PROPOSE_RETRY (R143). -/
  | proposeRetry (p : PortId)
  /-- HANDSHAKE_TIMEOUT (R148). -/
  | handshakeTimeout (p : PortId)
  /-- READY_TIMEOUT (R148). -/
  | readyTimeout (p : PortId)
  /-- THIN_GAP_END (R144). -/
  | thinGapEnd (p : PortId)
  /-- WARM_LANE_EXPIRY (R147). -/
  | warmLaneExpiry (p : PortId) (lane : Fin 8)
  /-- MI_CTL_ACK (R489). -/
  | miCtlAck (p : PortId) (failed : Bool)
  /-- MI_CTL_TIMEOUT (R489). -/
  | miCtlTimeout (p : PortId)
  /-- TRANSLATION_RESPONSE (R203). -/
  | translationResponse (tag : Fin 512) (r : XltResult)
  /-- PAGE_RESPONSE (R203). -/
  | pageResponse (group : Fin 512) (ok : Bool)
  /-- INVALIDATE (R201). -/
  | invalidate (tag : Fin 32) (scope : InvScope)
  /-- INVALIDATION_ACK (R201). -/
  | invalidationAck (tag : Fin 32)
  /-- XLT_REQUEST_TIMEOUT (R198). -/
  | xltRequestTimeout (tag : Fin 512)
  /-- FAULT_TIMEOUT_EXPIRY (R211). -/
  | faultTimeoutExpiry (o : FObj)
  /-- DMA_WRITE_DONE (R493). -/
  | dmaWriteDone (m : Fin 4) (tag : Fin 1024)
  /-- DMA_ERROR_RESPONSE (R191). -/
  | dmaErrorResponse (m : Fin 4) (tag : Fin 1024)
  /-- DMA_COMPLETION_TIMEOUT (R492). -/
  | dmaCompletionTimeout (m : Fin 4) (tag : Fin 1024)
  /-- TB_SNAP (R316). -/
  | tbSnap (n : TbId)
  /-- TB_STEP (R316). -/
  | tbStep (n : TbId)
  /-- TB_ADD (R316). -/
  | tbAdd (n : TbId)
  /-- SLEW_GO (R318). -/
  | slewGo (n : TbId)
  /-- SLEW_STOP (R318). -/
  | slewStop (n : TbId)
  /-- PPO_MODE_SET (R324). -/
  | ppoModeSet (k : Fin 8) (mode : Fin 4)
  /-- PULSE_EDGE (R324). -/
  | pulseEdge (k : Fin 8)
  /-- CAPTURE_EDGE (R325). -/
  | captureEdge (k : Fin 8) (rise : Bool)
  /-- CAPTURE_READ (R325). -/
  | captureRead (k : Fin 8)
  /-- PPS_READ (R326). -/
  | ppsRead (n : TbId)
  /-- TSQ_ENTRY_EXPIRY (R333). -/
  | tsqEntryExpiry (p : PortId)
  /-- GATE_ENTRY_CHANGE (R340). -/
  | gateEntryChange (p : PortId)
  /-- DECK_CUT (R342). -/
  | deckCut (p : PortId)
  /-- DECK_CLEAR_POINT (R344). -/
  | deckClearPoint (p : PortId)
  /-- CARRY_GO (R373). -/
  | carryGo (ch : ChId)
  /-- CARRY_DISABLE (R372). -/
  | carryDisable (ch : ChId)
  /-- CARRY_VALIDATE_DONE (R361). -/
  | carryValidateDone (ch : ChId) (els : List (BitVec 256))
  /-- CARRY_REQUEST_COMPLETE (R364). -/
  | carryRequestComplete (ch : ChId)
  /-- THREAD_FAULT (R379). -/
  | threadFault (t : ThreadId) (cause : BitVec 8)
  /-- THREAD_RESTART (R380). -/
  | threadRestart (t : ThreadId)
  /-- CHANNEL_HOLD_EXPIRY (R385). -/
  | channelHoldExpiry (c : ChnId)
  /-- CHANNEL_WRITE (R381). -/
  | channelWrite (t : ThreadId) (c : ChnId) (w : BitVec 64) (last : Bool)
  /-- CHANNEL_READ (R381). -/
  | channelRead (t : ThreadId) (c : ChnId)
  /-- DEBUG_HALT (R386). -/
  | debugHalt (t : ThreadId)
  /-- DEBUG_RESUME (R386). -/
  | debugResume (t : ThreadId)
  /-- DEBUG_STEP (R386). -/
  | debugStep (t : ThreadId)
  /-- DBG_PORT_ACCESS (R507). -/
  | dbgPortAccess (off : BitVec 22) (write : Bool) (data : BitVec 64)
  /-- FAULT_EVENT (R394). -/
  | faultEvent (evs : List FaultEv)
  /-- REACTION_RELEASED (R401). -/
  | reactionReleased (k : Nat)
  /-- SHADOW_EXPIRY (R403). -/
  | shadowExpiry (k : Nat)
  /-- FAULT_WINDOW_EXPIRY (R395). -/
  | faultWindowExpiry (w : FaultWin)
  /-- PB_BANK_RETIRED (R396). -/
  | pbBankRetired (b : Fin 32)
  /-- FAULT_FORCE (R405). -/
  | faultForce (mask : BitVec 64)
  /-- PWR_REQ (R414). -/
  | pwrReq (target : Fin 4) (tag : Fin 16)
  /-- SIGNING_DONE (R427). -/
  | signingDone (sigs : List (BitVec 32))
  /-- WATCH_FRAME (R426). -/
  | watchFrame (bytes : List Byte) (err : Bool)
  /-- LINK_ACTIVITY (R421). -/
  | linkActivity (slot : PortId)
  /-- CONTROL_STATE_RESTORED (R423). -/
  | controlStateRestored (sigs : List (BitVec 32))
  /-- RETENTION_CHECK_DONE (R427). -/
  | retentionCheckDone (sigs : List (BitVec 32)) (ecc : List BankId)
  /-- BANK_RECOVERED (R428). -/
  | bankRecovered (b : BankId) (src : Recovery)
  /-- IMAGE_LOAD_DONE (R388). -/
  | imageLoadDone (img : ImageInfo)
  /-- SELF_TEST_DONE (R476). -/
  | selfTestDone (r : SelfTest)
  /-- RX_HEARTBEAT (R448). -/
  | rxHeartbeat (h : Heartbeat)
  /-- RX_HELLO (R437). -/
  | rxHello (h : Hello)
  /-- RX_JOURNAL (R442). -/
  | rxJournal (n : BitVec 32) (epoch : BitVec 32) (chg : List JChange)
  /-- RX_JOURNAL_ACK (R443). -/
  | rxJournalAck (n : BitVec 32)
  /-- RX_COPY (R437). -/
  | rxCopy (bank : BankId) (chg : List JChange) (last : Bool)
  /-- RX_COPY_ACK (R437). -/
  | rxCopyAck (bank : BankId)
  /-- RX_HANDOVER (R447). -/
  | rxHandover (epoch : BitVec 32)
  /-- LEASE_CAS_DONE (R439). -/
  | leaseCasDone (r : CasResult)
  /-- LEASE_POLL (R441). -/
  | leasePoll (word : BitVec 64)
  /-- TALLY_FREEZE (R461). -/
  | tallyFreeze (on : Bool)
  /-- TALLY_COUNTER_WRITE (R462). -/
  | tallyCounterWrite (k : Fin 256) (v : BitVec 48)
  /-- REGISTER_READ (R10). -/
  | registerRead (a : Csr)
  /-- DMA_READ_DATA (R491). -/
  | dmaReadData (m : Fin 4) (tag : Fin 1024) (bytes : List Byte)
  /-- CARRY_SLOT_OFFER (R363). -/
  | carrySlotOffer (write : Bool)
  /-- SCRUB (R544). -/
  | scrub (mem : ScrubMem) (res : ScrubResult)
  /-- STALLED_ACCESS_COMPLETE (R29). -/
  | stalledAccessComplete
  /-- SAMPLER_SAMPLE (R305). -/
  | samplerSample
  /-- FORCED_RETIREMENT (R236). -/
  | forcedRetirement
  /-- TIME_BASE_INCREMENT (R312). -/
  | timeBaseIncrement
  /-- HOLDOVER_INCREMENT (R321). -/
  | holdoverIncrement
  /-- PPS_EDGE (R326). -/
  | ppsEdge
  /-- CARRY_RESUME (R370). -/
  | carryResume
  /-- CARRY_AUTO_RESUME (R370). -/
  | carryAutoResume
  /-- LCP_WATCHDOG_EXPIRY (R378). -/
  | lcpWatchdogExpiry
  /-- DEADLOCK_DETECTED (R383). -/
  | deadlockDetected
  /-- FIRST_ERROR_RELEASE (R399). -/
  | firstErrorRelease
  /-- IRQ_STALL (R500). -/
  | irqStall
  /-- POWER_ENTRY_START (R417). -/
  | powerEntryStart
  /-- RING_DRAIN_DONE (R418). -/
  | ringDrainDone
  /-- RING_DRAIN_TIMEOUT (R419). -/
  | ringDrainTimeout
  /-- BUFFER_FLUSH_DONE (R418). -/
  | bufferFlushDone
  /-- POWER_SWITCH_DONE (R417). -/
  | powerSwitchDone
  /-- DOMAIN_SWITCH_TIMEOUT (R420). -/
  | domainSwitchTimeout
  /-- WAKE_TIMER (R421). -/
  | wakeTimer
  /-- WATCH_WINDOW_OPEN (R425). -/
  | watchWindowOpen
  /-- WATCH_WINDOW_CLOSE (R425). -/
  | watchWindowClose
  /-- PAIR_WAKE_SIGNAL (R421). -/
  | pairWakeSignal
  /-- PLL_LOCKED (R423). -/
  | pllLocked
  /-- WAKE_POWER_DONE (R423). -/
  | wakePowerDone
  /-- WAKE_START_DONE (R423). -/
  | wakeStartDone
  /-- BUDGET_CREDIT (R430). -/
  | budgetCredit
  /-- RESET_ASSERT (R484). -/
  | resetAssert
  /-- RESET_RELEASE (R473). -/
  | resetRelease
  /-- REF_CLK_LOSS (R484). -/
  | refClkLoss
  /-- PLL_LOCK_LOSS (R539). -/
  | pllLockLoss
  /-- MEMORY_INIT_DONE (R473). -/
  | memoryInitDone
  /-- START_READY (R473). -/
  | startReady
  /-- TRIAL_TIMEOUT (R473). -/
  | trialTimeout
  /-- RESET_DRAIN_DONE (R478). -/
  | resetDrainDone
  /-- HEARTBEAT_TIMER (R504). -/
  | heartbeatTimer
  /-- HEARTBEAT_LOSS (R449). -/
  | heartbeatLoss
  /-- HELLO_TIMER (R437). -/
  | helloTimer
  /-- PAIR_FORM_TIMEOUT (R437). -/
  | pairFormTimeout
  /-- JOURNAL_PERIOD (R442). -/
  | journalPeriod
  /-- JOURNAL_ACK_TIMEOUT (R443). -/
  | journalAckTimeout
  /-- RX_PAIR_WAKE_MSG (R503). -/
  | rxPairWakeMsg
  /-- LEASE_RENEW (R440). -/
  | leaseRenew
  /-- LEASE_FENCE (R440). -/
  | leaseFence
  /-- TALLY_SNAP (R461). -/
  | tallySnap
  /-- TALLY_CLEAR_ALL (R462). -/
  | tallyClearAll
  /-- SLOT_CLEAR (R466). -/
  | slotClear
  /-- TALLY_COUNT (R456). -/
  | tallyCount
  /-- BW_WINDOWS_ENABLE (R467). -/
  | bwWindowsEnable
  /-- BW_WINDOW_BOUNDARY (R467). -/
  | bwWindowBoundary
  /-- ENTRY_PREPARE_DONE (R417). -/
  | entryPrepareDone
  /-- LCP_RESTART_READY (R382). -/
  | lcpRestartReady
  deriving DecidableEq, Repr

end Sys2Proof
end

