-- ==== Sys2Proof/WellFormed.lean ====
section
/-! DEFINITION. WellFormed.lean: which commands are well formed: their lists have the lengths the spec's
messages have. -/
namespace Sys2Proof

/-- A module bus transaction moves 1 to 128 bytes, or a write none (R84, R523). -/
def ModBus.wf : ModBus → Bool
  | .done bytes => decide (bytes.length ≤ 128)
  | .failed _ => true

/-- The vendor bytes of R525 are 61. -/
def ModData.wf : ModData → Bool
  | .identity id => decide (id.vendor.length = 61)
  | .lowerPage _ | .status _ _ | .failed _ => true

/-- A time's nanoseconds and fraction are in range (R311). -/
def TimeVal.wf (t : TimeVal) : Bool := decide (t.ns < 1000000000 ∧ t.sub < 2 ^ 32)

/-- A heartbeat carries four times in range (R448). -/
def Heartbeat.wf (h : Heartbeat) : Bool := h.tb0.wf && h.tb1.wf && h.tb2.wf && h.tb3.wf

/-- A command is well formed. -/
def Instr.wf : Instr → Bool
  | .mbxReqWrite _ off size _ => decide (1 ≤ size ∧ size ≤ 8 ∧ off.val + size ≤ 256)
  | .moduleAccess _ bus => bus.wf
  | .rxFrame r | .rxLldpdu _ r => !r.bytes.isEmpty
  | .rxPfc _ _ times => decide (times.length = 8)
  | .txDescriptorsRead _ descs _ => decide (1 ≤ descs.length ∧ descs.length ≤ 32)
  | .rxPostEntriesRead _ ents => decide (1 ≤ ents.length ∧ ents.length ≤ 64)
  | .moduleBusTransactionDone _ d => d.wf
  | .faultEvent evs => !evs.isEmpty
  | .signingDone sigs => decide (sigs.length = 28)
  | .controlStateRestored sigs => decide (sigs.length = 2)
  | .retentionCheckDone sigs _ => decide (sigs.length = 28)
  | .rxHeartbeat h => h.wf
  | .rxHello h => decide (h.grouping.length = 16)
  | .carryValidateDone _ els => !els.isEmpty
  | .dmaReadData _ _ bytes => decide (bytes.length ≤ 512)
  | .txDoorbell _ _ _ | .rxDoorbell _ _ _ | .eqHeadUpdate _ _ _ | .eqArm _ _ _ | .quench _ _
  | .adminQuench _ _ | .fastTimeRead _ | .mbxGo _ | .registerWrite _ | .stalledAccessComplete
  | .commandTimeout _ | .progressReport _ _ _ | .funcConfig _ | .funcReset _ | .configGet _
  | .rejectLogGet _ | .commit _ | .engReset _ | .resetInfoGet _ | .portGroup _ _ | .portConfig _ _
  | .portStateGet _ | .portEventSubscribe _ | .moduleConfig _ | .moduleReset _ | .moduleInfoGet _
  | .lldpConfig _ | .lldpPartnerGet _ | .fcConfig _ _ | .kittyConfig _ | .thinStatusGet _
  | .trailerConfig _ | .trailerRingCreate _ | .trailerRingDestroy _ | .txqCreate _ _ | .rxqCreate _
  | .eqCreate _ | .queueModify _ | .queueStart _ | .queueStop _ | .queueStopped _ | .queueReset _
  | .queueDestroy _ _ | .queueQuery _ | .queueStats _ | .vectorMask _ | .xltFuncConfig _ | .xltConfig _
  | .offloadProfileSet _ | .steerPortConfig _ | .steerGenSet _ | .steerRuleBatch _ _ | .steerSwap _
  | .steerStatusGet _ | .steerConfig _ | .streamGroupSet _ | .spreadCreate _ | .spreadDestroy _
  | .spreadSet _ | .policerSet _ | .wakePatternSet _ | .policerStats _ | .steerStats _
  | .dealerNodeCreate _ | .dealerNodeDestroy _ | .dealerSet _ _ | .dealerQuery _ | .dealerSamplerConfig _
  | .deckSet _ | .deckClear _ | .deckStatusGet _ | .tsQueueRead _ | .powerSet _ | .powerStatusGet _
  | .faultInfoGet _ | .pairConfig _ | .pairForm _ | .pairLeave _ | .pairSwitchover _ | .pairResync _
  | .pairWake _ | .pairStatusGet _ | .statsRead _ | .statsPeek _ | .offloadStats _ | .xltStats _
  | .carryFuncConfig _ | .carryClaim _ | .carryRelease _ | .carrySubmit _ | .carryStatus _ | .carryAbort _
  | .carryStats _ | .fwInfoGet _ | .fwUpdate _ _ _ _ | .fwRestart _ | .fwDebugEnable _ | .rxPause _ _
  | .rxPropose _ _ | .rxAccept _ _ | .rxReject _ _ | .rxReady _ _ | .rxMark _ _ | .rcircReturn _
  | .rcircDiscardNotice _ _ | .spCreditReturn _ _ _ | .dealerDecision _ | .shaperRefill _ | .pacingRefill _
  | .samplerSample | .txFrameStart _ _ _ | .txFrameEnd _ | .txUnderrun _ | .trumpFrameStart _ | .txHold _ _
  | .txBatchTimeout _ | .rxCoalTimeout _ | .packTimeout _ | .eqModTime _ | .anchorTimer _
  | .pauseTimerExpiry _ _ | .fcRefresh _ _ | .pfcWatchdogExpiry _ _ | .drainRestore _ _
  | .ctThresholdLower _ | .lldpTxTimer _ | .partnerTtlExpiry _ | .linkUp _ | .linkFault _ _
  | .upDebounceExpiry _ | .trainTimeout _ | .presenceConfirmed _ _ | .moduleInterrupt _ _ _ _
  | .modulePoll _ _ _ | .moduleBusRetry _ | .mgmtInitTimeout _ | .moduleStateTimeout _ | .thinInterval _
  | .proposeRetry _ | .handshakeTimeout _ | .readyTimeout _ | .thinGapEnd _ | .warmLaneExpiry _ _
  | .miCtlAck _ _ | .miCtlTimeout _ | .translationResponse _ _ | .pageResponse _ _ | .invalidate _ _
  | .invalidationAck _ | .xltRequestTimeout _ | .faultTimeoutExpiry _ | .dmaWriteDone _ _
  | .dmaErrorResponse _ _ | .dmaCompletionTimeout _ _ | .forcedRetirement | .timeBaseIncrement
  | .holdoverIncrement | .tbSnap _ | .tbStep _ | .tbAdd _ | .slewGo _ | .slewStop _ | .ppoModeSet _ _
  | .pulseEdge _ | .captureEdge _ _ | .captureRead _ | .ppsEdge | .ppsRead _ | .tsqEntryExpiry _
  | .gateEntryChange _ | .deckCut _ | .deckClearPoint _ | .carryGo _ | .carryDisable _ | .carryResume
  | .carryAutoResume | .carryRequestComplete _ | .lcpWatchdogExpiry | .threadFault _ _ | .threadRestart _
  | .channelHoldExpiry _ | .channelWrite _ _ _ _ | .channelRead _ _ | .deadlockDetected | .debugHalt _
  | .debugResume _ | .debugStep _ | .dbgPortAccess _ _ _ | .reactionReleased _ | .shadowExpiry _
  | .faultWindowExpiry _ | .pbBankRetired _ | .faultForce _ | .firstErrorRelease | .irqStall | .pwrReq _ _
  | .powerEntryStart | .ringDrainDone | .ringDrainTimeout | .bufferFlushDone | .powerSwitchDone
  | .domainSwitchTimeout | .wakeTimer | .watchWindowOpen | .watchWindowClose | .watchFrame _ _
  | .linkActivity _ | .pairWakeSignal | .pllLocked | .wakePowerDone | .bankRecovered _ _ | .wakeStartDone
  | .budgetCredit | .resetAssert | .resetRelease | .refClkLoss | .pllLockLoss | .memoryInitDone
  | .imageLoadDone _ | .selfTestDone _ | .startReady | .trialTimeout | .resetDrainDone | .heartbeatTimer
  | .heartbeatLoss | .helloTimer | .pairFormTimeout | .journalPeriod | .rxJournal _ _ _ | .rxJournalAck _
  | .journalAckTimeout | .rxCopy _ _ _ | .rxCopyAck _ | .rxHandover _ | .rxPairWakeMsg | .leaseRenew
  | .leaseCasDone _ | .leaseFence | .leasePoll _ | .tallyFreeze _ | .tallySnap | .tallyClearAll
  | .slotClear | .tallyCounterWrite _ _ | .tallyCount | .bwWindowsEnable | .bwWindowBoundary
  | .registerRead _ | .carrySlotOffer _ | .scrub _ _ | .entryPrepareDone | .lcpRestartReady => true

end Sys2Proof
end

