-- ==== Sys2Proof/Decode.lean ====
section
/-! DEFINITION. Decode.lean: the commands of this block are spelled by no word: spec/opcode_table.json
gives none of its rows any bits. -/
namespace Sys2Proof

/-- The command a word spells by the table's bits: none, as no row of the table has bits. -/
def decodeTableWord (_nbits _w : Nat) : Option Instr := none

end Sys2Proof
end

