-- ==== Sys2Proof/Config.lean ====
section
/-! DEFINITION. Config.lean: what the spec leaves open, as constants with no body: nothing in Lean can
evaluate them, so a statement holds whatever they are. -/
namespace Sys2Proof.Config

/-- A value the spec leaves undefined or does not state. Each use applies it to the counter
`State.free`, which the step reads and advances, so that every use is a fresh value (log entry 1). -/
opaque freeValue : Nat → Nat

/-- The set of the translation cache, 0 to 1023, in which a page is kept: R197 gives 1,024 sets of 16
ways and states no set function (log entry 2). Arguments: function, PASID, page number, page size. -/
opaque xltSet : Nat → Nat → Nat → Nat → Nat

/-- Which free number of a pool an allocation takes: R154 and the other creation rules state none (log entry 24).
Arguments: the pool, and the numbers in use. -/
opaque poolPick : Nat → List Nat → Nat

/-- The Harien chip's fused serial number (R537). -/
opaque chipSerial : Nat

/-- The code PAIR_STATUS_GET gives for a pair state: R454 and R532 state none (log entry 27). Argument: the state's place
in `PairState`. -/
opaque pairStateCode : Nat → Nat

/-- Journal records that RB25 and RB26 can buffer: R437 states no record size (log entry 28). -/
opaque journalRoom : Nat

end Sys2Proof.Config
end

