-- ==== Sys2Proof/Machine/State.lean ====
section
/-! DEFINITION. State.lean: the state of one Cyulo engine as plain data, with its state after reset, and
the ways a step can stop. Each field's comment names its width, the rule that gives it and its reset value. -/
namespace Sys2Proof.Machine

/-- Reasons for a fault. None is raised: every command of the table has an effect the spec gives. -/
inductive Fault where
  /-- raised by no command (safe) -/
  | none
  deriving DecidableEq, Repr

/-- Reasons for a refusal. -/
inductive Refusal where
  /-- a command whose meaning is not modelled, raised by its arm of `exec` (safe) -/
  | notModelled (mnemonic : String)
  deriving DecidableEq, Repr

/-- A sparse table: keys strictly rising; an absent key reads as the table's default. -/
structure Tab (α : Type) where
  rows : List (Nat × α) := []
  deriving DecidableEq, Repr

/-! ### Rings, translation and bus (06_rings.md, 07_translation.md, 20_edge_signals.md) -/

/-- What an access is made for. -/
inductive Owner where
  /-- descriptor read of a transmit queue (R159) -/
  | txDesc (q : TxqId)
  /-- lookup of a frame's pages at descriptor read (R206) -/
  | txXlt (q : TxqId) (frame : Nat)
  /-- data read of a granted frame (R166) -/
  | txData (q : TxqId) (frame : Nat)
  /-- transmit completion record (R167) -/
  | txCompl (q : TxqId)
  /-- post entry read (R173) -/
  | rxPost (q : RxqId)
  /-- lookup of a posted buffer's page as its entry is read (R202) -/
  | rxXlt (q : RxqId)
  /-- data write of a received frame (R174) -/
  | rxData (q : RxqId) (frame : Nat)
  /-- receive completion record (R177) -/
  | rxCompl (q : RxqId)
  /-- event entry (R182) -/
  | event (e : EqId)
  /-- indirect request buffer (R45) -/
  | mbxReq (f : Fn)
  /-- indirect response buffer (R45) -/
  | mbxRsp (f : Fn)
  /-- a Carry list element read (R361) -/
  | carryList (c : ChId)
  /-- a Carry data read (R362) -/
  | carryRead (c : ChId)
  /-- a Carry data write (R362) -/
  | carryWrite (c : ChId)
  /-- a Carry completion record (R364) -/
  | carryRecord (c : ChId)
  /-- a Dealer sample record (R306) -/
  | sample
  /-- a telemetry trailer report (R281) -/
  | trailer (r : Fin 16)
  /-- a bandwidth record (R468) -/
  | bandwidth
  /-- the lease word (R439) -/
  | lease
  deriving DecidableEq, Repr

/-- Kinds of access (R491). -/
inductive AccKind where
  | read | write | cas
  deriving DecidableEq, Repr

/-- One request of ring DMA or Carry: 64-byte lines within one 4 KiB page (R492). -/
structure Acc where
  owner : Owner
  fn : Fn
  pasid : Nat
  /-- address of the first byte wanted -/
  addr : Nat
  /-- bytes wanted -/
  len : Nat
  kind : AccKind
  /-- bytes written, in address order -/
  data : List Byte := []
  /-- the operation the access is part of: the model's own number -/
  grp : Nat := 0
  /-- position of the first byte within that operation -/
  pos : Nat := 0
  /-- physical address, where translated -/
  pa : Option Nat := none
  deriving DecidableEq, Repr

/-- A request outstanding on a DMA master port (R492). -/
structure Outst where
  port : Fin 4
  tag : Fin 1024
  acc : Acc
  /-- time of its transfer in CLK_TS edges (R492) -/
  since : Nat
  deriving DecidableEq, Repr

/-- Bytes a read operation has brought so far. -/
structure ReadBuf where
  grp : Nat
  owner : Owner
  parts : List (Nat × List Byte) := []
  deriving DecidableEq, Repr

/-- A cached translation (R197). -/
structure XEnt where
  fn : Fn
  pasid : Nat
  /-- virtual page number in 4 KiB pages, aligned to the page's size -/
  vpn : Nat
  size : Fin 3
  /-- physical page number in 4 KiB pages -/
  ppn : Nat
  rd : Bool
  wr : Bool
  deriving DecidableEq, Repr

/-- A TRANSLATE message outstanding (R198, R495). -/
structure XReq where
  tag : Fin 512
  fn : Fn
  pasid : Nat
  vpn : Nat
  write : Bool
  carry : Bool
  since : Nat
  deriving DecidableEq, Repr

/-- How a blocked access stands (R198, R203). -/
inductive BlockSt where
  /-- waiting for a free translation place (R198) -/
  | place
  /-- waiting for a translation response -/
  | waiting
  /-- not present: waiting for the page response of its object's group -/
  | missing
  deriving DecidableEq, Repr

/-- An access that waits for its translation. -/
structure Blocked where
  acc : Acc
  st : BlockSt
  deriving DecidableEq, Repr

/-- A page request group outstanding (R204, R495). -/
structure PageGrp where
  group : Fin 512
  /-- the object that waits, none once the request is abandoned (R218) -/
  obj : Option FObj
  deriving DecidableEq, Repr

/-- A fault wait of an object (R204, R211). -/
structure FWait where
  obj : FObj
  va : Nat
  pasid : Nat
  /-- 1 READ or 2 WRITE, 3 DESC, 4 COMPL: access type of the blocked access (R397) -/
  access : Nat
  /-- the transmit frame whose accesses the wait covers (R204, R206) -/
  frame : Option Nat := none
  /-- TB0 linear ns when the episode began (R219) -/
  began : Nat
  /-- CLK_TS edges waited before the running part of the wait -/
  used : Nat := 0
  /-- start of the running part, none while the timer is stopped (R211) -/
  run : Option Nat := none
  deriving DecidableEq, Repr

/-- An invalidation waiting for the requests that used its translations (R201). -/
structure Inval where
  tag : Fin 32
  /-- port and tag of each request it waits for -/
  waits : List (Nat × Nat)
  deriving DecidableEq, Repr

/-- Engine-wide translation counters (R219). -/
structure XltCnt where
  lookups : Nat := 0
  misses : Nat := 0
  faults : Nat := 0
  pageReqs : Nat := 0
  failures : Nat := 0
  invals : Nat := 0
  txStomps : Nat := 0
  parked : Nat := 0
  /-- high-water mark of parked bytes -/
  parkHigh : Nat := 0
  deriving DecidableEq, Repr

/-- Translation cache, fault waits and the DMA master ports. -/
structure DmaSt where
  /-- 16,384 entries; 07_translation.md R197; reset empty (R24). Most recently used first -/
  cache : List XEnt := []
  /-- at most 512; R198, R496; reset none -/
  xreqs : List XReq := []
  /-- accesses waiting for a translation; R198; reset none -/
  blocked : List Blocked := []
  /-- page request groups outstanding, at most 512; R496; reset none -/
  groups : List PageGrp := []
  /-- fault waits, one per object; R204; reset none -/
  waits : List FWait := []
  /-- invalidations not yet acknowledged, at most 32; R201, R496; reset none -/
  invals : List Inval := []
  /-- requests outstanding on DMA_M0 to DMA_M3, at most 1,024 each; R492; reset none -/
  outst : List Outst := []
  /-- requests waiting for a free tag; R492; reset none -/
  queue : List Acc := []
  /-- data of read operations in progress; R491; reset none -/
  bufs : List ReadBuf := []
  /-- next operation number: the model's own -/
  nextGrp : Nat := 1
  /-- PARK_SIZE in bytes; R205; reset 2 MiB -/
  parkSize : Nat := 2097152
  /-- PARK_RING_LIMIT in bytes; R205; reset 64 KiB -/
  parkRing : Nat := 65536
  /-- FAULT_TIMEOUT in ms; R205; reset 10 -/
  faultTimeout : Nat := 10
  /-- translation counters, 64 bits each; R219; reset 0 -/
  cnt : XltCnt := {}
  deriving DecidableEq, Repr

/-- Queue states (R187). -/
inductive QState where
  | stopped | running | paused | error | stopping
  deriving DecidableEq, Repr

/-- Stop modes (R188). -/
inductive StopMode where
  | drain | flush
  deriving DecidableEq, Repr

/-! ### Functions and mailboxes (02_control.md, 06_rings.md) -/

/-- Stages of a mailbox command in flight. -/
inductive CmdSt where
  /-- its indirect request buffer is being read (R45) -/
  | fetching
  /-- its parameters are in, firmware has not carried it out -/
  | ready
  /-- carried out as far as it goes; the final response waits for the event its rule names -/
  | working
  /-- its result is being written to the indirect response buffer (R45) -/
  | responding
  deriving DecidableEq, Repr

/-- What is added back when a read-and-clear command ends with FAULTED (R518): the counts copied, in the
order of its response. -/
structure Undo where
  opcode : Nat
  object : Nat
  counts : List Nat
  deriving DecidableEq, Repr

/-- A mailbox command in flight (R43, R49). -/
structure Cmd where
  opcode : Nat
  tag : Nat
  indReq : Bool
  indRsp : Bool
  reqLen : Nat
  rspMax : Nat
  reqAddr : Nat
  rspAddr : Nat
  /-- the parameters as one little-endian number, `reqLen` bytes -/
  params : Nat
  st : CmdSt
  /-- time of GO in CLK_TS edges (R50) -/
  start : Nat
  /-- the response held until the indirect buffer is written: STATUS, DETAIL, length -/
  held : Option (Nat × Nat × Nat) := none
  undo : Option Undo := none
  /-- steps of a LONG command's work done (R536) -/
  work : Nat := 0
  /-- thread the command runs on (R376) -/
  thread : Option ThreadId := none
  /-- of a QUEUE_STOP, the accepted producer index of each transmit queue of the function at its admission (R188) -/
  prods : List (TxqId × BitVec 16) := []
  deriving DecidableEq, Repr

/-- A function's configuration (R153) and registers (R32 to R46). -/
structure FnState where
  /-- 1 bit; R153; reset OFF, ON for F0 -/
  enabled : Bool := false
  /-- 0 to 4,096; R153; reset 0, 4,096 for F0 -/
  txqQuota : Nat := 0
  /-- 0 to 4,096; R153; reset 0, 4,096 for F0 -/
  rxqQuota : Nat := 0
  /-- 0 to 512; R153; reset 0, 512 for F0 -/
  eqQuota : Nat := 0
  /-- 0 to 4,095; R153; reset 0 -/
  vecBase : Nat := 0
  /-- 0 to 4,096; R153; reset 0, 64 for F0 -/
  vecCount : Nat := 0
  /-- NONE or TB0 to TB3; R153; reset NONE, TB0 for F0 -/
  timeBase : Option TbId := none
  /-- 16 bits; R153; reset 0, 0xFFFF for F0 -/
  portMask : BitVec 16 := 0
  /-- XLT_MODE TRANSLATED; 07_translation.md R196; reset TRANSLATED -/
  translated : Bool := true
  /-- CH_QUOTA, 0 to 56; 13_carry.md R359; reset 0, 56 for F0 -/
  chQuota : Nat := 0
  /-- QCH_QUENCH.QUENCH, 1 bit; R37; reset 0 -/
  quench : Bool := false
  /-- QCH_ADMIN[f].QUENCH, 1 bit; R42; reset 0 -/
  admin : Bool := false
  /-- TSU_FT_HI, 64 bits; R39; reset 0 -/
  ftHi : BitVec 64 := 0
  /-- MBX_REQ, 256 bytes, byte 0 lowest; R43; reset 0 -/
  req : BitVec 2048 := 0
  /-- MBX_RSP, 256 bytes; R44; reset 0 -/
  rsp : BitVec 2048 := 0
  /-- MBX_STATUS.DONE, 1 bit; R46; reset 0 -/
  done : Bool := false
  /-- MBX_STATUS.PROGRESS, 1 bit; R46; reset 0 -/
  progress : Bool := false
  /-- MBX_STATUS.OVERRUN, 1 bit; R46; reset 0 -/
  overrun : Bool := false
  /-- MBX_STATUS.FW_RESTART, 1 bit; R46; reset 0 -/
  fwRestart : Bool := false
  /-- MBX_STATUS.CLASS, 2 bits; R46; reset 0 -/
  cls : BitVec 2 := 0
  /-- MBX_STATUS.LAST_TAG, 16 bits; R46; reset 0 -/
  lastTag : BitVec 16 := 0
  /-- MBX_IRQ.VECTOR, 12 bits; R46; reset 0 -/
  irqVec : BitVec 12 := 0
  /-- MBX_IRQ.DONE_EN, 1 bit; R46; reset 0 -/
  irqDone : Bool := false
  /-- MBX_IRQ.PROGRESS_EN, 1 bit; R46; reset 0 -/
  irqProgress : Bool := false
  /-- MBX_IRQ.RESTART_EN, 1 bit; R46; reset 0 -/
  irqRestart : Bool := false
  /-- the command in flight, BUSY while there is one; R46, R49; reset none -/
  cmd : Option Cmd := none
  /-- FUNC_RESET of this function in progress and whether it found the quench already set by F0; R194 -/
  resetting : Option Bool := none
  /-- lost objects by CONTEXT_LOST code 0 to 7; 16_power.md R433; reset 0 -/
  lost : List Nat := [0, 0, 0, 0, 0, 0, 0, 0]
  deriving DecidableEq, Repr

/-- Function `f` after reset (R153). -/
def FnState.reset (f : Nat) : FnState :=
  if f = 0 then
    { enabled := true, txqQuota := 4096, rxqQuota := 4096, eqQuota := 512, vecCount := 64,
      timeBase := some 0, portMask := 0xFFFF, chQuota := 56 }
  else {}

/-- An entry of the configuration reject log (R60, R521). -/
structure RejectEntry where
  time : Nat
  fn : Fn
  what : Nat
  isReg : Bool
  field : Nat
  status : Nat
  deriving DecidableEq, Repr

/-- An interrupt vector's bits (R186). -/
structure VecState where
  /-- MASK, 1 bit; R186; reset 1 DEDUCED (log entry 67): bring-up clears it and FUNC_RESET sets it -/
  mask : Bool := true
  /-- PENDING, 1 bit; R186; reset 0 -/
  pending : Bool := false
  deriving DecidableEq, Repr

/-- Engine-wide control state. -/
structure CtlSt where
  /-- ENG_STATUS.READY, 1 bit; 02_control.md R41; reset 0 -/
  ready : Bool := false
  /-- ENG_STATUS.FW_RESTARTING, 1 bit; R41; reset 0 -/
  restarting : Bool := false
  /-- functions whose command is in flight, oldest first, at most 64; R49; reset none -/
  inflight : List Fn := []
  /-- 64 entries, newest first; R60; reset empty -/
  rejects : List RejectEntry := []
  /-- register accesses stalled on a gated domain, oldest first; R29; reset none -/
  stalled : List (Bool × Csr) := []
  deriving DecidableEq, Repr

/-! ### Faults (15_faults.md) -/

/-- Reactions (R400). -/
inductive Reaction where
  | none | interrupt | portDown | quiesce | engineReset | failover
  deriving DecidableEq, Repr

/-- FLT_SRC_CFG and FLT_SRC_WIN of a source (R409). -/
structure SrcCfg where
  /-- SEV_FAIL, 3 bits; R409; reset R392 -/
  sevFail : Nat
  /-- REACT0 to REACT4, 3 bits each; R409; reset R400 -/
  react : List Reaction
  /-- WIN_EN, 1 bit; R409; reset 1 for sources 0 to 3, else 0 -/
  winEn : Bool
  /-- WIN_N, 16 bits; R409; reset 64 for sources 0 to 3, else 16 -/
  winN : Nat
  /-- WIN_W, 26 bits, in µs; R409; reset 1,000,000 -/
  winW : Nat
  deriving DecidableEq, Repr

/-- An open window (R395). -/
structure Window where
  opened : Nat
  count : Nat
  /-- WIN_N and WIN_W in force when it opened (R410) -/
  n : Nat
  w : Nat
  deriving DecidableEq, Repr

/-- FLT_SRC_STAT of a source (R409). -/
structure SrcStat where
  /-- COUNT, 32 bits; R409; reset 0 -/
  count : Nat := 0
  /-- HIGH_SEV, 3 bits; R409; reset 0 -/
  highSev : Nat := 0
  /-- the source's own window, its count WIN_COUNT, 16 bits; R409; reset none open -/
  win : Option Window := none
  deriving DecidableEq, Repr

/-- The first-error capture (R397, R408). -/
structure Capture where
  valid : Bool := false
  src : Nat := 0
  sev : Nat := 0
  cls : Nat := 0
  lasting : Bool := false
  forced : Bool := false
  reaction : Nat := 0
  addr : Nat := 0
  master : Nat := 0
  access : Nat := 0
  detail : Nat := 0
  ns : Nat := 0
  sec : Nat := 0
  deriving DecidableEq, Repr

/-- An entry of the consequential log (R404, R410). -/
structure ConseqEntry where
  src : Nat := 0
  cls : Nat := 0
  master : Nat := 0
  access : Nat := 0
  reaction : Nat := 0
  bySrc : Nat := 0
  detail : Nat := 0
  time : Nat := 0
  deriving DecidableEq, Repr

/-- What a reaction acts on (R401). -/
inductive Target where
  | engine
  | port (p : PortId)
  | fn (f : Fn)
  deriving DecidableEq, Repr

/-- An open reaction shadow (R403). -/
structure Shadow where
  reaction : Reaction
  src : Nat
  target : Target
  /-- time of its release, none while the reaction is in progress -/
  released : Option Nat := none
  deriving DecidableEq, Repr

/-- The fault collector. -/
structure FltSt where
  /-- FLT_CTRL.VECTOR, 12 bits; 15_faults.md R408; reset 0 -/
  vector : Nat := 0
  /-- FLT_CTRL.IRQ_EN, 1 bit; R408; reset 0 -/
  irqEn : Bool := false
  /-- FLT_CTRL.FACTORY, 1 bit, an input; R408; PRESUMED 0 (log entry 4) -/
  factory : Bool := false
  /-- FLT_STATUS.SRC, 50 bits; R408; reset 0 -/
  status : BitVec 50 := 0
  /-- FLT_MULTI.MULTI, 1 bit; R408; reset 0 -/
  multi : Bool := false
  /-- FLT_LASTING.SRC, 50 bits; R408; reset 0 -/
  lasting : BitVec 50 := 0
  /-- FLT_FORCE_CLASS.CLASS, 2 bits; R408; reset 2 -/
  forceClass : Nat := 2
  /-- FLT_PB_RETIRED.BANKS, 32 bits; R408; reset 0 -/
  pbRetired : BitVec 32 := 0
  /-- banks being retired, 32 bits; R396; reset 0 -/
  retiring : BitVec 32 := 0
  /-- FLT_CONSEQ_STATUS.SRC, 50 bits; R408; reset 0 -/
  conseqStatus : BitVec 50 := 0
  /-- FLT_CONSEQ_COUNT, 64 bits; R408; reset 0 -/
  conseqCount : Nat := 0
  /-- FLT_CONSEQ_PTR.NEXT, 6 bits; R408; reset 0 -/
  conseqPtr : Fin 64 := 0
  /-- the consequential log, 64 entries; R404, R410; reset 0 -/
  log : Tab ConseqEntry := {}
  /-- the first-error capture; R408; reset 0 -/
  first : Capture := {}
  /-- FLT_SRC_CFG[n] and FLT_SRC_WIN[n]; R409; reset as R409 -/
  cfg : Tab SrcCfg := {}
  /-- FLT_SRC_STAT[n]; R409; reset 0 -/
  stat : Tab SrcStat := {}
  /-- FLT_PB_WIN: each bank's open window; R396, R408; reset none open -/
  bankWin : Tab (Option Window) := {}
  /-- open reaction shadows, oldest first; R403; reset none -/
  shadows : List Shadow := []
  /-- events of sources 39, 40 and 41 held while PD_CTL is gated, with their TB0 time; R407; reset none -/
  held : List (FaultEv × Nat × Nat) := []
  /-- events driven and not yet graded; R393; reset none -/
  raised : List FaultEv := []
  deriving DecidableEq, Repr

/-! ### Transmit queues (06_rings.md, 09_offloads.md, 12_deck_launch.md) -/

/-- LATE_POLICY (R346). -/
inductive LatePolicy where
  | drop | send
  deriving DecidableEq, Repr

/-- Which functions an ATTACH or GRANT field names (R256, R285). -/
inductive Scope where
  | none | all
  | fn (f : Fn)
  deriving DecidableEq, Repr

/-- An offload profile (R256). -/
structure OffProfile where
  /-- GRANT; 09_offloads.md R256; reset NONE, ALL for profile 0 -/
  grant : Scope := .none
  /-- L3_CSUM, 1 bit; R256; reset OFF -/
  l3 : Bool := false
  /-- L4_CSUM, 1 bit; R256; reset OFF -/
  l4 : Bool := false
  /-- IN_L3_CSUM, 1 bit; R256; reset OFF -/
  inL3 : Bool := false
  /-- IN_L4_CSUM, 1 bit; R256; reset OFF -/
  inL4 : Bool := false
  /-- LSO, 1 bit; R256; reset OFF -/
  lso : Bool := false
  /-- LSO_OUTER_ID INCREMENT; R256; reset INCREMENT -/
  outerIdInc : Bool := true
  /-- TS_FORMAT TS80; R256; reset TS80 -/
  ts80 : Bool := true
  deriving DecidableEq, Repr

/-- Third-layer kinds (R222). -/
inductive L3 where
  | other | ipv4 | ipv6
  deriving DecidableEq, Repr

/-- Fourth-layer kinds (R222). -/
inductive L4 where
  | other | tcp | udp | gre
  deriving DecidableEq, Repr

/-- One layer a header walk found: offsets of its headers in the frame (R222, R259). -/
structure Layer where
  l3 : L3 := .other
  /-- offset of the IP header -/
  l3off : Nat := 0
  l4 : L4 := .other
  /-- offset of the TCP or UDP header -/
  l4off : Nat := 0
  /-- the IP header's upper-layer bytes run from here to `l3end` -/
  l3end : Nat := 0
  frag : Bool := false
  deriving DecidableEq, Repr

/-- Contradictions of a parse, in the order of R225's codes. -/
inductive Malformed where
  | ipVersion | ipv4Ihl | ipv4Len | ipv6Len | udpLen | tcpOffset | truncated
  deriving DecidableEq, Repr

/-- What a header walk found (R222 to R226). -/
structure Walk where
  /-- VLAN tags, outer first: 16-bit TCI -/
  tags : List Nat := []
  /-- Ethertype after the tags -/
  etype : Nat := 0
  outer : Layer := {}
  /-- the inner layer, where a tunnel header was followed -/
  inner : Option Layer := none
  /-- offset of the inner Ethernet header, where the tunnel carries one -/
  innerEth : Option Nat := none
  /-- tunnel header followed: its type (1 VXLAN, 2 GENEVE, 3 GRE, 4 IP-in-IP) and its first byte -/
  tunnel : Option (Nat × Nat) := none
  depth : Bool := false
  frag : Bool := false
  malformed : Option Malformed := none
  deriving DecidableEq, Repr

/-- A meta descriptor's contents (R163). -/
structure TxMeta where
  launch : Nat
  tsId : Nat
  insOff : Nat
  deriving DecidableEq, Repr

/-- A frame's completion (R167, R168). -/
structure TxDone where
  status : Nat
  detail : Nat := 0
  tsLost : Bool := false
  lateSent : Bool := false
  deriving DecidableEq, Repr

/-- Where an uncompleted frame of a transmit queue stands. -/
inductive TxSt where
  /-- its pages are being looked up (R206) -/
  | lookup
  /-- offered to the Dealer, or partly taken in pieces (R293) -/
  | offered
  /-- granted: in a start list or on the wire -/
  | granted
  /-- complete, waiting for its record (R171) -/
  | done (r : TxDone)
  deriving DecidableEq, Repr

/-- A frame whose descriptors have been read and that has no record yet. -/
structure TxFrame where
  id : Nat
  /-- index of its first descriptor -/
  first : Nat
  ndesc : Nat
  /-- address and length of each buffer -/
  bufs : List (Nat × Nat)
  supplied : Nat
  info : Option TxMeta := none
  tsReq : Bool := false
  tsIns : Bool := false
  trailer : Bool := false
  profIdx : Nat := 0
  prof : OffProfile := {}
  mss : Nat := 0
  walk : Walk := {}
  /-- the first bytes of the frame, where its descriptor read walked its headers (R259) -/
  hdr : List Byte := []
  /-- header length of a large send that is segmented (R267) -/
  lso : Option Nat := none
  /-- time at which the doorbell covering its last descriptor was accepted, in CLK_TS edges (R276) -/
  bell : Nat := 0
  st : TxSt := .lookup
  /-- pieces taken of the head frame (R293) -/
  pieces : Nat := 0
  /-- segments granted before and so already charged: a retry is charged no more (R304) -/
  chargedTo : Nat := 0
  /-- a retry starts only when whole (R107) -/
  retry : Bool := false
  /-- next segment of a large send to be granted, and segments sent whole (R269) -/
  segNext : Nat := 0
  segSent : Nat := 0
  /-- lateness in ns with which its first segment, or the frame, was last committed under SEND_LATE (R352) -/
  late : Option Nat := none
  /-- it has been tested as the head of its queue (R352) -/
  headSeen : Bool := false
  /-- a large send that ends early: status and DETAIL, while granted segments are still to leave (R270) -/
  ending : Option (Nat × Nat) := none
  deriving DecidableEq, Repr

/-- An open batch of transmit completions (R170). -/
structure Batch where
  count : Nat
  /-- index after its last descriptor -/
  last : Nat
  since : Nat
  deriving DecidableEq, Repr

/-- A transmit queue with its completion ring (R161). -/
structure Txq where
  /-- owning function; 06_rings.md R152 -/
  fn : Fn
  /-- local number, 12 bits; R152 -/
  loc : Nat
  /-- SIZE; R161 -/
  size : Nat := 64
  /-- BASE, 64 bits; R161 -/
  base : Nat := 0
  /-- CQ_BASE, 64 bits; R161 -/
  cqBase : Nat := 0
  /-- PASID, 20 bits; R161 -/
  pasid : Nat := 0
  /-- PORT; R161 -/
  port : PortId := 0
  /-- TC; R161; reset 0 -/
  tc : Tc := 0
  /-- FCS_PASS, 1 bit; R161; reset 0 -/
  fcsPass : Bool := false
  /-- EQ, local; R161 -/
  eq : Nat := 0
  /-- COAL_FRAMES; R161; reset 64 -/
  coalFrames : Nat := 64
  /-- COAL_TIME in µs; R161; reset 8 -/
  coalTime : Nat := 8
  /-- LAUNCH_EN, 1 bit; 12_deck_launch.md R346; reset OFF -/
  launchEn : Bool := false
  /-- LATE_POLICY; R346; reset DROP_LATE -/
  late : LatePolicy := .drop
  /-- LATE_TOL in ns; R346; reset 0 -/
  lateTol : Nat := 0
  /-- state; R187; STOPPED at creation -/
  state : QState := .stopped
  /-- cause code; R191; 0 at creation -/
  cause : Nat := 0
  /-- accepted producer index, 16 bits; R158; 0 at creation -/
  prod : BitVec 16 := 0
  /-- consumer index, 16 bits; R157; 0 at creation -/
  cons : BitVec 16 := 0
  /-- next descriptor to fetch, 16 bits; R159; 0 at creation -/
  fetched : BitVec 16 := 0
  /-- descriptors of the read in progress; R159; 0 at creation -/
  fetching : Nat := 0
  /-- operation number of that read -/
  fetchGrp : Nat := 0
  /-- descriptors read whose frame is not complete yet, oldest first, each with the offload profile it names as that stood
  when it was read; R159, 09_offloads.md R256 -/
  partials : List (BitVec 128 × OffProfile) := []
  /-- doorbells accepted and not yet passed: index and time; R276 -/
  bells : List (BitVec 16 × Nat) := []
  /-- index at which a DRAIN stop ends; R188 -/
  stopAt : BitVec 16 := 0
  /-- mode of the stop in progress; R188 -/
  stopMode : StopMode := .drain
  /-- frames in descriptor order; R171 -/
  frames : List TxFrame := []
  /-- next frame number: the model's own -/
  nextFrame : Nat := 0
  /-- open batch; R170 -/
  batch : Option Batch := none
  /-- entries written or due in the completion ring since creation; R160 -/
  cqCount : Nat := 0
  /-- records held by a fault of the completion ring; R209 -/
  held : List (List Byte) := []
  /-- the ring has entries no event covers; R183 -/
  uncovered : Bool := false
  /-- tx_frames, 64 bits; R192; 0 at creation -/
  txFrames : Nat := 0
  /-- tx_octets, 64 bits; R192; 0 at creation -/
  txOctets : Nat := 0
  /-- tx_error_frames, 64 bits; R192; 0 at creation -/
  txErrors : Nat := 0
  /-- doorbell_rejects, 64 bits; R192; 0 at creation -/
  rejects : Nat := 0
  deriving DecidableEq, Repr

/-! ### Receive rings (06_rings.md) -/

/-- The area of the packet buffer a received frame is charged to (R123, R213). -/
inductive Area where
  | shared | kitty | parking
  /-- the recirculation allowance, for a returned frame (R242) -/
  | recirc
  deriving DecidableEq, Repr

/-- A received frame steered to a ring, with what its completion says (R177). -/
structure RxRec where
  id : Nat
  port : PortId
  tc : Tc
  /-- the delivered bytes -/
  bytes : List Byte
  /-- lines charged, and the area they are charged to -/
  lines : Nat
  area : Area
  /-- class the charge belongs to -/
  chargeTc : Tc
  fcsErr : Bool := false
  trailer : Bool := false
  depth : Bool := false
  frag : Bool := false
  malformed : Bool := false
  genStale : Bool := false
  l3c : Nat := 0
  l4c : Nat := 0
  inL3c : Nat := 0
  inL4c : Nat := 0
  l3t : Nat := 0
  l4t : Nat := 0
  tunnel : Bool := false
  rule : Option Nat := none
  hash : Nat := 0
  /-- arrival time in the function's time base: seconds, nanoseconds -/
  ts : Option (Nat × Nat) := none
  deriving DecidableEq, Repr

/-- A posted buffer the engine has read (R173). -/
structure PostBuf where
  idx : BitVec 16
  addr : Nat
  size : Nat
  deriving DecidableEq, Repr

/-- The open buffer of a ring (R174). -/
structure OpenBuf where
  buf : PostBuf
  fill : Nat
  started : Nat
  /-- time of its last frame (R175) -/
  last : Nat
  deriving DecidableEq, Repr

/-- A frame placed in buffers, whose data writes or completion are not over. -/
structure RxPlaced where
  fr : RxRec
  grp : Nat
  /-- buffers it occupies: the first is index `post` at `off` -/
  post : BitVec 16
  off : Nat
  span : Nat
  closed : Bool
  /-- every data write has its WRITE_DONE -/
  dataDone : Bool := false
  /-- the ring's buffers as they stood before it was placed: the open buffer and the buffers taken -/
  wasOpen : Option OpenBuf := none
  took : List PostBuf := []
  /-- a CLOSE record naming this buffer follows its completion (R175) -/
  closeAfter : Option (BitVec 16) := none
  deriving DecidableEq, Repr

/-- A receive ring with its completion ring (R172). -/
structure Rxq where
  /-- owning function; 06_rings.md R152 -/
  fn : Fn
  /-- local number, 12 bits; R152 -/
  loc : Nat
  /-- SIZE; R172 -/
  size : Nat := 64
  /-- BASE; R172 -/
  base : Nat := 0
  /-- CQ_SIZE; R172 -/
  cqSize : Nat := 64
  /-- CQ_BASE; R172 -/
  cqBase : Nat := 0
  /-- CQE_SIZE in bytes; R172; reset 16 -/
  cqe : Nat := 16
  /-- PASID, 20 bits; R172 -/
  pasid : Nat := 0
  /-- PACKED, 1 bit; R172; reset OFF -/
  packed : Bool := false
  /-- PACK_MAX; R172; reset 1 -/
  packMax : Nat := 1
  /-- PACK_ALIGN in bytes; R172; reset 64 -/
  packAlign : Nat := 64
  /-- PACK_TIMEOUT in µs; R172; reset 20 -/
  packTimeout : Nat := 20
  /-- RX_TS, 1 bit; R172; reset OFF -/
  rxTs : Bool := false
  /-- EQ, local; R172 -/
  eq : Nat := 0
  /-- COAL_FRAMES; R172; reset 32 -/
  coalFrames : Nat := 32
  /-- COAL_TIME in µs; R172; reset 4 -/
  coalTime : Nat := 4
  /-- state, `paused` standing for FAULTED; R187; STOPPED at creation -/
  state : QState := .stopped
  /-- cause code; R191; 0 at creation -/
  cause : Nat := 0
  /-- accepted producer index, 16 bits; R158; 0 at creation -/
  prod : BitVec 16 := 0
  /-- consumer index, 16 bits; R157; 0 at creation -/
  cons : BitVec 16 := 0
  /-- next post entry to read, 16 bits; R159; 0 at creation -/
  fetched : BitVec 16 := 0
  /-- entries of the read in progress; R159; 0 at creation -/
  fetching : Nat := 0
  /-- operation number of that read -/
  fetchGrp : Nat := 0
  /-- index acted on: the producer index accepted when the ring last was in RUNNING, 16 bits; R158; 0 at creation -/
  acted : BitVec 16 := 0
  /-- posted buffers read and not used; R174 -/
  posted : List PostBuf := []
  /-- the open buffer; R174 -/
  cur : Option OpenBuf := none
  /-- frames placed and not completed, in placement order; R176 -/
  placed : List RxPlaced := []
  /-- frames steered to it and not placed, behind one whose writes wait for a translation; R214, R244 -/
  waiting : List RxRec := []
  /-- frames parked, in steering order; R212 -/
  parked : List RxRec := []
  /-- completion entries held by a fault of the completion ring; R212 -/
  held : List (List Byte) := []
  /-- entries written or due in the completion ring since creation; R160 -/
  cqCount : Nat := 0
  /-- frame completions no event covers; R183 -/
  uncovered : Nat := 0
  /-- time the oldest uncovered entry was written; R183 -/
  uncovSince : Option Nat := none
  /-- a CLOSE or STOP record is uncovered; R183 -/
  uncovClose : Bool := false
  /-- time of the last ANCHOR since the ring was started or reset; R178 -/
  anchorAt : Option Nat := none
  /-- an ANCHOR is due before the next frame completion; R178 -/
  anchorDue : Bool := true
  /-- the last entry written is an ANCHOR; R178 -/
  anchorLast : Bool := false
  /-- mode of the stop in progress; R188 -/
  stopMode : StopMode := .drain
  /-- rx_frames, 64 bits; R192; 0 at creation -/
  rxFrames : Nat := 0
  /-- rx_octets, 64 bits; R192; 0 at creation -/
  rxOctets : Nat := 0
  /-- rx_no_buffer_drops, 64 bits; R192; 0 at creation -/
  noBuffer : Nat := 0
  /-- rx_stopped_drops, 64 bits; R192; 0 at creation -/
  stoppedDrops : Nat := 0
  /-- rx_quench_drops, 64 bits; R192; 0 at creation -/
  quenchDrops : Nat := 0
  /-- rx_fault_drops, 64 bits; R192; 0 at creation -/
  faultDrops : Nat := 0
  /-- doorbell_rejects, 64 bits; R192; 0 at creation -/
  rejects : Nat := 0
  deriving DecidableEq, Repr

/-! ### Event queues (06_rings.md) -/

/-- A ring that a completion event covers (R183). -/
inductive RingId where
  | tx (q : TxqId)
  | rx (q : RxqId)
  deriving DecidableEq, Repr

/-- An event between HEAD and the tail (R185). -/
structure EvSt where
  pos : BitVec 16
  /-- the ring whose completions it announces -/
  ring : Option RingId
  /-- its entry is visible: its write has its WRITE_DONE (R180) -/
  seen : Bool := false
  /-- time it became visible -/
  at_ : Nat := 0
  grp : Nat := 0
  /-- TSU_PPS, capture and TIME marks: 1 + code of a TIME event and its object (R336) -/
  mark : Option (Nat × Nat) := none
  deriving DecidableEq, Repr

/-- An event queue (R181). -/
structure Evq where
  /-- owning function; 06_rings.md R152 -/
  fn : Fn
  /-- local number, 9 bits; R152 -/
  loc : Nat
  /-- SIZE; R181 -/
  size : Nat := 64
  /-- BASE; R181 -/
  base : Nat := 0
  /-- PASID, 20 bits; R181 -/
  pasid : Nat := 0
  /-- CONTROL, 1 bit; R181; reset 0 -/
  control : Bool := false
  /-- VECTOR, local, or NONE; R181; reset NONE -/
  vector : Option Nat := none
  /-- MOD_EVENTS; R181; reset 1 -/
  modEvents : Nat := 1
  /-- MOD_TIME in µs; R181; reset 0 -/
  modTime : Nat := 0
  /-- HEAD, 16 bits; R33; 0 at creation -/
  head : BitVec 16 := 0
  /-- entries written since creation: the tail, with PHASE; R160; 0 at creation -/
  count : Nat := 0
  /-- unconsumed events, oldest first; R185 -/
  evs : List EvSt := []
  /-- OVERFLOW; R184; reset 0 -/
  overflow : Bool := false
  /-- events dropped, 32 bits saturating; R182; 0 at creation -/
  dropped : Nat := 0
  /-- ARMED, with the time of arming; R185; DISARMED at creation -/
  armed : Option Nat := none
  /-- ERROR; R191; reset 0 -/
  error : Bool := false
  /-- cause code of ERROR; R191; 0 at creation -/
  cause : Nat := 0
  deriving DecidableEq, Repr

/-! ### Ports, modules, wire and thinning (03_ports_partners.md, 04_wire.md, 05_thinning.md, 12_deck_launch.md) -/

/-- Port states in the order of R72. -/
inductive PState where
  | adminDown | noModule | moduleInit | moduleFault | training | up | portFault
  deriving DecidableEq, Repr

/-- FC_MODE (R92). -/
inductive FcMode where
  | none | pause | pfc
  deriving DecidableEq, Repr

/-- Cut-through thresholds (R106): a level in bytes, or SAF. -/
inductive CtLevel where
  | bytes (n : Nat)
  | saf
  deriving DecidableEq, Repr

/-- A pause timer above zero (R110): the value set and when, in CLK_DP cycles and CLK_TS edges. -/
structure PauseT where
  cycles : Nat
  setAt : Nat
  /-- since when it has been above zero without a break (R125) -/
  since : Nat
  deriving DecidableEq, Repr

/-- A granted frame or large-send segment in a port's start lists (R113). -/
structure GFrame where
  q : TxqId
  frame : Nat
  /-- segment of a large send -/
  seg : Nat
  /-- grant order on the port (R113) -/
  order : Nat
  /-- length on the wire with FCS, padding and trailer (R294) -/
  len : Nat
  /-- operation number of its data read -/
  grp : Nat
  /-- supplied bytes to be read for it -/
  need : Nat
  /-- bytes read so far, from its first byte on (R106) -/
  data : List Byte := []
  /-- close of the last open run in which it did not fit and the wait was counted, in ns of the Deck's base (R350) -/
  waited : Option Int := none
  /-- a data read failed: 1 bus error, 2 translation (R191, R208) -/
  failed : Nat := 0
  deriving DecidableEq, Repr

/-- A committed frame on its way to, or on, the wire. -/
structure WireFrame where
  g : GFrame
  /-- egress time-stamp in TB0 to TB3, in sixteenths of a nanosecond (R327) -/
  egress : List Nat
  /-- nanoseconds from the doorbell of the frame's last descriptor to its departure (R276) -/
  sojourn : Nat
  /-- lateness in ns where LATE_SENT (R352) -/
  lateSent : Option Nat
  /-- the trailer is inserted -/
  trailer : Bool
  /-- the sending function's time base and its DEGRADED flag at the commit (R329, R332) -/
  tb : TbId
  deg : Bool
  /-- length on the wire with FCS -/
  len : Nat
  /-- the frame as it was at the commit, and its queue's function, class and FCS_PASS -/
  f : TxFrame
  fn : Fn
  tc : Tc
  fcsPass : Bool
  /-- its queue has been reset or destroyed: it finishes without a completion (R189) -/
  orphan : Bool := false
  deriving DecidableEq, Repr

/-- A control frame waiting in the trump store (R118). -/
inductive Trump where
  /-- PAUSE or PFC: built when it starts (R119) -/
  | fc
  /-- thinning handshake: TYPE and its fields (R138) -/
  | thin (ty : Nat) (m : ThinMsg)
  /-- LLDPDU with its TTL (R85) -/
  | lldp (ttl : Nat)
  deriving DecidableEq, Repr

/-- State of a partner record (R89). -/
inductive PartnerSt where
  | none | present | stale
  deriving DecidableEq, Repr

/-- A partner record (R89). -/
structure Partner where
  /-- state; 03_ports_partners.md R89; reset NONE -/
  st : PartnerSt := .none
  /-- chassis ID; R89; reset empty -/
  chassis : List Byte := []
  /-- port ID; R89; reset empty -/
  portId : List Byte := []
  /-- TTL in s, 16 bits; R89; reset 0 -/
  ttl : Nat := 0
  /-- capability TLV; R86, R89; reset none -/
  cap : Option CapTlv := none
  /-- pair identity TLV; R86, R89; reset none -/
  pair : Option PairTlv := none
  /-- TB0 time of the last LLDPDU in linear ns; R89; reset 0 -/
  time : Nat := 0
  /-- successive LLDPDUs; R89; reset 0 -/
  count : Nat := 0
  deriving DecidableEq, Repr

/-- Lane states (R147, R151). -/
inductive LaneSt where
  | inService
  /-- warm since the switch at this time in CLK_TS edges -/
  | warm (since : Nat)
  | cold
  deriving DecidableEq, Repr

/-- Where a handshake stands (R140). -/
inductive HsPhase where
  /-- initiator: PROPOSE sent so many times -/
  | proposed (sends : Nat)
  /-- initiator: ACCEPT received, the responder's MARK awaited -/
  | waitMark
  /-- responder: its MARK is to be sent (waiting in the trump store) -/
  | sendMark
  /-- responder: its MARK has been sent, the initiator's awaited -/
  | sentMark
  /-- both: cold lanes retrain, READYs are exchanged (R140 step 6) -/
  | ready
  /-- the transmit gap or a receive realignment is still running -/
  | finishing
  deriving DecidableEq, Repr

/-- A thinning handshake in progress (R140). -/
structure Handshake where
  initiator : Bool
  seq : BitVec 16
  target : Nat
  restore : Bool := false
  /-- WARM_LANES of this end and of the partner -/
  warm : Nat := 0
  pwarm : Nat := 0
  /-- 1 or 2: the switch in progress or next -/
  switch : Nat := 1
  phase : HsPhase
  readySent : Bool := false
  readyRcvd : Bool := false
  /-- this end's MARK of the present switch has left; the partner's has come -/
  markSent : Bool := false
  markRcvd : Bool := false
  deriving DecidableEq, Repr

/-- Commands on MI_CTL (R489). -/
inductive MiCmd where
  | enable | disable | retrain | txMap | rxMap | warm | cold | watchKeep
  deriving DecidableEq, Repr

/-- A Deck state (R345). -/
inductive DeckSt where
  | none | pending | operational | operPending | clearing
  deriving DecidableEq, Repr

/-- A gate control list with its fields (R338). -/
structure GateList where
  tb : TbId
  /-- BASE in linear ns -/
  base : Nat
  cycle : Nat
  ext : Nat
  /-- INTERVAL and GATES of each entry (R339) -/
  entries : List (Nat × BitVec 8)
  deriving DecidableEq, Repr

/-- A port's Deck (R345). -/
structure Deck where
  /-- state; 12_deck_launch.md R345; reset NONE -/
  st : DeckSt := .none
  /-- operational list; R338; reset none -/
  oper : Option GateList := none
  /-- time from which it runs, linear ns of its base; R340 -/
  operFrom : Nat := 0
  /-- admin list; R338; reset none -/
  admin : Option GateList := none
  /-- cut time in linear ns and N; R342 -/
  cut : Nat := 0
  cutN : Nat := 0
  /-- clear point in linear ns of the operational list's base; R344 -/
  clearAt : Nat := 0
  /-- gates now open, one bit per class; R340; reset all open -/
  gates : BitVec 8 := 0xFF
  /-- gate_never_fits, 64 bits; R357; reset 0 -/
  neverFits : Nat := 0
  /-- gate_fit_waits, 64 bits; R357; reset 0 -/
  fitWaits : Nat := 0
  /-- launch_late_dropped, 64 bits; R357; reset 0 -/
  lateDropped : Nat := 0
  /-- launch_late_sent, 64 bits; R357; reset 0 -/
  lateSent : Nat := 0
  /-- deck_cuts, 64 bits; R357; reset 0 -/
  cuts : Nat := 0
  /-- deck_extensions, 64 bits; R357; reset 0 -/
  extensions : Nat := 0
  /-- deck_truncations, 64 bits; R357; reset 0 -/
  truncations : Nat := 0
  deriving DecidableEq, Repr

/-- Offload counters of a port (R283), in order. -/
structure OffCnt where
  csumSkipped : Nat := 0
  lsoSends : Nat := 0
  lsoSegments : Nat := 0
  lsoPartial : Nat := 0
  tsInserted : Nat := 0
  badL3 : Nat := 0
  badL4 : Nat := 0
  badInL3 : Nat := 0
  badInL4 : Nat := 0
  stripped : Nat := 0
  trailerShort : Nat := 0
  reportDrops : Nat := 0
  deriving DecidableEq, Repr

/-- Thinning counters (R151), in order. -/
structure ThinCnt where
  narrow : Nat := 0
  widen : Nat := 0
  rejects : Nat := 0
  failures : Nat := 0
  recoveries : Nat := 0
  malformed : Nat := 0
  hostDrops : Nat := 0
  deriving DecidableEq, Repr

/-- A port, held under its lowest slot's number. -/
structure Port where
  /-- width in slots, 0 where the slot is not a port's lowest; 03_ports_partners.md R66; reset 1 -/
  width : Nat := 1
  /-- ADMIN UP; R68; reset DOWN -/
  admin : Bool := false
  /-- MOD_CAGE; R68; reset the slot number -/
  cage : Cage := 0
  /-- MOD_LANE_BASE; R68; reset 0 -/
  laneBase : Nat := 0
  /-- UP_DEBOUNCE in ms; R68; reset 10 -/
  debounce : Nat := 10
  /-- LLDP_AGENT, 1 bit; R68; reset ON -/
  lldpAgent : Bool := true
  /-- LLDP_TX_INTERVAL in s; R68; reset 30 -/
  lldpInterval : Nat := 30
  /-- LLDP_MIRROR, 1 bit; R68; reset OFF -/
  lldpMirror : Bool := false
  /-- state; R72; reset ADMIN_DOWN -/
  state : PState := .adminDown
  /-- cause of the last change or report; R75, R524; reset NONE -/
  cause : Nat := 0
  /-- TB0 time of the last change or report, linear ns; R75; reset 0 -/
  changed : Nat := 0
  /-- UP_DEBOUNCE running; R73; reset off -/
  debouncing : Bool := false
  /-- event subscriptions: function and local event queue; R75; reset none -/
  subs : List (Fn × Nat) := []
  /-- extra LLDP TLVs, at most 512 bytes; R85; reset none -/
  lldpExtra : List Byte := []
  /-- LLDPDUs of a fast start still to send; R85; reset 0 -/
  fastStart : Nat := 0
  /-- partner record; R89; reset NONE -/
  partner : Partner := {}
  /-- MAX_FRAME; 04_wire.md R92; reset 9,600 -/
  maxFrame : Nat := 9600
  /-- STATION_ADDR, 48 bits, first byte lowest; R92; reset 0 -/
  station : Nat := 0
  /-- TX_PAD_EN, 1 bit; R92; reset ON -/
  padEn : Bool := true
  /-- RX_FCS_STRIP, 1 bit; R92; reset ON -/
  fcsStrip : Bool := true
  /-- RX_BAD_FCS DELIVER; R92; reset DROP -/
  badFcsDeliver : Bool := false
  /-- CT_MODE SAF; R92; reset ADAPTIVE -/
  ctSaf : Bool := false
  /-- CT_FLOOR in bytes; R92; reset 512 -/
  ctFloor : Nat := 512
  /-- STATS_OWNER; R92; reset F0 -/
  statsOwner : Fn := 0
  /-- FC_MODE; R92; reset NONE -/
  fcMode : FcMode := .none
  /-- LOSSLESS_MASK, 8 bits; R92; reset 0 -/
  lossless : BitVec 8 := 0
  /-- PCP_TO_TC, 8 values; R92; reset identity -/
  pcpToTc : List Nat := [0, 1, 2, 3, 4, 5, 6, 7]
  /-- DEFAULT_TC; R92; reset 0 -/
  defaultTc : Tc := 0
  /-- PAUSE_QUANTA; R92; reset 65,535 -/
  pauseQuanta : Nat := 65535
  /-- XOFF_BYTES per class; R92; reset 131,072 -/
  xoff : List Nat := [131072, 131072, 131072, 131072, 131072, 131072, 131072, 131072]
  /-- XON_BYTES per class; R92; reset 65,536 -/
  xon : List Nat := [65536, 65536, 65536, 65536, 65536, 65536, 65536, 65536]
  /-- LOSSY_LIMIT per class; R92; reset 1,048,576 -/
  lossyLimit : List Nat := [1048576, 1048576, 1048576, 1048576, 1048576, 1048576, 1048576, 1048576]
  /-- CABLE_DELAY in ns; R92; reset 100 -/
  cableDelay : Nat := 100
  /-- PARTNER_RESP in ns; R92; reset 1,000 -/
  partnerResp : Nat := 1000
  /-- WD_LIMIT in ms; R92; reset 100 -/
  wdLimit : Nat := 100
  /-- WD_RESTORE in ms; R92; reset 10 -/
  wdRestore : Nat := 10
  /-- THIN_MODE AUTO; 05_thinning.md R130; reset OFF -/
  thinAuto : Bool := false
  /-- THIN_MIN_LANES; R130; reset 1 -/
  thinMin : Nat := 1
  /-- SCHED_LEAD in ns; 12_deck_launch.md R349; reset 4,000 -/
  schedLead : Nat := 4000
  /-- MALFORMED_ACTION: 0 DROP, 1 FLAG, 2 RING; 08_receive_steering.md R227; reset DROP -/
  malAction : Nat := 0
  /-- EXC_RING; R227; reset NONE -/
  excRing : Option (Fn × Nat) := none
  /-- TRAILER_RX STRIP; 09_offloads.md R278; reset OFF -/
  trailerStrip : Bool := false
  /-- TRAILER_RX_TCS, 8 bits; R278; reset 0 -/
  trailerTcs : BitVec 8 := 0
  /-- REPORT_RING; R278; reset NONE -/
  reportRing : Option (Fin 16) := none
  /-- count of stripped trailers, 32 bits; R280; reset 0 -/
  trailerSeq : BitVec 32 := 0
  /-- cut-through threshold; R108; reset CT_FLOOR -/
  ct : CtLevel := .bytes 512
  /-- frames since the last underrun; R108; reset 0 -/
  ctFrames : Nat := 0
  /-- port pause timer; R110; reset zero -/
  pauseP : Option PauseT := none
  /-- class pause timers TC0 to TC7; R111; reset zero -/
  pauseC : List (Option PauseT) := [none, none, none, none, none, none, none, none]
  /-- time the timers were above zero before they last reached it, CLK_TS edges per class, below zero where a
  read cleared the count under a running timer; R128; reset 0 -/
  pausedFor : List Int := [0, 0, 0, 0, 0, 0, 0, 0]
  /-- classes in DRAIN, 8 bits; R125; reset 0 -/
  drain : BitVec 8 := 0
  /-- per class, start of the pause-free time of a drain, in CLK_TS edges; R126 -/
  restoreAt : List (Option Nat) := [none, none, none, none, none, none, none, none]
  /-- start lists TC0 to TC7, oldest first; R113; reset empty -/
  lists : List (List GFrame) := [[], [], [], [], [], [], [], []]
  /-- committed frames, the one on the wire first; R112; reset none -/
  wire : List WireFrame := []
  /-- first free start position after the frames committed: 16 times the beat's number plus the segment; R25, R350;
  reset 0 -/
  freeAt : Nat := 0
  /-- next grant number; R113; reset 0 -/
  nextOrder : Nat := 0
  /-- trump store, oldest first; R118; reset empty -/
  trump : List Trump := []
  /-- trump frames that found the store full, oldest first; R119; reset none -/
  trumpWait : List Trump := []
  /-- link up; R488; reset down -/
  linkUp : Bool := false
  /-- shared-area use in 64-byte lines per class; R123; reset 0 -/
  shared : List Nat := [0, 0, 0, 0, 0, 0, 0, 0]
  /-- kitty charge in lines per class; R123; reset 0 -/
  kitty : List Nat := [0, 0, 0, 0, 0, 0, 0, 0]
  /-- classes in XOFF, 8 bits, bit 0 in PAUSE mode; R116; reset 0 -/
  xoffSt : BitVec 8 := 0
  /-- classes released since the last flow-control frame, 8 bits; R116; reset 0 -/
  released : BitVec 8 := 0
  /-- per class, start of the frame that last carried PAUSE_QUANTA, in CLK_TS edges; R116 -/
  fcSent : List Nat := [0, 0, 0, 0, 0, 0, 0, 0]
  /-- transmit lanes in service; 05_thinning.md R131; reset the width -/
  txLanes : Nat := 1
  /-- receive lanes in service; R131; reset the width -/
  rxLanes : Nat := 1
  /-- lane states of the port's slots; R147; reset IN_SERVICE -/
  lanes : List LaneSt := [.inService]
  /-- bytes of L + 20 started in the present interval; R135; reset 0 -/
  load : Nat := 0
  /-- successive intervals that meet R136 for a target of 1, 2 and 4 lanes; R136; reset 0 -/
  lowCount : List Nat := [0, 0, 0]
  /-- the interval in progress has not met R136 throughout: the backlog has passed 256 KiB, or R132 has not held; R136;
  reset no -/
  spoiled : Bool := false
  /-- no narrowing proposal before this time, CLK_TS edges; R141; reset 0 -/
  noNarrow : Nat := 0
  /-- no proposal before this time, CLK_TS edges; R142; reset 0 -/
  noPropose : Nat := 0
  /-- a widening is to be proposed again from this time on; R148; reset none -/
  rewiden : Option Nat := none
  /-- a widening, with RESTORE or without, to be proposed as soon as nothing is in the way; R143, R148; reset none -/
  widenDue : Option Bool := none
  /-- last SEQ used; R140; reset 0 -/
  thinSeq : BitVec 16 := 0
  /-- handshake in progress; R140; reset none -/
  hs : Option Handshake := none
  /-- answer last given to a PROPOSE: its SEQ and the answer; R143; reset none -/
  lastAnswer : Option (BitVec 16 × Trump) := none
  /-- transmit gap: the new width, and whether TX_MAP is acknowledged; R144; reset none -/
  gap : Option (Nat × Bool) := none
  /-- TB0 time of the last switch, linear ns; R151; reset 0 -/
  lastSwitch : Nat := 0
  /-- thinning counters, 64 bits each; R151; reset 0 -/
  thin : ThinCnt := {}
  /-- MI_CTL command outstanding with its ARG; 20_edge_signals.md R489; reset none -/
  miCtl : Option (MiCmd × Nat) := none
  /-- MI_CTL commands waiting, oldest first; R489; reset none -/
  miQueue : List (MiCmd × Nat) := []
  /-- port statistics, 85 counters of 64 bits by R128's order; R128; reset 0 -/
  stats : Tab Nat := {}
  /-- STATS_RESET is to be returned by the next STATS_READ; R129; reset 0 -/
  statsReset : Bool := false
  /-- offload counters, 64 bits each; 09_offloads.md R283; reset 0 -/
  off : OffCnt := {}
  /-- steering counters by the order of R255, 64 bits each; 08_receive_steering.md R255; reset 0 -/
  steer : Tab Nat := {}
  /-- the Deck; 12_deck_launch.md R345; reset NONE -/
  deck : Deck := {}
  /-- ADJ_IN, signed; 11_time.md R335; reset 0 -/
  adjIn : Int := 0
  /-- ADJ_OUT, signed; R335; reset 0 -/
  adjOut : Int := 0
  deriving DecidableEq, Repr

/-- Port `p` after reset (R67, R68). -/
def Port.reset (p : Nat) : Port := { cage := ⟨p % 16, Nat.mod_lt _ (by decide)⟩ }

/-- A slot's inputs and self-test (R476, R488). -/
structure SlotSt where
  /-- lowest slot of its port; 03_ports_partners.md R15; reset the slot itself -/
  port : PortId := 0
  /-- disabled by a failed self-test; 19_startup.md R476; reset no -/
  failed : Bool := false
  deriving DecidableEq, Repr

/-- Slot `p` after reset. -/
def SlotSt.reset (p : Nat) : SlotSt := { port := ⟨p % 16, Nat.mod_lt _ (by decide)⟩ }

/-- Cage states in the order of R525. -/
inductive CageState where
  | empty | mgmtInit | identify | powerUp | ready | fault | unsupported
  deriving DecidableEq, Repr

/-- A module cage (R76 to R83). -/
structure CageSt where
  /-- state; 03_ports_partners.md R78; reset EMPTY -/
  state : CageState := .empty
  /-- cause of the last change; R83, R524; reset NONE -/
  cause : Nat := 0
  /-- MOD_RST_N, 1 bit; R76; reset low -/
  rstN : Bool := false
  /-- MOD_LPM, 1 bit; R76; reset high -/
  lpm : Bool := true
  /-- bus speed: 0 100 kHz, 1 400 kHz, 2 1 MHz; R79; reset 400 kHz -/
  speed : Nat := 1
  /-- failed transactions in a row; R79; reset 0 -/
  retries : Nat := 0
  /-- identity read; R80; reset none -/
  ident : Option ModIdent := none
  /-- last module state read; R80; reset none -/
  modState : Option ModState := none
  /-- lanes whose data path is activated, 8 bits; R80; reset 0 -/
  dpActive : BitVec 8 := 0
  /-- application code in effect on each host lane that the engine wrote one for; a lane not named has the module's
  default application; R81; reset none -/
  laneApp : List (Nat × BitVec 4) := []
  /-- a data path change written by the engine is pending; R82; reset no -/
  dpPending : Bool := false
  /-- latched module-level flags, 64 bits; R83; reset 0 -/
  flags : BitVec 64 := 0
  /-- latched lane flags, 8 bytes per host lane, lane 0 lowest; R83, R525; reset 0 -/
  laneFlags : BitVec 512 := 0
  /-- presence that the monitor in PD_AON has confirmed; R76, R77; reset absent -/
  prs : Bool := false
  /-- presence confirmed while PD_CTL is gated, handled after the wake; R78; reset none -/
  seen : Option Bool := none
  /-- an interrupt seen while PD_CTL is gated, handled after the wake, with the module-level flags, lane flags and module
  state that the read then brings; R78, R83; reset none -/
  irqSeen : Option (BitVec 64 × BitVec 512 × ModState) := none
  deriving DecidableEq, Repr

/-! ### Steering and policing (08_receive_steering.md) -/

/-- A steering action (R231). -/
structure Action where
  /-- TYPE: 0 DROP, 1 RING, 2 SPREAD, 3 STREAM, 4 RECIRC -/
  ty : Nat := 0
  target : Nat := 0
  /-- POLICER where POLICER_EN is 1 -/
  policer : Option (Fin 4096) := none
  mark : Nat := 0
  deriving DecidableEq, Repr

/-- A TCAM entry (R230): key and mask as 576-bit numbers, byte 0 lowest. -/
structure TcamEntry where
  /-- key, 576 bits; 08_receive_steering.md R230; DESIGN CHOICE 0 (log entry 3) -/
  key : Nat := 0
  /-- mask, 576 bits; R230; DESIGN CHOICE 0 (log entry 3) -/
  mask : Nat := 0
  /-- action, 16 bytes; R231; DESIGN CHOICE DROP (log entry 3) -/
  action : Action := {}
  /-- VALID_A and VALID_B; R232; reset 0 -/
  validA : Bool := false
  validB : Bool := false
  deriving DecidableEq, Repr

/-- A port's items of a generation (R232). -/
structure GenPort where
  /-- KEY_PROFILE; R232; reset 0 -/
  profile : Nat := 0
  /-- RCIRC_PROFILE; R232; reset 0 -/
  rcirc : Nat := 0
  /-- MISS_ACTION; R232; reset DROP -/
  miss : Action := {}
  deriving DecidableEq, Repr

/-- The items of one generation (R232). -/
structure Generation where
  /-- key profiles: 16 extractors of anchor and offset each; R229, R232; reset all anchors NONE -/
  profiles : Tab (List (Nat × Nat)) := {}
  /-- per-port items; R232; reset as GenPort -/
  ports : Tab GenPort := {}
  /-- VXLAN_PORT, 16 bits; R232; reset 4,789 -/
  vxlan : Nat := 4789
  /-- GENEVE_PORT, 16 bits; R232; reset 6,081 -/
  geneve : Nat := 6081
  /-- serial, 16 bits; R232; reset 0 -/
  serial : BitVec 16 := 0
  /-- in-flight count; R235; reset 0 -/
  count : Nat := 0
  deriving DecidableEq, Repr

/-- A frame waiting in a stream group (R238): its metadata without member and SEQ, and its bytes. -/
structure StreamUnit where
  port : PortId
  tc : Tc
  genB : Bool
  pass : Nat
  ret : Bool
  fcsErr : Bool
  walk : Walk
  genStale : Bool
  rule : Option Nat
  serial : BitVec 16
  hash : Nat
  arrival : Nat
  mark : Nat
  bytes : List Byte
  /-- lines and the area they are charged to -/
  lines : Nat
  area : Area
  deriving DecidableEq, Repr

/-- A stream group (R238). -/
structure Group where
  /-- members: SP and engine index; 08_receive_steering.md R238; reset none -/
  members : List (Fin 2 × Fin 8) := []
  /-- position of the next member; R238; reset 0 -/
  turn : Nat := 0
  /-- SEQ, 32 bits; R238; reset 0 -/
  seq : BitVec 32 := 0
  /-- frames waiting for credit, oldest first; R238; reset none -/
  waiting : List StreamUnit := []
  deriving DecidableEq, Repr

/-- A spreading table (R245). -/
structure Spread where
  owner : Fn
  size : Nat
  /-- KEY, 40 bytes; R245; reset zero -/
  key : List Byte := List.replicate 40 0
  /-- HASH_SET IP4T; R245; reset IP4T -/
  ip4t : Bool := true
  /-- INNER, 1 bit; R245; reset ON -/
  inner : Bool := true
  /-- entries, local rings; R245; DESIGN CHOICE 0 (log entry 3) -/
  entries : Tab Nat := {}
  deriving DecidableEq, Repr

/-- A policer (R249). -/
structure Policer where
  /-- RATE in Mb/s; R249; reset 0 -/
  rate : Nat := 0
  /-- BURST in bytes; R249; reset 65,536 -/
  burst : Nat := 65536
  /-- LEN_ADJ; R249; reset 0 -/
  lenAdj : Int := 0
  /-- tokens in 1/6250 byte; R250; DESIGN CHOICE BURST (log entry 3) -/
  tokens : Nat := 65536 * 6250
  /-- time of the last accrual, CLK_CTL edges; R250; reset 0 -/
  last : Nat := 0
  /-- pol_pass_frames, pol_pass_octets, pol_drop_frames, pol_drop_octets, 64 bits; R250; reset 0 -/
  passFrames : Nat := 0
  passOctets : Nat := 0
  dropFrames : Nat := 0
  dropOctets : Nat := 0
  deriving DecidableEq, Repr

/-- A wake pattern (R251). -/
structure WakePat where
  /-- ENABLE, 1 bit; R251; DESIGN CHOICE OFF (log entry 3) -/
  enable : Bool := false
  /-- MASK, 256 bits; R251; DESIGN CHOICE 0 (log entry 3) -/
  mask : Nat := 0
  /-- CHECK, 32 bits; R251; DESIGN CHOICE 0 (log entry 3) -/
  check : Nat := 0
  deriving DecidableEq, Repr

/-- The receive pipeline. -/
structure SteerSt where
  /-- 16,384 entries; 08_receive_steering.md R230; reset as TcamEntry -/
  tcam : Tab TcamEntry := {}
  /-- generation A; R232; reset serial 0 -/
  genA : Generation := {}
  /-- generation B; R232; reset as R232 -/
  genB : Generation := {}
  /-- generation B is the active one; R232; reset A active -/
  activeB : Bool := false
  /-- last serial used; R232; reset 0 -/
  lastSerial : BitVec 16 := 0
  /-- RETIRING: time of the swap; R237; reset STEADY -/
  retiring : Option Nat := none
  /-- time of the last swap in TB0 linear ns and CLK_TS edges; R255; reset none -/
  swapAt : Option (Nat × Nat) := none
  /-- forced_retirements, 64 bits; R255; reset 0 -/
  forced : Nat := 0
  /-- total swap count, 64 bits; R255; reset 0 -/
  swaps : Nat := 0
  /-- 64 stream groups; R238; reset empty -/
  groups : Tab Group := {}
  /-- credits per destination on SP_0 and SP_1, index 8 × SP + engine; 20_edge_signals.md R498; reset 0 -/
  credits : Tab Nat := {}
  /-- RCIRC_LIMIT in bytes; R243; reset 256 KiB -/
  rcircLimit : Nat := 262144
  /-- STREAM_KEY, 40 bytes; R243; reset zero -/
  streamKey : List Byte := List.replicate 40 0
  /-- STREAM_HASH_SET IP4T; R243; reset IP4T -/
  streamIp4t : Bool := true
  /-- STREAM_INNER, 1 bit; R243; reset ON -/
  streamInner : Bool := true
  /-- lines held by returned frames; R242; reset 0 -/
  rcircLines : Nat := 0
  /-- SP_RCIRC credit given and not used, in 16-byte segments; R498; reset 0 -/
  rcircCredit : Nat := 0
  /-- SP_RCIRC credit withdrawn by a power entry; 16_power.md R417; reset no -/
  rcircOff : Bool := false
  /-- 256 spreading tables; R245; reset none -/
  spreads : Tab (Option Spread) := {}
  /-- 4,096 policers; R249; reset as Policer -/
  policers : Tab Policer := {}
  /-- 32 wake patterns per port, index 32 × port + pattern; R251; reset as WakePat -/
  wakePats : Tab WakePat := {}
  deriving DecidableEq, Repr

/-! ### The Dealer (10_dealer.md) -/

/-- The staged shaper fields (R285). -/
structure Shaper where
  /-- SHAPE_EN, 1 bit; 10_dealer.md R285; reset OFF -/
  en : Bool := false
  /-- RATE in Mb/s; R285; reset 0 -/
  rate : Nat := 0
  /-- BURST in bytes; R285; reset 65,536 -/
  burst : Nat := 65536
  /-- LEN_ADJ; R285; reset 0 -/
  lenAdj : Int := 0
  deriving DecidableEq, Repr

/-- A node, leaf or root of a scheduling tree (R284). -/
structure DObj where
  /-- it exists -/
  live : Bool := false
  /-- PORT; R285; reset by its creation -/
  port : PortId := 0
  /-- ATTACH; R285; reset NONE for a node, ALL for a root -/
  attach : Scope := .none
  /-- PARENT: a node, or the port's root; R285; reset root -/
  parent : Option (Fin 8192) := none
  /-- BAND; R285; reset 0 -/
  band : Nat := 0
  /-- QUANTUM in bytes; R285; reset 4,096 -/
  quantum : Nat := 4096
  /-- shaper fields in effect; R285; reset as Shaper -/
  sh : Shaper := {}
  /-- their shadow, where written; R299; reset none -/
  shadow : Option Shaper := none
  /-- FORGIVE due at the next refill; R299; reset no -/
  forgive : Bool := false
  /-- tokens, 32-bit signed, in 1/125 byte; R298; reset 0 -/
  tokens : Int := 0
  /-- deficit in bytes; R291; reset 0 -/
  deficit : Int := 0
  /-- its present turn at the head of its round list has begun; R291; reset no -/
  turn : Bool := false
  /-- round lists of its children, bands 0 to 7: child codes, head first; R291; reset empty -/
  rounds : List (List DObjId) := [[], [], [], [], [], [], [], []]
  deriving DecidableEq, Repr

/-- A root's pacing (R303). -/
structure Root where
  /-- ATTACH; 10_dealer.md R285; reset ALL -/
  attach : Scope := .all
  /-- round lists of its children; R291; reset empty -/
  rounds : List (List DObjId) := [[], [], [], [], [], [], [], []]
  /-- pacing bucket in bytes; R303; reset 0 (R308) -/
  pacing : Int := 0
  /-- grant window in bytes; R303; reset 0 -/
  window : Nat := 0
  /-- decisions made; R310; reset 0 -/
  decisions : Nat := 0
  /-- tree memory uncorrectable: ineligible until rebuilt; R309; reset no -/
  broken : Bool := false
  deriving DecidableEq, Repr

/-- A telemetry ring written without waiting on its reader (R281, R305, R467). -/
structure TeleRing where
  fn : Fn := 0
  pasid : Nat := 0
  base : Nat := 0
  size : Nat := 64
  /-- records written or due since creation -/
  count : Nat := 0
  deriving DecidableEq, Repr

/-- The Dealer. -/
structure DealerSt where
  /-- 8,192 nodes; 10_dealer.md R284; reset none -/
  nodes : Tab DObj := {}
  /-- leaves by global transmit queue; R284; reset none -/
  leaves : Tab DObj := {}
  /-- roots by port; R284; reset as Root -/
  roots : Tab Root := {}
  /-- SAMPLE_EN, 1 bit; R305; reset OFF -/
  sampleEn : Bool := false
  /-- FIRST; R305; reset 0 -/
  sampleFirst : Nat := 0
  /-- COUNT; R305; reset 32,768 -/
  sampleCount : Nat := 32768
  /-- RING; R305; DESIGN CHOICE zero (log entry 3) -/
  ring : TeleRing := {}
  /-- next queue to sample; R305; reset 0 -/
  sampleNext : Nat := 0
  /-- SEQ, 32 bits; R306; reset 0 -/
  sampleSeq : BitVec 32 := 0
  /-- sampler_drops, 64 bits; R307; reset 0 -/
  samplerDrops : Nat := 0
  /-- shaper_resets, 64 bits; R309; reset 0 -/
  shaperResets : Nat := 0
  /-- next position of the decision calendar; R288; reset 0 -/
  calNext : Fin 16 := 0
  deriving DecidableEq, Repr

/-- Offloads and telemetry trailers (09_offloads.md). -/
structure OffSt where
  /-- 256 offload profiles; 09_offloads.md R256; reset as OffProfile -/
  profiles : Tab OffProfile := {}
  /-- TRAILER_TB; R275; reset TB0 -/
  trailerTb : TbId := 0
  /-- ENGINE_ID, 8 bits; R275; reset the engine's index on its chip, PRESUMED 0 (log entry 4) -/
  engineId : Nat := 0
  /-- 16 trailer report rings; R281, R523; reset none -/
  rings : Tab (Option TeleRing) := {}
  deriving DecidableEq, Repr

/-! ### Time unit (11_time.md) -/

/-- A time base (R311 to R318). -/
structure TimeBase where
  /-- SEC, 64 bits; 11_time.md R311; reset 0 -/
  sec : Nat := 0
  /-- NS, 0 to 999,999,999; R311; reset 0 -/
  ns : Nat := 0
  /-- SUBNS, 32 bits, in 2^-32 ns; R311; reset 0 -/
  sub : Nat := 0
  /-- TSU_TB_FREQ.FREQ, signed; R315; reset 0 -/
  freq : Int := 0
  /-- TSU_TB_SLEW.AMOUNT, signed ns; R315; reset 0 -/
  amount : Int := 0
  /-- TSU_TB_SLEW.PPM; R315; reset 100 -/
  ppm : Nat := 100
  /-- slew not yet applied, signed, in 2^-32 ns; R318; reset 0 -/
  left : Int := 0
  /-- SLEWING, 1 bit; R315; reset 0 -/
  slewing : Bool := false
  /-- DEGRADED, 1 bit; R313; reset 1 -/
  degraded : Bool := true
  /-- STEP_COUNT, 16 bits; R315; reset 0 -/
  stepCount : BitVec 16 := 0
  /-- TSU_TB_SNAP NS, SUBNS, SEC; R315; reset 0 -/
  snapNs : Nat := 0
  snapSub : Nat := 0
  snapSec : Nat := 0
  /-- TSU_TB_SET_NS.NS; R315; reset 0 -/
  setNs : Nat := 0
  /-- TSU_TB_SET_SEC.SEC, 64 bits; R315; reset 0 -/
  setSec : Nat := 0
  /-- TSU_TB_OFFSET.OFFSET, signed 64 bits; R315; reset 0 -/
  offset : Int := 0
  deriving DecidableEq, Repr

/-- A pulse output (R323). -/
structure Ppo where
  /-- MODE: 0 OFF, 1 ONCE, 2 PERIODIC; 11_time.md R323; reset 0 -/
  mode : Nat := 0
  /-- TB; R323; reset 0 -/
  tb : TbId := 0
  /-- POLARITY, 1 bit; R323; reset 0 -/
  polarity : Bool := false
  /-- MISSED, 1 bit; R323; reset 0 -/
  missed : Bool := false
  /-- ACTIVE, 1 bit; R323; reset 0 -/
  active : Bool := false
  /-- START NS, 32 bits; R323; reset 0 -/
  startNs : Nat := 0
  /-- START SEC, 48 bits; R323; reset 0 -/
  startSec : Nat := 0
  /-- PERIOD, 40 bits; R323; reset 1,000,000,000 -/
  period : Nat := 1000000000
  /-- WIDTH, 40 bits; R323; reset 100,000,000 -/
  width : Nat := 100000000
  /-- linear ns of the next edge to drive, none while OFF; R324; reset none -/
  next : Option Nat := none
  deriving DecidableEq, Repr

/-- A captured edge (R325). -/
structure CapEnt where
  sec : Nat
  ns : Nat
  frac : Nat
  rise : Bool
  tb : TbId
  deriving DecidableEq, Repr

/-- A capture input (R325). -/
structure Cap where
  /-- RISE, 1 bit; 11_time.md R325; reset 0 -/
  rise : Bool := false
  /-- FALL, 1 bit; R325; reset 0 -/
  fall : Bool := false
  /-- TB; R325; reset 0 -/
  tb : TbId := 0
  /-- EVENT_EN, 1 bit; R325; reset 0 -/
  eventEn : Bool := false
  /-- 16-entry queue, oldest first; R325; reset empty -/
  queue : List CapEnt := []
  /-- TSU_CAP_HI.SEC, 48 bits; R325; reset 0 -/
  hi : Nat := 0
  /-- DROPS, 64 bits; R325; reset 0 -/
  drops : Nat := 0
  deriving DecidableEq, Repr

/-- A transmit time-stamp entry (R332). -/
structure TsEnt where
  sec : Nat
  ns : Nat
  frac : Nat
  tb : TbId
  degraded : Bool
  port : PortId
  tsId : Nat
  fn : Fn
  /-- time it was added, CLK_TS edges (R333) -/
  added : Nat
  /-- the frame it belongs to: its queue and the model's own number of it (R337) -/
  frame : TxqId × Nat := (0, 0)
  deriving DecidableEq, Repr

/-- A port's transmit time-stamp queue (R331). -/
structure TsQueue where
  /-- up to 64 entries, oldest first; 11_time.md R331; reset empty -/
  ents : List TsEnt := []
  /-- OVF, 64 bits; R335; reset 0 -/
  ovf : Nat := 0
  /-- EXP, 64 bits; R335; reset 0 -/
  exp : Nat := 0
  deriving DecidableEq, Repr

/-- The time unit. -/
structure TimeSt where
  /-- TB0 to TB3; 11_time.md R311; reset as TimeBase -/
  tbs : Tab TimeBase := {}
  /-- phase count, 0 to 24; R312; reset 0 -/
  phase : Nat := 0
  /-- CLK_TS edges since release of BLK_RST_N, the model's measure of time; R312; reset 0 -/
  clk : Nat := 0
  /-- held over since this edge; R321; reset held over, as the root PLL is stopped -/
  holdover : Option Nat := some 0
  /-- pulse outputs; R323; reset as Ppo -/
  ppo : Tab Ppo := {}
  /-- capture inputs; R325; reset as Cap -/
  cap : Tab Cap := {}
  /-- TSU_PPS_CTRL.ENABLE, 1 bit; R326; reset 0 -/
  ppsEn : Bool := false
  /-- TSU_PPS_CTRL.EVENT_EN, 1 bit; R326; reset 0 -/
  ppsEvent : Bool := false
  /-- TSU_PPS_CTRL.COUNT, 16 bits; R326; reset 0 -/
  ppsCount : BitVec 16 := 0
  /-- TBn seconds and nanoseconds at the last 1PPS edge; R326; reset 0 -/
  ppsAt : Tab (Nat × Nat) := {}
  /-- TSU_PPS_HI[n], 48 bits; R326; reset 0 -/
  ppsHi : Tab Nat := {}
  /-- transmit time-stamp queues by port; R331; reset as TsQueue -/
  tsq : Tab TsQueue := {}
  deriving DecidableEq, Repr

/-! ### Carry (13_carry.md) -/

/-- Carry channel states in the order of R373. -/
inductive CState where
  | idle | wait | validate | active | suspended | fencing | halted
  deriving DecidableEq, Repr

/-- A list element (R360). -/
structure CElem where
  op : Nat
  len : Nat
  src : Nat
  dst : Nat
  deriving DecidableEq, Repr

/-- A beat in a channel's buffer (R363). -/
structure CBeat where
  /-- its first byte, counted from the request's start -/
  pos : Nat
  elem : Nat
  off : Nat
  /-- the bytes read, none while the read is outstanding -/
  a : Option (List Byte) := none
  /-- COMPARE: the second operand's bytes -/
  b : Option (List Byte) := none
  deriving DecidableEq, Repr

/-- A Carry channel (R374). -/
structure Chan where
  /-- ENABLE, 1 bit; 13_carry.md R374; reset 1 -/
  enable : Bool := true
  /-- FENCE, 1 bit; R374; reset 0 -/
  fence : Bool := false
  /-- DONE_IRQ_EN, 1 bit; R374; reset 0 -/
  doneIrq : Bool := false
  /-- ERR_IRQ_EN, 1 bit; R374; reset 0 -/
  errIrq : Bool := false
  /-- PRIO, 2 bits; R374; reset 3 -/
  prio : Nat := 3
  /-- STATE, 3 bits; R374; reset IDLE -/
  state : CState := .idle
  /-- LATE_ERR, 1 bit; R374; reset 0 -/
  lateErr : Bool := false
  /-- DONE, 1 bit; R374; reset 0 -/
  done : Bool := false
  /-- RESULT, 8 bits; R374; reset 0 -/
  result : Nat := 0
  /-- CRY_CH_STATUS.REQ_ID, 16 bits; R374; reset 0 -/
  curReq : Nat := 0
  /-- OWNER; R374; reset 0 -/
  owner : Fn := 0
  /-- CLAIMED, 1 bit; R374; reset 0 -/
  claimed : Bool := false
  /-- LIST, 64 bits; R374; reset 0 -/
  list : Nat := 0
  /-- SRC_PASID, 20 bits; R374; reset 0 -/
  srcPasid : Nat := 0
  /-- DST_PASID, 20 bits; R374; reset 0 -/
  dstPasid : Nat := 0
  /-- CRY_CH_REQ.REQ_ID, 16 bits; R374; reset 0 -/
  reqId : Nat := 0
  /-- COMPL, 64 bits; R374; reset 0 -/
  compl : Nat := 0
  /-- DONE_VEC, 12 bits, none where CARRY_SUBMIT names NONE; R374, R534; reset 0 -/
  doneVec : Option Nat := some 0
  /-- ERR_VEC, 12 bits; R374, R534; reset 0 -/
  errVec : Option Nat := some 0
  /-- ELEM_IDX, 32 bits; R374; reset 0 -/
  elemIdx : Nat := 0
  /-- DONE_BYTES, 64 bits; R374; reset 0 -/
  doneBytes : Nat := 0
  /-- CRY_CH_ERR_ADDR, 64 bits; R374; reset 0 -/
  errAddr : Nat := 0
  /-- CRY_CH_LATE_ADDR, 64 bits; R374; reset 0 -/
  lateAddr : Nat := 0
  /-- CRY_CH_LATE_REQ, 16 bits; R374; reset 0 -/
  lateReq : Nat := 0
  /-- the request was made by CARRY_SUBMIT; R359; reset no -/
  submitted : Bool := false
  /-- state a suspension returns to; R373; reset IDLE -/
  prev : CState := .idle
  /-- suspended by a quench of its owner; R372; reset no -/
  quenched : Bool := false
  /-- elements checked by the first pass; R361; reset none -/
  elems : List CElem := []
  /-- the list as the first pass has read it so far, LINKs too, and the address of the 64 bytes it reads next; R360, R361;
  reset none, 0 -/
  words : List (BitVec 256) := []
  listAt : Nat := 0
  /-- the list's 64-byte reads: address, and elements brought; R361; reset none -/
  lines : List (Nat × Nat) := []
  /-- reads of the second pass that have come back; R361; reset 0 -/
  linesRead : Nat := 0
  /-- next beat to read: element and byte offset in it; R362; reset 0 -/
  rdElem : Nat := 0
  rdOff : Nat := 0
  /-- that beat's first byte, counted from the request's start -/
  rdPos : Nat := 0
  /-- COMPARE: the beat's second operand is to be read next -/
  rdSecond : Bool := false
  /-- operation number of the request: the model's own -/
  grp : Nat := 0
  /-- buffer of 16 beats, oldest first; R363; reset empty -/
  buf : List CBeat := []
  /-- first bytes of writes issued and not answered; R364, R367; reset none -/
  writes : List Nat := []
  /-- bytes whose write has been issued, or whose compare is over; R367; reset 0 -/
  issued : Nat := 0
  /-- a difference found by COMPARE: its byte, counted from the request's start; R366; reset none -/
  mismatch : Option Nat := none
  /-- completion record held by a stop; R369; reset none -/
  heldRec : Option (List Byte) := none
  /-- an abort waits for the responses of writes issued: its status; R372; reset none -/
  ending : Option Nat := none
  deriving DecidableEq, Repr

/-- Carry's global state. -/
structure CarrySt where
  /-- 64 channels; 13_carry.md R374; reset as Chan -/
  chans : Tab Chan := {}
  /-- CRY_GLOBAL.STOPPED, 1 bit; R374; reset 0 -/
  stopped : Bool := false
  /-- CRY_GLOBAL.AUTO_RESUME, 1 bit; R374; reset 1 -/
  autoResume : Bool := true
  /-- CRY_GLOBAL.STOP_COUNT, 16 bits; R374; reset 0 -/
  stopCount : BitVec 16 := 0
  /-- channel that last took a slot; R363; DESIGN CHOICE CH63 (log entry 54) -/
  lastSlot : ChId := 63
  /-- channel that last took a slot of a PRIO and kind, by 2 PRIO, plus 1 for a write slot; R363; DESIGN CHOICE CH63 (log entry 54) -/
  turns : List ChId := [63, 63, 63, 63, 63, 63, 63, 63]
  /-- carry_requests, carry_bytes, carry_preemptions, carry_suspends, carry_stops, carry_late_errors,
  carry_xlt_fails, 64 bits each; R375; reset 0 -/
  cnt : List Nat := [0, 0, 0, 0, 0, 0, 0]
  deriving DecidableEq, Repr

/-! ### The link control processor (14_lcp.md) -/

/-- Thread states in the order of R376. -/
inductive TState where
  | reset | running | waitChannel | waitEvent | haltedDebug | faulted
  deriving DecidableEq, Repr

/-- A thread of the LCP (R376, R391). -/
structure Thread where
  /-- STATE, 3 bits; 14_lcp.md R376, R391; reset RESET, RUNNING for T0 -/
  state : TState := .reset
  /-- state a debug halt left; R386; reset RUNNING -/
  halted : TState := .running
  /-- channel waited on, and whether to write; R381, R391; reset none -/
  waitChn : Option (ChnId × Bool) := none
  /-- a timer or an external event is armed; R383; reset yes -/
  armed : Bool := true
  /-- channel of its partial message; R391; reset none -/
  hold : Option ChnId := none
  /-- HOLD_TIMER in CLK_CTL cycles; R385; reset 0 -/
  holdTimer : Nat := 0
  /-- since when the hold timer runs on, CLK_TS edges, none while it stands; R385; reset none -/
  holdSince : Option Nat := none
  /-- PC, 32 bits, valid while HALTED_DEBUG or FAULTED; R391; reset 0 -/
  pc : Nat := 0
  deriving DecidableEq, Repr

/-- Thread `t` when the LCP starts (R377, R391). -/
def Thread.reset (t : Nat) : Thread := if t = 0 then { state := .running } else {}

/-- An inter-thread channel (R381). -/
structure Chnl where
  /-- closed messages, oldest first, at most 4 of 1 to 8 words of 64 bits; 14_lcp.md R381; reset none -/
  msgs : List (List Word) := []
  /-- the partial message and the thread that writes it; R381; reset none -/
  part : Option (ThreadId × List Word) := none
  deriving DecidableEq, Repr

/-- The link control processor. -/
structure LcpSt where
  /-- T0 to T7; 14_lcp.md R376; reset as Thread.reset -/
  threads : Tab Thread := {}
  /-- CHN0 to CHN31; R381; reset empty -/
  chnls : Tab Chnl := {}
  /-- threads with a fault notice posted to T0, oldest first; R379; reset none -/
  notices : List ThreadId := []
  /-- DBG_CTRL.ENABLE, 1 bit; R391; reset 0 -/
  enable : Bool := false
  /-- DBG_LCP_STATUS.LAST_CAUSE, 3 bits; R391; reset 0 -/
  lastCause : Nat := 0
  /-- DBG_LCP_STATUS.RESTARTS, 8 bits; R391; reset 0 -/
  restarts : BitVec 8 := 0
  /-- DBG_LCP_STATUS.THREAD_RESTARTS, 16 bits; R391; reset 0 -/
  threadRestarts : BitVec 16 := 0
  /-- DBG_LAST_RESTART.TIME, 64 bits; R391; reset 0 -/
  lastRestart : Nat := 0
  /-- the chip's debug policy allows LCP debug, an input; R386; PRESUMED yes (log entry 4) -/
  policy : Bool := true
  /-- time of READY's last rise, 02_control.md R55; CLK_TS edges; reset 0 -/
  readyAt : Nat := 0
  /-- contents of RB0 to RB3, LCP memory, each bank's bytes as one number; 01_engine.md R23, 14_lcp.md R388;
  DESIGN CHOICE 0 (log entry 71) -/
  banks : List Nat := [0, 0, 0, 0]
  /-- contents of RB27, spare for firmware use, as one number; R23; DESIGN CHOICE 0 (log entry 71) -/
  spare : Nat := 0
  deriving DecidableEq, Repr

/-! ### Power (16_power.md) -/

/-- The power states, coded as PWR_STATUS.STATE (R411, R432). -/
inductive PwrState where
  | run | doze | watch | off
  deriving DecidableEq, Repr

/-- PWR_STATUS.STEP (R432). -/
inductive PwrStep where
  | none | e1 | e2 | e3 | e4 | e5 | waking
  deriving DecidableEq, Repr

/-- Steps of a wake (R423). -/
inductive WakeStep where
  | pll | power | control | check | start
  deriving DecidableEq, Repr

/-- Where a power request came from (R414). -/
inductive PwrSrc where
  | powerSet
  | pwrReq (tag : Fin 16)
  | wake (code : Nat)
  deriving DecidableEq, Repr

/-- PWR_LAST_WAKE and PWR_LAST_WAKE_TIME (R432). -/
structure LastWake where
  source : Nat := 0
  from_ : Nat := 0
  pattern : Nat := 0
  port : Nat := 0
  abort : Nat := 0
  holdover : Bool := false
  time : Nat := 0
  deriving DecidableEq, Repr

/-- An abort awaited by an entry: cause 1 wake, 2 fault, 3 drain timeout; the wake source (R419). -/
structure Abort where
  cause : Nat
  code : Nat := 0
  deriving DecidableEq, Repr

/-- The power controller. -/
structure PwrSt where
  /-- PWR_STATUS.STATE, 2 bits; 16_power.md R432; reset RUN -/
  state : PwrState := .run
  /-- PWR_STATUS.STEP, 3 bits; R432; reset 0 -/
  step : PwrStep := .none
  /-- step of the wake in progress; R423; reset none -/
  wakeStep : Option WakeStep := none
  /-- PWR_STATUS.TARGET, 2 bits; R432; reset RUN -/
  target : PwrState := .run
  /-- PWR_STATUS PENDING, PENDING_TARGET, PENDING_SRC; R432; reset none -/
  pend : Option (PwrState × PwrSrc) := none
  /-- requests that the transition in progress answers; R416; reset none -/
  waiters : List PwrSrc := []
  /-- the abort an entry waits for, and the RUN requests it answers; R416, R419; reset none -/
  abort : Option Abort := none
  runWaiters : List PwrSrc := []
  /-- a wake waits for the end of E5; R420; reset none -/
  late : Option (Nat × Nat × Nat) := none
  /-- PWR_REQ requests unanswered: their tags; R506; reset none -/
  tags : List (Fin 16) := []
  /-- PWR_WAKE_EN, 6 bits; R432; reset 0b111110 -/
  wakeEn : BitVec 6 := 0b111110
  /-- PWR_WATCH_CFG.PORT, 4 bits; R432; reset 0 -/
  watchPort : PortId := 0
  /-- PWR_WATCH_CFG.PERIOD_MS, 16 bits; R432; reset 100 -/
  periodMs : Nat := 100
  /-- PWR_WATCH_CFG.WINDOW_US, 26 bits; R432; reset 2,000 -/
  windowUs : Nat := 2000
  /-- PWR_TIMER.WAKE_AT, 64 bits; R432; reset 0 -/
  wakeAt : Nat := 0
  /-- PWR_LAST_WAKE and PWR_LAST_WAKE_TIME; R432; reset 0 -/
  last : LastWake := {}
  /-- PWR_RET_STATUS.LOST, 28 bits; R432; reset 0 -/
  lost : BitVec 28 := 0
  /-- PWR_RET_STATUS.RESTORED, 28 bits; R432; reset 0 -/
  restored : BitVec 28 := 0
  /-- PWR_RET_SIG SIG and VALID of RB0 to RB27; R432; reset 0 -/
  sigs : Tab (Option (BitVec 32)) := {}
  /-- banks LOST and not yet recovered; R428; reset none -/
  recover : List BankId := []
  /-- the port grouping copy: the port of each slot; R428; reset none -/
  grouping : Option (List Nat) := none
  /-- the watch port was in UP at E1; R425; reset no -/
  watchUp : Bool := false
  /-- ports in UP at the switch; R413; reset none -/
  wasUp : List PortId := []
  /-- the watch window is open; R425; reset no -/
  window : Bool := false
  /-- time of the present window's start, CLK_TS edges; R425; reset 0 -/
  windowAt : Nat := 0
  /-- the sampler's copy of the watch port's wake patterns; R425; reset none -/
  patterns : List WakePat := []
  /-- admission is closed by an entry; R418; reset no -/
  closed : Bool := false
  /-- domains powered: PD_CTL, PD_DMA, PD_PIPE, PD_MAC, PD_SCH, PD_BUF0 to PD_BUF3, PD_RET; R411; reset off until S2 ends (R473) -/
  ctlOn : Bool := false
  restOn : Bool := false
  retOn : Bool := false
  /-- the root PLL and its clocks run; 01_engine.md R20; reset stopped until S1 ends (R473) -/
  pll : Bool := false
  /-- E1 of the entry in progress has begun; R417; reset no -/
  begun : Bool := false
  /-- pwr_entries, pwr_aborts, pwr_superseded, pwr_rx_discards, pwr_banks_lost, pwr_banks_restored,
  64 bits each; R433; reset 0 -/
  cnt : List Nat := [0, 0, 0, 0, 0, 0]
  deriving DecidableEq, Repr

/-! ### Pairs (17_pair.md) -/

/-- Pair states (R451), in its order. -/
inductive PairState where
  | unpaired | forming | active | activeAlone | fenced | standby | standbyStale
  deriving DecidableEq, Repr

/-- LEASE_LOC (R435). -/
inductive LeaseLoc where
  | chip
  | host (addr : Nat) (pasid : Nat)
  deriving DecidableEq, Repr

/-- What a lease access outstanding is for (R437, R440, R441, R447). -/
inductive LeaseOp where
  | init | renew | claim | handover
  deriving DecidableEq, Repr

/-- A write held by R443: the access and the journal record that covers it; interrupts likewise. -/
structure HeldWrite where
  acc : Acc
  n : BitVec 32
  deriving DecidableEq, Repr

/-- The pair link controller. -/
structure PairSt where
  /-- PAIR_ID, 64 bits; 17_pair.md R435; reset 0 -/
  pairId : Nat := 0
  /-- ROLE ACTIVE; R435; no reset value given: DESIGN CHOICE ACTIVE (log entry 3) -/
  roleActive : Bool := true
  /-- LEASE_LOC; R435; reset CHIP -/
  lease : LeaseLoc := .chip
  /-- FAILOVER_PORTS, 16 bits; R435; reset 0 -/
  failPorts : BitVec 16 := 0
  /-- AUTO_RESYNC, 1 bit; R435; reset ON -/
  autoResync : Bool := true
  /-- WAKE_SEV; R435; reset 3 -/
  wakeSev : Nat := 3
  /-- pair state; R451; reset UNPAIRED -/
  state : PairState := .unpaired
  /-- step of R437 reached, 1 to 7; reset 0 -/
  formStep : Nat := 0
  /-- a resynchronisation runs (R449); reset no -/
  resync : Bool := false
  /-- a copy has been restarted (R437 step 6); reset no -/
  copyAgain : Bool := false
  /-- EPOCH, 32 bits; R439; reset 0 -/
  epoch : BitVec 32 := 0
  /-- COUNT, 16 bits; R439; reset 0 -/
  count : BitVec 16 := 0
  /-- last value of the lease word read or written; R439; reset 0 -/
  word : BitVec 64 := 0
  /-- lease access outstanding; R439; reset none -/
  op : Option LeaseOp := none
  /-- the value it writes, and the time it was sent, CLK_TS edges; R439, R440; reset 0 -/
  opWord : BitVec 64 := 0
  opAt : Nat := 0
  /-- retries of a claim; R444; reset 0 -/
  tries : Nat := 0
  /-- standby: time of the first read that showed EPOCH and COUNT, CLK_TS edges; R441; reset 0 -/
  seenAt : Option Nat := none
  /-- active: time of the last successful renewal, CLK_TS edges; R440; reset 0 -/
  renewed : Nat := 0
  /-- heartbeats sent: the sequence number; R504; reset 0 -/
  hbSeq : BitVec 32 := 0
  /-- partner's last heartbeat: its sequence number and time, CLK_TS edges; R448, R504; reset none -/
  hbLast : Option (BitVec 32 × Nat) := none
  /-- HELLOs sent: the sequence number; R504; reset 0 -/
  helloSeq : BitVec 32 := 0
  /-- 16 consecutive heartbeats missed; R441, R449; reset no -/
  lostLink : Bool := false
  /-- partner's ENGINE_ID; R454; reset 0 -/
  partnerId : Nat := 0
  /-- the partner may be a gated standby: its heartbeats have stopped; R450; reset no -/
  partnerGated : Bool := false
  /-- WAKE has been sent to it since; R450; reset no -/
  wakeSent : Bool := false
  /-- the loss of the active has been reported in STANDBY_STALE; R441; reset no -/
  staleTold : Bool := false
  /-- time offset to the partner in ns, signed; R454; reset 0 -/
  offset : Int := 0
  /-- last journal record sent; R442, R454; reset 0 -/
  sent : BitVec 32 := 0
  /-- last journal record acknowledged; R442, R454; reset 0 -/
  acked : BitVec 32 := 0
  /-- records sent and not acknowledged, with the time each was sent, CLK_TS edges; R442, R443; reset none -/
  unacked : List (BitVec 32 × Nat) := []
  /-- changes of the present journal period; R442; reset none -/
  changes : List JChange := []
  /-- standby: last record applied; R442; reset 0 -/
  applied : BitVec 32 := 0
  /-- standby: records buffered during a copy; R437; reset none -/
  buffered : List (BitVec 32 × List JChange) := []
  /-- a change of the partner's is being applied: the model's own; reset no -/
  applying : Bool := false
  /-- completion, event and record writes held; R443; reset none -/
  held : List HeldWrite := []
  /-- interrupt messages held; R443; reset none -/
  heldIrq : List (Fn × Nat × BitVec 32) := []
  /-- next bank to copy, and banks acknowledged; R437; reset 0 -/
  copyNext : Nat := 0
  copyAcked : List BankId := []
  /-- a handover runs: what asked for it, false PAIR_SWITCHOVER or a port, true the FAILOVER reaction; R447 -/
  handover : Option Bool := none
  /-- pair_takeovers, pair_handovers, pair_resyncs, pair_heartbeat_misses, pair_standby_discards,
  pair_standby_writes, 64 bits each; R454; reset 0 -/
  cnt : List Nat := [0, 0, 0, 0, 0, 0]
  deriving DecidableEq, Repr

/-! ### Tally (18_tally.md) -/

/-- Directions and origins of Tally's events (R457, R458). -/
inductive TDir where
  | rx | tx
  deriving DecidableEq, Repr

/-- Origins (R459). -/
inductive TOrig where
  | host | firmware
  deriving DecidableEq, Repr

/-- An event that reaches Tally (R457). -/
structure TEvent where
  /-- class in bits [11:8], event in [7:0] -/
  code : Nat
  inc : Nat := 1
  port : Option PortId := none
  tc : Option Tc := none
  dir : Option TDir := none
  fn : Option Fn := none
  orig : Option TOrig := none
  addr : Option Nat := none
  deriving DecidableEq, Repr

/-- A general counter (R471). -/
structure TCnt where
  /-- TLY_CNT.VALUE, 48 bits; 18_tally.md R471; reset 0 -/
  value : BitVec 48 := 0
  /-- TLY_SHD.VALUE, 48 bits; R471; reset 0 -/
  shadow : BitVec 48 := 0
  /-- EVENT, 12 bits; R471; reset 0 -/
  event : Nat := 0
  /-- ENABLE, 1 bit; R471; reset 0 -/
  enable : Bool := false
  /-- CHAIN, 1 bit; R471; reset 0 -/
  chain : Bool := false
  /-- OVF_IRQ, 1 bit; R471; reset 0 -/
  ovfIrq : Bool := false
  /-- DIR, 2 bits; R471; reset 0 -/
  dir : Nat := 0
  /-- ORIGIN, 2 bits; R471; reset 0 -/
  origin : Nat := 0
  /-- TC_MASK, 8 bits; R471; reset 0xFF -/
  tcMask : BitVec 8 := 0xFF
  /-- PORT_MASK, 16 bits; R471; reset 0xFFFF -/
  portMask : BitVec 16 := 0xFFFF
  /-- FUNC_LO, 11 bits; R471; reset 0 -/
  funcLo : Nat := 0
  /-- FUNC_HI, 11 bits; R471; reset 2,047 -/
  funcHi : Nat := 2047
  /-- FUNC_EN, 1 bit; R471; reset 0 -/
  funcEn : Bool := false
  /-- ADDR_EN, 1 bit; R471; reset 0 -/
  addrEn : Bool := false
  /-- TLY_ADDR_LO, 64 bits; R471; reset 0 -/
  addrLo : Nat := 0
  /-- TLY_ADDR_HI, 64 bits; R471; reset all ones -/
  addrHi : Nat := 0xFFFFFFFFFFFFFFFF
  deriving DecidableEq, Repr

/-- One direction of a bandwidth window's accumulators (R468). -/
structure BwAcc where
  octets : Nat := 0
  frames : Nat := 0
  /-- byte-times by class, in the class order of R472 -/
  times : List Nat := [0, 0, 0, 0, 0]
  deriving DecidableEq, Repr

/-- A port's bandwidth window accumulators (R468). -/
structure BwPort where
  tx : BwAcc := {}
  rx : BwAcc := {}
  thin : Bool := false
  notUp : Bool := false
  deriving DecidableEq, Repr

/-- Slot accounting of one direction of a port (R472). -/
structure SlotAcc where
  /-- RETIRED, WASTED, STARVED_FRONT, STARVED_BACK, IDLE, 64 bits each; 18_tally.md R472; reset 0 -/
  times : List Nat := [0, 0, 0, 0, 0]
  /-- their shadows; R472; reset 0 -/
  shadows : List Nat := [0, 0, 0, 0, 0]
  /-- byte-times classed ahead of the clock, less those of a frame in progress: the model's own (log entry 20) -/
  ahead : Int := 0
  deriving DecidableEq, Repr

/-- Tally. -/
structure TallySt where
  /-- TLY_CTRL.FREEZE and TLY_STATUS.FROZEN, 1 bit; 18_tally.md R470; reset 0 -/
  freeze : Bool := false
  /-- OVF_IRQ_EN, 1 bit; R470; reset 0 -/
  ovfIrqEn : Bool := false
  /-- FREEZE_SEV, 3 bits; R470; reset 0 -/
  freezeSev : Nat := 0
  /-- VECTOR, 12 bits; R470; reset 0 -/
  vector : Nat := 0
  /-- BY_FAULT, 1 bit; R470; reset 0 -/
  byFault : Bool := false
  /-- FAULT_SRC, 6 bits; R470; reset 0 -/
  faultSrc : Nat := 0
  /-- SNAP_COUNT, 32 bits; R470; reset 0 -/
  snapCount : BitVec 32 := 0
  /-- TLY_SNAP_TIME, 64 bits; R470; reset 0 -/
  snapTime : Nat := 0
  /-- TLY_FREEZE_TIME, 64 bits; R470; reset 0 -/
  freezeTime : Nat := 0
  /-- TLY_OVF[0] to TLY_OVF[3], 256 bits; R470; reset 0 -/
  ovf : BitVec 256 := 0
  /-- counters 0 to 255; R471; reset as TCnt -/
  cnts : Tab TCnt := {}
  /-- slot accounting, index 2 × port, plus 1 for receive; R472; reset 0 -/
  slots : Tab SlotAcc := {}
  /-- events that have reached Tally since the last CLK_CTL edge, oldest first; R456; reset none -/
  queue : List TEvent := []
  /-- TLY_BW_CTRL.EN, 1 bit; R472; reset 0 -/
  bwEn : Bool := false
  /-- PORT_MASK, 16 bits, as written; R472; reset 0 -/
  bwMask : BitVec 16 := 0
  /-- WINDOW_US, 20 bits, as written; R472; reset 1,000 -/
  bwWindow : Nat := 1000
  /-- PORT_MASK and WINDOW_US in effect since the last boundary; R467; reset 0 and 1,000 -/
  bwMaskNow : BitVec 16 := 0
  bwWindowNow : Nat := 1000
  /-- TLY_BW_RING_BASE.BASE, 64 bits; R472; reset 0 -/
  bwBase : Nat := 0
  /-- FUNC, 11 bits; R472; reset 0 -/
  bwFn : Fn := 0
  /-- PASID, 20 bits; R472; reset 0 -/
  bwPasid : Nat := 0
  /-- SIZE_LOG2, 5 bits; R472; reset 6 -/
  bwSize : Nat := 6
  /-- TLY_BW_DROPS.DROPS, 64 bits; R472; reset 0 -/
  bwDrops : Nat := 0
  /-- TLY_BW_SEQ.SEQ, 32 bits; R472; reset 0 -/
  bwSeq : BitVec 32 := 0
  /-- entries written in the ring since EN: position and PHASE; R160, R468; reset 0 -/
  bwCount : Nat := 0
  /-- bandwidth accumulators by port; R467; reset 0 -/
  bw : Tab BwPort := {}
  deriving DecidableEq, Repr

/-! ### Start-up and reset (19_startup.md) -/

/-- Where the engine stands in its start sequence (R473) or an engine reset (R478). -/
inductive Phase where
  /-- BLK_RST_N is low (R484) -/
  | held
  | s1 | s2 | s3 | s4 | s6 | s7
  /-- S8 has been reached -/
  | ready
  /-- start-up stopped before S8 (R473, R476) -/
  | stopped
  /-- X2: DMA responses still due are discarded (R478) -/
  | x2
  deriving DecidableEq, Repr

/-- Causes of a start (R480, R522). -/
inductive StartCause where
  | powerOn | wakeOff | command | fault (src : Nat)
  deriving DecidableEq, Repr

/-- How an engine reset is still to begin (R401, R477). -/
inductive ResetDue where
  /-- the drain of a GRACEFUL reset runs -/
  | graceful
  /-- the handover of a FAILOVER reaction runs, for an event of this source -/
  | failover (src : Nat)
  deriving DecidableEq, Repr

/-- The start-up record and the packet buffer's areas. -/
structure StartSt where
  /-- step of the start sequence; 19_startup.md R473; reset S1 -/
  phase : Phase := .s1
  /-- CAUSE and SOURCE; R480, R522; reset POWER_ON -/
  cause : StartCause := .powerOn
  /-- START_TIME, TB0 linear ns; R480; reset 0 -/
  started : Nat := 0
  /-- END_S1 to END_S8, TB0 linear ns; R480, R522; reset 0 -/
  ends : List Nat := [0, 0, 0, 0, 0, 0, 0, 0]
  /-- TRIAL: 0 none, 1 passed, 2 failed; R480, R522; reset 0 -/
  trial : Nat := 0
  /-- the slot being booted is a trial; R390; reset no -/
  trying : Bool := false
  /-- self-test results; R476, R522; reset all passed -/
  tests : SelfTest := { pbBanks := 0, retBanks := 0, tcam := 0, mems := 0, slots := 0, vectors := 0 }
  /-- an engine reset that waits for a drain or a handover; R401, R477; reset none -/
  due : Option ResetDue := none
  /-- KITTY_SIZE in bytes; 04_wire.md R120; reset 0 -/
  kittySize : Nat := 0
  /-- KITTY_OVERSUB, 1 bit; 04_wire.md R122; reset no -/
  oversub : Bool := false
  /-- lines of the shared frame area held by transmit frames; 01_engine.md R22; reset 0 -/
  txLines : Nat := 0
  /-- bytes of the parking area held; R22, R213; reset 0 -/
  parkedBytes : Nat := 0
  /-- position of the slot calendar that beat 0 holds: not stated, the model's own (R70, log entry 72); DESIGN CHOICE 0 -/
  calPhase : Fin 16 := 0
  deriving DecidableEq, Repr

/-! ### What leaves at the edge (20_edge_signals.md) -/

/-- What the engine sends at an interface within one command. -/
inductive Out where
  /-- IRQ_MSG: function and local vector (R500) -/
  | irq (f : Fn) (v : Nat)
  /-- CSR_T response: RDATA (R499) -/
  | csr (f : Fn) (data : Word)
  /-- the first beat of a data frame, of a length with FCS (R485) -/
  | txStart (p : PortId) (q : TxqId) (len : Nat)
  /-- its last beat: MI_TX_ERR where stomped (R485) and the bytes on the wire, FCS included -/
  | txEnd (p : PortId) (stomped : Bool) (bytes : List Byte)
  /-- a trump frame (R118), FCS included -/
  | trump (p : PortId) (bytes : List Byte)
  /-- MI_CTL (R489) -/
  | miCtl (p : PortId) (c : MiCmd) (arg : Nat)
  /-- TRANSLATE (R495) -/
  | translate (tag : Fin 512) (f : Fn) (pasid : Nat) (vpn : Nat) (write : Bool)
  /-- PAGE_REQ (R495) -/
  | pageReq (group : Fin 512) (f : Fn) (pasid : Nat) (vpn : Nat) (write : Bool) (last : Bool)
  /-- INV_ACK (R495) -/
  | invAck (tag : Fin 32)
  /-- a request on a DMA master port (R491) -/
  | dma (port : Fin 4) (tag : Fin 1024) (acc : Acc)
  /-- a unit on SP_0 or SP_1: member engine, metadata and bytes (R497) -/
  | stream (sp : Fin 2) (dest : Fin 8) (info : List Byte) (bytes : List Byte)
  /-- SP_RCIRC credits (R498) -/
  | rcircCredit (n : Nat)
  /-- PWR_ACK (R506) -/
  | pwrAck (tag : Fin 16) (status : Nat)
  /-- TS_PPO level (R324) -/
  | pulse (k : Fin 8) (high : Bool)
  /-- a module bus write of the engine's own: register group, value (R80, R82) -/
  | module (c : Cage) (what : Nat) (v : Nat)
  /-- MOD_RST_N pulsed low (R76) -/
  | modPulse (c : Cage)
  /-- MODULE_ACCESS's transaction: page, bank, offset and the bytes written, none for a read (R84) -/
  | modAccess (c : Cage) (page bank off len : Nat) (w : Option (List Byte))
  /-- pair messages (R504) -/
  | pairWake
  | pairHandover (epoch : BitVec 32)
  | pairHeartbeat (seq : BitVec 32) (epoch : BitVec 32) (echo : Option (BitVec 32))
  | pairHello (seq : BitVec 32)
  | pairJournal (n : BitVec 32) (chg : List JChange)
  | pairJournalAck (n : BitVec 32)
  | pairCopy (b : BankId)
  | pairCopyAck (b : BankId)
  /-- a lease compare-and-swap: compare and swap values (R439, R492) -/
  | leaseCas (old new : BitVec 64)
  /-- a message leaves a channel to a thread (R381) -/
  | message (t : ThreadId) (words : List Word)
  /-- DBG port status and data (R507) -/
  | dbg (status : Nat) (data : Word)
  deriving DecidableEq, Repr

/-! ### The whole -/

/-- Image slot states, coded as FW_INFO_GET codes them (R535). -/
inductive ImgState where
  | empty | active | previous | pending | bad
  deriving DecidableEq, Repr

/-- An image slot of the boot store (R388 to R390). -/
structure ImgSlot where
  /-- state; 14_lcp.md R390; at reset as the boot store holds it, PRESUMED (log entry 4) -/
  state : ImgState := .empty
  /-- version and security version; R390, R535; as the boot store holds them -/
  version : BitVec 32 := 0
  secVersion : BitVec 32 := 0
  deriving DecidableEq, Repr

/-- The boot store's slots A and B (R388) and the slot that runs. -/
structure Boot where
  /-- slot A; 14_lcp.md R388; PRESUMED ACTIVE (log entry 4) -/
  a : ImgSlot := { state := .active }
  /-- slot B; R388; PRESUMED EMPTY (log entry 4) -/
  b : ImgSlot := {}
  /-- the slot being booted or running is B; R391; reset A -/
  runB : Bool := false
  deriving DecidableEq, Repr

/-- The cycle budget in PD_AON (R430). -/
structure Budget where
  /-- CREDITS, 14 bits; 16_power.md R430, R432; reset 10,000 -/
  credits : Nat := 10000
  /-- time of the last credit, CLK_TS edges: NEXT_MS counts from it, 6,000 at reset; R430, R432; reset 0 -/
  since : Nat := 0
  deriving DecidableEq, Repr

/-- Everything but the queue of commands, the boot store and the cycle budget. -/
structure Eng where
  /-- F0 to F2047; 06_rings.md R153; reset as FnState.reset -/
  fns : Tab FnState := {}
  /-- engine-wide control; 02_control.md -/
  ctl : CtlSt := {}
  /-- fault collector; 15_faults.md -/
  flt : FltSt := {}
  /-- translation and DMA; 07_translation.md, 20_edge_signals.md -/
  dma : DmaSt := {}
  /-- transmit queues that exist, by global number; 06_rings.md R161; reset none -/
  txqs : Tab (Option Txq) := {}
  /-- receive rings that exist, by global number; R172; reset none -/
  rxqs : Tab (Option Rxq) := {}
  /-- event queues that exist, by global number; R181; reset none -/
  eqs : Tab (Option Evq) := {}
  /-- 4,096 interrupt vectors; R186; reset as VecState -/
  vecs : Tab VecState := {}
  /-- interrupt messages waiting for IRQ_MSG_RDY, oldest first; 20_edge_signals.md R500; reset none -/
  irqs : List (Fn × Nat) := []
  /-- IRQ_MSG_RDY is held at 0: an episode of R500; reset no -/
  irqStall : Bool := false
  /-- MI_TX_HOLD, an input, 16 bits, one per slot; R487; PRESUMED low (log entry 4) -/
  txHold : BitVec 16 := 0
  /-- ports by lowest slot; 03_ports_partners.md R66; reset as Port.reset -/
  ports : Tab Port := {}
  /-- slots P0 to P15; R66; reset as SlotSt.reset -/
  slots : Tab SlotSt := {}
  /-- cages 0 to 15; R76; reset EMPTY -/
  cages : Tab CageSt := {}
  /-- the receive pipeline; 08_receive_steering.md R220 -/
  steer : SteerSt := {}
  /-- the Dealer; 10_dealer.md -/
  dealer : DealerSt := {}
  /-- offloads and trailers; 09_offloads.md -/
  off : OffSt := {}
  /-- time unit; 11_time.md -/
  time : TimeSt := {}
  /-- Carry; 13_carry.md -/
  carry : CarrySt := {}
  /-- link control processor; 14_lcp.md -/
  lcp : LcpSt := {}
  /-- power controller; 16_power.md -/
  pwr : PwrSt := {}
  /-- pair link controller; 17_pair.md -/
  pair : PairSt := {}
  /-- Tally; 18_tally.md -/
  tally : TallySt := {}
  /-- start-up; 19_startup.md -/
  start : StartSt := {}
  /-- next receive frame number: the model's own -/
  nextRx : Nat := 0
  /-- free values used so far: the model's own field (log entry 1); DESIGN CHOICE 0 -/
  free : Nat := 0
  /-- what left the engine in the last command, oldest first: the model's own (log entry 5) -/
  outs : List Out := []
  deriving DecidableEq, Repr

/-- The state of the block. -/
structure State where
  /-- commands waiting, first in, first out: the model's own; reset empty -/
  pending : List Instr := []
  /-- boot store; 14_lcp.md R388 -/
  boot : Boot := {}
  /-- cycle budget; 16_power.md R430 -/
  budget : Budget := {}
  /-- the engine -/
  eng : Eng := {}
  deriving DecidableEq, Repr

/-- The machine right after release of BLK_RST_N: step S1 of R473 has begun. -/
def State.reset : State := {}

end Sys2Proof.Machine
end

