-- ==== Sys2Proof/Machine/Tables.lean ====
section
/-! DEFINITION. Tables.lean: reading and writing a sparse table, and per-class lists. -/
namespace Sys2Proof.Machine

/-- The entry listed for key `k`. -/
def Tab.look {α : Type} : List (Nat × α) → Nat → Option α
  | [], _ => none
  | (a, v) :: t, k => if k = a then some v else Tab.look t k

/-- The list with `v` at key `k`, keys rising. -/
def Tab.ins {α : Type} : List (Nat × α) → Nat → α → List (Nat × α)
  | [], k, v => [(k, v)]
  | (a, w) :: t, k, v =>
    if k < a then (k, v) :: (a, w) :: t
    else if k = a then (k, v) :: t
    else (a, w) :: Tab.ins t k v

/-- The list without key `k`. -/
def Tab.del {α : Type} : List (Nat × α) → Nat → List (Nat × α)
  | [], _ => []
  | (a, w) :: t, k => if k = a then Tab.del t k else (a, w) :: Tab.del t k

/-- The value at key `k`, where an absent key reads as `d`. -/
def Tab.get {α : Type} (t : Tab α) (d : α) (k : Nat) : α := (Tab.look t.rows k).getD d

/-- The table with `v` at key `k`: a value equal to `d` is not listed. -/
def Tab.put {α : Type} [DecidableEq α] (t : Tab α) (d : α) (k : Nat) (v : α) : Tab α :=
  if v = d then ⟨Tab.del t.rows k⟩ else ⟨Tab.ins t.rows k v⟩

/-- Keys rise strictly, all at least `lo`. -/
def Tab.rising {α : Type} : Nat → List (Nat × α) → Bool
  | _, [] => true
  | lo, (a, _) :: t => decide (lo ≤ a) && Tab.rising (a + 1) t

/-- The table is in its canonical form for defaults `d k`. -/
def Tab.wf {α : Type} [DecidableEq α] (t : Tab α) (d : Nat → α) : Bool :=
  Tab.rising 0 t.rows && t.rows.all (fun r => decide (r.2 ≠ d r.1))

/-- Value `i` of a list, or `d`. -/
def nth {α : Type} (l : List α) (i : Nat) (d : α) : α := l.getD i d

/-- The list with value `i` replaced. -/
def setNth {α : Type} : List α → Nat → α → List α
  | [], _, _ => []
  | _ :: t, 0, v => v :: t
  | a :: t, i + 1, v => a :: setNth t i v

/-- The list with value `i` changed. -/
def modNth {α : Type} : List α → Nat → (α → α) → List α
  | [], _, _ => []
  | a :: t, 0, f => f a :: t
  | a :: t, i + 1, f => a :: modNth t i f

/-- The numbers `0` to `n - 1`. -/
def upTo (n : Nat) : List Nat := List.range n

/-- The first value that passes, with the list without it. -/
def takeFirst {α : Type} (p : α → Bool) : List α → Option (α × List α)
  | [] => none
  | a :: t =>
    if p a then some (a, t)
    else match takeFirst p t with
      | some (b, r) => some (b, a :: r)
      | none => none

end Sys2Proof.Machine
end

