-- ==== Sys2Proof/Machine/Bits.lean ====
section
/-! DEFINITION. Bits.lean: bit fields, byte order, checksums and hashes. -/
namespace Sys2Proof.Machine

/-- Bits `[lo + w - 1 : lo]` of a number. -/
def fld (v lo w : Nat) : Nat := (v >>> lo) % 2 ^ w

/-- Bit `i` of a number. -/
def bitAt (v i : Nat) : Bool := (v >>> i) % 2 == 1

/-- A bit as a number. -/
def b2n (b : Bool) : Nat := if b then 1 else 0

/-- Fields packed from bit 0 up: value and width. -/
def pack : List (Nat × Nat) → Nat
  | [] => 0
  | (v, w) :: t => v % 2 ^ w + 2 ^ w * pack t

/-- `w`-bit two's complement as an integer. -/
def signed (w v : Nat) : Int := if v % 2 ^ w < 2 ^ (w - 1) then (v % 2 ^ w : Nat) else (v % 2 ^ w : Nat) - (2 ^ w : Nat)

/-- An integer as `w`-bit two's complement. -/
def unsigned (w : Nat) (i : Int) : Nat := (i % (2 ^ w : Nat)).toNat

/-- 64-bit counters stop at their maximum (R127). -/
def sat64 (n : Nat) : Nat := min n 18446744073709551615

/-- `n` bytes, little-endian (R4). -/
def bytesLE : Nat → Nat → List Byte
  | 0, _ => []
  | n + 1, v => BitVec.ofNat 8 v :: bytesLE n (v / 256)

/-- `n` bytes, network order. -/
def bytesBE (n v : Nat) : List Byte := (bytesLE n v).reverse

/-- Little-endian bytes as a number (R4). -/
def ofLE : List Byte → Nat
  | [] => 0
  | b :: t => b.toNat + 256 * ofLE t

/-- Bytes in network order as a number. -/
def ofBE (bs : List Byte) : Nat := ofLE bs.reverse

/-- Byte `i`, zero beyond the end. -/
def u8 (bs : List Byte) (i : Nat) : Nat := (bs.getD i 0).toNat

/-- The 16-bit network-order number at byte `i`. -/
def u16 (bs : List Byte) (i : Nat) : Nat := u8 bs i * 256 + u8 bs (i + 1)

/-- The 32-bit network-order number at byte `i`. -/
def u32 (bs : List Byte) (i : Nat) : Nat := u16 bs i * 65536 + u16 bs (i + 2)

/-- `n` bytes from byte `i`. -/
def slice (bs : List Byte) (i n : Nat) : List Byte := (bs.drop i).take n

/-- The bytes with `new` written from byte `i` on. -/
def patch (bs : List Byte) (i : Nat) (new : List Byte) : List Byte :=
  bs.take i ++ (new ++ bs.drop (i + new.length)).take (bs.length - i)

/-- The bytes with `new` inserted before byte `i`. -/
def insertAt (bs : List Byte) (i : Nat) (new : List Byte) : List Byte := bs.take i ++ new ++ bs.drop i

/-- `n` zero bytes. -/
def zeros (n : Nat) : List Byte := List.replicate n 0

/-- One step of a reflected CRC. -/
def crcBit (poly c : Nat) : Nat := if c % 2 = 1 then (c / 2) ^^^ poly else c / 2

/-- `n` steps of a reflected CRC. -/
def crcBits (poly : Nat) : Nat → Nat → Nat
  | 0, c => c
  | n + 1, c => crcBits poly n (crcBit poly c)

/-- The CRC register after more bytes. -/
def crcRun (poly : Nat) : Nat → List Byte → Nat
  | c, [] => c
  | c, b :: t => crcRun poly (crcBits poly 8 (c ^^^ b.toNat)) t

/-- CRC-32 of IEEE 802.3 over the bytes (R94). -/
def crc32 (bs : List Byte) : Nat := crcRun 0xEDB88320 0xFFFFFFFF bs ^^^ 0xFFFFFFFF

/-- CRC-32C over the bytes (R251). -/
def crc32c (bs : List Byte) : Nat := crcRun 0x82F63B78 0xFFFFFFFF bs ^^^ 0xFFFFFFFF

/-- The FCS of a frame, first byte first (R94). -/
def fcsBytes (bs : List Byte) : List Byte := bytesLE 4 (crc32 bs)

/-- The sum of 16-bit network-order words, an odd last byte padded with zero. -/
def sum16 : List Byte → Nat
  | [] => 0
  | [a] => a.toNat * 256
  | a :: b :: t => a.toNat * 256 + b.toNat + sum16 t

/-- A sum folded to 16 bits with end-around carry. -/
def fold16 (s : Nat) : Nat :=
  let a := s % 65536 + s / 65536
  let b := a % 65536 + a / 65536
  b % 65536 + b / 65536

/-- One Toeplitz step: the 32 key bits at bit `i` where the input bit is set. -/
def toepBits (key : Nat) (b : Nat) (i : Nat) : Nat → Nat
  | 0 => 0
  | n + 1 =>
    (if bitAt b n then fld key (320 - 32 - (i + 7 - n)) 32 else 0) ^^^ toepBits key b i n

/-- Toeplitz over bytes, from input bit `i` on. -/
def toepRun (key : Nat) : Nat → List Byte → Nat
  | _, [] => 0
  | i, b :: t => toepBits key b.toNat i 8 ^^^ toepRun key (i + 8) t

/-- The 32-bit Toeplitz hash with a 40-byte key (R247). -/
def toeplitz (key input : List Byte) : Nat := toepRun (ofBE key) 0 input

/-- Ceiling division. -/
def ceilDiv (a b : Nat) : Nat := (a + b - 1) / b

/-- Rounded up to a multiple. -/
def alignUp (a b : Nat) : Nat := ceilDiv a b * b

end Sys2Proof.Machine
end

