-- ==== Sys2Proof/Machine/Ops.lean ====
section
/-! DEFINITION. Ops.lean: the named operations over the engine's state: its objects, its time, its fault
events, its free values and what it sends. -/
namespace Sys2Proof.Machine

/-- A number as an object number. -/
def fin (n : Nat) [NeZero n] (k : Nat) : Fin n := Fin.ofNat n k

/-! ### Objects -/

/-- Function `f` (R153). -/
def Eng.fn (e : Eng) (f : Fn) : FnState := e.fns.get (FnState.reset f.val) f.val
/-- The engine with function `f` set. -/
def Eng.setFn (e : Eng) (f : Fn) (v : FnState) : Eng := { e with fns := e.fns.put (FnState.reset f.val) f.val v }
/-- The engine with function `f` changed. -/
def Eng.modFn (e : Eng) (f : Fn) (g : FnState → FnState) : Eng := e.setFn f (g (e.fn f))

/-- Transmit queue `q`, if it exists (R152). -/
def Eng.txq (e : Eng) (q : TxqId) : Option Txq := e.txqs.get none q.val
/-- The engine with transmit queue `q` set, or destroyed. -/
def Eng.setTxq (e : Eng) (q : TxqId) (v : Option Txq) : Eng := { e with txqs := e.txqs.put none q.val v }
/-- The engine with transmit queue `q` changed, where it exists. -/
def Eng.modTxq (e : Eng) (q : TxqId) (g : Txq → Txq) : Eng := e.setTxq q ((e.txq q).map g)
/-- Receive ring `q`, if it exists (R152). -/
def Eng.rxq (e : Eng) (q : RxqId) : Option Rxq := e.rxqs.get none q.val
/-- The engine with receive ring `q` set, or destroyed. -/
def Eng.setRxq (e : Eng) (q : RxqId) (v : Option Rxq) : Eng := { e with rxqs := e.rxqs.put none q.val v }
/-- The engine with receive ring `q` changed, where it exists. -/
def Eng.modRxq (e : Eng) (q : RxqId) (g : Rxq → Rxq) : Eng := e.setRxq q ((e.rxq q).map g)
/-- Event queue `q`, if it exists (R152). -/
def Eng.eq_ (e : Eng) (q : EqId) : Option Evq := e.eqs.get none q.val
/-- The engine with event queue `q` set, or destroyed. -/
def Eng.setEq (e : Eng) (q : EqId) (v : Option Evq) : Eng := { e with eqs := e.eqs.put none q.val v }
/-- The engine with event queue `q` changed, where it exists. -/
def Eng.modEq (e : Eng) (q : EqId) (g : Evq → Evq) : Eng := e.setEq q ((e.eq_ q).map g)

/-- The transmit queues that exist, by global number. -/
def Eng.txqList (e : Eng) : List (TxqId × Txq) :=
  e.txqs.rows.filterMap (fun r => r.2.map (fun x => (fin 32768 r.1, x)))
/-- The receive rings that exist, by global number. -/
def Eng.rxqList (e : Eng) : List (RxqId × Rxq) :=
  e.rxqs.rows.filterMap (fun r => r.2.map (fun x => (fin 32768 r.1, x)))
/-- The event queues that exist, by global number. -/
def Eng.eqList (e : Eng) : List (EqId × Evq) :=
  e.eqs.rows.filterMap (fun r => r.2.map (fun x => (fin 4096 r.1, x)))

/-- The transmit queue with local number `n` of function `f` (R31). -/
def Eng.txqOf (e : Eng) (f : Fn) (n : Nat) : Option TxqId :=
  (e.txqList.find? (fun r => decide (r.2.fn = f ∧ r.2.loc = n))).map (·.1)
/-- The receive ring with local number `n` of function `f` (R31). -/
def Eng.rxqOf (e : Eng) (f : Fn) (n : Nat) : Option RxqId :=
  (e.rxqList.find? (fun r => decide (r.2.fn = f ∧ r.2.loc = n))).map (·.1)
/-- The event queue with local number `n` of function `f` (R31). -/
def Eng.eqOf (e : Eng) (f : Fn) (n : Nat) : Option EqId :=
  (e.eqList.find? (fun r => decide (r.2.fn = f ∧ r.2.loc = n))).map (·.1)
/-- The CONTROL event queue of function `f` (R181). -/
def Eng.ctlEq (e : Eng) (f : Fn) : Option EqId :=
  (e.eqList.find? (fun r => decide (r.2.fn = f) && r.2.control)).map (·.1)

/-- Vector `v` of the engine (R186). -/
def Eng.vec (e : Eng) (v : Nat) : VecState := e.vecs.get {} v
/-- The engine with vector `v` set. -/
def Eng.setVec (e : Eng) (v : Nat) (x : VecState) : Eng := { e with vecs := e.vecs.put {} v x }

/-- Slot `p` (R66). -/
def Eng.slot (e : Eng) (p : PortId) : SlotSt := e.slots.get (SlotSt.reset p.val) p.val
/-- The engine with slot `p` set. -/
def Eng.setSlot (e : Eng) (p : PortId) (v : SlotSt) : Eng := { e with slots := e.slots.put (SlotSt.reset p.val) p.val v }
/-- The port a slot belongs to (R15). -/
def Eng.portOf (e : Eng) (p : PortId) : PortId := (e.slot p).port
/-- A port of this number exists: the slot is its port's lowest (R15). -/
def Eng.isPort (e : Eng) (p : PortId) : Bool := decide (e.portOf p = p)
/-- Port `p` (R68). -/
def Eng.port (e : Eng) (p : PortId) : Port := e.ports.get (Port.reset p.val) p.val
/-- The engine with port `p` set. -/
def Eng.setPort (e : Eng) (p : PortId) (v : Port) : Eng := { e with ports := e.ports.put (Port.reset p.val) p.val v }
/-- The engine with port `p` changed. -/
def Eng.modPort (e : Eng) (p : PortId) (g : Port → Port) : Eng := e.setPort p (g (e.port p))
/-- The slot numbers 0 to 15. -/
def allSlots : List PortId := (upTo 16).map (fin 16)
/-- The ports that exist. -/
def Eng.portList (e : Eng) : List PortId := allSlots.filter e.isPort
/-- The slots of port `p`. -/
def Eng.slotsOf (e : Eng) (p : PortId) : List PortId := allSlots.filter (fun s => decide (e.portOf s = p))

/-- Cage `c` (R76). -/
def Eng.cage (e : Eng) (c : Cage) : CageSt := e.cages.get {} c.val
/-- The engine with cage `c` set. -/
def Eng.setCage (e : Eng) (c : Cage) (v : CageSt) : Eng := { e with cages := e.cages.put {} c.val v }
/-- The engine with cage `c` changed. -/
def Eng.modCage (e : Eng) (c : Cage) (g : CageSt → CageSt) : Eng := e.setCage c (g (e.cage c))

/-- Carry channel `c` (R374). -/
def Eng.chan (e : Eng) (c : ChId) : Chan := e.carry.chans.get {} c.val
/-- The engine with channel `c` set. -/
def Eng.setChan (e : Eng) (c : ChId) (v : Chan) : Eng :=
  { e with carry := { e.carry with chans := e.carry.chans.put {} c.val v } }
/-- The engine with channel `c` changed. -/
def Eng.modChan (e : Eng) (c : ChId) (g : Chan → Chan) : Eng := e.setChan c (g (e.chan c))
/-- Channels 0 to 63. -/
def allChans : List ChId := (upTo 64).map (fin 64)

/-- Time base `n` (R311). -/
def Eng.tb (e : Eng) (n : TbId) : TimeBase := e.time.tbs.get {} n.val
/-- The engine with time base `n` set. -/
def Eng.setTb (e : Eng) (n : TbId) (v : TimeBase) : Eng :=
  { e with time := { e.time with tbs := e.time.tbs.put {} n.val v } }
/-- The engine with time base `n` changed. -/
def Eng.modTb (e : Eng) (n : TbId) (g : TimeBase → TimeBase) : Eng := e.setTb n (g (e.tb n))

/-- Thread `t` of the LCP (R376). -/
def Eng.thread (e : Eng) (t : ThreadId) : Thread := e.lcp.threads.get (Thread.reset t.val) t.val
/-- The engine with thread `t` set. -/
def Eng.setThread (e : Eng) (t : ThreadId) (v : Thread) : Eng :=
  { e with lcp := { e.lcp with threads := e.lcp.threads.put (Thread.reset t.val) t.val v } }
/-- Channel `c` between threads (R381). -/
def Eng.chnl (e : Eng) (c : ChnId) : Chnl := e.lcp.chnls.get {} c.val
/-- The engine with channel `c` between threads set. -/
def Eng.setChnl (e : Eng) (c : ChnId) (v : Chnl) : Eng :=
  { e with lcp := { e.lcp with chnls := e.lcp.chnls.put {} c.val v } }

/-- Leaf of transmit queue `q` (R284). -/
def Eng.leaf (e : Eng) (q : TxqId) : DObj := e.dealer.leaves.get {} q.val
/-- Node `n` (R284). -/
def Eng.node (e : Eng) (n : Fin 8192) : DObj := e.dealer.nodes.get {} n.val
/-- Root of port `p` (R284). -/
def Eng.root (e : Eng) (p : PortId) : Root := e.dealer.roots.get {} p.val
/-- The engine with a leaf set. -/
def Eng.setLeaf (e : Eng) (q : TxqId) (v : DObj) : Eng :=
  { e with dealer := { e.dealer with leaves := e.dealer.leaves.put {} q.val v } }
/-- The engine with a node set. -/
def Eng.setNode (e : Eng) (n : Fin 8192) (v : DObj) : Eng :=
  { e with dealer := { e.dealer with nodes := e.dealer.nodes.put {} n.val v } }
/-- The engine with a root set. -/
def Eng.setRoot (e : Eng) (p : PortId) (v : Root) : Eng :=
  { e with dealer := { e.dealer with roots := e.dealer.roots.put {} p.val v } }

/-- Policer `i` (R249). -/
def Eng.policer (e : Eng) (i : Fin 4096) : Policer := e.steer.policers.get {} i.val
/-- The engine with policer `i` set. -/
def Eng.setPolicer (e : Eng) (i : Fin 4096) (v : Policer) : Eng :=
  { e with steer := { e.steer with policers := e.steer.policers.put {} i.val v } }

/-- Offload profile `i` (R256): profile 0 is granted to ALL. -/
def OffProfile.reset (i : Nat) : OffProfile := if i = 0 then { grant := .all } else {}
/-- Offload profile `i`. -/
def Eng.profile (e : Eng) (i : Nat) : OffProfile := e.off.profiles.get (OffProfile.reset i) i

/-! ### Time -/

/-- A time base's linear nanoseconds (R311). -/
def TimeBase.linear (t : TimeBase) : Nat := t.sec * 1000000000 + t.ns

/-- TB0 linear nanoseconds. -/
def Eng.tb0 (e : Eng) : Nat := (e.tb 0).linear

/-- CLK_TS edges seen: the model's measure of time (R312). -/
def Eng.now (e : Eng) : Nat := e.time.clk

/-- Nanoseconds of a number of CLK_TS edges: 2.56 ns each (R20). -/
def edgesNs (n : Nat) : Nat := n * 64 / 25

/-- At least `ns` nanoseconds have passed since an edge. -/
def Eng.passed (e : Eng) (since ns : Nat) : Bool := decide (ns * 25 ≤ (e.now - since) * 64)

/-! ### Free values, faults, outputs, counters -/

/-- A free value, and the engine with its counter advanced (log entry 1). -/
def Eng.fresh (e : Eng) : Nat × Eng := (Config.freeValue e.free, { e with free := e.free + 1 })

/-- Value `i` of those a command leaves undefined: a free value (R11, R12; log entry 1). -/
def Eng.undef (e : Eng) (i : Nat) : Nat := Config.freeValue (e.free + i)

/-- The engine with `n` free values used. -/
def Eng.spend (e : Eng) (n : Nat) : Eng := { e with free := e.free + n }

/-- The engine with an event driven on a fault source's pin: it is graded as the command ends (R393). -/
def Eng.raiseEv (e : Eng) (ev : FaultEv) : Eng := { e with flt := { e.flt with raised := e.flt.raised ++ [ev] } }

/-- An event record (R393). -/
def mkEv (src : Fin 64) (cls : EvClass) (detail master access addr : Nat) : FaultEv :=
  { src := src, cls := cls, detail := BitVec.ofNat 32 detail, addr := BitVec.ofNat 64 addr
    master := BitVec.ofNat 16 master, access := BitVec.ofNat 3 access }

/-- MASTER: no unit (R397). -/
def mNone : Nat := 0x8000
/-- MASTER: translation cache. -/
def mXlt : Nat := 0x8002
/-- MASTER: LCP thread n. -/
def mThread (n : Nat) : Nat := 0x8010 + n
/-- MASTER: slot MAC Pp. -/
def mSlot (p : Nat) : Nat := 0x8020 + p
/-- MASTER: receive pipeline. -/
def mPipe : Nat := 0x8030
/-- MASTER: offloads. -/
def mOff : Nat := 0x8031
/-- MASTER: the Dealer. -/
def mDealer : Nat := 0x8032
/-- MASTER: time unit. -/
def mTime : Nat := 0x8033
/-- MASTER: power controller. -/
def mPower : Nat := 0x8034
/-- MASTER: pair link controller. -/
def mPair : Nat := 0x8035
/-- MASTER: module management. -/
def mModule : Nat := 0x8036
/-- MASTER: packet buffer. -/
def mBuffer : Nat := 0x8037
/-- MASTER: FORCE (R405). -/
def mForce : Nat := 0x807F

/-- A FAILURE event tied to no access. -/
def Eng.fail (e : Eng) (src : Fin 64) (detail master : Nat) : Eng := e.raiseEv (mkEv src .failure detail master 0 0)

/-- A register access of function `f` at window offset `off` that breaks a rule: source 35, INFO (R392). -/
def Eng.badAccess (e : Eng) (f : Fn) (off : Nat) : Eng :=
  e.raiseEv (mkEv 35 .info (off % 2 ^ 24) f.val 6 off)

/-- A mailbox protocol error of function `f`: source 34, INFO (R47, R392). -/
def Eng.badMailbox (e : Eng) (f : Fn) (off : Nat) : Eng := e.raiseEv (mkEv 34 .info 0 f.val 6 off)

/-- The engine with a message sent. -/
def Eng.emit (e : Eng) (o : Out) : Eng := { e with outs := e.outs ++ [o] }

/-- The engine with an event on its way to Tally (R456): none reaches it while PD_CTL is gated. -/
def Eng.tal (e : Eng) (t : TEvent) : Eng :=
  if e.pwr.ctlOn then { e with tally := { e.tally with queue := e.tally.queue ++ [t] } } else e

/-- Statistic `i` of port `p` (R128) raised by `n`. -/
def Eng.stat (e : Eng) (p : PortId) (i n : Nat) : Eng :=
  e.modPort p (fun x => { x with stats := x.stats.put 0 i (sat64 (x.stats.get 0 i + n)) })

/-- Steering counter `i` of port `p` (R255) raised by `n`. -/
def Eng.steerStat (e : Eng) (p : PortId) (i n : Nat) : Eng :=
  e.modPort p (fun x => { x with steer := x.steer.put 0 i (sat64 (x.steer.get 0 i + n)) })

/-- The translation counters changed (R219). -/
def Eng.xcnt (e : Eng) (g : XltCnt → XltCnt) : Eng := { e with dma := { e.dma with cnt := g e.dma.cnt } }

/-- Function `f` is quenched (R35). -/
def FnState.quenched (x : FnState) : Bool := x.quench || x.admin

/-- The datapath is powered (R411). -/
def Eng.dataOn (e : Eng) : Bool := e.pwr.restOn && e.pwr.ctlOn

/-- A list of counters with counter `i` raised by `n`, stopping at its maximum (R127). -/
def addCnt (l : List Nat) (i n : Nat) : List Nat := modNth l i (fun x => sat64 (x + n))

/-- A change applied for each value of a list, in order. -/
def foldEng {α : Type} (l : List α) (f : Eng → α → Eng) (e : Eng) : Eng := l.foldl f e

end Sys2Proof.Machine
end

