-- ==== Sys2Proof/Machine/Bus.lean ====
section
/-! DEFINITION. Bus.lean: interrupt messages, translation lookups and requests on the DMA master ports
(06_rings.md R186, 07_translation.md R197 to R199, 20_edge_signals.md R491 to R500). -/
namespace Sys2Proof.Machine

/-! ### Interrupt messages -/

/-- A message of function `f`'s local vector `v` leaves on IRQ_MSG, or waits in the queue, one per vector (R500). -/
def Eng.sendIrq (e : Eng) (f : Fn) (v : Nat) : Eng :=
  if e.irqStall then
    if e.irqs.contains (f, v) then e else { e with irqs := e.irqs ++ [(f, v)] }
  else if e.outs.contains (.irq f v) then e else (e.emit (.irq f v)).tal { code := 0x207, fn := some f }

/-- A message to be sent: the active member of a pair holds it until its journal record is acknowledged (R443). -/
def Eng.irqOut (e : Eng) (f : Fn) (v : Nat) : Eng :=
  if e.pair.applying then e
  else if e.pair.state = .active then
    { e with pair := { e.pair with heldIrq := e.pair.heldIrq ++ [(f, v, e.pair.sent + 1)] } }
  else e.sendIrq f v

/-- Raise of local vector `v` of function `f` (R186): none where the function has no such vector (R46). -/
def Eng.irq (e : Eng) (f : Fn) (v : Nat) : Eng :=
  let x := e.fn f
  if v < x.vecCount then
    let n := x.vecBase + v
    if (e.vec n).mask then e.setVec n { e.vec n with pending := true } else e.irqOut f v
  else e

/-- A raise of an optional vector. -/
def Eng.irqOpt (e : Eng) (f : Fn) : Option Nat → Eng
  | some v => e.irq f v
  | none => e

/-! ### Requests on the DMA master ports -/

/-- The smallest number from `k` on that is not used. -/
def firstFree (used : List Nat) : Nat → Nat → Nat
  | 0, k => k
  | n + 1, k => if used.contains k then firstFree used n (k + 1) else k

/-- Function an access is attributed to. -/
def Owner.isCarry : Owner → Bool
  | .carryList _ | .carryRead _ | .carryWrite _ | .carryRecord _ => true
  | _ => false

/-- Direction of ring DMA for Tally (R457). -/
def Owner.dir : Owner → Option TDir
  | .txDesc _ | .txXlt _ _ | .txData _ _ | .txCompl _ => some .tx
  | .rxPost _ | .rxXlt _ | .rxData _ _ | .rxCompl _ => some .rx
  | _ => none

/-- Origin of an access (R459). -/
def Owner.orig : Owner → TOrig
  | .mbxReq _ | .mbxRsp _ | .sample | .trailer _ | .bandwidth | .lease => .firmware
  | .carryList c | .carryRead c | .carryWrite c | .carryRecord c => if c.val < 8 then .firmware else .host
  | _ => .host

/-- An internal ring's writes name no function (R458). -/
def Owner.internal : Owner → Bool
  | .sample | .trailer _ | .bandwidth | .lease => true
  | _ => false

/-- The access type of an access in a first-error capture (R397). -/
def Owner.access (o : Owner) (k : AccKind) : Nat :=
  match o with
  | .txDesc _ | .rxPost _ => 3
  | .txCompl _ | .rxCompl _ | .event _ | .sample | .trailer _ | .bandwidth | .carryRecord _ => 4
  | _ => match k with
    | .read => 1
    | .write | .cas => 2

/-- The master of an access (R397). -/
def Acc.master (a : Acc) : Nat :=
  match a.owner with
  | .sample | .trailer _ | .bandwidth => 0x8001
  | .lease => 0
  | _ => a.fn.val

/-- The address an access sends (R458). -/
def Acc.sent (a : Acc) : Nat :=
  match a.pa with
  | some p => p
  | none => a.addr

/-- Tally's events at a request (R457): reads and read bytes, or written bytes. -/
def Eng.talReq (e : Eng) (a : Acc) : Eng :=
  let t (code inc : Nat) : TEvent :=
    { code := code, inc := inc, dir := if a.owner.isCarry then none else a.owner.dir
      fn := if a.owner.internal then none else some a.fn, orig := some a.owner.orig, addr := some a.sent }
  if a.owner.isCarry then
    match a.kind with
    | .read => e.tal (t 0x501 a.len)
    | .write | .cas => e.tal (t 0x502 a.len)
  else
    match a.kind with
    | .read => (e.tal (t 0x208 1)).tal (t 0x203 a.len)
    | .write | .cas => e.tal (t 0x204 a.len)

/-- A write that must not start now: any while the engine is fenced (R440), and a Carry record of a function being reset
(R194). A frame whose first data write has started is placed whole, quenched or not (R193). -/
def Eng.noWrite (e : Eng) (a : Acc) : Bool :=
  decide (a.kind = .write) && (decide (e.pair.state = .fenced) ||
    (match a.owner with
     | .carryRecord _ => (e.fn a.fn).resetting.isSome
     | _ => false))

/-- The request leaves on the first free port and tag, or waits for one (R492). -/
def Eng.issue (e : Eng) (a : Acc) : Eng :=
  if e.dma.outst.length < 4096 ∧ e.noWrite a = false then
    let used := e.dma.outst.map (fun o => o.port.val * 1024 + o.tag.val)
    let k := firstFree used used.length 0
    let o : Outst := { port := fin 4 (k / 1024), tag := fin 1024 k, acc := a, since := e.now }
    let e := { e with dma := { e.dma with outst := e.dma.outst ++ [o] } }
    (e.talReq a).emit (.dma o.port o.tag a)
  else { e with dma := { e.dma with queue := e.dma.queue ++ [a] } }

/-- A waiting request takes the place of one that has ended: Carry's after ring DMA's (R494). -/
def Eng.issueNext (e : Eng) : Eng :=
  match takeFirst (fun a => !a.owner.isCarry && !e.noWrite a) e.dma.queue with
  | some (a, r) => ({ e with dma := { e.dma with queue := r } }).issue a
  | none =>
    match takeFirst (fun a => !e.noWrite a) e.dma.queue with
    | some (a, r) => ({ e with dma := { e.dma with queue := r } }).issue a
    | none => e

/-! ### Translation -/

/-- Bytes of a page of size code 0, 1 or 2. -/
def pageBytes (s : Fin 3) : Nat :=
  match s with
  | 0 => 4096
  | 1 => 2097152
  | 2 => 1073741824

/-- An entry maps an address of a function and PASID. -/
def XEnt.covers (x : XEnt) (f : Fn) (pasid addr : Nat) : Bool :=
  decide (x.fn = f ∧ x.pasid = pasid ∧ x.vpn * 4096 ≤ addr ∧ addr < x.vpn * 4096 + pageBytes x.size)

/-- An entry permits an access (R199). -/
def XEnt.allows (x : XEnt) : AccKind → Bool
  | .read => x.rd
  | .write => x.wr
  | .cas => x.rd && x.wr

/-- The cache entry that serves an access, with the cache in which it is the most recently used (R197). -/
def xltFind (cache : List XEnt) (a : Acc) : Option (XEnt × List XEnt) :=
  match takeFirst (fun x => x.covers a.fn a.pasid a.addr && x.allows a.kind) cache with
  | some (x, r) => some (x, x :: r)
  | none => none

/-- The set of an entry (log entry 2). -/
def XEnt.set (x : XEnt) : Nat := Config.xltSet x.fn.val x.pasid x.vpn x.size.val

/-- A list without its last value that passes. -/
def dropLastWhere {α : Type} (p : α → Bool) (l : List α) : List α :=
  match takeFirst p l.reverse with
  | some (_, r) => r.reverse
  | none => l

/-- An entry filled: an entry of the same page goes, and where its set is full the least recently used (R197). -/
def xltFill (cache : List XEnt) (x : XEnt) : List XEnt :=
  let c := cache.filter (fun y => !decide (y.fn = x.fn ∧ y.pasid = x.pasid ∧ y.vpn = x.vpn ∧ y.size = x.size))
  if c.length < 16 then x :: c
  else if (c.filter (fun y => y.set == x.set)).length < 16 then x :: c
  else x :: dropLastWhere (fun y => y.set == x.set) c

/-- A TRANSLATE message outstanding for the page of an access. -/
def XReq.serves (r : XReq) (a : Acc) : Bool :=
  decide (r.fn = a.fn ∧ r.pasid = a.pasid ∧ r.vpn = a.addr / 4096)

/-- A translation request for a missed access: shared with one outstanding for the same page, sent where a
place is free (R198), else the access waits for one. -/
def Eng.xltAsk (e : Eng) (a : Acc) : Eng × BlockSt :=
  if e.dma.xreqs.any (fun r => r.serves a) then (e, .waiting)
  else if e.dma.xreqs.length < 512 ∧
      (a.owner.isCarry = false ∨ (e.dma.xreqs.filter (·.carry)).length < 64) then
    let used := e.dma.xreqs.map (fun r => r.tag.val)
    let w := a.kind != .read
    let r : XReq := { tag := fin 512 (firstFree used used.length 0), fn := a.fn, pasid := a.pasid
                      vpn := a.addr / 4096, write := w, carry := a.owner.isCarry, since := e.now }
    let e := { e with dma := { e.dma with xreqs := e.dma.xreqs ++ [r] } }
    (e.emit (.translate r.tag a.fn a.pasid r.vpn w), .waiting)
  else (e, .place)

/-- A lookup of the pages of a frame's descriptors or of a posted buffer, ahead of their data (R202, R206). -/
def Owner.lookOnly : Owner → Bool
  | .txXlt _ _ | .rxXlt _ => true
  | _ => false

/-- An access by an owner: looked up, and sent or blocked (R197, R198). A lookup of a frame's or a posted
buffer's pages (R202, R206) sends nothing. -/
def Eng.access (e : Eng) (a : Acc) : Eng :=
  if !(e.fn a.fn).translated then (if a.owner.lookOnly then e else e.issue a)
  else
    let t (code : Nat) : TEvent := { code := code, fn := some a.fn, orig := some a.owner.orig, addr := some a.addr }
    let e := (e.xcnt (fun c => { c with lookups := sat64 (c.lookups + 1) })).tal (t 0x301)
    match xltFind e.dma.cache a with
    | some (x, cache) =>
      let e := { e with dma := { e.dma with cache := cache } }
      if a.owner.lookOnly then e else e.issue { a with pa := some (x.ppn * 4096 + (a.addr - x.vpn * 4096)) }
    | none =>
      let shared := e.dma.xreqs.any (fun r => r.serves a)
      let e := e.xcnt (fun c => { c with misses := sat64 (c.misses + 1) })
      let e := if shared then e else e.tal (t 0x302)
      let (e, st) := e.xltAsk a
      { e with dma := { e.dma with blocked := e.dma.blocked ++ [{ acc := a, st := st }] } }

/-- Pieces of an operation: address, length and position of each request, cut at 512-byte boundaries (R492). -/
def pieces : Nat → Nat → Nat → Nat → List (Nat × Nat × Nat)
  | 0, _, _, _ => []
  | n + 1, addr, len, pos =>
    if len = 0 then []
    else
      let k := min len (512 - addr % 512)
      (addr, k, pos) :: pieces n (addr + k) (len - k) (pos + k)

/-- The number of a new operation. -/
def Eng.newGrp (e : Eng) : Nat × Eng :=
  (e.dma.nextGrp, { e with dma := { e.dma with nextGrp := e.dma.nextGrp + 1 } })

/-- Reads of a range for operation `g`, from position `pos` of it. -/
def Eng.readRange (e : Eng) (o : Owner) (f : Fn) (pasid g addr len pos : Nat) : Eng :=
  foldEng (pieces (len / 512 + 2) addr len pos)
    (fun e (a, n, p) => e.access { owner := o, fn := f, pasid := pasid, addr := a, len := n, kind := .read, grp := g, pos := p }) e

/-- A write of an operation as requests in address order. -/
def writePieces (o : Owner) (f : Fn) (pasid g addr : Nat) (data : List Byte) : List Acc :=
  (pieces (data.length / 512 + 2) addr data.length 0).map
    (fun (a, n, p) => { owner := o, fn := f, pasid := pasid, addr := a, len := n, kind := .write, data := slice data p n, grp := g, pos := p })

/-- Writes of a range for operation `g`. -/
def Eng.writeRange (e : Eng) (o : Owner) (f : Fn) (pasid g addr : Nat) (data : List Byte) : Eng :=
  foldEng (writePieces o f pasid g addr data) (fun e a => e.access a) e

/-- Completion records and events of the active member of a pair wait for their journal record (R443). -/
def Eng.heldWrite (e : Eng) (a : Acc) : Bool :=
  decide (e.pair.state = .active) &&
  match a.owner with
  | .txCompl _ | .rxCompl _ | .event _ => true
  | _ => false

/-- A record written as one operation; the operation's number. -/
def Eng.writeRecord (e : Eng) (o : Owner) (f : Fn) (pasid addr : Nat) (data : List Byte) : Nat × Eng :=
  let (g, e) := e.newGrp
  (g, foldEng (writePieces o f pasid g addr data) (fun e a =>
    if e.heldWrite a then
      { e with pair := { e.pair with held := e.pair.held ++ [{ acc := a, n := e.pair.sent + 1 }] } }
    else e.access a) e)

/-- Some request of operation `g` has not been answered. -/
def Eng.busy (e : Eng) (g : Nat) : Bool :=
  e.dma.outst.any (fun o => o.acc.grp == g) || e.dma.queue.any (fun a => a.grp == g) ||
  e.dma.blocked.any (fun b => b.acc.grp == g) || e.pair.held.any (fun h => h.acc.grp == g)

/-- Some access of owners that pass has not been answered. -/
def Eng.busyFor (e : Eng) (p : Owner → Bool) : Bool :=
  e.dma.outst.any (fun o => p o.acc.owner) || e.dma.queue.any (fun a => p a.owner) ||
  e.dma.blocked.any (fun b => p b.acc.owner) || e.pair.held.any (fun h => p h.acc.owner)

/-- The operation is the data read of a committed frame: it goes on whatever becomes of its queue (R187, R189). -/
def Eng.onWire (e : Eng) (g : Nat) : Bool :=
  g != 0 && e.portList.any (fun p => (e.port p).wire.any (fun w => w.g.grp == g))

/-- Accesses not yet sent whose owner passes are given up. -/
def Eng.dropUnsent (e : Eng) (p : Owner → Bool) : Eng :=
  let q := e.dma.queue.filter (fun a => !p a.owner || e.onWire a.grp)
  let b := e.dma.blocked.filter (fun b => !p b.acc.owner || e.onWire b.acc.grp)
  { e with dma := { e.dma with queue := q, blocked := b } }

/-- Bytes read of an operation, by position. -/
def insPart (x : Nat × List Byte) : List (Nat × List Byte) → List (Nat × List Byte)
  | [] => [x]
  | y :: t => if x.1 ≤ y.1 then x :: y :: t else y :: insPart x t

/-- The bytes of a read operation in order. -/
def ReadBuf.bytes (b : ReadBuf) : List Byte := b.parts.foldr (fun x r => x.2 ++ r) []

/-- Bytes brought by a request added to its operation. -/
def Eng.addPart (e : Eng) (a : Acc) (bytes : List Byte) : Eng :=
  let part := (a.pos, slice bytes (a.addr % 64) a.len)
  let rest := e.dma.bufs.filter (fun b => b.grp != a.grp)
  let old := (e.dma.bufs.find? (fun b => b.grp == a.grp)).getD { grp := a.grp, owner := a.owner }
  { e with dma := { e.dma with bufs := rest ++ [{ old with parts := insPart part old.parts }] } }

/-- The object an owner belongs to (R204): none for an engine-internal ring and for a lookup ahead. -/
def Owner.obj : Owner → Option FObj
  | .txDesc q | .txXlt q _ | .txData q _ | .txCompl q => some (.txq q)
  | .rxPost q | .rxData q _ | .rxCompl q => some (.rxq q)
  | .event q => some (.eq q)
  | .mbxReq f | .mbxRsp f => some (.mbx f)
  | .carryList c | .carryRead c | .carryWrite c | .carryRecord c => some (.carry c)
  | .rxXlt _ | .sample | .trailer _ | .bandwidth | .lease => none

/-- The fault wait of an object. -/
def Eng.waitOf (e : Eng) (o : FObj) : Option FWait := e.dma.waits.find? (fun w => decide (w.obj = o))

/-- The object's accesses not sent, its fault wait and its page requests are given up (R218); responses to
requests already sent are ignored. -/
def Eng.abandon (e : Eng) (o : FObj) : Eng :=
  let e := e.dropUnsent (fun w => decide (w.obj = some o))
  let bufs := e.dma.bufs.filter (fun b => !decide (b.owner.obj = some o) || e.onWire b.grp)
  { e with
    dma := { e.dma with
      waits := e.dma.waits.filter (fun w => !decide (w.obj = o))
      groups := e.dma.groups.map (fun g => if g.obj = some o then { g with obj := none } else g)
      bufs := bufs }
    pair := { e.pair with held := e.pair.held.filter (fun h => !decide (h.acc.owner.obj = some o)) } }

/-! ### Requests that end -/

/-- A read access. -/
def AccKind.isRead : AccKind → Bool
  | .read => true
  | .write | .cas => false

/-- The request of a port and tag whose kind passes, with the engine after it has ended: waiting requests take its
place. -/
def Eng.takeOutst (e : Eng) (m : Fin 4) (tag : Fin 1024) (p : AccKind → Bool) : Option (Outst × Eng) :=
  match takeFirst (fun (o : Outst) => decide (o.port = m ∧ o.tag = tag) && p o.acc.kind) e.dma.outst with
  | none => none
  | some (o, r) =>
    let e := { e with dma := { e.dma with outst := r, invals := e.dma.invals.map (fun (i : Inval) =>
      { i with waits := i.waits.filter (fun k => !decide (k = (m.val, tag.val))) }) } }
    some (o, e.issueNext)

/-- READ_LATENCY_NS of a ring DMA read that has its last data (R457). -/
def Eng.readLatency (e : Eng) (o : Outst) : Eng :=
  let a := o.acc
  if a.owner.isCarry then e
  else e.tal { code := 0x209, inc := edgesNs (e.now - o.since), dir := a.owner.dir, fn := some a.fn
               orig := some a.owner.orig, addr := some a.sent }

/-- Reads sent whose accesses pass have their data: the requests end. -/
def Eng.endReads (e : Eng) (p : Acc → Bool) : Eng :=
  foldEng (e.dma.outst.filter (fun (o : Outst) => p o.acc && o.acc.kind.isRead)) (fun e o =>
    match e.takeOutst o.port o.tag AccKind.isRead with
    | some (o, e) => e.readLatency o
    | none => e) e

/-- Some request of operation `g` has not been sent. -/
def Eng.unsent (e : Eng) (g : Nat) : Bool :=
  e.dma.queue.any (fun a => a.grp == g) || e.dma.blocked.any (fun b => b.acc.grp == g)

end Sys2Proof.Machine
end

