-- ==== Sys2Proof/Machine/Events.lean ====
section
/-! DEFINITION. Events.lean: event queues and the answers of mailbox commands (06_rings.md R180 to R186,
02_control.md R44 to R48). -/
namespace Sys2Proof.Machine

/-! ### Event queues -/

/-- Tail of an event queue: entries written, as a free-running index (R157). -/
def Evq.tail (q : Evq) : BitVec 16 := BitVec.ofNat 16 q.count

/-- PHASE of entry number `count` of a ring of `size` entries (R160). -/
def phaseBit (count size : Nat) : Nat := if (count / size) % 2 = 0 then 1 else 0

/-- Unconsumed entries (R184). -/
def Evq.used (q : Evq) : Nat := (q.tail - q.head).toNat

/-- An 8-byte event entry (R182). -/
def eventBytes (phase ty code object data : Nat) : List Byte :=
  bytesLE 1 (phase + 2 * ty) ++ bytesLE 1 code ++ bytesLE 2 object ++ bytesLE 4 data

/-- An event dropped and counted (R184). -/
def Evq.drop1 (q : Evq) : Evq := { q with overflow := true, dropped := min (q.dropped + 1) 0xFFFFFFFF }

/-- An event for event queue `i`: written at its tail where it has room, and whether it was (R182, R184). While a standby
applies its partner's changes the partner has written the event (R434, R445). -/
def Eng.writeEvent (e : Eng) (i : EqId) (ty code object data : Nat) (ring : Option RingId)
    (mark : Option (Nat × Nat)) : Bool × Eng :=
  match e.eq_ i with
  | none => (false, e)
  | some q =>
    if e.pair.applying then (true, e)
    else if q.error then (false, e)
    else if q.overflow || decide (q.size - 1 ≤ q.used) then (false, e.setEq i (some q.drop1))
    else
      let (g, e) := e.writeRecord (.event i) q.fn q.pasid (q.base + 8 * (q.count % q.size))
        (eventBytes (phaseBit q.count q.size) ty code object data)
      let v : EvSt := { pos := q.tail, ring := ring, grp := g, mark := mark }
      (true, (e.setEq i (some { q with count := q.count + 1, evs := q.evs ++ [v] })).tal
        { code := 0x206, fn := some q.fn, addr := some (q.base + 8 * (q.count % q.size)) })

/-- An event for event queue `i` that concerns no ring's completions. -/
def Eng.event (e : Eng) (i : EqId) (ty code object data : Nat) : Eng := (e.writeEvent i ty code object data none none).2

/-- An event for the CONTROL event queue of function `f`: dropped where it has none (R181). -/
def Eng.ctlEvent (e : Eng) (f : Fn) (ty code object data : Nat) : Eng :=
  match e.ctlEq f with
  | some i => e.event i ty code object data
  | none => e

/-- An event for event queue with local number `n` of function `f`. -/
def Eng.locEvent (e : Eng) (f : Fn) (n ty code object data : Nat) : Eng :=
  match e.eqOf f n with
  | some i => e.event i ty code object data
  | none => e

/-- Functions enabled (R153): the listed ones and F0. -/
def Eng.enabledFns (e : Eng) : List Fn :=
  let l := e.fns.rows.filterMap (fun r => if r.2.enabled then some (fin 2048 r.1) else none)
  if (e.fn 0).enabled && !l.contains 0 then 0 :: l else l

/-- An event for the CONTROL event queue of every enabled function. -/
def Eng.ctlEventAll (e : Eng) (ty code object data : Nat) : Eng :=
  foldEng e.enabledFns (fun e f => e.ctlEvent f ty code object data) e

/-- The rows of R185 evaluated while ARMED: MOD_EVENTS unconsumed and visible events raise the vector. -/
def Eng.evRaise (e : Eng) (i : EqId) : Eng :=
  match e.eq_ i with
  | none => e
  | some q =>
    if q.armed.isSome && decide (q.modEvents ≤ (q.evs.filter (·.seen)).length) then
      (e.setEq i (some { q with armed := none })).irqOpt q.fn q.vector
    else e

/-- An unconsumed completion event of a ring lies in the event queue (R183). -/
def Evq.covers (q : Evq) (r : RingId) : Bool := q.evs.any (fun v => decide (v.ring = some r))

/-- A completion event of a transmit queue with uncovered records, unless one is unconsumed (R183). -/
def Eng.txEvent (e : Eng) (q : TxqId) : Eng :=
  match e.txq q with
  | none => e
  | some x =>
    if !x.uncovered then e
    else match e.eqOf x.fn x.eq with
      | none => e
      | some i =>
        match e.eq_ i with
        | none => e
        | some v =>
          if v.covers (.tx q) then e
          else
            let (ok, e) := e.writeEvent i 1 0 x.loc (x.cqCount % 65536) (some (.tx q)) none
            if ok then e.modTxq q (fun x => { x with uncovered := false }) else e

/-- A completion event is due for a ring's uncovered entries (R183); `timer`: COAL_TIME has passed. -/
def Rxq.eventDue (x : Rxq) (timer : Bool) : Bool :=
  x.uncovSince.isSome &&
  (timer || decide (x.coalFrames ≤ x.uncovered) || x.uncovClose || x.coalTime == 0)

/-- A completion event of a receive ring where one is due, unless one is unconsumed (R183). -/
def Eng.rxEvent (e : Eng) (q : RxqId) (timer : Bool) : Eng :=
  match e.rxq q with
  | none => e
  | some x =>
    if !x.eventDue timer then e
    else match e.eqOf x.fn x.eq with
      | none => e
      | some i =>
        match e.eq_ i with
        | none => e
        | some v =>
          if v.covers (.rx q) then e
          else
            let (ok, e) := e.writeEvent i 2 0 x.loc (x.cqCount % 65536) (some (.rx q)) none
            if ok then e.modRxq q (fun x => { x with uncovered := 0, uncovSince := none, uncovClose := false }) else e

/-- Completion events for every ring bound to event queue `i` with uncovered entries (R183, R184). -/
def Eng.ringEvents (e : Eng) (i : EqId) : Eng :=
  match e.eq_ i with
  | none => e
  | some v =>
    let e := foldEng (e.txqList.filter (fun r => decide (r.2.fn = v.fn ∧ r.2.eq = v.loc))) (fun e r => e.txEvent r.1) e
    foldEng (e.rxqList.filter (fun r => decide (r.2.fn = v.fn ∧ r.2.eq = v.loc))) (fun e r => e.rxEvent r.1 true) e

/-- The EQ_OVERFLOW event that leaves OVERFLOW, and the completion events after it (R184, R216). -/
def Eng.leaveOverflow (e : Eng) (i : EqId) : Eng :=
  match e.eq_ i with
  | none => e
  | some q =>
    let n := q.dropped
    let e := e.setEq i (some { q with overflow := false, dropped := 0 })
    ((e.writeEvent i 7 0 q.loc n none none).2).ringEvents i

/-- HEAD has passed an event: where it was a ring's completion event, a new one is written at once if the ring has
uncovered entries (R183). -/
def Eng.headPast (e : Eng) (v : EvSt) : Eng :=
  match v.ring with
  | some (.tx q) => e.txEvent q
  | some (.rx q) => e.rxEvent q true
  | none => e

/-- A head update accepted for event queue `i` (R33, R183, R184): events up to it are consumed. -/
def Eng.moveHead (e : Eng) (i : EqId) (head : BitVec 16) : Eng :=
  match e.eq_ i with
  | none => e
  | some q =>
    let n := (head - q.head).toNat
    let kept (v : EvSt) : Bool := decide (n ≤ (v.pos - q.head).toNat)
    let e := e.setEq i (some { q with head := head, evs := q.evs.filter kept })
    if n = 0 then e
    else if q.overflow && (e.waitOf (.eq i)).isNone then e.leaveOverflow i
    else foldEng (q.evs.filter (fun v => !kept v)) (fun e v => e.headPast v) e

/-- The event queue is armed, and its ARMED rows are evaluated at once (R185). -/
def Eng.armEq (e : Eng) (i : EqId) : Eng :=
  match e.eq_ i with
  | none => e
  | some q => if q.armed.isSome then e else (e.setEq i (some { q with armed := some e.now })).evRaise i

/-- The write of an event has its WRITE_DONE: the event is visible, and may raise the vector (R180, R185). -/
def Eng.eventDone (e : Eng) (i : EqId) (g : Nat) : Eng :=
  (e.modEq i (fun q => { q with evs := q.evs.map (fun v => if v.grp = g then { v with seen := true, at_ := e.now } else v) })).evRaise i

/-- State code of a queue state in events and queries (R182). -/
def QState.code : QState → Nat
  | .stopped => 0 | .running => 1 | .paused => 2 | .error => 3 | .stopping => 4

/-- The QUEUE_STATE event of a transmit queue (R187). -/
def Eng.txState (e : Eng) (q : TxqId) (s : QState) (cause : Nat) : Eng :=
  match e.txq q with
  | none => e
  | some x =>
    let e := e.setTxq q (some { x with state := s, cause := cause })
    if s = .stopping then e else e.locEvent x.fn x.eq 3 s.code x.loc cause

/-- The QUEUE_STATE event of a receive ring (R187). As it leaves RUNNING, the accepted index is acted on no further
(R158). -/
def Eng.rxState (e : Eng) (q : RxqId) (s : QState) (cause : Nat) : Eng :=
  match e.rxq q with
  | none => e
  | some x =>
    let e := e.setRxq q (some { x with state := s, cause := cause, acted := if x.state = .running then x.prod else x.acted })
    if s = .stopping then e else e.locEvent x.fn x.eq 3 (s.code + 128) x.loc cause

/-! ### Answers of mailbox commands -/

/-- STATUS codes (R53). -/
def stOK : Nat := 0x00
def stBusy : Nat := 0x01
def stLocked : Nat := 0x02
def stInvalid : Nat := 0x03
def stNoResource : Nat := 0x04
def stNotPermitted : Nat := 0x05
def stPartial : Nat := 0x06
def stRolledBack : Nat := 0x07
def stTimeout : Nat := 0x08
def stBusyDebug : Nat := 0x09
def stBudget : Nat := 0x0A
def stPending : Nat := 0x0B
def stUnsupported : Nat := 0x0C
def stFaulted : Nat := 0x0D
def stSuperseded : Nat := 0x0E

/-- A response as MBX_RSP holds it (R44). -/
def rspArea (opcode tag status flags detail len progress : Nat) (result : List Byte) : BitVec 2048 :=
  BitVec.ofNat 2048 (pack [(opcode, 16), (tag, 16), (status, 8), (flags, 8), (detail, 16), (len, 32), (progress, 16), (0, 16),
    (ofLE (result.take 240), 1920)])

/-- The final response of function `f`'s command: the response is whole, DONE is set, BUSY falls and LAST_TAG
is set together, and DONE_EN raises the vector (R44, R46, R48). While firmware restarts it ends no command: what was in
flight gets TIMEOUT as READY returns (R55). -/
def Eng.finishMbx (e : Eng) (f : Fn) (status detail len flags : Nat) (result : List Byte) : Eng :=
  let x := e.fn f
  match x.cmd with
  | none => e
  | some c =>
    if e.ctl.restarting then e
    else
      let x := { x with cmd := none, done := true, lastTag := BitVec.ofNat 16 c.tag
                        rsp := rspArea c.opcode c.tag status flags detail len 0 result }
      let e := e.setFn f x
      let e := { e with ctl := { e.ctl with inflight := e.ctl.inflight.filter (fun g => !decide (g = f)) } }
      if x.irqDone then e.irq f x.irqVec.toNat else e

/-- The answer of function `f`'s command: inline up to 240 bytes; a longer result goes first to the indirect
response buffer (R44, R45). -/
def Eng.respond (e : Eng) (f : Fn) (status detail : Nat) (result : List Byte) : Eng :=
  let x := e.fn f
  match x.cmd with
  | none => e
  | some c =>
    if result.length ≤ 240 then e.finishMbx f status detail result.length 0 result
    else
      let e := e.setFn f { x with cmd := some { c with st := .responding, held := some (status, detail, result.length) } }
      (e.writeRecord (.mbxRsp f) f 0 c.rspAddr result).2

/-- A progress report (R51). -/
def Eng.progressMbx (e : Eng) (f : Fn) (progress detail : Nat) : Eng :=
  let x := e.fn f
  match x.cmd with
  | none => e
  | some c =>
    let x := { x with progress := true, rsp := rspArea c.opcode c.tag stPending 1 detail 0 progress [] }
    let e := e.setFn f x
    if x.irqProgress then e.irq f x.irqVec.toNat else e

end Sys2Proof.Machine
end

