-- ==== Sys2Proof/Machine/Wake.lean ====
section
/-! DEFINITION. Wake.lean: requests for RUN by wake events, the abort of an entry, and answers to power
requests (16_power.md R416 to R422). -/
namespace Sys2Proof.Machine

/-- Code of a power state (R432). -/
def PwrState.code : PwrState → Nat
  | .run => 0 | .doze => 1 | .watch => 2 | .off => 3

/-- The power state of a code (R432). -/
def PwrState.ofCode : Nat → PwrState
  | 0 => .run
  | 1 => .doze
  | 2 => .watch
  | _ => .off

/-- Code of a step (R432). -/
def PwrStep.code : PwrStep → Nat
  | .none => 0 | .e1 => 1 | .e2 => 2 | .e3 => 3 | .e4 => 4 | .e5 => 5 | .waking => 6

/-- Code of a request's source (R432). -/
def PwrSrc.code : PwrSrc → Nat
  | .powerSet => 0
  | .pwrReq _ => 1
  | .wake _ => 2

/-- A power request is answered (R416, R506): POWER_SET by its final response, PWR_REQ on PWR_ACK. -/
def Eng.pwrAnswer (e : Eng) (s : PwrSrc) (status detail : Nat) : Eng :=
  match s with
  | .powerSet =>
    match (e.fn 0).cmd with
    | some k => if k.opcode = 0x0601 ∧ k.st = .working then e.respond 0 status detail [] else e
    | none => e
  | .pwrReq t =>
    ({ e with pwr := { e.pwr with tags := e.pwr.tags.filter (fun u => !decide (u = t)) } }).emit (.pwrAck t status)
  | .wake _ => e

/-- Power requests answered alike. -/
def Eng.pwrAnswerAll (e : Eng) (l : List PwrSrc) (status detail : Nat) : Eng :=
  foldEng l (fun e s => e.pwrAnswer s status detail) e

/-- A power counter of R433 raised by one. -/
def Eng.pwrCnt (e : Eng) (i n : Nat) : Eng := { e with pwr := { e.pwr with cnt := addCnt e.pwr.cnt i n } }

/-- The request in the pending slot, if any, completes with SUPERSEDED (R416). -/
def Eng.supersede (e : Eng) : Eng :=
  match e.pwr.pend with
  | none => e
  | some (_, s) =>
    (({ e with pwr := { e.pwr with pend := none } }).pwrAnswer s stSuperseded 0).pwrCnt 2 1

/-- The abort point next ahead of an entry's step (R417). -/
def PwrStep.point : PwrStep → Nat
  | .e1 | .e2 => 1
  | .e3 => 2
  | .e4 => 3
  | .none | .e5 | .waking => 0

/-- The wake record, written as the wake is decided (R421, R432). -/
def Eng.wakeRecord (e : Eng) (code pattern port abort : Nat) : Eng :=
  { e with pwr := { e.pwr with last :=
      { source := code, from_ := e.pwr.state.code, pattern := pattern, port := port, abort := abort
        holdover := e.time.holdover.isSome, time := e.tb0 } } }

/-- A wake from the state the engine is in begins (R422 to R424): W1 is done. -/
def Eng.beginWake (e : Eng) (code pattern port : Nat) : Eng :=
  let e := e.wakeRecord code pattern port 0
  match e.pwr.state with
  | .run => e
  | .doze => { e with pwr := { e.pwr with step := .waking, target := .run, wakeStep := some .power, window := false } }
  | .watch => { e with pwr := { e.pwr with step := .waking, target := .run, wakeStep := some .pll, window := false } }
  | .off =>
    { e with
      pwr := { e.pwr with step := .waking, target := .run, wakeStep := none, grouping := none }
      start := { e.start with phase := .s1, cause := .wakeOff, started := e.tb0, trial := 0, trying := false
                              ends := [0, 0, 0, 0, 0, 0, 0, 0] } }

/-- The wake recorded fired at this edge, and a lower code takes its place (R421). -/
def Eng.outdone (e : Eng) (code : Nat) : Bool :=
  let l := e.pwr.last
  decide (l.time = e.tb0) && decide (code < l.source) && decide (code ≠ 0) &&
  (match e.pwr.abort with
   | some a => decide (a.cause = 1) && decide (a.code = l.source)
   | none => true)

/-- A wake event of a source that is armed: a request for RUN (R416, R420, R422). -/
def Eng.wake (e : Eng) (code pattern port : Nat) : Eng :=
  match e.pwr.step with
  | .waking => if e.outdone code then e.wakeRecord code pattern port 0 else e
  | .e5 => if e.pwr.late.isSome then e else { e with pwr := { e.pwr with late := some (code, pattern, port) } }
  | .none => match e.pwr.state with
    | .run => e
    | .doze | .watch | .off => e.beginWake code pattern port
  | .e1 | .e2 | .e3 | .e4 =>
    let e := e.supersede
    if e.pwr.abort.isSome ∧ e.outdone code = false then e
    else
      let e := e.wakeRecord code pattern port e.pwr.step.point
      { e with pwr := { e.pwr with abort := some { cause := 1, code := code } } }

/-- The state in which a wake source counts as armed: the state the engine is in, or is entering. -/
def Eng.sleepState (e : Eng) : PwrState :=
  match e.pwr.step with
  | .none | .waking => e.pwr.state
  | .e1 | .e2 | .e3 | .e4 | .e5 => e.pwr.target

/-- A wake source is armed (R421): its code, and whether its enable bit is needed. -/
def Eng.armed (e : Eng) (code : Nat) : Bool :=
  let w := e.pwr.watchUp
  (match e.sleepState with
  | .run => false
  | .doze => code != 3
  | .watch => decide (code = 1 ∨ 4 < code) || w
  | .off => decide (code = 1 ∨ code = 5 ∨ code = 6)) &&
  (code == 1 || bitAt e.pwr.wakeEn.toNat (code - 2))

/-- A wake event (R421), where its source is armed. -/
def Eng.wakeEvent (e : Eng) (code pattern port : Nat) : Eng :=
  if e.armed code then e.wake code pattern port else e

/-- A queue has entered PAUSED or FAULTED during E2 or E3: the entry aborts at the next point (R419). -/
def Eng.pwrFault (e : Eng) : Eng :=
  match e.pwr.step with
  | .e2 | .e3 =>
    if e.pwr.abort.isSome then e else { e with pwr := { e.pwr with abort := some { cause := 2 } } }
  | .none | .e1 | .e4 | .e5 | .waking => e

end Sys2Proof.Machine
end

