-- ==== Sys2Proof/Machine/RingsOps.lean ====
section
/-! DEFINITION. RingsOps.lean: descriptor fetching, transmit completion records and doorbells
(06_rings.md R157 to R171). -/
namespace Sys2Proof.Machine

/-! ### Reading descriptors and post entries -/

/-- Entries of one read: within a 512-byte block and the ring's end (log entry 7). -/
def fetchRun (pos avail size perBlock : Nat) : Nat := min avail (min (perBlock - pos % perBlock) (size - pos))

/-- The member is a standby, which fetches nothing (R438). -/
def Eng.standby (e : Eng) : Bool :=
  match e.pair.state with
  | .standby | .standbyStale => true
  | .unpaired | .forming | .active | .activeAlone | .fenced => false

/-- A fenced member starts no frame and no write to host memory (R440). -/
def Eng.fenced (e : Eng) : Bool := decide (e.pair.state = .fenced)

/-- A handover runs: no frame starts and no grant is made (R447). -/
def Eng.handing (e : Eng) : Bool := e.pair.handover.isSome

/-- The active member that keeps a journal (R442): in sync, or while it copies (R437, R449). -/
def Eng.journals (e : Eng) : Bool :=
  match e.pair.state with
  | .active => true
  | .forming | .activeAlone => (decide (e.pair.state = .activeAlone) || e.pair.roleActive) && decide (4 ≤ e.pair.formStep)
  | .unpaired | .fenced | .standby | .standbyStale => false

/-- Fetching for function `f` may start: not quenched (R193), no power entry past E1 (R418), not a standby. -/
def Eng.mayFetch (e : Eng) (f : Fn) : Bool :=
  !(e.fn f).quenched && !e.pwr.closed && !e.standby && !e.fenced && e.dataOn

/-- The index up to which a transmit queue fetches: the accepted producer index, or where a stop ends; a FLUSH gives each
frame up to there its FLUSHED record (R188). -/
def Txq.limit (x : Txq) : BitVec 16 :=
  match x.state with
  | .running => x.prod
  | .stopping => x.stopAt
  | .stopped | .paused | .error => x.fetched

/-- A descriptor read starts where descriptors are due (R159), but during no fault wait of the queue (R206). -/
def Eng.txFetch (e : Eng) (q : TxqId) : Eng :=
  match e.txq q with
  | none => e
  | some x =>
    let avail := (x.limit - x.fetched).toNat
    if x.fetching ≠ 0 ∨ avail = 0 ∨ (e.waitOf (.txq q)).isSome ∨ e.mayFetch x.fn = false then e
    else
      let pos := x.fetched.toNat % x.size
      let n := fetchRun pos avail x.size 32
      let (g, e) := e.newGrp
      (e.setTxq q (some { x with fetching := n, fetchGrp := g })).readRange (.txDesc q) x.fn x.pasid g (x.base + 16 * pos) (16 * n) 0

/-- The index up to which a ring reads post entries: the accepted producer index, or the one it last acted on in RUNNING
(R158). While its fault timer runs it reads none. -/
def Rxq.limit (x : Rxq) (waits : Bool) : BitVec 16 :=
  match x.state with
  | .running => x.prod
  | .stopping | .paused => if waits then x.fetched else x.acted
  | .stopped | .error => x.fetched

/-- A post entry read starts where entries are due (R159). -/
def Eng.rxFetch (e : Eng) (q : RxqId) : Eng :=
  match e.rxq q with
  | none => e
  | some x =>
    let avail := (x.limit ((e.waitOf (.rxq q)).any (fun w => w.run.isSome)) - x.fetched).toNat
    if x.fetching ≠ 0 ∨ avail = 0 ∨ e.mayFetch x.fn = false then e
    else
      let pos := x.fetched.toNat % x.size
      let n := fetchRun pos avail x.size 64
      let (g, e) := e.newGrp
      (e.setRxq q (some { x with fetching := n, fetchGrp := g })).readRange (.rxPost q) x.fn x.pasid g (x.base + 8 * pos) (8 * n) 0

/-- Fetching is tried for every queue and ring of function `f`. -/
def Eng.fetchFn (e : Eng) (f : Fn) : Eng :=
  let e := foldEng (e.txqList.filter (fun r => decide (r.2.fn = f))) (fun e r => e.txFetch r.1) e
  foldEng (e.rxqList.filter (fun r => decide (r.2.fn = f))) (fun e r => e.rxFetch r.1) e

/-- Fetching is tried for every queue and ring. -/
def Eng.fetchAll (e : Eng) : Eng :=
  let e := foldEng e.txqList (fun e r => e.txFetch r.1) e
  foldEng e.rxqList (fun e r => e.rxFetch r.1) e

/-! ### Doorbells -/

/-- A producer index is accepted (R158): at most size − 1 ahead of the consumer index, and no nearer than the
index accepted before. -/
def bellOk (p cons prod : BitVec 16) (size : Nat) : Bool :=
  decide ((p - cons).toNat ≤ size - 1) && decide ((prod - cons).toNat ≤ (p - cons).toNat)

/-- A write to DBL_TXQ[n] of function `f` (R31, R158). -/
def Eng.txBell (e : Eng) (f : Fn) (n : Nat) (p : BitVec 16) : Eng :=
  match e.txqOf f n with
  | none => e.badAccess f (8 * n)
  | some q =>
    match e.txq q with
    | none => e.badAccess f (8 * n)
    | some x =>
      if bellOk p x.cons x.prod x.size then
        let e := e.tal { code := 0x201, dir := some .tx, fn := some f, orig := some .host }
        if p = x.prod then e
        else (e.setTxq q (some { x with prod := p, bells := x.bells ++ [(p, e.now)] })).txFetch q
      else (e.setTxq q (some { x with rejects := sat64 (x.rejects + 1) })).badAccess f (8 * n)

/-- A write to DBL_RXQ[n] of function `f` (R31, R158). -/
def Eng.rxBell (e : Eng) (f : Fn) (n : Nat) (p : BitVec 16) : Eng :=
  let off := 0x8000 + 8 * n
  match e.rxqOf f n with
  | none => e.badAccess f off
  | some q =>
    match e.rxq q with
    | none => e.badAccess f off
    | some x =>
      if bellOk p x.cons x.prod x.size then
        let e := e.tal { code := 0x201, dir := some .rx, fn := some f, orig := some .host }
        if p = x.prod then e else (e.setRxq q (some { x with prod := p })).rxFetch q
      else (e.setRxq q (some { x with rejects := sat64 (x.rejects + 1) })).badAccess f off

/-- The head of event queue `i` may move to `h`: it lies between the old head and the tail (R157). -/
def Evq.headOk (q : Evq) (h : BitVec 16) : Bool := decide ((h - q.head).toNat ≤ q.used)

/-- A write to DBL_EQ[n] of function `f`: HEAD, then ARM (R33). -/
def Eng.eqWrite (e : Eng) (f : Fn) (n : Nat) (h : BitVec 16) (arm : Bool) : Eng :=
  let off := 0x10000 + 8 * n
  match e.eqOf f n with
  | none => e.badAccess f off
  | some i =>
    match e.eq_ i with
    | none => e.badAccess f off
    | some q =>
      if q.headOk h then
        let e := e.moveHead i h
        if arm then e.armEq i else e
      else e.badAccess f off

/-! ### Transmit completion records -/

/-- A transmit completion record (R167): flags are TS_LOST and LATE_SENT. -/
def txRecBytes (phase ty status idx count flags detail tsId : Nat) : List Byte :=
  bytesLE 1 (phase + 2 * ty) ++ bytesLE 1 status ++ bytesLE 2 idx ++ bytesLE 2 count ++ bytesLE 2 flags ++
  bytesLE 4 detail ++ bytesLE 2 tsId ++ bytesLE 2 0

/-- Some record write of transmit queue `q` waits for its translation (R209). -/
def Eng.txRecBlocked (e : Eng) (q : TxqId) : Bool :=
  e.dma.blocked.any (fun b => decide (b.acc.owner = .txCompl q))

/-- A record of transmit queue `q` is due: written, or held behind a fault of the completion ring (R209). -/
def Eng.txRecord (e : Eng) (q : TxqId) (ty status idx count flags detail tsId : Nat) : Eng :=
  match e.txq q with
  | none => e
  | some x =>
    if x.state = .error then e
    else
      let b := txRecBytes (phaseBit x.cqCount x.size) ty status idx count flags detail tsId
      let addr := x.cqBase + 16 * (x.cqCount % x.size)
      let x' := { x with cqCount := x.cqCount + 1 }
      if !x.held.isEmpty || e.txRecBlocked q then e.setTxq q (some { x' with held := x.held ++ [b] })
      else
        (((e.setTxq q (some x')).writeRecord (.txCompl q) x.fn x.pasid addr b).2).tal
          { code := 0x205, dir := some .tx, fn := some x.fn, addr := some addr }

/-- Held records are written in order (R209). -/
def Eng.txHeldOut (e : Eng) (q : TxqId) : Eng :=
  match e.txq q with
  | none => e
  | some x =>
    let n := x.cqCount - x.held.length
    let e := e.setTxq q (some { x with held := [] })
    foldEng (x.held.zip (upTo x.held.length)) (fun e (b, i) =>
      (e.writeRecord (.txCompl q) x.fn x.pasid (x.cqBase + 16 * ((n + i) % x.size)) b).2) e

/-- The open batch is written as one BATCH record (R170). -/
def Eng.txBatchOut (e : Eng) (q : TxqId) : Eng :=
  match e.txq q with
  | none => e
  | some x =>
    match x.batch with
    | none => e
    | some b => (e.setTxq q (some { x with batch := none })).txRecord q 0 0 (b.last % 65536) b.count 0 0 0

/-- A frame's completion in descriptor order (R169, R170): joined to the open batch, or a FRAME record. -/
def Eng.txReturn (e : Eng) (q : TxqId) (f : TxFrame) (d : TxDone) : Eng :=
  match e.txq q with
  | none => e
  | some x =>
    let next := f.first + f.ndesc
    let x := { x with cons := BitVec.ofNat 16 next }
    if d.status = 0 ∧ d.tsLost = false ∧ d.lateSent = false then
      let b : Batch := match x.batch with
        | none => { count := 1, last := next, since := e.now }
        | some b => { b with count := b.count + 1, last := next }
      let e := e.setTxq q (some { x with batch := some b })
      if x.coalFrames ≤ b.count ∨ x.coalTime = 0 then e.txBatchOut q else e
    else
      ((e.setTxq q (some x)).txBatchOut q).txRecord q 1 d.status (f.first % 65536) f.ndesc
        (b2n d.tsLost + 2 * b2n d.lateSent) d.detail ((f.info.map (·.tsId)).getD 0)

/-- The frames of a queue's head that are complete leave it in order, each with its record (R171). -/
def Eng.txReturnAll : Nat → Eng → TxqId → Eng
  | 0, e, _ => e
  | n + 1, e, q =>
    match e.txq q with
    | none => e
    | some x =>
      match x.frames with
      | [] => e
      | f :: rest =>
        match f.st with
        | .done d => Eng.txReturnAll n ((e.setTxq q (some { x with frames := rest })).txReturn q f d) q
        | .lookup | .offered | .granted => e

/-- A frame of a queue changed. -/
def Txq.modFrame (x : Txq) (id : Nat) (g : TxFrame → TxFrame) : Txq :=
  { x with frames := x.frames.map (fun f => if f.id = id then g f else f) }

/-- A frame of a queue. -/
def Txq.frame? (x : Txq) (id : Nat) : Option TxFrame := x.frames.find? (fun f => f.id == id)

/-- Frame `id` of queue `q` completes (R166, R171). -/
def Eng.txDone (e : Eng) (q : TxqId) (id : Nat) (d : TxDone) : Eng :=
  match e.txq q with
  | none => e
  | some x =>
    match x.frame? id with
    | none => e
    | some _ =>
      let x := x.modFrame id (fun f => { f with st := .done d })
      let x := if d.status = 0 then x else { x with txErrors := sat64 (x.txErrors + 1) }
      Eng.txReturnAll x.frames.length (e.setTxq q (some x)) q

/-- The index from which a queue's descriptors are fetched again, for frames given up at its head (R165). -/
def Txq.firstOpen (x : Txq) : BitVec 16 :=
  match x.frames with
  | f :: _ => BitVec.ofNat 16 f.first
  | [] => x.fetched - BitVec.ofNat 16 x.partials.length

end Sys2Proof.Machine
end

