-- ==== Sys2Proof/Machine/Walk.lean ====
section
/-! DEFINITION. Walk.lean: the header walk of received and transmitted frames (08_receive_steering.md R222 to
R226, 09_offloads.md R259). -/
namespace Sys2Proof.Machine

/-- Headers the parser recognises (R222). -/
inductive HKind where
  | stop | eth | ipv4 | ipv6 | ext | tcp | udp | vxlan | geneve | gre
  deriving DecidableEq, Repr

/-- What one header says of itself: its length, the first contradiction of R225 but TRUNCATED, the header that
follows, whether an IP protocol number named that one, a fragment, a third tag, and where its IP payload ends. -/
structure HInfo where
  len : Nat
  bad : Option Malformed := none
  next : HKind := .stop
  viaIp : Bool := false
  frag : Bool := false
  thirdTag : Bool := false
  ipEnd : Nat
  tags : List Nat := []
  etype : Nat := 0

/-- `k` bytes at `o` as a number, where they lie within the frame bytes and the first 256 bytes (R223). -/
def hdrRead (bs : List Byte) (n o k : Nat) : Option Nat :=
  if o + k ≤ min n 256 then some (ofBE (slice bs o k)) else none

/-- The header an IP protocol number names. -/
def protoKind (p : Nat) : HKind :=
  if p = 4 then .ipv4 else if p = 41 then .ipv6 else if p = 6 then .tcp
  else if p = 17 then .udp else if p = 47 then .gre else .stop

/-- The header an Ethertype names. -/
def etypeKind (t : Nat) : HKind :=
  if t = 0x0800 then .ipv4 else if t = 0x86DD then .ipv6 else .stop

/-- The header a tunnel's protocol type names. -/
def encapKind (t : Nat) : HKind := if t = 0x6558 then .eth else etypeKind t

/-- A tag's Ethertype (R222). -/
def isTag (t : Nat) : Bool := t == 0x8100 || t == 0x88A8

/-- The header after an IPv6 header or an extension header: a Fragment header makes a fragment (R224). -/
def nextIp6 (i : HInfo) (nh : Nat) : HInfo :=
  if nh = 44 then { i with frag := true }
  else if nh = 0 ∨ nh = 43 ∨ nh = 60 then { i with next := .ext }
  else { i with next := protoKind nh, viaIp := true }

/-- Ethernet II with up to two tags. -/
def ethInfo (bs : List Byte) (n off ipEnd : Nat) : HInfo :=
  let rd (o : Nat) : Nat := (hdrRead bs n (off + o) 2).getD 0
  if isTag (rd 12) then
    if isTag (rd 16) then
      { len := 22, next := etypeKind (rd 20), thirdTag := isTag (rd 20), ipEnd := ipEnd
        tags := [rd 14, rd 18], etype := rd 20 }
    else { len := 18, next := etypeKind (rd 16), ipEnd := ipEnd, tags := [rd 14], etype := rd 16 }
  else { len := 14, next := etypeKind (rd 12), ipEnd := ipEnd, etype := rd 12 }

/-- IPv4 (R224, R225). `skip`: a large send, whose length fields are not checked (R259). -/
def ipv4Info (bs : List Byte) (n off : Nat) (skip : Bool) : HInfo :=
  let b0 := (hdrRead bs n off 1).getD 0x45
  let ihl := b0 % 16
  let tot := hdrRead bs n (off + 2) 2
  let fo := (hdrRead bs n (off + 6) 2).getD 0
  let i : HInfo :=
    { len := max 20 (ihl * 4)
      ipEnd := if skip then n else match tot with
        | some t => off + t
        | none => n
      bad :=
        if b0 / 16 ≠ 4 then some .ipVersion
        else if ihl < 5 then some .ipv4Ihl
        else match tot with
          | some t => if skip = false ∧ (t < ihl * 4 ∨ n - off < t) then some .ipv4Len else none
          | none => none }
  if fo % 0x4000 ≠ 0 then { i with frag := true }
  else { i with next := protoKind ((hdrRead bs n (off + 9) 1).getD 0xFF), viaIp := true }

/-- IPv6 (R224, R225). -/
def ipv6Info (bs : List Byte) (n off : Nat) (skip : Bool) : HInfo :=
  let b0 := (hdrRead bs n off 1).getD 0x60
  let pl := hdrRead bs n (off + 4) 2
  nextIp6
    { len := 40
      ipEnd := if skip then n else match pl with
        | some t => off + 40 + t
        | none => n
      bad :=
        if b0 / 16 ≠ 6 then some .ipVersion
        else match pl with
          | some t => if skip = false ∧ n - off < 40 + t then some .ipv6Len else none
          | none => none }
    ((hdrRead bs n (off + 6) 1).getD 0xFF)

/-- A UDP destination port is a tunnel port of a generation, 0 being off (R232). -/
def tunnelPort (port tunnel : Nat) : Bool := tunnel != 0 && port == tunnel

/-- UDP (R222, R225). -/
def udpInfo (bs : List Byte) (n off ipEnd vx gn : Nat) (skip : Bool) : HInfo :=
  let port := hdrRead bs n (off + 2) 2
  { len := 8, ipEnd := ipEnd
    bad := match hdrRead bs n (off + 4) 2 with
      | some l => if skip = false ∧ (l < 8 ∨ l ≠ ipEnd - off) then some .udpLen else none
      | none => none
    next := if port.any (tunnelPort · vx) then .vxlan else if port.any (tunnelPort · gn) then .geneve else .stop }

/-- TCP (R222, R225). -/
def tcpInfo (bs : List Byte) (n off ipEnd : Nat) : HInfo :=
  match hdrRead bs n (off + 12) 1 with
  | none => { len := 20, ipEnd := ipEnd }
  | some b =>
    let d := b / 16
    { len := max 20 (d * 4), ipEnd := ipEnd
      bad := if d < 5 ∨ ipEnd < off + d * 4 then some .tcpOffset else none }

/-- A header of kind `k` at byte `off`. -/
def hdrInfo (bs : List Byte) (n vx gn : Nat) (skip : Bool) (k : HKind) (off ipEnd : Nat) : HInfo :=
  match k with
  | .stop => { len := 0, ipEnd := ipEnd }
  | .eth => ethInfo bs n off ipEnd
  | .ipv4 => ipv4Info bs n off skip
  | .ipv6 => ipv6Info bs n off skip
  | .ext =>
    nextIp6 { len := ((hdrRead bs n (off + 1) 1).getD 0 + 1) * 8, ipEnd := ipEnd } ((hdrRead bs n off 1).getD 0xFF)
  | .tcp => tcpInfo bs n off ipEnd
  | .udp => udpInfo bs n off ipEnd vx gn skip
  | .vxlan => { len := 8, next := .eth, ipEnd := ipEnd }
  | .geneve =>
    { len := 8 + (hdrRead bs n off 1).getD 0 % 64 * 4, next := encapKind ((hdrRead bs n (off + 2) 2).getD 0), ipEnd := ipEnd }
  | .gre =>
    let f := (hdrRead bs n off 1).getD 0
    { len := 4 + 4 * (b2n (bitAt f 7) + b2n (bitAt f 5) + b2n (bitAt f 4))
      next := encapKind ((hdrRead bs n (off + 2) 2).getD 0), ipEnd := ipEnd }

/-- The version test of GENEVE and GRE, made only where the field can be read (R222). -/
def versionOk (bs : List Byte) (n : Nat) (k : HKind) (off : Nat) : Bool :=
  match k with
  | .geneve => match hdrRead bs n off 1 with
    | some b => b / 64 == 0
    | none => true
  | .gre => match hdrRead bs n (off + 1) 1 with
    | some b => b % 8 == 0
    | none => true
  | .stop | .eth | .ipv4 | .ipv6 | .ext | .tcp | .udp | .vxlan => true

/-- Tunnel type codes (R228): VXLAN, GENEVE, GRE; 4 for IP-in-IP. -/
def HKind.tunnel : HKind → Option Nat
  | .vxlan => some 1
  | .geneve => some 2
  | .gre => some 3
  | .stop | .eth | .ipv4 | .ipv6 | .ext | .tcp | .udp => none

/-- A layer changed: the inner one where `inner`. -/
def Walk.modLayer (w : Walk) (inner : Bool) (g : Layer → Layer) : Walk :=
  if inner then { w with inner := some (g (w.inner.getD {})) } else { w with outer := g w.outer }

/-- A header that has been followed, recorded. -/
def Walk.follow (w : Walk) (inner : Bool) (k : HKind) (off : Nat) (i : HInfo) : Walk :=
  match k with
  | .eth =>
    if inner then { w.modLayer true id with innerEth := some off } else { w with tags := i.tags, etype := i.etype }
  | .ipv4 => w.modLayer inner (fun l => { l with l3 := .ipv4, l3off := off, l3end := i.ipEnd, frag := i.frag })
  | .ipv6 => w.modLayer inner (fun l => { l with l3 := .ipv6, l3off := off, l3end := i.ipEnd, frag := i.frag })
  | .ext => w.modLayer inner (fun l => { l with frag := i.frag })
  | .tcp => w.modLayer inner (fun l => { l with l4 := .tcp, l4off := off })
  | .udp => w.modLayer inner (fun l => { l with l4 := .udp, l4off := off })
  | .gre => w.modLayer inner (fun l => { l with l4 := .gre, l4off := off })
  | .vxlan | .geneve | .stop => w

/-- The walk from a header of kind `k` at byte `off`, in header place `place` (R222 to R225). -/
def walkFrom (bs : List Byte) (n vx gn : Nat) (skip : Bool) :
    Nat → HKind → Nat → Nat → Bool → Bool → Nat → Walk → Walk
  | 0, _, _, _, _, _, _, w => w
  | fuel + 1, k, off, place, inner, viaIp, ipEnd, w =>
    let ipip := viaIp && (decide (k = .ipv4) || decide (k = .ipv6))
    let tun := if ipip then some 4 else k.tunnel
    if k = .stop ∨ versionOk bs n k off = false then w
    else if tun.isSome && inner then { w with depth := true }
    else if 8 < place then { w with depth := true }
    else if 256 ≤ off then (if off < n then { w with depth := true } else w)
    else
      let inner := inner || ipip
      let i := hdrInfo bs n vx gn skip k off ipEnd
      let stop := off + i.len
      if 256 < stop ∧ stop ≤ n then { w with depth := true }
      else
        match (match i.bad with
          | some m => some m
          | none => if n < stop then some Malformed.truncated else none) with
        | some m => { w with malformed := some m }
        | none =>
          let w := w.follow inner k off i
          let w := match tun with
            | some t => { w with tunnel := some (t, off) }
            | none => w
          if i.frag then { w with frag := true }
          else if i.thirdTag then { w with depth := true }
          else walkFrom bs n vx gn skip fuel i.next stop (place + 1) (inner || tun.isSome) i.viaIp i.ipEnd w

/-- The header walk of a frame of `n` frame bytes, with the VXLAN and GENEVE ports of a generation. -/
def walkFrame (bs : List Byte) (n vx gn : Nat) (skip : Bool) : Walk :=
  walkFrom bs n vx gn skip 10 .eth 0 1 false false n {}

/-- The headers a classification uses: on DEPTH and on a contradiction no inner header (R226). -/
def Walk.classify (w : Walk) : Walk :=
  if w.depth || w.malformed.isSome then { w with inner := none, innerEth := none } else w

/-- The innermost layer that a classification uses (R226). -/
def Walk.innermost (w : Walk) : Layer := w.inner.getD w.outer

/-- L3_TYPE and L4_TYPE codes (R226). -/
def L3.code : L3 → Nat
  | .other => 0 | .ipv4 => 1 | .ipv6 => 2

/-- L4_TYPE codes (R226). -/
def L4.code : L4 → Nat
  | .tcp => 1 | .udp => 2 | .other | .gre => 0

/-- Codes of R225. -/
def Malformed.code : Malformed → Nat
  | .ipVersion => 1 | .ipv4Ihl => 2 | .ipv4Len => 3 | .ipv6Len => 4 | .udpLen => 5 | .tcpOffset => 6 | .truncated => 7

/-- The outer Ethertype past up to two tags, as a host frame is examined for a discard (R117). -/
def hostEtype (bs : List Byte) : Nat × Nat :=
  if isTag (u16 bs 12) then
    if isTag (u16 bs 16) then (u16 bs 20, 22) else (u16 bs 16, 18)
  else (u16 bs 12, 14)

end Sys2Proof.Machine
end

