-- ==== Sys2Proof/Machine/StampOps.lean ====
section
/-! DEFINITION. StampOps.lean: frame time-stamps and the gate schedule as it will run (11_time.md R327 to R329,
12_deck_launch.md R340 to R343, R349 to R351). Instants are in sixteenths of a nanosecond. -/
namespace Sys2Proof.Machine

/-! ### Time-stamps -/

/-- c_in and c_out by lanes in service, in sixteenths of a nanosecond (R328). -/
def pathIn (n : Nat) : Int := if n = 1 then 2693 else if n = 2 then 1802 else if n = 4 then 1352 else 1126
/-- c_out (R328). -/
def pathOut (n : Nat) : Int := if n = 1 then 1167 else if n = 2 then 840 else if n = 4 then 666 else 578

/-- Numbers of sixteenths in one cycle of the 64-bit seconds count. -/
def stampWrap : Int := 16 * 1000000000 * 18446744073709551616

/-- Rounded to the nearest sixteenth, ties upward, from units of 2^-32/200 ns (R327). -/
def stampRound (t : Int) : Nat := (((t + 100 * 268435456) / (200 * 268435456)) % stampWrap).toNat

/-- A time base's time plus `dp` CLK_DP cycles, in units of 2^-32/200 ns. -/
def TimeBase.fine (t : TimeBase) (dp : Nat) : Int :=
  ((t.linear * 4294967296 + t.sub) * 200 + dp * 128 * 4294967296 : Nat)

/-- Egress time-stamp in base `b` of a start at a CLK_DP cycle and segment on port `p` (R327). -/
def Eng.stampTx (e : Eng) (p : PortId) (b : TbId) (dp seg : Nat) : Nat :=
  let x := e.port p
  stampRound ((e.tb b).fine dp + (pathOut x.txLanes + x.adjOut) * (200 * 268435456) +
    (seg * (128 / max 1 x.txLanes) * 4294967296 : Nat))

/-- Arrival time-stamp in base `b` of a frame on port `p` (R327). -/
def Eng.stampRx (e : Eng) (p : PortId) (b : TbId) (dp seg : Nat) : Nat :=
  let x := e.port p
  stampRound ((e.tb b).fine dp - (pathIn x.rxLanes + x.adjIn) * (200 * 268435456) -
    ((16 - seg) * (128 / max 1 x.rxLanes) * 4294967296 : Nat))

/-- Seconds of an instant. -/
def stSec (t : Nat) : Nat := t / 16000000000
/-- Nanoseconds of an instant. -/
def stNs (t : Nat) : Nat := t / 16 % 1000000000
/-- Sixteenths of an instant. -/
def stFrac (t : Nat) : Nat := t % 16
/-- Linear nanoseconds of an instant (R311). -/
def stLin (t : Nat) : Nat := t / 16 % 18446744073709551616

/-- The present time of a base as an instant. -/
def TimeBase.instant (t : TimeBase) : Nat := t.linear * 16 + t.sub / 268435456

/-! ### The gate schedule -/

/-- The entries of a list that run within its cycle, with start and end in it: the last holds to the cycle's
end, and one in force there is cut (R340). -/
def effEntries (cycle : Nat) : Nat → List (Nat × BitVec 8) → List (Nat × Nat × BitVec 8)
  | _, [] => []
  | at_, [(_, g)] => if at_ < cycle then [(at_, cycle, g)] else []
  | at_, (i, g) :: t =>
    if cycle ≤ at_ then []
    else if cycle ≤ at_ + i then [(at_, cycle, g)]
    else (at_, at_ + i, g) :: effEntries cycle (at_ + i) t

/-- A list's entries within its cycle. -/
def GateList.eff (l : GateList) : List (Nat × Nat × BitVec 8) := effEntries l.cycle 0 l.entries

/-- Offset of linear time `t` in the list's cycle. -/
def GateList.off (l : GateList) (t : Int) : Nat := ((t - l.base) % (l.cycle : Int)).toNat

/-- The entry in force at linear time `t`: its number, its gates and the nanoseconds left in it. -/
def GateList.inForce (l : GateList) (t : Int) : Nat × BitVec 8 × Nat :=
  let o := l.off t
  let es := l.eff
  let k := (es.takeWhile (fun (_, stop, _) => decide (stop ≤ o))).length
  match es.drop k with
  | (_, stop, g) :: _ => (k, g, stop - o)
  | [] => (0, 0, 0)

/-- A gate is open in every entry. -/
def GateList.always (l : GateList) (c : Nat) : Bool := l.eff.all (fun (_, _, g) => bitAt g.toNat c)
/-- A gate is closed in every entry. -/
def GateList.never (l : GateList) (c : Nat) : Bool := l.eff.all (fun (_, _, g) => !bitAt g.toNat c)

/-- Longest run of open entries, the present run being `cur` long. -/
def longestRun (c : Nat) : Nat → Nat → List (Nat × Nat × BitVec 8) → Nat
  | cur, best, [] => max cur best
  | cur, best, (a, b, g) :: t =>
    if bitAt g.toNat c then longestRun c (cur + (b - a)) (max (cur + (b - a)) best) t else longestRun c 0 best t

/-- Longest open run of class `c` in nanoseconds, across the cycle's boundary (R351). -/
def GateList.longest (l : GateList) (c : Nat) : Nat := longestRun c 0 0 (l.eff ++ l.eff)

/-- The schedule as it will run, in the linear time of the base of its first part (R340). -/
structure Sched where
  /-- the list that runs first: none, all gates open -/
  first : Option GateList
  /-- from here on the last entry's gates hold: an extension (R343) -/
  hold : Option Int
  /-- from here on the second part runs: none, all gates open (R344) -/
  turn : Option Int
  second : Option GateList

/-- Start of the list's cycle that holds time `t`. -/
def GateList.cycleStart (l : GateList) (t : Int) : Int := t - l.off t

/-- A list that is in force moved to another base's time: its cycles start at BASE + k × CYCLE_TIME for every k, so BASE is
taken within the first cycle (R340). -/
def GateList.shift (l : GateList) (d : Int) : GateList := { l with base := ((l.base + d) % (l.cycle : Int)).toNat }

/-- What R343 does at a cut at `t` of the old list: the start of the cycle and the part of it that has passed. -/
def GateList.cutPart (l : GateList) (t : Int) : Int × Nat := (l.cycleStart t, l.off t)

/-- The schedule of a port's Deck, and the base in whose time it is given. -/
def Eng.sched (e : Eng) (p : PortId) : Sched × TbId :=
  let d := (e.port p).deck
  match d.oper with
  | none =>
    match d.st, d.admin with
    | .pending, some a => ({ first := none, hold := none, turn := some d.cut, second := some a }, a.tb)
    | _, _ => ({ first := none, hold := none, turn := none, second := none }, 0)
  | some o =>
    match d.st, d.admin with
    | .operPending, some a =>
      -- the cut's time in the old list's base (DEDUCED, log entry 21)
      let diff : Int := (e.tb o.tb).linear - (e.tb a.tb).linear
      let t : Int := d.cut + diff
      let (s, r) := o.cutPart t
      ({ first := some o, hold := if 0 < r ∧ r ≤ a.ext then some s else none, turn := some t
         second := some (a.shift diff) }, o.tb)
    | .clearing, _ => ({ first := some o, hold := none, turn := some d.clearAt, second := none }, o.tb)
    | _, _ => ({ first := some o, hold := none, turn := none, second := none }, o.tb)

/-- Class `c` in a list at time `t`: open, and until when, none for as long as the list runs. -/
def gateIn (l : Option GateList) (c : Nat) (t : Int) : Bool × Option Int :=
  match l with
  | none => (true, none)
  | some l =>
    if l.always c then (true, none)
    else if l.never c then (false, none)
    else
      let (_, g, left) := l.inForce t
      (bitAt g.toNat c, some (t + left))

/-- The earlier of two optional ends. -/
def earlier (a b : Option Int) : Option Int :=
  match a, b with
  | some x, some y => some (min x y)
  | some x, none => some x
  | none, y => y

/-- Class `c` at time `t`: open, and until when that is settled. -/
def Sched.at (s : Sched) (c : Nat) (t : Int) : Bool × Option Int :=
  let past := match s.turn with
    | some k => decide (k ≤ t)
    | none => false
  if past then gateIn s.second c t
  else
    let held := match s.hold with
      | some h => decide (h ≤ t)
      | none => false
    if held then
      (match s.first with
       | some l => (match l.eff.getLast? with
         | some (_, _, g) => bitAt g.toNat c
         | none => true)
       | none => true, s.turn)
    else
      let (o, u) := gateIn s.first c t
      (o, earlier u (earlier s.hold s.turn))

/-- Number of changes within which a class that is not settled for good has both opened and closed. -/
def Sched.fuel (s : Sched) : Nat :=
  2 * ((s.first.map (·.entries.length)).getD 0 + (s.second.map (·.entries.length)).getD 0) + 8

/-- When the gate's state at `t` ends for good: the first time at which class `c` is in the other state. -/
def Sched.runEnd (s : Sched) (c : Nat) (state : Bool) : Nat → Int → Option Int
  | 0, _ => none
  | n + 1, t =>
    let (o, u) := s.at c t
    if o != state then some t
    else match u with
      | some k => if t < k then s.runEnd c state n k else none
      | none => none

/-- Close of the open run that holds `t`, none where it never closes. -/
def Sched.close (s : Sched) (c : Nat) (t : Int) : Option Int := s.runEnd c true s.fuel t
/-- The next opening after `t`, at which the gate is closed. -/
def Sched.opening (s : Sched) (c : Nat) (t : Int) : Option Int := s.runEnd c false s.fuel t

/-- A frame of length `len` from instant `t` ends at or before `close` on a port of `w` slots (R349, R350):
d = (len + 20) × 8 / C. -/
def fitsClose (close : Option Int) (t : Int) (len w : Nat) : Bool :=
  match close with
  | none => true
  | some k => decide ((16 * (len + 20) : Nat) ≤ (16 * k - t) * (25 * w : Nat))

/-- A frame fits a run of `ns` nanoseconds. -/
def fitsRun (ns len w : Nat) : Bool := decide (len + 20 ≤ ns * 25 * w)

/-- The fit test of R350: the open run of class `c` that holds instant `t` ends at or after the frame. -/
def Sched.fits (s : Sched) (c : Nat) (t : Nat) (len w : Nat) : Bool :=
  (s.at c (t / 16 : Nat)).1 && fitsClose (s.close c (t / 16 : Nat)) t len w

/-- Some open run meets the time from `t` to `lim` and closes at least a frame's time after the later of `t`
and its opening (R349). -/
def Sched.meets (s : Sched) (c : Nat) (lim : Int) (len w : Nat) : Nat → Int → Bool
  | 0, _ => false
  | n + 1, t =>
    if lim < t then false
    else if (s.at c t).1 then
      match s.close c t with
      | none => true
      | some k => fitsClose (some k) (16 * t) len w || s.meets c lim len w n k
    else
      match s.opening c t with
      | none => false
      | some k => s.meets c lim len w n k

/-- A frame of `len` bytes can never fit the list's runs (R351). -/
def GateList.neverFits (l : GateList) (c len w : Nat) : Bool :=
  !l.always c && !l.never c && !fitsRun (l.longest c) len w

end Sys2Proof.Machine
end

