-- ==== Sys2Proof/Machine/OffloadOps.lean ====
section
/-! DEFINITION. OffloadOps.lean: checksums, large send, insertion, the trailer and the FCS of transmit frames,
and checksum verification on receive (09_offloads.md R257 to R277, 04_wire.md R94 to R96). -/
namespace Sys2Proof.Machine

/-! ### Checksums -/

/-- The ones'-complement checksum of a sum (R263). -/
def onesComp (s : Nat) : Nat := 65535 - fold16 s

/-- Length of the IPv4 header at `off`. -/
def ihlBytes (bs : List Byte) (off : Nat) : Nat := u8 bs off % 16 * 4

/-- The header checksum of the IPv4 header at `off` (R263). -/
def ipv4Csum (bs : List Byte) (off : Nat) : Nat :=
  onesComp (sum16 (patch (slice bs off (ihlBytes bs off)) 10 (zeros 2)))

/-- Offset of a layer's TCP or UDP checksum field. -/
def Layer.csumOff (l : Layer) : Nat := l.l4off + (if l.l4 = .tcp then 16 else 6)

/-- Sum of a layer's pseudo-header for an upper-layer length (R263). -/
def pseudoSum (bs : List Byte) (l : Layer) (len : Nat) : Nat :=
  let proto := if l.l4 = .tcp then 6 else 17
  match l.l3 with
  | .ipv4 => sum16 (slice bs (l.l3off + 12) 8) + proto + len
  | .ipv6 | .other => sum16 (slice bs (l.l3off + 8) 32) + proto + len % 65536 + len / 65536

/-- The TCP or UDP checksum of a layer over an upper-layer length; a UDP result of 0 is 0xFFFF (R263). -/
def l4Csum (bs : List Byte) (l : Layer) (len : Nat) : Nat :=
  let v := onesComp (pseudoSum bs l len + sum16 (patch (slice bs l.l4off len) (l.csumOff - l.l4off) (zeros 2)))
  if l.l4 = .udp ∧ v = 0 then 65535 else v

/-- A layer has a TCP or UDP header. -/
def Layer.hasL4 (l : Layer) : Bool := decide (l.l4 = .tcp) || decide (l.l4 = .udp)

/-- The upper-layer length of a layer's TCP or UDP header, from its IP header (R263). -/
def Layer.l4len (l : Layer) : Nat := l.l3end - l.l4off

/-- A layer whose IP payload ends where its header says: of a large send the walk does not test that length (R259), and where
the send is not segmented its checksums follow it (R260, R263). -/
def Layer.stated (bs : List Byte) (l : Layer) : Layer :=
  match l.l3 with
  | .ipv4 => { l with l3end := l.l3off + u16 bs (l.l3off + 2) }
  | .ipv6 => { l with l3end := l.l3off + 40 + u16 bs (l.l3off + 4) }
  | .other => l

/-- The bytes with a layer's IPv4 header checksum written. -/
def putL3 (on : Bool) (l : Layer) (bs : List Byte) : List Byte :=
  if on ∧ l.l3 = .ipv4 then patch bs (l.l3off + 10) (bytesBE 2 (ipv4Csum bs l.l3off)) else bs

/-- The bytes with a layer's TCP or UDP checksum written. -/
def putL4 (on : Bool) (l : Layer) (bs : List Byte) : List Byte :=
  if on ∧ l.hasL4 then patch bs l.csumOff (bytesBE 2 (l4Csum bs l l.l4len)) else bs

/-- The incremental fix-up of a layer's checksum for bytes it covers that differ from `old` (R274). -/
def fixL4 (l : Layer) (old bs : List Byte) : List Byte :=
  if l.hasL4 then
    let hc := u16 bs l.csumOff
    let part (x : List Byte) : List Byte := patch (slice x l.l4off l.l4len) (l.csumOff - l.l4off) (zeros 2)
    if (l.l4 = .udp ∧ l.l3 = .ipv4 ∧ hc = 0) ∨ part old = part bs then bs
    else
      let n := (part old).length
      let s := (65535 - hc) + sum16 (part bs) + (65535 * ((n + 1) / 2) - sum16 (part old))
      let v := onesComp (fold16 s)
      patch bs l.csumOff (bytesBE 2 (if l.l4 = .udp ∧ v = 0 then 65535 else v))
  else bs

/-! ### Transmit frames -/

/-- A frame is a large send that is segmented (R260, R267). -/
def TxFrame.isLso (f : TxFrame) : Bool := f.lso.isSome

/-- Payload bytes of a large send. -/
def TxFrame.payload (f : TxFrame) : Nat := f.supplied - f.lso.getD 0

/-- Segments of a frame: one, or as R268 cuts it. -/
def TxFrame.segs (f : TxFrame) : Nat := if f.isLso then max 1 (ceilDiv f.payload f.mss) else 1

/-- First supplied byte of the bytes that segment `k` reads, and how many it reads. -/
def TxFrame.segRange (f : TxFrame) (k : Nat) : Nat × Nat :=
  match f.lso with
  | none => (0, f.supplied)
  | some h => (h + k * f.mss, min f.mss (f.payload - k * f.mss))

/-- Bytes of a frame or segment before padding, trailer and FCS. -/
def TxFrame.bodyLen (f : TxFrame) (fcsPass : Bool) (k : Nat) : Nat :=
  if f.isLso then f.lso.getD 0 + (f.segRange k).2 else if fcsPass then f.supplied - 4 else f.supplied

/-- Its length on the wire with FCS and padding, without a trailer (R93, R96, R268). -/
def TxFrame.wireLen (f : TxFrame) (fcsPass padEn : Bool) (k : Nat) : Nat :=
  let n := f.bodyLen fcsPass k
  (if f.isLso || (padEn && !fcsPass) then max 60 n else n) + 4

/-- The partner conditions of R90 for a trailer hold. -/
def Port.trailerOk (x : Port) : Bool :=
  decide (x.partner.st = .present) &&
  match x.partner.cap with
  | some c => c.trailerRx
  | none => false

/-- A trailer is inserted in a frame or segment (R276, R277). -/
def Port.putsTrailer (x : Port) (f : TxFrame) (fcsPass : Bool) (k : Nat) : Bool :=
  f.trailer && x.trailerOk && decide (f.wireLen fcsPass x.padEn k + 12 ≤ x.maxFrame)

/-- The length a frame or segment will have on the wire (R294). -/
def Port.txLen (x : Port) (f : TxFrame) (fcsPass : Bool) (k : Nat) : Nat :=
  f.wireLen fcsPass x.padEn k + (if x.putsTrailer f fcsPass k then 12 else 0)

/-- A number of `n` bytes at `off` raised by `k`, wrapping. -/
def bumpBE (bs : List Byte) (off n k : Nat) : List Byte := patch bs off (bytesBE n (ofBE (slice bs off n) + k))

/-- The length fields of a layer in a segment of `n` bytes (R268). -/
def segLens (n : Nat) (l : Layer) (bs : List Byte) : List Byte :=
  let bs := match l.l3 with
    | .ipv4 => patch bs (l.l3off + 2) (bytesBE 2 (n - l.l3off))
    | .ipv6 => patch bs (l.l3off + 4) (bytesBE 2 (n - l.l3off - 40))
    | .other => bs
  if l.l4 = .udp then patch bs (l.l4off + 4) (bytesBE 2 (n - l.l4off)) else bs

/-- The header walk of a segment of `n` bytes: every IP payload runs to the segment's end. -/
def Walk.toEnd (w : Walk) (n : Nat) : Walk :=
  { w with outer := { w.outer with l3end := n }, inner := w.inner.map (fun l => { l with l3end := n }) }

/-- Segment `k` of a large send before checksums: header copied and rewritten, then payload (R268). -/
def segBody (f : TxFrame) (k : Nat) (payload : List Byte) : List Byte :=
  let h := f.lso.getD 0
  let bs := f.hdr.take h ++ payload
  let n := bs.length
  let lin := f.walk.innermost
  let bs := bumpBE bs (lin.l4off + 4) 4 (k * f.mss)
  let fl := u8 bs (lin.l4off + 13)
  let fl := if k + 1 = f.segs then fl else fl &&& 0xF6
  let fl := if k = 0 then fl else fl &&& 0x7F
  let bs := patch bs (lin.l4off + 13) (bytesBE 1 fl)
  let bs := if lin.l3 = .ipv4 then bumpBE bs (lin.l3off + 4) 2 k else bs
  let bs := segLens n f.walk.outer bs
  match f.walk.inner with
  | none => bs
  | some l =>
    let bs := if f.walk.outer.l3 = .ipv4 ∧ f.prof.outerIdInc then bumpBE bs (f.walk.outer.l3off + 4) 2 k else bs
    let bs := segLens n l bs
    if f.walk.outer.l4 = .udp then patch bs (f.walk.outer.l4off + 6) (zeros 2) else bs

/-- The checksums that step 3 of R261 writes: outer IPv4, outer L4, inner IPv4, inner L4 (R260, R264, R268). -/
def TxFrame.writes (f : TxFrame) : Bool × Bool × Bool × Bool :=
  let o := f.walk.outer
  let i := f.walk.inner.getD {}
  let tun := f.walk.tunnel.isSome
  if f.isLso then
    if f.walk.inner.isSome then
      (decide (o.l3 = .ipv4), decide (o.l4 = .udp) && (f.prof.l4 || decide (o.l3 = .ipv6)), decide (i.l3 = .ipv4), i.hasL4)
    else (decide (o.l3 = .ipv4), o.hasL4, false, false)
  else
    (f.prof.l3 && decide (o.l3 = .ipv4), f.prof.l4 && o.hasL4,
     tun && f.prof.inL3 && decide (i.l3 = .ipv4), tun && f.prof.inL4 && i.hasL4)

/-- Requested checksums that cannot be written (R260). -/
def TxFrame.skips (f : TxFrame) : Nat :=
  let o := f.walk.outer
  let i := f.walk.inner.getD {}
  let tun := f.walk.tunnel.isSome
  b2n (f.prof.l3 && !decide (o.l3 = .ipv4)) + b2n (f.prof.l4 && !o.hasL4) +
  b2n (tun && f.prof.inL3 && !decide (i.l3 = .ipv4)) + b2n (tun && f.prof.inL4 && !i.hasL4)

/-- The one-step field: TS80 or NS64 of an instant (R273). -/
def tsField (ts80 : Bool) (t : Nat) : List Byte :=
  if ts80 then bytesBE 6 (stSec t) ++ bytesBE 4 (stNs t) else bytesBE 8 (stLin t)

/-- Steps 2 to 4 of R261 on the bytes of step 1. -/
def offSteps (f : TxFrame) (w : Walk) (ts : Option (List Byte)) (b1 : List Byte) : List Byte :=
  let (o3, o4, i3, i4) := f.writes
  let b2 := match ts, f.info with
    | some t, some m => patch b1 m.insOff t
    | _, _ => b1
  let inner := w.inner.getD {}
  let b3 := putL4 o4 w.outer (putL3 o3 w.outer (putL4 i4 inner (putL3 i3 inner b2)))
  -- an outer checksum written in step 3 covers the inner bytes as they stand after it; the others are fixed
  let b4 := if i4 || w.inner.isNone then b3 else fixL4 inner b1 b3
  if o4 then b4 else fixL4 w.outer b1 b4

/-- The telemetry trailer of a departure instant in TRAILER_TB (R276). -/
def trailerBytes (t sojourn engineId port : Nat) : List Byte :=
  bytesBE 6 (stLin t) ++ bytesBE 4 (min sojourn 0xFFFFFFFF) ++ bytesBE 1 engineId ++ bytesBE 1 port

/-- The FCS of a frame: appended, or replaced where an offload altered the frame (R94, R95). -/
def txFcs (fcsPass : Bool) (supplied body : List Byte) : List Byte :=
  if fcsPass then
    let orig := supplied.take (supplied.length - 4)
    let given := supplied.drop (supplied.length - 4)
    if body = orig then given
    else if given = fcsBytes orig then fcsBytes body
    else (fcsBytes body).map (fun b => ~~~b)
  else fcsBytes body

/-- The supplied FCS of a frame in passthrough mode is bad (R95). -/
def badFcs (fcsPass : Bool) (supplied : List Byte) : Bool :=
  fcsPass && supplied.drop (supplied.length - 4) != fcsBytes (supplied.take (supplied.length - 4))

/-- A frame or segment as it leaves, FCS included, and whether a supplied FCS was bad (R261). -/
def Eng.txBytes (e : Eng) (p : PortId) (w : WireFrame) : List Byte × Bool :=
  let f := w.f
  let pads := f.isLso || ((e.port p).padEn && !w.fcsPass)
  let data := w.g.data
  let b1 := if f.isLso then segBody f w.g.seg data else if w.fcsPass then data.take (data.length - 4) else data
  let wk := if f.isLso then f.walk.toEnd b1.length else f.walk
  let ts := if f.tsIns then some (tsField f.prof.ts80 (nth w.egress w.tb.val 0)) else none
  let b4 := offSteps f wk ts b1
  let b5 := if pads ∧ b4.length < 60 then b4 ++ zeros (60 - b4.length) else b4
  let b6 := if w.trailer then
      b5 ++ trailerBytes (nth w.egress e.off.trailerTb.val 0) w.sojourn e.off.engineId p.val
    else b5
  (b6 ++ txFcs w.fcsPass data b6, badFcs w.fcsPass data)

/-! ### Verification on receive -/

/-- Result codes: 0 NOT_CHECKED, 1 GOOD, 2 BAD (R177, R265). -/
def good (b : Bool) : Nat := if b then 1 else 2

/-- The result of a used layer's IPv4 header. -/
def rxL3 (bs : List Byte) (l : Layer) : Nat :=
  match l.l3 with
  | .ipv4 => good (fold16 (sum16 (slice bs l.l3off (ihlBytes bs l.l3off))) == 65535)
  | .ipv6 | .other => 0

/-- The result of a used layer's TCP or UDP header (R265). -/
def rxL4 (bs : List Byte) (l : Layer) (vx gn : Nat) : Nat :=
  let ok (len : Nat) : Nat := good (fold16 (pseudoSum bs l len + sum16 (slice bs l.l4off len)) == 65535)
  match l.l4 with
  | .tcp => ok l.l4len
  | .udp =>
    if u16 bs (l.l4off + 6) = 0 then
      match l.l3 with
      | .ipv6 => let d := u16 bs (l.l4off + 2); if tunnelPort d vx || tunnelPort d gn then 0 else 2
      | .ipv4 | .other => 0
    else ok (u16 bs (l.l4off + 4))
  | .other | .gre => 0

/-- L3_CSUM, L4_CSUM, IN_L3_CSUM, IN_L4_CSUM of a classified frame (R265). -/
def rxCsums (bs : List Byte) (w : Walk) (vx gn : Nat) : Nat × Nat × Nat × Nat :=
  match w.inner with
  | none => (rxL3 bs w.outer, rxL4 bs w.outer vx gn, 0, 0)
  | some i => (rxL3 bs w.outer, rxL4 bs w.outer vx gn, rxL3 bs i, rxL4 bs i vx gn)

end Sys2Proof.Machine
end

