-- ==== Sys2Proof/Machine/DealerOps.lean ====
section
/-! DEFINITION. DealerOps.lean: the scheduling trees: eligibility, round lists, decisions and charges
(10_dealer.md R284 to R303). -/
namespace Sys2Proof.Machine

/-! ### Objects of a tree -/

/-- A leaf or node; a root reads as an object without fields. -/
def Eng.dobj (e : Eng) (o : DObjId) : DObj :=
  match o with
  | .leaf q => e.leaf q
  | .node n => e.node n
  | .root _ => {}

/-- The engine with a leaf or node set. -/
def Eng.setDobj (e : Eng) (o : DObjId) (v : DObj) : Eng :=
  match o with
  | .leaf q => e.setLeaf q v
  | .node n => e.setNode n v
  | .root _ => e

/-- The engine with a leaf or node changed. -/
def Eng.modDobj (e : Eng) (o : DObjId) (g : DObj → DObj) : Eng := e.setDobj o (g (e.dobj o))

/-- The parent of a leaf or node: a node, or its port's root (R285). -/
def DObj.up (x : DObj) : DObjId :=
  match x.parent with
  | some n => .node n
  | none => .root x.port

/-- The leaves and nodes that exist, nodes first, each kind by number. -/
def Eng.dobjs (e : Eng) : List (DObjId × DObj) :=
  e.dealer.nodes.rows.filterMap (fun r => if r.2.live then some (.node (fin 8192 r.1), r.2) else none) ++
  e.dealer.leaves.rows.filterMap (fun r => if r.2.live then some (.leaf (fin 32768 r.1), r.2) else none)

/-- Children of a node or root. -/
def Eng.kids (e : Eng) (o : DObjId) : List (DObjId × DObj) := e.dobjs.filter (fun r => decide (r.2.up = o))

/-- Round lists of a node or root (R291). -/
def Eng.rounds (e : Eng) (o : DObjId) : List (List DObjId) :=
  match o with
  | .root p => (e.root p).rounds
  | .leaf _ | .node _ => (e.dobj o).rounds

/-- The engine with the round list of a band set. -/
def Eng.setRound (e : Eng) (o : DObjId) (b : Nat) (l : List DObjId) : Eng :=
  match o with
  | .root p => let r := e.root p; e.setRoot p { r with rounds := setNth r.rounds b l }
  | .leaf _ | .node _ => e.modDobj o (fun x => { x with rounds := setNth x.rounds b l })

/-- A bucket permits eligibility (R298). -/
def DObj.bucketOk (x : DObj) : Bool := !x.sh.en || decide (0 ≤ x.tokens)

/-! ### Heads of queues -/

/-- A frame not granted whole and not complete. -/
def TxFrame.waiting (f : TxFrame) : Bool :=
  match f.st with
  | .lookup | .offered => f.ending.isNone
  | .granted | .done _ => false

/-- The frame at the head of a queue: the first not granted (R292). -/
def Txq.headFrame (x : Txq) : Option TxFrame := x.frames.find? (·.waiting)

/-- The head frame where it is ready: its descriptors are read and translated (R292). -/
def Txq.ready (x : Txq) : Option TxFrame :=
  match x.headFrame with
  | some f => if f.st = .offered then some f else none
  | none => none

/-- The next segment of a frame has been charged by an earlier grant (R304). -/
def TxFrame.charged (f : TxFrame) : Bool := decide (f.segNext < f.chargedTo)

/-- Length of a head frame or of its next segment (R294). -/
def Eng.headLen (e : Eng) (x : Txq) (f : TxFrame) : Nat := (e.port x.port).txLen f x.fcsPass f.segNext

/-- What is left of a head frame after the pieces taken (R293). -/
def Eng.headLeft (e : Eng) (x : Txq) (f : TxFrame) : Nat := e.headLen x f - 4096 * f.pieces

/-- A frame's launch time applies: LAUNCH_EN, a launch time, and of a large send the first segment (R347, R348). -/
def Txq.launch (x : Txq) (f : TxFrame) (seg : Nat) : Option Nat :=
  match f.info with
  | some m => if x.launchEn ∧ m.launch ≠ 0 ∧ seg = 0 then some m.launch else none
  | none => none

/-- The time base of a function's egress time-stamps (R329). -/
def Eng.txBase (e : Eng) (f : Fn) : TbId := ((e.fn f).timeBase).getD 0

/-- Cause 8 applies to a frame or segment (R349): the linear count of R311 is 64 bits wide. -/
def Eng.launchHeld (e : Eng) (x : Txq) (f : TxFrame) (seg : Nat) : Bool :=
  match x.launch f seg with
  | none => false
  | some l => decide ((e.tb (e.txBase x.fn)).linear % 2 ^ 64 + (e.port x.port).schedLead < l)

/-- Cause 9 applies to a frame or segment of length `len` (R349). -/
def Eng.gateHeld (e : Eng) (x : Txq) (len : Nat) : Bool :=
  let (s, b) := e.sched x.port
  let t : Int := (e.tb b).linear
  !s.meets x.tc.val (t + (e.port x.port).schedLead) len (e.port x.port).width s.fuel t

/-- The head may be taken whole as far as launch time and gates go. -/
def Eng.timeOk (e : Eng) (x : Txq) (f : TxFrame) (seg len : Nat) : Bool :=
  !e.launchHeld x f seg && !e.gateHeld x len

/-- The class of a queue is paused at its port (R296, R125). -/
def Port.paused (x : Port) (c : Tc) : Bool :=
  !bitAt x.drain.toNat c.val &&
  match x.fcMode with
  | .none => false
  | .pause => x.pauseP.isSome
  | .pfc => (nth x.pauseC c.val none).isSome

/-- A fault of queue `q` holds its head: its completion ring, or the page of its head frame (R206, R209). -/
def Eng.headFault (e : Eng) (q : TxqId) (x : Txq) : Bool :=
  (e.waitOf (.txq q)).isSome &&
  (e.txRecBlocked q || !x.held.isEmpty || x.ready.isNone)

/-- The lowest of causes 1 to 10 that applies to a leaf, 0 where none does (R296). -/
def Eng.leafCause (e : Eng) (q : TxqId) : Nat :=
  match e.txq q with
  | none => 1
  | some x =>
    let p := e.port x.port
    if !(decide (x.state = .running) || decide (x.state = .paused) ||
        (decide (x.state = .stopping) && decide (x.stopMode = .drain))) then 1
    else if e.headFault q x then 2
    else if (e.fn x.fn).quenched then 3
    else if p.state ≠ .up then 4
    else match x.ready with
      | none => 5
      | some f =>
        if p.paused x.tc then 6
        else if 64 ≤ (nth p.lists x.tc.val []).length then 7
        else
          let last := decide (e.headLeft x f ≤ 4096)
          if last && e.launchHeld x f f.segNext then 8
          else if last && e.gateHeld x (e.headLen x f) then 9
          else if (e.leaf q).bucketOk then 0 else 10

/-- An ancestor of an object, in at most `fuel` levels, is ineligible by cause 10 (R296). -/
def Eng.upBlocked (e : Eng) : Nat → DObjId → Bool
  | 0, _ => false
  | n + 1, o =>
    match (e.dobj o).up with
    | .node k => !(e.node k).bucketOk || e.upBlocked n (.node k)
    | .root _ | .leaf _ => false

/-- Eligibility code of a leaf as DEALER_QUERY and the sampler report it (R296). -/
def Eng.leafCode (e : Eng) (q : TxqId) : Nat :=
  let c := e.leafCause q
  if c = 0 ∧ e.upBlocked 9 (.leaf q) then 11 else c

/-- A leaf is EMPTY, whatever lower code applies too: no ready frame at its head (R291, R296). -/
def Eng.leafEmpty (e : Eng) (q : TxqId) : Bool :=
  match e.txq q with
  | none => true
  | some x => x.ready.isNone

/-- An object is eligible, looking down at most `fuel` levels (R295, R296). -/
def Eng.elig (e : Eng) : Nat → DObjId → Bool
  | 0, _ => false
  | n + 1, o =>
    match o with
    | .leaf q => e.leafCode q == 0
    | .node k => (e.node k).bucketOk && (e.kids o).any (fun r => e.elig n r.1)
    | .root _ => (e.kids o).any (fun r => e.elig n r.1)

/-- Port pacing permits the root (R303); a standby's roots are ineligible by it (R438). -/
def Eng.pacingOk (e : Eng) (p : PortId) : Bool :=
  decide (0 ≤ (e.root p).pacing) && decide ((e.root p).window < 262144) && !e.standby && !e.handing && !e.pwr.closed

/-- Eligibility code of a node or root (R296). -/
def Eng.objCode (e : Eng) (o : DObjId) : Nat :=
  match o with
  | .leaf q => e.leafCode q
  | .node n => if e.elig 10 o then 0 else if (e.node n).bucketOk then 5 else 10
  | .root p =>
    if (e.port p).state ≠ .up then 4
    else if !e.elig 10 o then 5
    else if e.pacingOk p then 0 else 12

/-- The root is eligible. -/
def Eng.rootOk (e : Eng) (p : PortId) : Bool :=
  decide ((e.port p).state = .up) && !(e.root p).broken && e.pacingOk p && !e.fenced && e.elig 10 (.root p)

/-- Classes of the eligible leaves below an object, one bit each (R295). -/
def Eng.classSet (e : Eng) : Nat → DObjId → Nat
  | 0, _ => 0
  | n + 1, o =>
    match o with
    | .leaf q => match e.txq q with
      | some x => if e.leafCode q = 0 then 2 ^ x.tc.val else 0
      | none => 0
    | .node _ | .root _ => (e.kids o).foldl (fun s r => s ||| e.classSet n r.1) 0

/-! ### Round lists -/

/-- A child leaves or joins its band's round list (R291): an ineligible child leaves, keeping its deficit but
for an EMPTY leaf's above 0; an eligible one that is not in the list joins at the tail. -/
def Eng.syncBand (e : Eng) (o : DObjId) (ks : List (DObjId × Bool)) (b : Nat) : Eng :=
  let mine := ks.filter (fun r => decide ((e.dobj r.1).band = b))
  let old := nth (e.rounds o) b []
  let stay := old.filter (fun c => mine.any (fun r => decide (r.1 = c) && r.2))
  let join := (mine.filter (fun r => r.2 && !old.contains r.1)).map (·.1)
  let e := e.setRound o b (stay ++ join)
  foldEng mine (fun e (c, ok) =>
    if ok then (if join.contains c then e.modDobj c (fun x => { x with turn := false }) else e)
    else
      let empty := match c with
        | .leaf q => e.leafEmpty q
        | .node _ | .root _ => false
      e.modDobj c (fun x => { x with turn := false, deficit := if empty && decide (0 < x.deficit) then 0 else x.deficit })) e

/-- The round lists of an object brought up to date. -/
def Eng.sync (e : Eng) (o : DObjId) : Eng :=
  let ks := (e.kids o).map (fun r => (r.1, e.elig 9 r.1))
  foldEng (upTo 8) (fun e b => e.syncBand o ks b) e

/-- Nodes and roots with children. -/
def Eng.parents (e : Eng) : List DObjId := (e.dobjs.map (fun r => r.2.up)).eraseDups

/-- The round lists after a command: children whose eligibility it has changed leave or join (R291). -/
def Eng.syncAll (e : Eng) : Eng := foldEng e.parents (fun e o => e.sync o) e

/-- A turn ends: the child moves to the tail of its list. -/
def Eng.endTurn (e : Eng) (o : DObjId) (b : Nat) (c : DObjId) : Eng :=
  let l := nth (e.rounds o) b []
  (e.setRound o b (l.filter (fun d => !decide (d = c)) ++ [c])).modDobj c (fun x => { x with turn := false })

/-- The child a decision takes in a band: the head of its list, once its turn leaves its deficit above 0 (R291). -/
def Eng.pickChild (o : DObjId) (b : Nat) : Nat → Eng → Option DObjId × Eng
  | 0, e => (none, e)
  | n + 1, e =>
    match nth (e.rounds o) b [] with
    | [] => (none, e)
    | c :: _ =>
      let x := e.dobj c
      if x.turn then (some c, e)
      else
        let d := x.deficit + x.quantum
        let e := e.setDobj c { x with deficit := d, turn := true }
        if d ≤ 0 then Eng.pickChild o b n (e.endTurn o b c) else (some c, e)

/-- The lowest-numbered band with a child in its list (R290). -/
def bandOf (rounds : List (List DObjId)) : Option Nat := (upTo 8).find? (fun b => !(nth rounds b []).isEmpty)

/-- The path of a decision from an object down: the leaf, and each object taken with its parent and band. -/
def Eng.descend : Nat → Eng → DObjId → List (DObjId × DObjId × Nat) → Option (TxqId × List (DObjId × DObjId × Nat)) × Eng
  | 0, e, _, _ => (none, e)
  | n + 1, e, o, path =>
    match o with
    | .leaf q => (some (q, path), e)
    | .node _ | .root _ =>
      let e := e.sync o
      match bandOf (e.rounds o) with
      | none => (none, e)
      | some b =>
        match Eng.pickChild o b (80 * ((nth (e.rounds o) b []).length + 1)) e with
        | (none, e) => (none, e)
        | (some c, e) => Eng.descend n e c ((c, o, b) :: path)

/-! ### Grants -/

/-- 64-byte lines of a length. -/
def linesOf (n : Nat) : Nat := ceilDiv n 64

/-- A frame or segment is granted: it takes its place in the class's start list and its data is read (R113, R294). One
charged before is charged no more, not to the port's pacing either (R304). -/
def Eng.grant (e : Eng) (q : TxqId) (x : Txq) (f : TxFrame) (len : Nat) : Eng :=
  let p := e.port x.port
  let (g, e) := e.newGrp
  let (pos, need) := f.segRange f.segNext
  let gf : GFrame := { q := q, frame := f.id, seg := f.segNext, order := p.nextOrder, len := len, grp := g, need := need }
  let e := e.setPort x.port { p with
    nextOrder := p.nextOrder + 1
    lists := modNth p.lists x.tc.val (fun l => l ++ [gf]) }
  let r := e.root x.port
  let e := e.setRoot x.port { r with
    pacing := if f.charged then r.pacing else r.pacing - (len + 20 : Nat), window := r.window + len }
  let e := { e with start := { e.start with txLines := e.start.txLines + linesOf len } }
  let lastSeg := decide (f.segs ≤ f.segNext + 1)
  let e := e.modTxq q (fun y => y.modFrame f.id (fun f =>
    { f with st := if lastSeg then .granted else .offered
             segNext := f.segNext + 1, pieces := 0, chargedTo := max f.chargedTo (f.segNext + 1) }))
  -- the supplied bytes of the frame or segment, buffer by buffer
  let parts := f.bufs.foldl (fun (acc : List (Nat × Nat × Nat) × Nat) b =>
    let (l, at_) := acc
    let lo := max pos at_
    let hi := min (pos + need) (at_ + b.2)
    (if lo < hi then l ++ [(b.1 + (lo - at_), hi - lo, lo - pos)] else l, at_ + b.2)) ([], 0)
  foldEng parts.1 (fun e (a, n, k) => e.readRange (.txData q f.id) x.fn x.pasid g a n k) e

/-- The charge of a decision on every object of its path (R294): `frames` LEN_ADJs are added to `len`. -/
def Eng.charge (e : Eng) (path : List (DObjId × DObjId × Nat)) (len frames : Nat) : Eng :=
  foldEng path (fun e (c, o, b) =>
    let x := e.dobj c
    let k : Int := len + frames * x.sh.lenAdj
    let d := x.deficit - k
    let e := e.setDobj c { x with deficit := d, tokens := if x.sh.en then x.tokens - 125 * k else x.tokens }
    if d ≤ 0 then e.endTurn o b c else e) e

/-- Leaves of a port held by cause 10 or 11. -/
def Eng.shaped (e : Eng) (p : PortId) : List TxqId :=
  e.txqList.filterMap (fun r => if r.2.port = p ∧ (e.leafCode r.1 = 10 ∨ e.leafCode r.1 = 11) then some r.1 else none)

/-- The batch of a decision (R292): further frames are taken while `n` more may be; answers the lengths charged
and how many LEN_ADJs, the frames granted, and the engine. -/
def Eng.batch (q : TxqId) : Nat → Nat → Nat → Nat → Nat → Eng → Nat × Nat × Nat × Eng
  | 0, _, len, adj, cnt, e => (len, adj, cnt, e)
  | n + 1, sum, len, adj, cnt, e =>
    match e.txq q with
    | none => (len, adj, cnt, e)
    | some x =>
      match x.ready with
      | none => (len, adj, cnt, e)
      | some f =>
        let k := e.headLen x f
        if sum + k ≤ 4096 ∧ f.pieces = 0 ∧ e.timeOk x f f.segNext k then
          let e := e.grant q x f k
          Eng.batch q n (sum + k) (len + if f.charged then 0 else k) (adj + if f.charged then 0 else 1) (cnt + 1) e
        else (len, adj, cnt, e)

/-- A decision that has reached leaf `q` (R292 to R294): answers the charge's length and LEN_ADJs, frames granted. -/
def Eng.takeBatch (e : Eng) (q : TxqId) : Nat × Nat × Nat × Eng :=
  match e.txq q with
  | none => (0, 0, 0, e)
  | some x =>
    match x.ready with
    | none => (0, 0, 0, e)
    | some f =>
      let k := e.headLen x f
      let left := e.headLeft x f
      let (len, adj) := if f.charged then (0, 0) else (left, 1)
      if 4096 < left then
        (min 4096 len, 0, 0, e.modTxq q (fun y => y.modFrame f.id (fun f => { f with pieces := f.pieces + 1 })))
      else if 0 < f.pieces then (len, adj, 1, e.grant q x f k)
      else Eng.batch q 3 k len adj 1 (e.grant q x f k)

/-- The head frame length that a node or root presents: of the next frame or piece of the leaf that a decision through it
would reach, none where it is not eligible (R295). -/
def Eng.headOf (e : Eng) (o : DObjId) : Option Nat :=
  match Eng.descend 10 e o [] with
  | (some (q, _), e) => match e.txq q with
    | some x => x.ready.map (fun f => min 4096 (e.headLeft x f))
    | none => none
  | (none, _) => none

/-! ### The decision calendar -/

/-- Slot that owns position `k` of the slot calendar: its four bits reversed (R70). -/
def calSlot (k : Nat) : PortId := fin 16 (k / 8 % 2 + k / 4 % 2 * 2 + k / 2 % 2 * 4 + k % 2 * 8)

/-- Slot `s` is one of port `p`'s transmit lanes in service (R131). -/
def Eng.txSlot (e : Eng) (p s : PortId) : Bool := decide (p.val ≤ s.val ∧ s.val < p.val + (e.port p).txLanes)

/-- The port whose turn a decision is: the next position of the calendar, or the first after it whose root is eligible
(R288). A position belongs to a port by its transmit lanes in service. -/
def Eng.calTurn (e : Eng) : Option PortId :=
  (upTo 16).findSome? (fun i =>
    let s := calSlot ((e.dealer.calNext.val + i) % 16)
    let p := e.portOf s
    if e.txSlot p s && e.rootOk p then some p else none)

/-- The units take the next position of the calendar: one each decision, whichever position's root it went to (log entry 72,
DEDUCED). -/
def Eng.calStep (e : Eng) : Eng := { e with dealer := { e.dealer with calNext := e.dealer.calNext + 1 } }

end Sys2Proof.Machine
end

