-- ==== Sys2Proof/Machine/WireOps.lean ====
section
/-! DEFINITION. WireOps.lean: port statistics, slot accounting, buffer charges, flow control, pause timers, the
trump store and the cut-through threshold (04_wire.md R106 to R128, 18_tally.md R463 to R465). -/
namespace Sys2Proof.Machine

/-! ### Counting frames -/

/-- Offset of the size counters' pair for a length (R128). -/
def sizeIdx (n : Nat) : Nat :=
  if n ≤ 64 then 0 else if n ≤ 127 then 1 else if n ≤ 255 then 2 else if n ≤ 511 then 3
  else if n ≤ 1023 then 4 else if n ≤ 1518 then 5 else if n ≤ 2047 then 6 else if n ≤ 4095 then 7
  else if n ≤ 8191 then 8 else if n ≤ 9215 then 9 else 10

/-- The broadcast address. -/
def isBcast (bs : List Byte) : Bool := bs.take 6 == List.replicate 6 0xFF

/-- Pair of the destination-type counters: unicast, multicast, broadcast (R128). -/
def destIdx (bs : List Byte) : Nat :=
  if isBcast bs then 2 else if u8 bs 0 % 2 = 1 then 1 else 0

/-- Time is accounted on a port while PD_MAC is powered (R463). -/
def Eng.macOn (e : Eng) : Bool := e.pwr.restOn

/-- Index of a direction's slot accounting. -/
def slotIdx (p : PortId) (d : TDir) : Nat := 2 * p.val + (match d with
  | .tx => 0
  | .rx => 1)

/-- Classes of R472. -/
def clRetired : Nat := 0
def clWasted : Nat := 1
def clStarvedFront : Nat := 2
def clStarvedBack : Nat := 3
def clIdle : Nat := 4

/-- A bandwidth accumulator of a port changed, where the window records it (R467, R468). -/
def Eng.modBw (e : Eng) (p : PortId) (d : TDir) (g : BwAcc → BwAcc) : Eng :=
  if e.tally.bwEn ∧ bitAt e.tally.bwMaskNow.toNat p.val then
    let b := e.tally.bw.get {} p.val
    let b := match d with
      | .tx => { b with tx := g b.tx }
      | .rx => { b with rx := g b.rx }
    { e with tally := { e.tally with bw := e.tally.bw.put {} p.val b } }
  else e

/-- `n` byte-times of a port and direction fall into a class (R463): FREEZE stops the counters, not the
bandwidth windows (R461). -/
def Eng.slotTime (e : Eng) (p : PortId) (d : TDir) (cls n : Nat) : Eng :=
  if !e.macOn then e
  else
    let i := slotIdx p d
    let a := e.tally.slots.get {} i
    let a := if e.tally.freeze then a else { a with times := addCnt a.times cls n }
    let e := { e with tally := { e.tally with slots := e.tally.slots.put {} i a } }
    e.modBw p d (fun b => { b with times := addCnt b.times cls n })

/-- A frame's byte-times: classed at once, ahead of the clock (log entry 20). -/
def Eng.slotFrame (e : Eng) (p : PortId) (d : TDir) (cls n : Nat) : Eng :=
  if !e.macOn then e
  else
    let e := e.slotTime p d cls n
    let i := slotIdx p d
    let a := e.tally.slots.get {} i
    { e with tally := { e.tally with slots := e.tally.slots.put {} i { a with ahead := a.ahead + n } } }

/-- A good frame counted: the statistics set, Tally and the bandwidth window (R128, R457, R468). -/
def Eng.frameOk (e : Eng) (p : PortId) (d : TDir) (tc : Option Tc) (o : Option TOrig) (bs : List Byte) (len : Nat) : Eng :=
  let k := match d with
    | .rx => 0
    | .tx => 1
  let e := (e.stat p k 1).stat p (2 + k) len
  let e := (e.stat p (4 + 2 * destIdx bs + k) 1).stat p (10 + 2 * sizeIdx len + k) 1
  let t (code inc : Nat) : TEvent := { code := code, inc := inc, port := some p, tc := tc, dir := some d, orig := o }
  let e := (e.tal (t 0x001 1)).tal (t 0x002 len)
  e.modBw p d (fun b => { b with octets := b.octets + len, frames := b.frames + 1 })

/-- WIRE_BYTES of a frame started or received (R457). -/
def Eng.wireBytes (e : Eng) (p : PortId) (d : TDir) (tc : Option Tc) (o : Option TOrig) (len : Nat) : Eng :=
  e.tal { code := 0x003, inc := len + 20, port := some p, tc := tc, dir := some d, orig := o }

/-! ### The packet buffer -/

/-- Bits set in a number of `w` bits. -/
def popCount : Nat → Nat → Nat
  | 0, _ => 0
  | w + 1, v => v % 2 + popCount w (v / 2)

/-- Banks out of service: retired, or failed in the self-test (R22, R476). -/
def Eng.banksOut (e : Eng) : Nat := popCount 32 (e.flt.pbRetired.toNat ||| e.start.tests.pbBanks.toNat)

/-- Lines of the shared frame area (R22). -/
def Eng.sharedCap (e : Eng) : Nat := (32 - e.banksOut) * 16384 - (e.start.kittySize + e.dma.parkSize) / 64

/-- Lines of the shared frame area in use. -/
def Eng.sharedUse (e : Eng) : Nat :=
  (e.portList.foldl (fun s p => s + (e.port p).shared.foldl (· + ·) 0) 0) + e.start.txLines + e.steer.rcircLines

/-- Lines of the kitty in use. -/
def Eng.kittyUse (e : Eng) : Nat := e.portList.foldl (fun s p => s + (e.port p).kitty.foldl (· + ·) 0) 0

/-- A class of a port is lossless (R124). -/
def Port.lossless? (x : Port) (c : Tc) : Bool :=
  match x.fcMode with
  | .none => false
  | .pause => true
  | .pfc => bitAt x.lossless.toNat c.val

/-- The index under which a class's flow control is kept: 0 in PAUSE mode (R124). -/
def Port.fcIdx (x : Port) (c : Tc) : Nat :=
  match x.fcMode with
  | .pause => 0
  | .none | .pfc => c.val

/-- Shared-area use in bytes that a class's thresholds are held against (R124). -/
def Port.useOf (x : Port) (c : Tc) : Nat :=
  match x.fcMode with
  | .pause => 64 * x.shared.foldl (· + ·) 0
  | .none | .pfc => 64 * nth x.shared c.val 0

/-- Kitty charge that holds a class (R124). -/
def Port.kittyOf (x : Port) (c : Tc) : Nat :=
  match x.fcMode with
  | .pause => x.kitty.foldl (· + ·) 0
  | .none | .pfc => nth x.kitty c.val 0

/-! ### The trump store -/

/-- ENG_ID (R537): the engine's index on its chip is taken as 0 (log entry 4). -/
def engId : Nat := 0x7A5F02 + 0xC3 * 2 ^ 24 + Config.chipSerial % 2 ^ 31 * 2 ^ 33

/-- The pair state is a membership (R86). -/
def Eng.paired (e : Eng) : Bool := decide (e.pair.state ≠ .unpaired)

/-- The advertised ROLE: 2 for a standby (R86, R438). -/
def Eng.pairRole (e : Eng) : Nat :=
  match e.pair.state with
  | .active | .activeAlone => 1
  | .standby | .standbyStale => 2
  | .unpaired | .forming | .fenced => if e.pair.roleActive then 1 else 2

/-- Lane counts a port advertises and thins to, bit k for 2^k lanes (R132). -/
def Port.thinSteps (x : Port) : Nat :=
  pack ((upTo 4).map (fun k => (b2n (decide (min x.thinMin x.width ≤ 2 ^ k ∧ 2 ^ k ≤ x.width)), 1)))

/-- The port advertises THIN (R132). -/
def Port.advThin (x : Port) : Bool := x.thinAuto && decide (2 ≤ x.width)

/-- A TLV of an LLDPDU. -/
def tlv (ty : Nat) (v : List Byte) : List Byte := bytesBE 2 (ty * 512 + v.length) ++ v

/-- An LLDPDU of a port, as a frame without FCS (R85, R86); the ID subtypes are PRESUMED (log entry 22). -/
def Eng.lldpBytes (e : Eng) (p : PortId) (ttl : Nat) : List Byte :=
  let x := e.port p
  let cap := bytesBE 3 0x7A5F02 ++ [1, 1] ++
    bytesBE 1 (pack [(b2n x.advThin, 1), (1, 1), (b2n x.trailerStrip, 1), (b2n e.paired, 1)]) ++
    bytesBE 1 x.thinSteps ++ bytesBE 1 x.width ++ bytesBE 1 e.off.engineId ++ bytesBE 1 p.val ++ zeros 2
  let pr := bytesBE 3 0x7A5F02 ++ [2] ++ bytesBE 8 e.pair.pairId ++ bytesBE 4 e.pair.epoch.toNat ++
    bytesBE 1 e.pairRole ++ bytesBE 1 e.off.engineId ++ zeros 2
  let f := bytesBE 6 0x0180C200000E ++ bytesLE 6 x.station ++ bytesBE 2 0x88CC ++
    tlv 1 (7 :: bytesBE 8 engId) ++ tlv 2 (7 :: bytesBE 1 p.val) ++ tlv 3 (bytesBE 2 ttl) ++
    tlv 127 cap ++ (if e.paired then tlv 127 pr else []) ++ x.lldpExtra ++ tlv 0 []
  f ++ zeros (60 - f.length)

/-- A thinning handshake frame without FCS (R138). -/
def thinBytes (station ty : Nat) (m : ThinMsg) : List Byte :=
  let f := bytesBE 6 0x0180C200000E ++ bytesLE 6 station ++ bytesBE 2 0x88B5 ++ bytesBE 3 0x7A5F02 ++ [1, 1] ++
    bytesBE 1 ty ++ bytesBE 2 m.seq.toNat ++ [m.cur, m.target] ++ bytesBE 1 (b2n m.restore + 2 * b2n m.cold) ++
    [m.warm, m.reason, m.switch]
  f ++ zeros (60 - f.length)

/-- A PAUSE or PFC frame without FCS, with the port's flow-control state (R109 to R111, R116). -/
def Port.fcBytes (x : Port) : List Byte :=
  let head := bytesBE 6 0x0180C2000001 ++ bytesLE 6 x.station ++ bytesBE 2 0x8808
  let f := match x.fcMode with
    | .pause => head ++ bytesBE 2 0x0001 ++ bytesBE 2 (if bitAt x.xoffSt.toNat 0 then x.pauseQuanta else 0)
    | .none | .pfc =>
      head ++ bytesBE 2 0x0101 ++ bytesBE 2 (x.xoffSt ||| x.released).toNat ++
      (upTo 8).flatMap (fun c => bytesBE 2 (if bitAt x.xoffSt.toNat c then x.pauseQuanta else 0))
  f ++ zeros (60 - f.length)

/-- A trump frame's bytes without FCS. -/
def Eng.trumpBytes (e : Eng) (p : PortId) : Trump → List Byte
  | .fc => (e.port p).fcBytes
  | .thin ty m => thinBytes (e.port p).station ty m
  | .lldp ttl => e.lldpBytes p ttl

/-- A trump frame fits beside those stored: four frames, 1,536 bytes (R118). -/
def Eng.trumpFits (e : Eng) (p : PortId) (l : List Trump) (t : Trump) : Bool :=
  decide (l.length < 4) &&
  decide ((l.foldl (fun s u => s + (e.trumpBytes p u).length + 4) 0) + (e.trumpBytes p t).length + 4 ≤ 1536)

/-- Precedence of trump frames (R119). -/
def Trump.rank : Trump → Nat
  | .fc => 0
  | .thin _ _ => 1
  | .lldp _ => 2

/-- The oldest of the control frames of the highest precedence present, and the rest. -/
def firstTrump (l : List Trump) : Option (Trump × List Trump) :=
  match takeFirst (fun t => t.rank == 0) l with
  | some r => some r
  | none =>
    match takeFirst (fun t => t.rank == 1) l with
    | some r => some r
    | none => takeFirst (fun _ => true) l

/-- A full store without the youngest of its frames of the lowest precedence, and that frame. -/
def lastTrump (l : List Trump) : Option (Trump × List Trump) :=
  let r := l.foldl (fun m t => max m t.rank) 0
  match takeFirst (fun t => t.rank == r) l.reverse with
  | some (t, k) => if r = 0 then none else some (t, k.reverse)
  | none => none

/-- A control frame made ready for a port's trump store; one of lower precedence that finds it full waits (R119). A
flow-control frame not started is replaced by the newer one; it never waits, and where the store is full the youngest
frame of the lowest precedence gives it its place and waits (DEDUCED from R114 and R119, log entry 41). -/
def Eng.pushTrump (e : Eng) (p : PortId) (t : Trump) : Eng :=
  let x := e.port p
  if t = .fc ∧ x.trump.contains .fc then e
  else if x.trumpWait.all (fun u => decide (t.rank < u.rank)) && e.trumpFits p x.trump t then
    e.setPort p { x with trump := x.trump ++ [t] }
  else if t = .fc then
    match lastTrump x.trump with
    | some (u, l) => e.setPort p { x with trump := l ++ [t], trumpWait := u :: x.trumpWait }
    | none => e
  else e.setPort p { x with trumpWait := x.trumpWait ++ [t] }

/-- Waiting control frames take room that has come free, in their order of precedence (R119). -/
def Eng.trumpRefill (p : PortId) : Nat → Eng → Eng
  | 0, e => e
  | n + 1, e =>
    let x := e.port p
    match firstTrump x.trumpWait with
    | none => e
    | some (t, r) =>
      if e.trumpFits p x.trump t then
        Eng.trumpRefill p n (e.setPort p { x with trump := x.trump ++ [t], trumpWait := r })
      else e

/-- A flow-control frame is made ready where the port is in UP and may send one (R116, R438). -/
def Eng.fcReady (e : Eng) (p : PortId) : Eng :=
  if (e.port p).state = .up ∧ e.standby = false ∧ (e.port p).fcMode ≠ .none then e.pushTrump p .fc else e

/-- The XOFF state of a class follows its buffer use (R116, R123); `kitty`: a frame of the class has gone to the kitty. -/
def Eng.fcCheck (e : Eng) (p : PortId) (c : Tc) (kitty : Bool) : Eng :=
  let x := e.port p
  if !x.lossless? c then e
  else
    let i := x.fcIdx c
    let bit : BitVec 8 := BitVec.ofNat 8 (2 ^ i)
    if bitAt x.xoffSt.toNat i then
      if x.kittyOf c = 0 ∧ x.useOf c < nth x.xon i 0 then
        (e.setPort p { x with xoffSt := x.xoffSt &&& ~~~bit, released := x.released ||| bit }).fcReady p
      else e
    else if nth x.xoff i 0 ≤ x.useOf c ∨ kitty then
      (e.setPort p { x with xoffSt := x.xoffSt ||| bit, released := x.released &&& ~~~bit }).fcReady p
    else e

/-- SP_RCIRC credits are given as far as RCIRC_LIMIT allows: lines held and credits not used stay within it
(R242, R498). -/
def Eng.rcircTopUp (e : Eng) : Eng :=
  let s := e.steer
  let n := s.rcircLimit / 16 - 4 * s.rcircLines - s.rcircCredit
  if s.rcircOff ∨ e.dataOn = false ∨ e.ctl.ready = false ∨ n = 0 then e
  else ({ e with steer := { s with rcircCredit := s.rcircCredit + n } }).emit (.rcircCredit n)

/-- Lines of a received frame charged to its class in an area (R123). -/
def Eng.chargeRx (e : Eng) (p : PortId) (c : Tc) (a : Area) (n : Nat) : Eng :=
  match a with
  | .shared => (e.modPort p (fun x => { x with shared := modNth x.shared c.val (· + n) })).fcCheck p c false
  | .kitty => (e.modPort p (fun x => { x with kitty := modNth x.kitty c.val (· + n) })).fcCheck p c true
  | .parking =>
    let b := e.start.parkedBytes + 64 * n
    ({ e with start := { e.start with parkedBytes := b } }).xcnt (fun k => { k with parkHigh := max k.parkHigh b })
  | .recirc => { e with steer := { e.steer with rcircLines := e.steer.rcircLines + n } }

/-- Lines of a received frame freed (R123, R213). -/
def Eng.freeRx (e : Eng) (p : PortId) (c : Tc) (a : Area) (n : Nat) : Eng :=
  match a with
  | .shared => (e.modPort p (fun x => { x with shared := modNth x.shared c.val (· - n) })).fcCheck p c false
  | .kitty => (e.modPort p (fun x => { x with kitty := modNth x.kitty c.val (· - n) })).fcCheck p c false
  | .parking => { e with start := { e.start with parkedBytes := e.start.parkedBytes - 64 * n } }
  | .recirc => ({ e with steer := { e.steer with rcircLines := e.steer.rcircLines - n } }).rcircTopUp

/-! ### Pause timers -/

/-- CLK_DP cycles of a pause time at `n` lanes in service (R115). -/
def quantaCycles (q n : Nat) : Nat := ceilDiv (q * 4) n

/-- A timer that reaches zero adds its time to the class's count (R128). -/
def pausedAdd (e : Eng) (t : Option PauseT) (l : List Int) (c : Nat) : List Int :=
  match t with
  | some t => modNth l c (· + ((e.now : Int) - t.since))
  | none => l

/-- A timer set to a pause time, as R110 sets it. -/
def setTimer (e : Eng) (old : Option PauseT) (q n : Nat) : Option PauseT :=
  if q = 0 then none
  else some { cycles := quantaCycles q n, setAt := e.now, since := (old.map (·.since)).getD e.now }

/-- The count of R126 after a pause time: a non-zero time stops it, zero starts it where it does not run. -/
def restoreOn (e : Eng) (drain : Bool) (q : Nat) (r : Option Nat) : Option Nat :=
  if !drain then none else if q ≠ 0 then none else match r with
    | some t => some t
    | none => some e.now

/-- The port's pause timer takes a time (R110). -/
def Eng.setPause (e : Eng) (p : PortId) (q : Nat) : Eng :=
  let x := e.port p
  let pf := if q = 0 then (upTo 8).foldl (pausedAdd e x.pauseP) x.pausedFor else x.pausedFor
  e.setPort p { x with
    pauseP := setTimer e x.pauseP q x.txLanes
    pausedFor := pf
    restoreAt := modNth x.restoreAt 0 (restoreOn e (bitAt x.drain.toNat 0) q) }

/-- A class's pause timer takes a time (R111). -/
def Eng.setPfc (e : Eng) (p : PortId) (c q : Nat) : Eng :=
  let x := e.port p
  let old := nth x.pauseC c none
  e.setPort p { x with
    pauseC := setNth x.pauseC c (setTimer e old q x.txLanes)
    pausedFor := if q = 0 then pausedAdd e old x.pausedFor c else x.pausedFor
    restoreAt := modNth x.restoreAt c (restoreOn e (bitAt x.drain.toNat c) q) }

/-- Every pause timer of a port is cleared and DRAIN ends (R126). -/
def Eng.clearPause (e : Eng) (p : PortId) : Eng :=
  let e := e.setPause p 0
  let e := foldEng (upTo 8) (fun e c => e.setPfc p c 0) e
  e.modPort p (fun x => { x with drain := 0, restoreAt := List.replicate 8 none })

/-- tx_paused_ns of a class, the time of a running timer included (R128). -/
def Eng.pausedNs (e : Eng) (p : PortId) (c : Nat) : Nat :=
  let x := e.port p
  let t := match x.fcMode with
    | .pause => x.pauseP
    | .none | .pfc => nth x.pauseC c none
  let run : Int := match t with
    | some t => (e.now : Int) - t.since
    | none => 0
  edgesNs (nth x.pausedFor c 0 + run).toNat

/-! ### Cut-through -/

/-- Bytes of a level; none for SAF. -/
def CtLevel.bytes? : CtLevel → Option Nat
  | .bytes n => some n
  | .saf => none

/-- A level raised by one (R108). -/
def CtLevel.up : CtLevel → CtLevel
  | .bytes n => if n < 8192 then .bytes (2 * n) else .saf
  | .saf => .saf

/-- A level lowered by one, not below a floor (R108); one that lies below a floor not yet in effect stays. -/
def CtLevel.down (l : CtLevel) (floor : Nat) : CtLevel :=
  match l with
  | .bytes n => if n ≤ floor then .bytes n else .bytes (max floor (n / 2))
  | .saf => .bytes (max floor 8192)

/-- The present threshold of a port: SAF under CT_MODE SAF (R106, R108). -/
def Port.ctNow (x : Port) : CtLevel := if x.ctSaf then .saf else x.ct

/-- A level raised to a floor. -/
def CtLevel.atLeast (l : CtLevel) (floor : Nat) : CtLevel :=
  match l with
  | .bytes n => .bytes (max n floor)
  | .saf => .saf

/-- The threshold of a port's next frame start, at which a change of CT_FLOOR takes effect (R108). -/
def Port.ctStart (x : Port) : CtLevel := x.ctNow.atLeast x.ctFloor

/-! ### Holding starts -/

/-- MI_TX_HOLD of a slot changed (R487). -/
def Eng.setHold (e : Eng) (s : PortId) (on : Bool) : Eng :=
  let m : BitVec 16 := BitVec.ofNat 16 (2 ^ s.val)
  { e with txHold := if on then e.txHold ||| m else e.txHold &&& ~~~m }

/-- A slot in service asks for no start (R487). -/
def Eng.held (e : Eng) (p : PortId) : Bool :=
  (upTo (e.port p).txLanes).any (fun k => bitAt e.txHold.toNat (p.val + k))

/-- Beat `b`, a CLK_DP cycle counted from time 0, belongs to port `p` (R25, R70). -/
def Eng.ownsBeat (e : Eng) (p : PortId) (b : Nat) : Bool := e.txSlot p (calSlot ((b + e.start.calPhase.val) % 16))

/-- The first beat of port `p` from beat `b` on, of at most `fuel` more. -/
def Eng.nextBeat (e : Eng) (p : PortId) : Nat → Nat → Nat
  | 0, b => b
  | n + 1, b => if e.ownsBeat p b then b else e.nextBeat p n (b + 1)

/-- A start position of port `p` in the present CLK_TS edge's four CLK_DP cycles is free (R25, R350). -/
def Eng.freePos (e : Eng) (p : PortId) (dp seg : Nat) : Bool :=
  let b := 4 * e.now + dp
  e.ownsBeat p b && decide ((e.port p).freeAt ≤ 16 * b + seg)

/-- A frame of `len` bytes takes whole segments from a position on, in the port's beats (R25). -/
def Eng.takePos (e : Eng) (p : PortId) (pos len : Nat) : Eng :=
  e.modPort p (fun x =>
    let n := pos % 16 + ceilDiv len 16
    { x with freeAt := 16 * (pos / 16 + 16 / max 1 x.txLanes * (n / 16)) + n % 16 })

/-- A control frame takes the port's first free position from the present time on (R118). -/
def Eng.takeNext (e : Eng) (p : PortId) (len : Nat) : Eng :=
  let pos := max (e.port p).freeAt (64 * e.now)
  e.takePos p (if e.ownsBeat p (pos / 16) then pos else 16 * e.nextBeat p 16 (pos / 16)) len

/-- Starts of data and trump frames are possible on a port: UP, not held, no transmit gap (R72, R144, R487). -/
def Eng.mayStart (e : Eng) (p : PortId) : Bool :=
  decide ((e.port p).state = .up) && !e.held p && (e.port p).gap.isNone && e.macOn && !e.fenced && !e.handing

/-- A trump frame may start under the port's pause (R114). -/
def Port.trumpFree (x : Port) (t : Trump) : Bool :=
  match t with
  | .fc => true
  | .thin _ _ | .lldp _ =>
    match x.fcMode with
    | .pause => x.pauseP.isNone || bitAt x.drain.toNat 0
    | .none | .pfc => true

/-- The control frame that starts next: highest precedence, oldest first (R119). -/
def Port.nextTrump (x : Port) : Option Trump := (firstTrump (x.trump.filter x.trumpFree)).map (·.1)

/-- A start counted toward the load of R135. -/
def Eng.addLoad (e : Eng) (p : PortId) (len : Nat) : Eng :=
  e.modPort p (fun x => { x with load := x.load + len + 20 })

end Sys2Proof.Machine
end

