-- ==== Sys2Proof/Machine/TxOps.lean ====
section
/-! DEFINITION. TxOps.lean: transmit frames from their descriptors to their completion (06_rings.md R162 to R171,
R206 to R208, 04_wire.md R97 to R117, 09_offloads.md R258 to R274, 12_deck_launch.md R350 to R352). -/
namespace Sys2Proof.Machine

/-! ### Discarding granted frames -/

/-- Lines a granted frame holds. -/
def GFrame.lines (g : GFrame) : Nat := linesOf g.len

/-- The lines and the reads of a frame that leaves the packet buffer are given up. -/
def Eng.dropData (e : Eng) (g : GFrame) : Eng :=
  { e with
    start := { e.start with txLines := e.start.txLines - g.lines }
    dma := { e.dma with
      queue := e.dma.queue.filter (fun a => a.grp != g.grp)
      blocked := e.dma.blocked.filter (fun b => b.acc.grp != g.grp)
      bufs := e.dma.bufs.filter (fun b => b.grp != g.grp) } }

/-- A granted frame that has not started leaves the packet buffer: its window and lines are freed and its reads
given up. -/
def Eng.dropGranted (e : Eng) (p : PortId) (g : GFrame) : Eng :=
  let r := e.root p
  (e.setRoot p { r with window := r.window - g.len }).dropData g

/-- The granted frames of a port's start lists that pass are taken out: the engine and those frames. -/
def Eng.takeGranted (e : Eng) (p : PortId) (f : GFrame → Bool) : List GFrame × Eng :=
  let x := e.port p
  let out := x.lists.flatMap (fun l => l.filter f)
  let e := e.setPort p { x with lists := x.lists.map (fun l => l.filter (fun g => !f g)) }
  (out, foldEng out (fun e g => e.dropGranted p g) e)

/-- A frame or segment stands at its queue's head again, as if it had not been granted. -/
def Eng.unframe (e : Eng) (g : GFrame) : Eng :=
  e.modTxq g.q (fun x => x.modFrame g.frame (fun t =>
    match t.st with
    | .offered | .granted => { t with st := .offered, segNext := min t.segNext g.seg }
    | .lookup | .done _ => t))

/-- Granted frames that have not started go back to their queue heads; their charges stand (R107, R193, R207). -/
def Eng.ungrant (e : Eng) (p : PortId) (f : GFrame → Bool) : Eng :=
  let (out, e) := e.takeGranted p f
  foldEng out (fun e g => e.unframe g) e

/-- Committed frames of queue `q` behind a stomped one of it go back to their queue's head too, so that the order within the
queue is unchanged (R107). -/
def Eng.recall (e : Eng) (p : PortId) (q : TxqId) : Eng :=
  let mine (w : WireFrame) : Bool := decide (w.g.q = q) && !w.orphan
  let out := (e.port p).wire.filter mine
  let e := e.modPort p (fun x => { x with wire := x.wire.filter (fun w => !mine w) })
  foldEng out (fun e w => (e.dropData w.g).unframe w.g) e

/-! ### Endings -/

/-- Statuses that a large send with segments sent reports as PARTIAL (R270). -/
def partialSt (s : Nat) : Bool := s == 4 || s == 5 || s == 6 || s == 9 || s == 10 || s == 11

/-- A segment of a frame is in a start list or on its way to the wire, or a read of it is unanswered (R166). -/
def Eng.frameOut (e : Eng) (q : TxqId) (x : Txq) (id : Nat) : Bool :=
  let p := e.port x.port
  p.lists.any (fun l => l.any (fun g => decide (g.q = q) && g.frame == id)) ||
  p.wire.any (fun w => decide (w.g.q = q) && w.g.frame == id && !w.orphan) ||
  e.dma.outst.any (fun o => decide (o.acc.owner = .txData q id) && o.acc.grp != 0)

/-- A frame that is ending completes once nothing of it is left underway (R166, R270). -/
def Eng.tryEnd (e : Eng) (q : TxqId) (id : Nat) : Eng :=
  match e.txq q with
  | none => e
  | some x =>
    match x.frame? id with
    | none => e
    | some f =>
      match f.ending with
      | none => e
      | some (s, d) =>
        if e.frameOut q x id then e
        else if f.isLso ∧ partialSt s ∧ 0 < f.segSent then
          (e.modPort x.port (fun p => { p with off := { p.off with lsoPartial := sat64 (p.off.lsoPartial + 1) } })).txDone
            q id { status := 8, detail := f.segSent }
        else e.txDone q id { status := s, detail := d }

/-- A frame ends with a status: its segments from `seg` on that have not started are dropped (R270). -/
def Eng.endFrame (e : Eng) (q : TxqId) (id seg status detail : Nat) : Eng :=
  match e.txq q with
  | none => e
  | some x =>
    let (_, e) := e.takeGranted x.port (fun g => decide (g.q = q) && g.frame == id && decide (seg ≤ g.seg))
    let e := e.modTxq q (fun x => x.modFrame id (fun f =>
      match f.ending, f.st with
      | none, .lookup | none, .offered | none, .granted => { f with ending := some (status, detail), st := .granted }
      | _, _ => f))
    e.tryEnd q id

/-! ### The head of a queue -/

/-- Sixteenths of a nanosecond of an instant as a linear count of 64 bits (R311). -/
def stTicks (t : Nat) : Nat := t % (16 * 2 ^ 64)

/-- Lateness of an instant in sixteenths after a launch time, in whole nanoseconds, saturating (R347, R352). -/
def lateNs (t launch : Nat) : Nat := min ((t - 16 * launch) / 16) 0xFFFFFFFF

/-- LATE_DROPPED or LATE_SENT counted (R352). -/
def Eng.countLate (e : Eng) (p : PortId) (c : Tc) (f : Fn) (sent : Bool) : Eng :=
  let e := e.modPort p (fun p => { p with deck :=
    if sent then { p.deck with lateSent := sat64 (p.deck.lateSent + 1) }
    else { p.deck with lateDropped := sat64 (p.deck.lateDropped + 1) } })
  e.tal { code := 0x602, port := some p, tc := some c, fn := some f }

/-- A frame that fits no open run completes (R351). -/
def Eng.neverFit (e : Eng) (q : TxqId) (x : Txq) (id seg len : Nat) : Eng :=
  (e.modPort x.port (fun p => { p with deck := { p.deck with neverFits := sat64 (p.deck.neverFits + 1) } })).endFrame q id seg 6 len

/-- The list in force at a port's gates, if any. -/
def Eng.operList (e : Eng) (p : PortId) : Option GateList := (e.port p).deck.oper

/-- The tests made on the head of a queue: lateness as it becomes the head (R352), and at a decision whether it
can ever fit (R351). Frames that complete by them leave the head to the next. -/
def Eng.testHead (atDecision : Bool) : Nat → Eng → TxqId → Eng
  | 0, e, _ => e
  | n + 1, e, q =>
    match e.txq q with
    | none => e
    | some x =>
      match x.ready with
      | none => e
      | some f =>
        let t := (e.tb (e.txBase x.fn)).instant
        let late := match x.launch f f.segNext with
          | some l => !f.headSeen && decide (x.late = LatePolicy.drop) && decide (16 * (l + x.lateTol) < stTicks t)
          | none => false
        let len := e.headLen x f
        if late then
          let e := e.countLate x.port x.tc x.fn false
          Eng.testHead atDecision n (e.endFrame q f.id f.segNext 7 (lateNs (stTicks t) ((f.info.map TxMeta.launch).getD 0))) q
        else
          let never := atDecision && match e.operList x.port with
            | some l => l.neverFits x.tc.val len (e.port x.port).width
            | none => false
          if never then Eng.testHead atDecision n (e.neverFit q x f.id f.segNext len) q
          else e.modTxq q (fun y => y.modFrame f.id (fun f => { f with headSeen := true }))

/-- The head of a queue tested. -/
def Eng.txHead (e : Eng) (q : TxqId) (atDecision : Bool) : Eng :=
  match e.txq q with
  | none => e
  | some x => Eng.testHead atDecision (x.frames.length + 1) e q

/-! ### Reading descriptors -/

/-- Byte offset of the first field of a buffer descriptor that breaks R162, R164, R165, R257 or R258, none where
all hold: `first` where it is the chain's first buffer descriptor. -/
def descFault (d : Nat) (first hasMeta fcsPass : Bool) (prof : OffProfile) (granted : Bool) : Option Nat :=
  let b10 := fld d 80 8
  let sopOnly := fld b10 3 3 ≠ 0
  if fld d 64 16 = 0 then some 8
  else if fld b10 6 2 ≠ 0 then some 10
  else if first then
    if ¬ bitAt b10 0 then some 10
    else if (bitAt b10 3 ∨ bitAt b10 4) ∧ hasMeta = false then some 10
    else if granted = false then some 11
    else if prof.lso ∧ (fcsPass ∨ bitAt b10 3 ∨ bitAt b10 4) then some 11
    else
      let mss := fld d 96 14
      if fld d 110 18 ≠ 0 then some 12
      else if prof.lso then (if mss < 64 ∨ 16000 < mss then some 12 else none)
      else if mss ≠ 0 then some 12 else none
  else if bitAt b10 0 ∨ sopOnly then some 10
  else if fld d 88 8 ≠ 0 then some 11
  else if fld d 96 32 ≠ 0 then some 12
  else none

/-- Byte offset of the first field of a meta descriptor that breaks R163. -/
def metaFault (d : Nat) : Option Nat :=
  let b10 := fld d 80 8
  if fld b10 0 2 ≠ 0 ∨ fld b10 3 5 ≠ 0 then some 10
  else if fld d 88 8 ≠ 0 then some 11
  else if fld d 112 16 ≠ 0 then some 14
  else none

/-- SOP, EOP and META of a descriptor. -/
def dSop (d : Nat) : Bool := bitAt d 80
def dEop (d : Nat) : Bool := bitAt d 81
def dMeta (d : Nat) : Bool := bitAt d 82

/-- A frame with TS_INSERT whose INS_OFFSET breaks R258: the meta descriptor, the SOP descriptor and its profile, and the
supplied length. -/
def insFault (m d : Nat) (prof : OffProfile) (supplied : Nat) : Bool :=
  bitAt d 84 && (decide (fld m 96 16 < 14) ||
    decide (min 256 supplied < fld m 96 16 + (if prof.ts80 then 10 else 8)))

/-- How far an errored chain runs in the descriptors after its faulty one: through the next EOP, or up to the
next SOP or META (R165); none where neither has been read yet. -/
def chainEnd : List Nat → Nat → Option Nat
  | [], _ => none
  | d :: t, n => if dMeta d ∨ dSop d then some n else if dEop d then some (n + 1) else chainEnd t (n + 1)

/-- What the chain at the front of the descriptors read is. -/
inductive Chain where
  /-- not all of it has been read -/
  | part
  /-- it is whole: descriptors it takes -/
  | whole (n : Nat)
  /-- it breaks a rule: descriptors it takes, and the first offending field -/
  | bad (n : Nat) (off : Nat)
  deriving DecidableEq, Repr

/-- An errored chain whose faulty descriptor is number `k`, taking it as read through that one. -/
def badChain (l : List Nat) (k off : Nat) : Chain :=
  match l.drop k with
  | [] => .part
  | d :: t =>
    if dEop d then .bad (k + 1) off
    else match chainEnd t (k + 1) with
      | some n => .bad n off
      | none => .part

/-- The chain of buffer descriptors from number `k` on, `n` of them so far (R164), each with the profile it names. The next
descriptor with SOP or META ends a chain before it, where it has no EOP yet (R165). -/
def bufChain (l : List Nat) (hasMeta fcsPass : Bool) (granted : OffProfile → Bool) :
    Nat → Nat → List (Nat × OffProfile) → Chain
  | _, _, [] => .part
  | k, n, (d, prof) :: t =>
    if dMeta d then .bad k 10
    else if 0 < n ∧ dSop d then .bad k 10
    else if 32 ≤ n then badChain l k 10
    else
      match descFault d (n == 0) hasMeta fcsPass prof (granted prof) with
      | some off => badChain l k off
      | none => if dEop d then .whole (k + 1) else bufChain l hasMeta fcsPass granted (k + 1) (n + 1) t

/-- Supplied length of the buffer descriptors among the first `n` of a chain with a meta descriptor. -/
def suppliedOf (l : List (Nat × OffProfile)) (n : Nat) : Nat := ((l.take n).drop 1).foldl (fun s d => s + fld d.1 64 16) 0

/-- The chain at the front of the descriptors read (R164, R165). The meta descriptor comes first in the chain, so that a fault
of its INS_OFFSET goes before one of a later descriptor or field (R258). -/
def chainOf (l : List (Nat × OffProfile)) (fcsPass : Bool) (granted : OffProfile → Bool) : Chain :=
  let ds := l.map (·.1)
  match l with
  | [] => .part
  | (d, _) :: t =>
    if dMeta d then
      let ins (n : Nat) : Bool := match t with
        | (s, prof) :: _ => !dMeta s && insFault d s prof (suppliedOf l n)
        | [] => false
      match metaFault d with
      | some 14 => match badChain ds 0 14 with
        | .bad n off => .bad n (if ins n then 12 else off)
        | c => c
      | some off => badChain ds 0 off
      | none => match bufChain ds true fcsPass granted 1 0 t with
        | .bad n off => .bad n (if ins n then 12 else off)
        | .whole n => if ins n then .bad n 12 else .whole n
        | .part => .part
    else bufChain ds false fcsPass granted 0 0 l

/-- A profile is set for a function (R256). -/
def OffProfile.allows (p : OffProfile) (f : Fn) : Bool :=
  match p.grant with
  | .none => false
  | .all => true
  | .fn g => decide (f = g) || decide (f = 0)

/-- A frame from its whole chain: it takes its profile as that stood when its SOP descriptor was read (R256). -/
def frameOf (id first : Nat) (ds : List (Nat × OffProfile)) (bell : Nat) (hdr : List Byte) : TxFrame :=
  let m := match ds with
    | (d, _) :: _ => if dMeta d then some d else none
    | [] => none
  let bs := if m.isSome then ds.drop 1 else ds
  let (d, prof) := bs.headD (0, {})
  { id := id, first := first, ndesc := ds.length
    bufs := bs.map (fun d => (fld d.1 0 64, fld d.1 64 16))
    supplied := bs.foldl (fun s d => s + fld d.1 64 16) 0
    info := m.map (fun d => { launch := fld d 0 64, tsId := fld d 64 16, insOff := fld d 96 16 })
    tsReq := bitAt d 83, tsIns := bitAt d 84, trailer := bitAt d 85
    profIdx := fld d 88 8, prof := prof, mss := fld d 96 14, bell := bell, hdr := hdr }

/-- A frame whose headers are walked at descriptor read (R259). -/
def TxFrame.walked (f : TxFrame) : Bool :=
  f.prof.l3 || f.prof.l4 || f.prof.inL3 || f.prof.inL4 || f.prof.lso || f.tsIns

/-- Generation that is active (R232). -/
def Eng.activeGen (e : Eng) : Generation := if e.steer.activeB then e.steer.genB else e.steer.genA

/-- A frame with its header walk and, for a large send whose walk reached a TCP header, its header length
(R259, R260, R267). -/
def Eng.withWalk (e : Eng) (x : Txq) (f : TxFrame) : TxFrame :=
  if !f.walked then f
  else
    let n := if x.fcsPass then f.supplied - 4 else f.supplied
    let w := walkFrame f.hdr n e.activeGen.vxlan e.activeGen.geneve f.prof.lso
    let l := w.innermost
    let h := l.l4off + u8 f.hdr (l.l4off + 12) / 16 * 4
    if f.prof.lso ∧ l.l4 = .tcp then { f with walk := w, lso := some h }
    else if f.prof.lso then
      { f with walk := { w with outer := w.outer.stated f.hdr, inner := w.inner.map (·.stated f.hdr) } }
    else { f with walk := w }

/-- What the checks of a whole chain answer: a completion, or none where the frame is offered (R97, R267). -/
def Eng.frameCheck (e : Eng) (x : Txq) (f : TxFrame) : Option TxDone :=
  let p := e.port x.port
  if f.isLso then
    if 262144 < f.payload then some { status := 2, detail := f.supplied }
    else if p.maxFrame < f.lso.getD 0 + min f.mss f.payload + 4 then some { status := 3, detail := 12 }
    else none
  else if x.fcsPass then
    if f.supplied < 64 then some { status := 1, detail := f.supplied }
    else if p.maxFrame < f.supplied then some { status := 2, detail := f.supplied } else none
  else if f.supplied < 60 ∧ p.padEn = false then some { status := 1, detail := f.supplied }
  else if p.maxFrame < f.supplied + 4 then some { status := 2, detail := f.supplied }
  else none

/-- A frame's pages are looked up: every page of every buffer (R206). -/
def Eng.lookFrame (e : Eng) (q : TxqId) (x : Txq) (f : TxFrame) : Eng :=
  foldEng f.bufs (fun e b =>
    foldEng (upTo ((b.1 % 4096 + b.2 + 4095) / 4096)) (fun e k =>
      e.access { owner := .txXlt q f.id, fn := x.fn, pasid := x.pasid
                 addr := if k = 0 then b.1 else (b.1 / 4096 + k) * 4096, len := 1, kind := .read }) e) e

/-- A lookup of a frame's page waits (R206). -/
def Eng.lookWaits (e : Eng) (q : TxqId) (id : Nat) : Bool :=
  e.dma.blocked.any (fun b => decide (b.acc.owner = .txXlt q id))

/-- A frame whose lookups are all done is offered to the Dealer (R206). -/
def Eng.offer (e : Eng) (q : TxqId) (id : Nat) : Eng :=
  if e.lookWaits q id then e
  else
    (e.modTxq q (fun x => x.modFrame id (fun f => if f.st = .lookup then { f with st := .offered } else f))).txHead q false

/-- A frame that has passed its checks, or a completion, joins its queue (R97, R206). -/
def Eng.addFrame (e : Eng) (q : TxqId) (f : TxFrame) (r : Option TxDone) : Eng :=
  match e.txq q with
  | none => e
  | some x =>
    let e := e.setTxq q (some { x with frames := x.frames ++ [f], nextFrame := x.nextFrame + 1 })
    match r with
    | some d =>
      let e := if d.status = 1 then e.stat x.port 68 1 else if d.status = 2 then e.stat x.port 69 1 else e
      e.txDone q f.id d
    | none =>
      let e := if f.isLso then e.modPort x.port (fun p => { p with off := { p.off with lsoSends := sat64 (p.off.lsoSends + 1) } }) else e
      let e := e.modPort x.port (fun p => { p with off := { p.off with csumSkipped := sat64 (p.off.csumSkipped + f.skips) } })
      (e.lookFrame q x f).offer q f.id

/-- The chains that are whole in the descriptors read leave them as frames. Each frame's header bytes come with
the command (R259). -/
def Eng.parseChains (q : TxqId) : Nat → List (List Byte) → Eng → Eng
  | 0, _, e => e
  | n + 1, hdrs, e =>
    match e.txq q with
    | none => e
    | some x =>
      let l := x.partials.map (fun d => (d.1.toNat, d.2))
      let first := (x.fetched - BitVec.ofNat 16 x.partials.length).toNat
      let bellOf (k : Nat) : Nat :=
        ((x.bells.find? (fun b => decide (k ≤ (b.1 - BitVec.ofNat 16 first).toNat))).map (·.2)).getD e.now
      let take (k : Nat) : Txq := { x with partials := x.partials.drop k }
      match chainOf l x.fcsPass (fun p => p.allows x.fn) with
      | .part => e
      | .bad k off =>
        let e := e.setTxq q (some (take k))
        let f : TxFrame := { id := x.nextFrame, first := first, ndesc := k, bufs := [], supplied := 0
                             info := match l with
                               | (d, _) :: _ => if dMeta d then some { launch := 0, tsId := fld d 64 16, insOff := 0 } else none
                               | [] => none }
        Eng.parseChains q n (hdrs.drop 1) (e.addFrame q f (some { status := 3, detail := off }))
      | .whole k =>
        let f := e.withWalk x (frameOf x.nextFrame first (l.take k) (bellOf k) (hdrs.headD []))
        let r := e.frameCheck x f
        Eng.parseChains q n (hdrs.drop 1) ((e.setTxq q (some (take k))).addFrame q f r)

/-! ### Decisions -/

/-- A decision on port `p`, where the calendar gives the port the turn (R288 to R297). -/
def Eng.decide_ (e : Eng) (p : PortId) : Eng :=
  let e := foldEng (e.txqList.filter (fun r => decide (r.2.port = p))) (fun e r => e.txHead r.1 true) e
  if e.calTurn ≠ some p then e
  else
    match Eng.descend 10 e.calStep (.root p) [] with
    | (none, e) => e
    | (some (q, path), e) =>
      let before := e.shaped p
      let (len, adj, cnt, e) := e.takeBatch q
      let adjLeaf : Int := (e.leaf q).sh.lenAdj
      let e := e.charge path len adj
      let r := e.root p
      let e := e.setRoot p { r with decisions := sat64 (r.decisions + 1) }
      match e.txq q with
      | none => e
      | some x =>
        let t (code inc : Nat) : TEvent := { code := code, inc := inc, port := some p, tc := some x.tc, fn := some x.fn }
        let e := if 0 < len then e.tal (t 0x101 1) else e
        let e := if 0 < cnt then e.tal (t 0x102 cnt) else e
        let e := e.tal (t 0x103 ((len : Int) + adj * adjLeaf).toNat)
        let e := foldEng ((e.shaped p).filter (fun q => !before.contains q)) (fun e q =>
          match e.txq q with
          | some y => e.tal { code := 0x104, port := some p, tc := some y.tc, fn := some y.fn }
          | none => e) e
        e.txHead q false

/-! ### Starts -/

/-- A frame starts only when it is whole in the packet buffer (R106, R107, R262). -/
def TxFrame.wholeFirst (f : TxFrame) : Bool := f.retry || f.isLso || f.prof.l4 || f.prof.inL4

/-- Enough of a granted frame is in the packet buffer (R106). -/
def GFrame.enough (g : GFrame) (whole : Bool) (l : CtLevel) : Bool :=
  match whole, l with
  | false, .bytes n => decide (min g.need n ≤ g.data.length)
  | _, _ => decide (g.need ≤ g.data.length)

/-- A host frame that the slot MAC discards at its start list, and the counter: 80 tx_mac_ctrl_drops, 83
lldp_host_drops, 0 thin_host_drops (R117, R88, R139). -/
def Port.hostDrop (x : Port) (bs : List Byte) : Option Nat :=
  let (ty, off) := hostEtype bs
  if ty = 0x8808 then some 80
  else if ty = 0x88CC ∧ x.lldpAgent ∧ ofBE (bs.take 6) = 0x0180C200000E then some 83
  else if ty = 0x88B5 ∧ ofBE (slice bs off 3) = 0x7A5F02 ∧ u8 bs (off + 3) = 1 then some 0
  else none

/-- What the slot MAC does with the head of a start list at a start position (R350). -/
inductive Place where
  | wait
  | commit (late : Option Nat)
  /-- it leaves the list with a completion -/
  | done (status detail : Nat)
  /-- it is discarded as R117 gives, with the counter's index -/
  | discard (i : Nat)
  deriving DecidableEq, Repr

/-- The head of class `c`'s start list at a start position (R350 to R353). -/
def Eng.place (e : Eng) (p : PortId) (c : Tc) (g : GFrame) (dp seg : Nat) : Place :=
  match e.txq g.q with
  | none => .wait
  | some x =>
    match x.frame? g.frame with
    | none => .wait
    | some f =>
      let y := e.port p
      if bitAt y.drain.toNat c.val then .done 5 0
      else if y.paused c ∨ !g.enough f.wholeFirst y.ctStart ∨ (g.data.length < 30 ∧ g.data.length < g.need) then .wait
      else
        match (if f.isLso then none else y.hostDrop g.data) with
        | some i => .discard i
        | none =>
          let len := y.txLen f x.fcsPass g.seg
          let ts := e.stampTx p (e.txBase x.fn) dp seg
          let launch := x.launch f g.seg
          let never := match y.deck.oper with
            | some l => l.neverFits c.val len y.width
            | none => false
          let (s, b) := e.sched p
          let td := e.stampTx p b dp seg
          let early := match launch with
            | some l => decide (stTicks ts < 16 * l)
            | none => false
          if never then .done 6 len
          else if early then .wait
          else if y.deck.st ≠ .none ∧ !s.fits c.val td len y.width then .wait
          else match launch with
            | some l =>
              if 16 * (l + x.lateTol) < stTicks ts then
                match x.late with
                | .drop => .done 7 (lateNs (stTicks ts) l)
                | .send => .commit (some (lateNs (stTicks ts) l))
              else .commit none
            | none => .commit none

/-- A head that no launch time holds any more and that fails the fit test in an open run waits for the next: counted once
for each run (R350). -/
def Eng.fitWait (e : Eng) (p : PortId) (c : Tc) (dp seg : Nat) : Eng :=
  let y := e.port p
  match nth y.lists c.val [] with
  | [] => e
  | g :: r =>
    match e.txq g.q with
    | none => e
    | some x =>
      match x.frame? g.frame with
      | none => e
      | some f =>
        let (s, b) := e.sched p
        let td := e.stampTx p b dp seg
        let early := match x.launch f g.seg with
          | some l => decide (stTicks (e.stampTx p (e.txBase x.fn) dp seg) < 16 * l)
          | none => false
        let close := s.close c.val (td / 16 : Nat)
        if early = false ∧ close.isSome ∧ g.waited ≠ close ∧ y.paused c = false ∧ (s.at c.val (td / 16 : Nat)).1 ∧
            s.fits c.val td (y.txLen f x.fcsPass g.seg) y.width = false then
          let e := e.setPort p { y with
            lists := setNth y.lists c.val ({ g with waited := close } :: r)
            deck := { y.deck with fitWaits := sat64 (y.deck.fitWaits + 1) } }
          e.tal { code := 0x601, port := some p, tc := some c }
        else e

/-- A granted frame leaves its start list without a start and completes. -/
def Eng.dropHead (e : Eng) (p : PortId) (c : Tc) (g : GFrame) (status detail : Nat) : Eng :=
  match e.txq g.q with
  | none => e
  | some x =>
    let e := if status = 5 then e.stat p (72 + c.val) 1 else e
    let e := if status = 7 then e.countLate x.port x.tc x.fn false else e
    if status = 6 then e.neverFit g.q x g.frame g.seg detail else e.endFrame g.q g.frame g.seg status detail

/-- A host frame discarded as R117 gives: it completes with OK, once no read of it is unanswered (R166), and only its
counter counts it. -/
def Eng.discardHead (e : Eng) (p : PortId) (g : GFrame) (i : Nat) : Eng :=
  let e := if i = 0 then e.modPort p (fun x => { x with thin := { x.thin with hostDrops := sat64 (x.thin.hostDrops + 1) } })
    else e.stat p i 1
  e.endFrame g.q g.frame g.seg 0 0

/-- The heads of a port's start lists that leave without a start do so, of the classes that pass; `n` bounds how many. -/
def Eng.settleHeads (p : PortId) (dp seg : Nat) (cls : Nat → Bool) : Nat → Eng → Eng
  | 0, e => e
  | n + 1, e =>
    let heads := ((upTo 8).filter cls).filterMap (fun c => ((nth (e.port p).lists c []).head?).map (fun g => (fin 8 c, g)))
    match heads.find? (fun (c, g) => match e.place p c g dp seg with
        | .done _ _ | .discard _ => true
        | .wait | .commit _ => false) with
    | none => e
    | some (c, g) =>
      match e.place p c g dp seg with
      | .done s d => Eng.settleHeads p dp seg cls n (e.dropHead p c g s d)
      | .discard i => Eng.settleHeads p dp seg cls n (e.discardHead p g i)
      | .wait | .commit _ => e

/-- The head that starts: of those that can start at the position, the one granted first (R113). -/
def Eng.pickStart (e : Eng) (p : PortId) (dp seg : Nat) : Option (Tc × GFrame × Option Nat) :=
  let l := (upTo 8).filterMap (fun c =>
    match (nth (e.port p).lists c []).head? with
    | none => none
    | some g => match e.place p (fin 8 c) g dp seg with
      | .commit late => some (fin 8 c, g, late)
      | .wait | .done _ _ | .discard _ => none)
  l.foldl (fun best r => match best with
    | none => some r
    | some b => if r.2.1.order < b.2.1.order then some r else some b) none

/-- The slot MAC commits a frame's start (R113, R272). -/
def Eng.commitStart (e : Eng) (p : PortId) (c : Tc) (g : GFrame) (late : Option Nat) (dp seg : Nat) : Eng :=
  match e.txq g.q with
  | none => e
  | some x =>
    match x.frame? g.frame with
    | none => e
    | some f =>
      let y := e.port p
      let len := y.txLen f x.fcsPass g.seg
      let b := e.txBase x.fn
      let w : WireFrame :=
        { g := g
          egress := (upTo 4).map (fun k => e.stampTx p (fin 4 k) dp seg)
          sojourn := (((((e.now - f.bell) * 64 * 16 + dp * 256 + seg * (256 / max 1 y.txLanes) : Nat) : Int) +
            (pathOut y.txLanes + y.adjOut) * 25) / 400).toNat
          lateSent := late, trailer := y.putsTrailer f x.fcsPass g.seg
          tb := b, deg := (e.tb b).degraded, len := len
          f := f, fn := x.fn, tc := x.tc, fcsPass := x.fcsPass }
      let e := e.setPort p { y with
        lists := modNth y.lists c.val (fun l => l.drop 1), wire := y.wire ++ [w]
        ct := y.ct.atLeast y.ctFloor
        load := y.load + len + 20 }
      let e := e.takePos p (16 * (4 * e.now + dp) + seg) len
      let e := if g.seg = 0 then e.modTxq g.q (fun y => y.modFrame g.frame (fun t => { t with late := late })) else e
      let r := e.root p
      let e := e.setRoot p { r with window := r.window - g.len }
      (e.wireBytes p .tx (some x.tc) (some .host) len).emit (.txStart p g.q len)

/-- Frames in a port's start lists. -/
def Port.listed (x : Port) : Nat := (x.lists.map List.length).foldl (· + ·) 0

/-- TX_FRAME_START: a start position offers itself on a port (R350): one of its beats that no committed frame takes (R25).
A class in DRAIN discards its heads whatever else holds (R353); a trump frame goes first, and the frames behind it are
tested from a later position (R118, R353). -/
def Eng.startAt (e : Eng) (p : PortId) (dp seg : Nat) : Eng :=
  let e := Eng.settleHeads p dp seg (fun c => bitAt (e.port p).drain.toNat c) (e.port p).listed e
  if e.mayStart p = false ∨ e.fenced ∨ (e.port p).nextTrump.isSome ∨ e.freePos p dp seg = false then e
  else
    let e := Eng.settleHeads p dp seg (fun _ => true) (e.port p).listed e
    let e := foldEng (upTo 8) (fun e c => e.fitWait p (fin 8 c) dp seg) e
    match e.pickStart p dp seg with
    | none => e
    | some (c, g, late) => e.commitStart p c g late dp seg

/-! ### Ends -/

/-- A TXTS_AVAILABLE event, unless one for the port lies unconsumed (R336). -/
def Eng.txtsEvent (e : Eng) (f : Fn) (p : PortId) : Eng :=
  match e.ctlEq f with
  | none => e
  | some i =>
    match e.eq_ i with
    | none => e
    | some q =>
      if q.evs.any (fun v => decide (v.mark = some (1, p.val))) then e
      else
        let n := ((e.time.tsq.get {} p.val).ents.filter (fun t => decide (t.fn = f))).length
        (e.writeEvent i 8 1 p.val n none (some (1, p.val))).2

/-- A time-stamp for the port's queue: whether it was lost (R331 to R333). -/
def Eng.addStamp (e : Eng) (p : PortId) (w : WireFrame) : Bool × Eng :=
  let q := e.time.tsq.get {} p.val
  let t := nth w.egress w.tb.val 0
  if 64 ≤ q.ents.length then
    let e := { e with time := { e.time with tsq := e.time.tsq.put {} p.val { q with ovf := sat64 (q.ovf + 1) } } }
    (true, e.tal { code := 0x603, port := some p, fn := some w.fn })
  else
    let ent : TsEnt := { sec := stSec t % 2 ^ 48, ns := stNs t, frac := stFrac t, tb := w.tb, degraded := w.deg, port := p
                         tsId := (w.f.info.map (·.tsId)).getD 0, fn := w.fn, added := e.now, frame := (w.g.q, w.g.frame) }
    let e := { e with time := { e.time with tsq := e.time.tsq.put {} p.val { q with ents := q.ents ++ [ent] } } }
    (false, e.txtsEvent w.fn p)

/-- The frame at the front of a port's committed frames leaves them. -/
def Eng.popWire (e : Eng) (p : PortId) (w : WireFrame) : Eng :=
  let e := e.modPort p (fun y => { y with wire := y.wire.drop 1 })
  { e with start := { e.start with txLines := e.start.txLines - w.g.lines }
           dma := { e.dma with bufs := e.dma.bufs.filter (fun b => b.grp != w.g.grp) } }

/-- Counts of a frame sent whole (R95, R128, R192, R274, R277, R283). The consecutive frames of R108 are host frames: trump
frames do not count among them (DESIGN CHOICE, log entry 70). -/
def Eng.countSent (e : Eng) (p : PortId) (w : WireFrame) (bs : List Byte) (bad : Bool) : Eng :=
  let e := if bad then e.stat p 71 1 else e.frameOk p .tx (some w.tc) (some .host) bs w.len
  let e := if w.f.trailer ∧ w.trailer = false then e.stat p 81 1 else e
  e.modPort p (fun y => { y with
    ctFrames := y.ctFrames + 1
    off := { y.off with
      tsInserted := sat64 (y.off.tsInserted + b2n w.f.tsIns)
      lsoSegments := sat64 (y.off.lsoSegments + b2n w.f.isLso) } })

/-- Byte-times of a frame sent whole: padding is WASTED with its share of the frame (R464). -/
def Eng.slotSent (e : Eng) (p : PortId) (w : WireFrame) : Eng :=
  let pads := w.f.isLso || ((e.port p).padEn && !w.fcsPass)
  let pad := if pads then 60 - w.f.bodyLen w.fcsPass w.g.seg else 0
  let waste := pad * (w.len + 20) / w.len
  (e.slotFrame p .tx clRetired (w.len + 20 - waste)).slotFrame p .tx clWasted waste

/-- A segment or frame of a queue has been sent whole: the frame completes with its last (R166, R270). tx_frames counts a
frame of the queue, a chain (R164): with its last segment; tx_octets counts each length on the wire with its FCS, rx_octets
the delivered length (DESIGN CHOICE, log entry 66). -/
def Eng.sentWhole (e : Eng) (w : WireFrame) (lost : Bool) : Eng :=
  let q := w.g.q
  let e := e.modTxq q (fun y =>
    { y.modFrame w.g.frame (fun t => { t with segSent := t.segSent + 1 }) with
      txFrames := sat64 (y.txFrames + b2n (w.g.seg + 1 == w.f.segs)), txOctets := sat64 (y.txOctets + w.len) })
  match (e.txq q).bind (fun y => y.frame? w.g.frame) with
  | none => e
  | some f =>
    if f.ending.isSome then e.tryEnd q f.id
    else if f.segs ≤ f.segSent then
      e.txDone q f.id { status := 0, detail := f.late.getD 0, tsLost := lost, lateSent := f.late.isSome }
    else e

/-- TX_FRAME_END: the last byte of the frame on the wire passes to the media interface (R166, R331). -/
def Eng.frameEnd (e : Eng) (p : PortId) : Eng :=
  match (e.port p).wire with
  | [] => e
  | w :: _ =>
    if w.g.data.length < w.g.need ∨ w.g.failed ≠ 0 ∨ e.macOn = false then e
    else
      let (bs, bad) := e.txBytes p w
      let e := (e.popWire p w).emit (.txEnd p false bs)
      let e := (e.countSent p w bs bad).slotSent p w
      let (lost, e) := if w.f.tsReq then e.addStamp p w else (false, e)
      let e := if w.lateSent.isSome then e.countLate p w.tc w.fn true else e
      if w.orphan then e else e.sentWhole w lost

/-- Bytes of a stomped frame: the whole segments sent, with the changes of R261 made to them, then the inverted FCS of
those bytes (R107). Bytes that have not arrived count as 0 in what the changes sum, which the bytes sent do not show. -/
def Eng.stompBytes (e : Eng) (p : PortId) (w : WireFrame) : List Byte :=
  let n := w.g.data.length + (if w.f.isLso then w.f.lso.getD 0 else 0)
  let full := (e.txBytes p { w with g := { w.g with data := w.g.data ++ zeros (w.g.need - w.g.data.length) } }).1
  let b := full.take (n / 16 * 16)
  b ++ (fcsBytes b).map (fun x => ~~~x)

/-- The frame on the wire ends stomped: counted for Tally, and its byte-times are WASTED (R107, R208, R464). -/
def Eng.stomp (e : Eng) (p : PortId) (w : WireFrame) : Eng :=
  let bs := e.stompBytes p w
  let e := (e.popWire p w).emit (.txEnd p true bs)
  let e := e.modPort p (fun x => { x with freeAt := if x.wire.isEmpty then 0 else x.freeAt })
  (e.slotFrame p .tx clWasted (bs.length + 20)).tal { code := 0x005, port := some p, tc := some w.tc, dir := some .tx }

/-- A stomped frame goes back to its queue's head and starts again only when whole; granted and committed frames behind it
go back with it, so that the queue's order is kept (R107, R208). -/
def Eng.retryFrame (e : Eng) (p : PortId) (g : GFrame) : Eng :=
  let e := (e.ungrant p (fun h => decide (h.q = g.q))).recall p g.q
  e.modTxq g.q (fun x => x.modFrame g.frame (fun f =>
    { f with st := .offered, segNext := min f.segNext g.seg, retry := true }))

/-- TX_UNDERRUN: the packet buffer runs dry under the frame on the wire (R107, R108). Only the raise that follows a stomp
counts in ct_threshold_raises; one by a new CT_FLOOR does not (DESIGN CHOICE, log entry 70). -/
def Eng.underrun (e : Eng) (p : PortId) : Eng :=
  match (e.port p).wire with
  | [] => e
  | w :: _ =>
    if w.g.need ≤ w.g.data.length ∨ w.g.failed ≠ 0 then e
    else
      let e := (e.stomp p w).stat p 70 1
      let e := match (e.port p).ctNow with
        | .bytes n => (e.modPort p (fun y => { y with ct := (CtLevel.bytes n).up, ctFrames := 0 })).stat p 84 1
        | .saf => e.modPort p (fun y => { y with ctFrames := 0 })
      if w.orphan then e else e.retryFrame p w.g

/-- CT_THRESHOLD_LOWER: after 10^6 host frames without an underrun, one level down (R108). -/
def Eng.ctLower (e : Eng) (p : PortId) : Eng :=
  let x := e.port p
  if x.ctSaf ∨ x.ctFrames < 1000000 then e
  else e.setPort p { x with ct := x.ctNow.down x.ctFloor, ctFrames := 0 }

end Sys2Proof.Machine
end

