-- ==== Sys2Proof/Machine/PortOps.lean ====
section
/-! DEFINITION. PortOps.lean: port events and states, module cages, LLDP and partner records
(03_ports_partners.md R66 to R90). -/
namespace Sys2Proof.Machine

/-! ### Who is told (R75, R548) -/

/-- The owner of global ring `r`. -/
def Eng.ringFn (e : Eng) (r : Nat) : Option Fn := (e.rxq (fin 32768 r)).map (·.fn)

/-- An action delivers to a ring of function `f` (R548). -/
def Eng.actionTo (e : Eng) (f : Fn) (a : Action) : Bool :=
  if a.ty = 1 then decide (e.ringFn a.target = some f)
  else if a.ty = 2 then
    match e.steer.spreads.get none a.target with
    | some t => decide (t.owner = f) && (upTo t.size).any (fun i => (e.rxqOf f (t.entries.get 0 i)).isSome)
    | none => false
  else false

/-- A TCAM entry's key matches port `p` in its PORT field under the mask (R228, R230). -/
def TcamEntry.hitsPort (t : TcamEntry) (p : PortId) : Bool :=
  decide (t.key &&& t.mask &&& 15 = p.val &&& t.mask &&& 15)

/-- Function `f` owns a queue or ring on port `p` (R548). -/
def Eng.ownsOn (e : Eng) (f : Fn) (p : PortId) : Bool :=
  e.txqList.any (fun r => decide (r.2.fn = f ∧ r.2.port = p)) ||
  e.actionTo f (e.steer.genA.ports.get {} p.val).miss ||
  e.actionTo f (e.steer.genB.ports.get {} p.val).miss ||
  (match (e.port p).excRing with
   | some (g, n) => decide (g = f) && (e.rxqOf f n).isSome
   | none => false) ||
  e.steer.tcam.rows.any (fun r => (r.2.validA || r.2.validB) && r.2.hitsPort p && e.actionTo f r.2.action)

/-- A port event (R75): F0 always, on the queue it named or its CONTROL queue; other subscribers while they own
a queue or ring on the port. -/
def Eng.portEvent (e : Eng) (p : PortId) (code data : Nat) : Eng :=
  let subs := (e.port p).subs
  let e := match subs.find? (fun s => decide (s.1 = 0)) with
    | some s => e.locEvent 0 s.2 4 code p.val data
    | none => e.ctlEvent 0 4 code p.val data
  foldEng (subs.filter (fun s => !decide (s.1 = 0) && e.ownsOn s.1 p)) (fun e s => e.locEvent s.1 s.2 4 code p.val data) e

/-- Codes of port states in the order of R72. -/
def PState.code : PState → Nat
  | .adminDown => 0 | .noModule => 1 | .moduleInit => 2 | .moduleFault => 3 | .training => 4 | .up => 5 | .portFault => 6

/-- Cause codes of R524. -/
def cAdmin : Nat := 1
def cRemoved : Nat := 2
def cNoMgmt : Nat := 3
def cBadId : Nat := 4
def cBadRev : Nat := 5
def cAppMismatch : Nat := 6
def cPowerUp : Nat := 7
def cModFault : Nat := 8
def cTrain : Nat := 9
def cLinkFault : Nat := 10
def cPortDown : Nat := 11
def cThinFail : Nat := 12
def cLinkUp : Nat := 13

/-- A port's state or a cause reported, with its STATE_CHANGED event (R75). -/
def Eng.portState (e : Eng) (p : PortId) (s : PState) (cause : Nat) : Eng :=
  (e.modPort p (fun x => { x with state := s, cause := cause, changed := e.tb0 })).portEvent p 1 (s.code + 256 * cause)

/-! ### MI_CTL -/

/-- Codes of MI_CTL commands (R489). -/
def MiCmd.code : MiCmd → Nat
  | .enable => 1 | .disable => 2 | .retrain => 3 | .txMap => 4 | .rxMap => 5 | .warm => 6 | .cold => 7 | .watchKeep => 8

/-- A command for the line block: at most one is outstanding per port (R489). -/
def Eng.mi (e : Eng) (p : PortId) (c : MiCmd) (arg : Nat) : Eng :=
  let x := e.port p
  match x.miCtl with
  | none => (e.setPort p { x with miCtl := some (c, arg) }).emit (.miCtl p c arg)
  | some _ => e.setPort p { x with miQueue := x.miQueue ++ [(c, arg)] }

/-- The command outstanding is over; the next waiting one is sent. -/
def Eng.miNext (e : Eng) (p : PortId) : Eng :=
  let x := e.port p
  match x.miQueue with
  | [] => e.setPort p { x with miCtl := none }
  | (c, a) :: r => (e.setPort p { x with miCtl := some (c, a), miQueue := r }).emit (.miCtl p c a)

/-- Lane mask of a whole port. -/
def Port.laneMask (x : Port) : Nat := 2 ^ x.width - 1

/-! ### Leaving UP -/

/-- A trump frame starts on the wire: counted as sent whole, with its load and its byte-times (R118, R128, R464). -/
def Eng.sendTrump (e : Eng) (p : PortId) (t : Trump) : Eng :=
  let bs := e.trumpBytes p t
  let len := bs.length + 4
  let e := e.emit (.trump p (bs ++ fcsBytes bs))
  let e := (e.frameOk p .tx none (some .firmware) bs len).wireBytes p .tx none (some .firmware) len
  let e := e.tal { code := 0x007, port := some p, dir := some .tx, orig := some .firmware }
  let e := (e.addLoad p len).slotFrame p .tx clRetired (len + 20)
  match t with
  | .fc =>
    let x := e.port p
    let e := e.tal { code := 0x004, port := some p, dir := some .tx }
    let e := match x.fcMode with
      | .pause => e.stat p 33 1
      | .none | .pfc => foldEng (upTo 8) (fun e c => if bitAt (x.xoffSt ||| x.released).toNat c then e.stat p (42 + c) 1 else e) e
    e.modPort p (fun y => { y with
      released := 0
      fcSent := (upTo 8).map (fun c => if bitAt y.xoffSt.toNat c then e.now else nth y.fcSent c 0) })
  | .thin _ _ | .lldp _ => e

/-- Frames of a port granted and not committed complete with LINK_DOWN; large sends with a granted segment end;
pieces taken are withdrawn (R74, R271, R293). -/
def Eng.dropGrantedAll (e : Eng) (p : PortId) : Eng :=
  let gs := (e.port p).lists.flatMap id
  let e := e.stat p 67 gs.length
  let e := foldEng gs (fun e g => e.endFrame g.q g.frame g.seg 4 0) e
  foldEng (e.txqList.filter (fun r => decide (r.2.port = p))) (fun e r =>
    match r.2.headFrame with
    | some f =>
      if f.isLso ∧ 0 < f.segNext then e.endFrame r.1 f.id f.segNext 4 0
      else e.modTxq r.1 (fun x => x.modFrame f.id (fun f => { f with pieces := 0 }))
    | none => e) e

/-- A pair identity TLV carries this member's own PAIR_ID: the port is cabled to its pair partner (R453). -/
def Eng.miscabled (e : Eng) (t : Option PairTlv) : Bool :=
  e.paired && decide (t.map (·.pairId.toNat) = some e.pair.pairId)

/-- A handover begins on the active member (R447): granted frames go back to their queue heads. `failover`: the FAILOVER
reaction asks for it. -/
def Eng.beginHandover (e : Eng) (failover : Bool) : Eng :=
  let e := foldEng e.portList (fun e p => e.ungrant p (fun _ => true)) e
  { e with pair := { e.pair with handover := some failover } }

/-- A port in FAILOVER_PORTS leaves UP on the active member: whether the standby's port is in UP is not known here, and
is a free value (R447, R453). -/
def Eng.portFailover (e : Eng) (p : PortId) : Eng :=
  if e.pair.state = .active ∧ bitAt e.pair.failPorts.toNat p.val ∧ e.miscabled (e.port p).partner.pair = false ∧
      e.handing = false then
    let (v, e) := e.fresh
    if v % 2 = 1 then e.beginHandover false else e
  else e

/-- What leaving UP does (R74, R89, R126, R150): the port returns to UP only at full width. -/
def Eng.leaveUp (e : Eng) (p : PortId) : Eng :=
  let e := ((e.portFailover p).dropGrantedAll p).clearPause p
  e.modPort p (fun x => { x with
    partner := {}, trump := [], trumpWait := [], fastStart := 0
    hs := none, lastAnswer := none, gap := none, rewiden := none, widenDue := none, lowCount := [0, 0, 0], spoiled := false, load := 0
    txLanes := x.width, rxLanes := x.width, lanes := List.replicate x.width .inService })

/-- A port in UP is put into another state. -/
def Eng.downTo (e : Eng) (p : PortId) (s : PState) (cause : Nat) : Eng :=
  let up := decide ((e.port p).state = .up)
  let e := if up then e.leaveUp p else e.modPort p (fun x => { x with partner := {} })
  (e.modPort p (fun x => { x with debouncing := false })).portState p s cause

/-- The shutdown LLDPDU that leaving UP for ADMIN_DOWN sends (R85). -/
def Eng.shutdownLldp (e : Eng) (p : PortId) : Eng :=
  if (e.port p).state = .up ∧ (e.port p).lldpAgent ∧ e.macOn then e.sendTrump p (.lldp 0) else e

/-- ADMIN set to DOWN (R73). -/
def Eng.adminDown (e : Eng) (p : PortId) : Eng :=
  let e := e.modPort p (fun x => { x with admin := false })
  if (e.port p).state = .adminDown then e
  else ((e.shutdownLldp p).mi p .disable (e.port p).laneMask).downTo p .adminDown cAdmin

/-- The PORT_DOWN reaction on a port (R73, R401): as ADMIN DOWN, ADMIN staying UP, and so with the shutdown LLDPDU that
R85 gives for ADMIN_DOWN (DEDUCED, log entry 68). -/
def Eng.portDown (e : Eng) (p : PortId) : Eng :=
  match (e.port p).state with
  | .adminDown | .portFault => e
  | .noModule | .moduleInit | .moduleFault | .training | .up =>
    ((e.shutdownLldp p).mi p .disable (e.port p).laneMask).downTo p .portFault cPortDown

/-- A link fault, or loss of signal-detect, on a lane in service (R73, R488). -/
def Eng.linkLost (e : Eng) (p : PortId) (cause : Nat) : Eng :=
  match (e.port p).state with
  | .up => (e.downTo p .training cause).mi p .retrain (e.port p).laneMask
  | .training => e.modPort p (fun x => { x with debouncing := false })
  | .adminDown | .noModule | .moduleInit | .moduleFault | .portFault => e

/-! ### Module cages -/

/-- Ports with ADMIN UP mapped to a cage. -/
def Eng.mapped (e : Eng) (c : Cage) : List PortId :=
  e.portList.filter (fun p => (e.port p).admin && decide ((e.port p).cage = c))

/-- The application that fits a port (R81), the default one before others. -/
def appFor (m : ModIdent) (x : Port) : Option ModApp :=
  let ok := m.apps.filter (fun a => decide (a.hostLanes = x.width) && a.rate200 && bitAt a.bases.toNat x.laneBase)
  match ok.find? (·.isDefault) with
  | some a => some a
  | none => ok.head?

/-- Host lanes of a port in its cage, one bit each. -/
def Port.cageLanes (x : Port) : Nat := x.laneMask * 2 ^ x.laneBase

/-- The cage's module offers a port a fitting application. -/
def CageSt.fits (c : CageSt) (x : Port) : Bool :=
  match c.ident with
  | some m => (appFor m x).isSome
  | none => false

/-- Application `a` is the one in effect on a port's host lanes. -/
def CageSt.inEffect (c : CageSt) (x : Port) (a : ModApp) : Bool :=
  (upTo x.width).all (fun i =>
    match c.laneApp.find? (fun r => decide (r.1 = x.laneBase + i)) with
    | some r => decide (r.2 = a.code)
    | none => a.isDefault)

/-- A port's application is active: it is in effect on the port's lanes, and their data paths read as activated; a
flat-memory module has no data path state (R73, R80). -/
def CageSt.active (c : CageSt) (x : Port) : Bool :=
  match c.ident with
  | some m =>
    match appFor m x with
    | some a => m.flat || (c.inEffect x a && decide (c.dpActive.toNat &&& x.cageLanes = x.cageLanes))
    | none => false
  | none => false

/-- Pages 10h and 11h are read: not of a flat-memory module, nor of one that does not advertise them (R80). -/
def CageSt.lanePages (c : CageSt) : Bool :=
  match c.ident with
  | some m => !m.flat && m.pages
  | none => true

/-- The CMIS controls written for a port whose fitting application is neither the module's default nor in effect:
DPDeinit, the staged application, ApplyDPInit (R81). The lanes are not activated until a later read shows them so. -/
def Eng.applyApp (e : Eng) (c : Cage) (x : Port) : Eng :=
  match ((e.cage c).ident).bind (fun m => if m.flat then none else appFor m x) with
  | none => e
  | some a =>
    if a.isDefault || (e.cage c).inEffect x a then e
    else
      let e := ((e.emit (.module c 0 x.cageLanes)).emit (.module c 1 (a.code.toNat * 256 + x.laneBase))).emit (.module c 2 x.cageLanes)
      let ls := (upTo x.width).map (fun i => x.laneBase + i)
      e.modCage c (fun k => { k with
        dpPending := true
        dpActive := k.dpActive &&& ~~~(BitVec.ofNat 8 x.cageLanes)
        laneApp := k.laneApp.filter (fun r => !ls.contains r.1) ++ ls.map (fun l => (l, a.code)) })

/-- Training is requested of the line block (R73). -/
def Eng.enterTraining (e : Eng) (p : PortId) (cause : Nat) : Eng :=
  (e.portState p .training cause).mi p .enable (e.port p).laneMask

/-- A port waiting in MODULE_INIT or MODULE_FAULT takes a READY cage (R73). R524 names no cause for the change to
TRAINING: the model reports NONE (DESIGN CHOICE, log entry 68). -/
def Eng.takeReady (e : Eng) (p : PortId) : Eng :=
  let x := e.port p
  let c := e.cage x.cage
  match x.state with
  | .moduleInit =>
    if !c.fits x then e.portState p .moduleFault cAppMismatch
    else if c.active x then e.enterTraining p 0 else e
  | .moduleFault => if c.active x then e.enterTraining p 0 else e
  | .adminDown | .noModule | .training | .up | .portFault => e

/-- A cage enters a state (R78); its ports follow (R73). A removal is for a port in UP as a link that goes down, with
its retraining request. R524 names no cause for the change to MODULE_INIT: the model reports NONE (DESIGN CHOICE, log
entry 68). -/
def Eng.cageTo (e : Eng) (c : Cage) (s : CageState) (cause : Nat) : Eng :=
  let e := e.modCage c (fun k => { k with state := s, cause := cause })
  foldEng (e.mapped c) (fun e p =>
    match s with
    | .empty =>
      match (e.port p).state with
      | .up => (e.downTo p .noModule cRemoved).mi p .retrain (e.port p).laneMask
      | .moduleInit | .moduleFault | .training => e.downTo p .noModule cRemoved
      | .adminDown | .noModule | .portFault => e
    | .mgmtInit =>
      match (e.port p).state with
      | .noModule => e.portState p .moduleInit 0
      | .adminDown | .moduleInit | .moduleFault | .training | .up | .portFault => e
    | .fault | .unsupported =>
      match (e.port p).state with
      | .moduleInit => e.portState p .moduleFault cause
      | .adminDown | .noModule | .moduleFault | .training | .up | .portFault => e
    | .ready => e.takeReady p
    | .identify | .powerUp => e) e

/-- A port with ADMIN UP enters the state that its cage selects (R73). -/
def Eng.adminUp (e : Eng) (p : PortId) : Eng :=
  let e := e.modPort p (fun x => { x with admin := true })
  let x := e.port p
  if x.state ≠ .adminDown then e
  else
    let c := e.cage x.cage
    match c.state with
    | .empty => e.portState p .noModule cAdmin
    | .fault | .unsupported => e.portState p .moduleFault c.cause
    | .mgmtInit | .identify => e.portState p .moduleInit cAdmin
    | .powerUp => (e.portState p .moduleInit cAdmin).applyApp x.cage x
    | .ready =>
      if !c.fits x then e.portState p .moduleFault cAppMismatch
      else if c.active x then e.enterTraining p cAdmin
      else (e.portState p .moduleInit cAdmin).applyApp x.cage x

/-- MOD_LPM and MOD_RST_N driven (R76). -/
def Eng.drivePins (e : Eng) (c : Cage) (rstN lpm : Bool) : Eng := e.modCage c (fun k => { k with rstN := rstN, lpm := lpm })

/-- A cage enters FAULT; a module that reads ModuleFault has MOD_LPM driven high (R78). -/
def Eng.cageFault (e : Eng) (c : Cage) (cause : Nat) : Eng :=
  let lpm := (e.cage c).lpm || decide (cause = cModFault)
  ((e.drivePins c (e.cage c).rstN lpm).modCage c (fun k => { k with retries := 0 })).cageTo c .fault cause

/-- A module state and, where page 11h is read, activated lanes as read (R78, R80, R82). -/
def Eng.modRead (e : Eng) (c : Cage) (st : ModState) (dp : BitVec 8) : Eng :=
  let k := e.cage c
  match k.state with
  | .empty | .fault | .unsupported => e
  | .mgmtInit | .identify | .powerUp | .ready =>
    let flat := match k.ident with
      | some m => m.flat
      | none => false
    if st = .fault ∧ flat = false then (e.setCage c { k with modState := some st }).cageFault c cModFault
    else
      let k := { k with modState := some st, dpActive := if k.lanePages then dp else 0 }
      let e := e.setCage c k
      let fit := (e.mapped c).filter (fun p => k.fits (e.port p))
      let allOn := fit.all (fun p => k.active (e.port p))
      match k.state with
      | .powerUp => if st = .ready ∧ allOn then e.cageTo c .ready 0 else e
      | .ready =>
        let e := if allOn then e.modCage c (fun k => { k with dpPending := false }) else e
        foldEng (e.mapped c) (fun e p => e.takeReady p) e
      | .empty | .mgmtInit | .identify | .fault | .unsupported => e

/-- The identity fields as read in IDENTIFY (R80, R81): a port without a fitting application is left in
MODULE_FAULT, and the cage fails only where no mapped port has one. -/
def Eng.identified (e : Eng) (c : Cage) (m : ModIdent) : Eng :=
  let e := e.modCage c (fun k => { k with ident := some m, retries := 0 })
  if !m.cmisId then e.cageTo c .unsupported cBadId
  else if m.rev.toNat / 16 ≠ 4 ∧ m.rev.toNat / 16 ≠ 5 then e.cageTo c .unsupported cBadRev
  else
    let l := e.mapped c
    let bad := l.filter (fun p => !(e.cage c).fits (e.port p))
    if !l.isEmpty ∧ bad.length = l.length then e.cageTo c .unsupported cAppMismatch
    else
      let e := foldEng bad (fun e p => if (e.port p).state = .moduleInit then e.portState p .moduleFault cAppMismatch else e) e
      if m.flat then (e.drivePins c true false).cageTo c .ready 0
      else foldEng l (fun e p => e.applyApp c (e.port p)) ((e.drivePins c true false).cageTo c .powerUp 0)

/-- A cage of which nothing has been read: its module is absent or in reset. -/
def CageSt.unread (k : CageSt) : CageSt :=
  { k with ident := none, modState := none, dpActive := 0, laneApp := [], dpPending := false, retries := 0 }

/-- Presence confirmed or removal confirmed (R77, R78). -/
def Eng.presence (e : Eng) (c : Cage) (present : Bool) : Eng :=
  let k := e.cage c
  if present then
    if k.state = .empty then
      ((e.drivePins c true true).modCage c (fun k => { k with retries := 0 })).cageTo c .mgmtInit 0
    else e
  else if k.state = .empty then e
  else
    ((e.drivePins c false true).modCage c CageSt.unread).cageTo c .empty cRemoved

/-- What a module bus transaction brought (R78 to R80); an error found while MOD_PRS_N is high is discarded (R77). -/
def Eng.busDone (e : Eng) (c : Cage) (d : ModData) : Eng :=
  let k := e.cage c
  match d with
  | .lowerPage st =>
    if k.state = .mgmtInit then
      if st = .fault then (e.modCage c (fun k => { k with modState := some st })).cageFault c cModFault
      else (e.modCage c (fun k => { k with modState := some st, retries := 0 })).cageTo c .identify 0
    else (e.modCage c (fun k => { k with retries := 0 })).modRead c st k.dpActive
  | .identity m => if k.state = .identify then e.identified c m else e
  | .status st dp => (e.modCage c (fun k => { k with retries := 0 })).modRead c st dp
  | .failed prsN =>
    match k.state with
    | .identify | .powerUp | .ready => if prsN then e else e.setCage c { k with retries := k.retries + 1 }
    | .empty | .mgmtInit | .fault | .unsupported => e

/-- MGMT_INIT_TIMEOUT: 2 s without an answer of the lower page (R78). -/
def Eng.mgmtTimeout (e : Eng) (c : Cage) : Eng :=
  if (e.cage c).state = .mgmtInit then (e.fail 44 c.val mModule).cageFault c cNoMgmt else e

/-- MODULE_STATE_TIMEOUT: a module or data path state change exceeds its limit (R78, R82). -/
def Eng.moduleTimeout (e : Eng) (c : Cage) : Eng :=
  let k := e.cage c
  if k.state = .powerUp ∨ (k.state = .ready ∧ k.dpPending = true) then e.cageFault c cPowerUp else e

/-- The retry of a failed transaction: after the fourth failure the cage faults (R79). R79 names no cause: the model
reports NO_MGMT (DESIGN CHOICE, log entry 68). -/
def Eng.busRetry (e : Eng) (c : Cage) : Eng :=
  if 4 ≤ (e.cage c).retries then (e.fail 44 c.val mModule).cageFault c cNoMgmt else e

/-- DATA of a MODULE_FLAG event: the lanes with a latched flag, and a latched module-level flag (R182). -/
def CageSt.flagData (k : CageSt) : Nat :=
  pack ((upTo 8).map (fun i => (b2n (fld k.laneFlags.toNat (64 * i) 64 ≠ 0), 1))) + 256 * b2n (k.flags ≠ 0)

/-- MOD_INT_N low: flags latched and reported, and the module state read (R82, R83). -/
def Eng.modIrq (e : Eng) (c : Cage) (flags : BitVec 64) (laneFlags : BitVec 512) (st : ModState) : Eng :=
  let k := e.cage c
  match k.state with
  | .empty | .fault | .unsupported => e
  | .mgmtInit | .identify | .powerUp | .ready =>
    let k := { k with flags := k.flags ||| flags, laneFlags := k.laneFlags ||| (if k.lanePages then laneFlags else 0) }
    ((e.setCage c k).ctlEvent 0 4 5 c.val k.flagData).modRead c st k.dpActive

/-! ### LLDP -/

/-- An LLDPDU of the agent is made ready (R85). -/
def Eng.lldpSend (e : Eng) (p : PortId) : Eng :=
  let x := e.port p
  if x.state = .up ∧ x.lldpAgent then e.pushTrump p (.lldp (min (4 * x.lldpInterval) 65535)) else e

/-- A fast start: four LLDPDUs one second apart (R85). -/
def Eng.fastStart (e : Eng) (p : PortId) : Eng :=
  if (e.port p).state = .up ∧ (e.port p).lldpAgent then (e.modPort p (fun x => { x with fastStart := 3 })).lldpSend p else e

/-- The transmit timer of the agent expires (R85); the agent does not run while PD_CTL is gated (R89). -/
def Eng.lldpTimer (e : Eng) (p : PortId) : Eng :=
  if e.pwr.ctlOn = false then e
  else (e.modPort p (fun x => { x with fastStart := x.fastStart - 1 })).lldpSend p

/-- A fast start on every port, as advertised values of the engine change (R85). -/
def Eng.fastStartAll (e : Eng) : Eng := foldEng e.portList (fun e p => e.fastStart p) e

/-- UP_DEBOUNCE ends with the link still up (R73): starts are enabled, an XOFF state is sent (R116). -/
def Eng.enterUp (e : Eng) (p : PortId) : Eng :=
  let e := (e.modPort p (fun x => { x with debouncing := false })).portState p .up cLinkUp
  let e := e.fastStart p
  if (e.port p).xoffSt ≠ 0 ∨ (e.port p).released ≠ 0 then e.fcReady p else e

/-- The partner record takes a valid LLDPDU (R86 to R89); the answer says whether partner features are withdrawn: by
another partner, by TTL 0, or by the same partner that no longer advertises THIN (R90). -/
def Eng.partnerRx (e : Eng) (p : PortId) (d : Lldpdu) : Bool × Eng :=
  let x := e.port p
  let r := x.partner
  let same := decide (r.chassis = d.chassis ∧ r.portId = d.portId)
  let fill (n : Nat) : Partner :=
    { st := .present, chassis := d.chassis, portId := d.portId, ttl := d.ttl.toNat, cap := d.cap, pair := d.pair
      time := e.tb0, count := n }
  let put (v : Partner) : Eng := e.setPort p { x with partner := v }
  if d.ttl = 0 then
    match r.st with
    | .present | .stale => (true, (put {}).portEvent p 4 0)
    | .none => (false, e)
  else
    match r.st with
    | .none => (false, put (fill 1))
    | .present | .stale =>
      if same then
        let thins (c : Option CapTlv) : Bool := (c.map (·.thin)).getD false
        let lost := thins r.cap && !thins d.cap
        (lost, put (fill (r.count + 1)))
      else (true, (put (fill 1)).portEvent p 3 0)

end Sys2Proof.Machine
end

