-- ==== Sys2Proof/Machine/ThinOps.lean ====
section
/-! DEFINITION. ThinOps.lean: lane thinning and its handshake (05_thinning.md R130 to R151), the MI_CTL
acknowledgements and the start of a trump frame (04_wire.md R118, 20_edge_signals.md R489). -/
namespace Sys2Proof.Machine

/-! ### Conditions and measures -/

/-- The partner permits thinning (R90). -/
def Eng.thinPartner (e : Eng) (p : PortId) : Bool :=
  let x := e.port p
  decide (x.partner.st = .present) && decide (2 ≤ x.partner.count) && x.advThin &&
  (match x.partner.cap with
   | some c => c.thin
   | none => false)

/-- The conditions under which a port narrows (R132). -/
def Eng.mayThin (e : Eng) (p : PortId) : Bool :=
  let x := e.port p
  decide (x.state = .up) && x.thinAuto && decide (2 ≤ x.width) && e.thinPartner p && decide (x.deck.st = .none) &&
  !(e.txqList.any (fun r => decide (r.2.port = p) && r.2.launchEn))

/-- Lane counts both ends offer, bit k for 2^k (R90). -/
def Port.bothSteps (x : Port) : Nat :=
  x.thinSteps &&& (match x.partner.cap with
    | some c => c.steps.toNat
    | none => 0)

/-- The next lower lane count that a narrowing targets (R136). -/
def Port.narrower (x : Port) : Option Nat :=
  ((upTo 4).reverse.map (fun k => (k, 2 ^ k))).findSome? (fun (k, n) =>
    if n < x.txLanes ∧ bitAt x.bothSteps k ∧ min x.thinMin x.width ≤ n then some n else none)

/-- Intervals in a row that meet R136 for a target of `m` lanes. -/
def Port.lowAt (x : Port) (m : Nat) : Nat :=
  if m = 1 then nth x.lowCount 0 0 else if m = 2 then nth x.lowCount 1 0 else if m = 4 then nth x.lowCount 2 0 else 0

/-- Bytes of a queue's frames that have not started on the wire (R135). A frame of which only some descriptors have been
fetched is left out (DESIGN CHOICE, log entry 69). -/
def Eng.queueBacklog (e : Eng) (q : TxqId) (x : Txq) : Nat :=
  let y := e.port x.port
  x.frames.foldl (fun s f =>
    match f.st with
    | .done _ => s
    | .lookup | .offered | .granted =>
      let started := (y.wire.filter (fun w => decide (w.g.q = q) && w.g.frame == f.id)).length
      (upTo f.segs).foldl (fun s k => if f.segSent + started ≤ k then s + y.txLen f x.fcsPass k else s) s) 0

/-- The port's transmit backlog (R135). -/
def Eng.backlog (e : Eng) (p : PortId) : Nat :=
  e.txqList.foldl (fun s r => if r.2.port = p then s + e.queueBacklog r.1 r.2 else s) 0

/-- Widest count reachable with lanes in service and warm lanes (R138). -/
def Port.warmLanes (x : Port) : Nat :=
  [8, 4, 2, 1].find? (fun n => decide (n ≤ x.width) && (x.lanes.take n).all (fun l => !decide (l = .cold))) |>.getD x.txLanes

/-- A handshake message of this end (R138). -/
def Port.thinMsg (x : Port) (h : Handshake) (reason switch : Nat) : ThinMsg :=
  { seq := h.seq, cur := BitVec.ofNat 8 x.txLanes, target := BitVec.ofNat 8 h.target, restore := h.restore
    cold := decide (x.warmLanes < h.target), warm := BitVec.ofNat 8 x.warmLanes
    reason := BitVec.ofNat 8 reason, switch := BitVec.ofNat 8 switch }

/-- The PROPOSE of a handshake: every send carries the WARM_LANES of the first (R140). -/
def Port.proposal (x : Port) (h : Handshake) : Trump :=
  .thin 1 { x.thinMsg h 0 0 with warm := BitVec.ofNat 8 h.warm, cold := decide (h.warm < h.target) }

/-- Thinning counters changed. -/
def Eng.thinCnt (e : Eng) (p : PortId) (g : ThinCnt → ThinCnt) : Eng := e.modPort p (fun x => { x with thin := g x.thin })

/-- A message ignored and counted in thin_malformed (R139). -/
def Eng.thinBad (e : Eng) (p : PortId) : Eng := e.thinCnt p (fun c => { c with malformed := sat64 (c.malformed + 1) })

/-- A handshake is over: none of its messages leaves any more. -/
def Eng.hsDrop (e : Eng) (p : PortId) : Eng :=
  e.modPort p (fun x =>
    let mine (t : Trump) : Bool := match t, x.hs with
      | .thin _ m, some h => decide (m.seq = h.seq)
      | _, _ => false
    { x with hs := none, trump := x.trump.filter (fun t => !mine t), trumpWait := x.trumpWait.filter (fun t => !mine t) })

/-- Retraining recovery (R149). -/
def Eng.thinRecover (e : Eng) (p : PortId) : Eng :=
  let e := (e.thinCnt p (fun c => { c with recoveries := sat64 (c.recoveries + 1) })).fail 47 p.val mNone
  let e := e.downTo p .training cThinFail
  e.mi p .retrain (e.port p).laneMask

/-! ### Proposing -/

/-- A PROPOSE is sent with a new SEQ (R140). -/
def Eng.propose (e : Eng) (p : PortId) (target : Nat) (restore : Bool) : Eng :=
  let x := e.port p
  let h : Handshake := { initiator := true, seq := x.thinSeq + 1, target := target, restore := restore
                         warm := x.warmLanes, phase := .proposed 1 }
  (e.setPort p { x with thinSeq := x.thinSeq + 1, hs := some h, widenDue := none, rewiden := none }).pushTrump p
    (x.proposal h)

/-- A widening to full width, at once or as soon as no handshake and no gap is in its way (R134, R143, R148). -/
def Eng.widen (e : Eng) (p : PortId) (restore : Bool) : Eng :=
  let x := e.port p
  if x.state ≠ .up then e
  else if x.hs.isSome ∨ x.gap.isSome ∨ e.now < x.noPropose then e.setPort p { x with widenDue := some restore }
  else if x.txLanes < x.width then e.propose p x.width restore
  else e.setPort p { x with widenDue := none }

/-- A handshake has switched, failed or been abandoned: a widening that waits is proposed (R143). -/
def Eng.widenNext (e : Eng) (p : PortId) : Eng :=
  match (e.port p).widenDue with
  | some r => e.widen p r
  | none => e

/-- What asks for a widening at the end of an interval: whether with RESTORE (R134, R137, R148). -/
def Eng.widenWant (e : Eng) (p : PortId) (load : Nat) : Option Bool :=
  let x := e.port p
  if x.width ≤ x.txLanes then none
  else if !e.thinPartner p then some (x.thinAuto)
  else if 200000 * x.txLanes < load ∨ 262144 < e.backlog p then some false
  else none

/-- A widening that is asked for is proposed, unless one is going on or its second of R148 has not passed. -/
def Eng.widenTry (e : Eng) (p : PortId) (restore : Bool) : Eng :=
  let x := e.port p
  let wait := match x.rewiden with
    | some t => decide (e.now < t)
    | none => false
  let going := match x.hs with
    | some h => decide (x.txLanes < h.target)
    | none => false
  if wait || going then e else e.widen p restore

/-- A port that is neither thin nor may thin by itself. -/
def Port.settled (x : Port) : Bool := decide (x.state ≠ .up) || (!x.thinAuto && decide (x.width ≤ x.txLanes))

/-- What a command's end finds on a port that thins: a backlog above 256 KiB, or a lapse of R132, restarts the 10 ms
count (R136), and the backlog asks at once for a widening (R137). -/
def Eng.thinWatch (e : Eng) (p : PortId) : Eng :=
  let x := e.port p
  if x.settled then e
  else
    let high := decide (262144 < e.backlog p)
    let e := if high || !e.mayThin p then e.setPort p { x with lowCount := [0, 0, 0], spoiled := true } else e
    match high, e.widenWant p 0 with
    | true, some r => e.widenTry p r
    | _, _ => e

/-- Every port's thinning triggers as a command ends. -/
def Eng.thinWatchAll (e : Eng) : Eng := foldEng e.portList (fun e p => e.thinWatch p) e

/-- THIN_INTERVAL: a 10 µs interval of a port closes (R135 to R137). -/
def Eng.thinInterval (e : Eng) (p : PortId) : Eng :=
  let x := e.port p
  let load := x.load
  let ok := e.mayThin p && !x.spoiled && decide (e.backlog p ≤ 262144)
  let cnt := (upTo 3).map (fun k => if ok && decide (load < 100000 * 2 ^ k) then min (nth x.lowCount k 0 + 1) 1000 else 0)
  let e := e.setPort p { x with load := 0, lowCount := cnt, spoiled := false }
  let x := e.port p
  if x.state ≠ .up then e
  else match e.widenWant p load with
    | some r => e.widenTry p r
    | none =>
      match x.narrower with
      | some m =>
        if x.lowAt m = 1000 ∧ x.hs.isNone ∧ x.gap.isNone ∧ x.noNarrow ≤ e.now ∧ x.noPropose ≤ e.now then e.propose p m false
        else e
      | none => e

/-! ### Switching -/

/-- Width of the switch in progress or next: the first goes no further than both ends' warm lanes (R140). A partner's
WARM_LANES that is no lane count is used as it stands (DESIGN CHOICE, log entry 69). -/
def Handshake.width (h : Handshake) : Nat := if h.switch = 1 then min h.target (min h.warm h.pwarm) else h.target

/-- No first switch: the target is wider, and warm lanes reach no further than the present width (R140 step 3). -/
def Handshake.skips (h : Handshake) (cur : Nat) : Bool := decide (cur < h.target) && decide (min h.warm h.pwarm ≤ cur)

/-- Lanes from `a` up to `b`, one bit each. -/
def laneRange (a b : Nat) : Nat := 2 ^ b - 2 ^ a

/-- Step 6 of a handshake: the line block retrains the cold lanes (R140). -/
def Eng.hsRetrain (e : Eng) (p : PortId) (h : Handshake) : Eng :=
  if h.switch = 1 ∧ min h.warm h.pwarm < h.target then e.mi p .retrain (laneRange (min h.warm h.pwarm) h.target) else e

/-- READYs exchanged: the second switch begins with the responder's MARK (R140 step 7). -/
def Eng.hsReady (e : Eng) (p : PortId) : Eng :=
  let x := e.port p
  match x.hs with
  | none => e
  | some h =>
    if h.phase = .ready ∧ h.readySent ∧ h.readyRcvd then
      let h := { h with switch := 2, markSent := false, markRcvd := false, phase := if h.initiator then .waitMark else .sendMark }
      let e := e.setPort p { x with hs := some h }
      if h.initiator then e else e.pushTrump p (.thin 5 (x.thinMsg h 0 2))
    else e

/-- A map command of the port is unanswered. -/
def Port.mapBusy (x : Port) : Bool :=
  let m (c : MiCmd) : Bool := decide (c = .txMap) || decide (c = .rxMap)
  (match x.miCtl with
   | some (c, _) => m c
   | none => false) || x.miQueue.any (fun c => m c.1)

/-- A switch over in both directions ends the handshake, or leaves it waiting for READYs (R140). -/
def Eng.hsSettle (e : Eng) (p : PortId) : Eng :=
  let x := e.port p
  match x.hs with
  | none => if x.gap.isNone then e.widenNext p else e
  | some h =>
    if h.markSent ∧ h.markRcvd ∧ x.gap.isNone ∧ x.mapBusy = false then
      if h.switch = 1 ∧ h.width < h.target then (e.setPort p { x with hs := some { h with phase := .ready } }).hsReady p
      else (e.setPort p { x with hs := none }).widenNext p
    else e

/-- This end's MARK has started: no frame starts after it, and the new transmit map goes out (R144). -/
def Eng.markOut (e : Eng) (p : PortId) : Eng :=
  let x := e.port p
  match x.hs with
  | none => e
  | some h =>
    let phase : HsPhase := if h.markRcvd then .finishing else .sentMark
    let e := e.setPort p { x with gap := some (h.width, false), hs := some { h with markSent := true, phase := phase } }
    let e := e.mi p .txMap h.width
    if h.markRcvd then e.hsRetrain p h else e

/-- TRUMP_FRAME_START: the next control frame of the trump store starts (R118, R119, R140). -/
def Eng.trumpStart (e : Eng) (p : PortId) : Eng :=
  let x := e.port p
  if !e.mayStart p then e
  else match x.nextTrump with
    | none => e
    | some t =>
      let l := match takeFirst (fun u => decide (u = t)) x.trump with
        | some (_, r) => r
        | none => x.trump
      let e := (e.takeNext p ((e.trumpBytes p t).length + 4)).modPort p (fun x => { x with trump := l })
      let e := e.sendTrump p t
      let e := Eng.trumpRefill p 4 e
      match t with
      | .thin 4 m =>
        (e.modPort p (fun y => { y with hs := y.hs.map (fun h => if h.seq = m.seq then { h with readySent := true } else h) })).hsReady p
      | .thin 5 m => if decide ((e.port p).hs.map (·.seq) = some m.seq) then e.markOut p else e
      | .thin _ _ | .fc | .lldp _ => e

/-- THIN_GAP_END: the transmit gap ends and frames start at the new width (R144, R146). -/
def Eng.gapEnd (e : Eng) (p : PortId) : Eng :=
  let x := e.port p
  match x.gap with
  | some (w, true) =>
    let old := x.txLanes
    let lanes := (upTo x.width).map (fun i =>
      if i < w then LaneSt.inService
      else match nth x.lanes i .cold with
        | .inService => .warm e.now
        | l => l)
    let thin := if w < old then { x.thin with narrow := sat64 (x.thin.narrow + 1) }
      else if old < w then { x.thin with widen := sat64 (x.thin.widen + 1) } else x.thin
    let e := e.setPort p { x with gap := none, txLanes := w, lanes := lanes, thin := thin, lowCount := [0, 0, 0], spoiled := false, load := 0, lastSwitch := e.tb0 }
    let e := if w < old then e.mi p .warm (laneRange w old) else e
    let b := e.tally.bw.get {} p.val
    let e := if e.tally.bwEn ∧ bitAt e.tally.bwMaskNow.toNat p.val then
        { e with tally := { e.tally with bw := e.tally.bw.put {} p.val { b with thin := true } } } else e
    (e.portEvent p 2 w).hsSettle p
  | _ => e

/-- WARM_LANE_EXPIRY: a lane warm for 1 s goes cold (R147). -/
def Eng.laneCold (e : Eng) (p : PortId) (lane : Nat) : Eng :=
  let x := e.port p
  match nth x.lanes lane .cold with
  | .warm _ => (e.setPort p { x with lanes := setNth x.lanes lane .cold }).mi p .cold (2 ^ lane)
  | .inService | .cold => e

/-! ### Messages received -/

/-- Classes of a port that make a proposal FLOW: lossless, and paused or at XON_BYTES (R141). -/
def Port.flowBusy (x : Port) : Bool :=
  (upTo 8).any (fun c => x.lossless? (fin 8 c) &&
    (x.paused (fin 8 c) || decide (nth x.xon (x.fcIdx (fin 8 c)) 0 ≤ x.useOf (fin 8 c))))

/-- The REASON with which a proposal is rejected, none where it is accepted (R141). -/
def Eng.rejectReason (e : Eng) (p : PortId) (m : ThinMsg) : Option Nat :=
  let x := e.port p
  let t := m.target.toNat
  let valid := [1, 2, 4, 8].contains t && decide (t ≤ x.width)
  if m.restore || (decide (x.txLanes < t) && decide (t = x.width)) then none
  else if !e.mayThin p then some 2
  else if !valid || !(upTo 4).any (fun k => bitAt x.thinSteps k && decide (2 ^ k = t)) then some 3
  else if t < x.txLanes ∧ ¬(x.narrower = some t ∧ x.lowAt t = 1000) then some 1
  else if x.flowBusy then some 5 else none

/-- The target of a proposal: one with RESTORE is never rejected, and where its target is no lane count of the port it
is taken as the full width (DEDUCED from R141, log entry 42). -/
def Port.target (x : Port) (m : ThinMsg) : Nat :=
  let t := m.target.toNat
  if m.restore && !([1, 2, 4, 8].contains t && decide (t ≤ x.width)) then x.width else t

/-- A PROPOSE answered as a responder answers it (R140, R141). -/
def Eng.answerPropose (e : Eng) (p : PortId) (m : ThinMsg) : Eng :=
  let x := e.port p
  let h : Handshake := { initiator := false, seq := m.seq, target := x.target m, restore := m.restore
                         warm := x.warmLanes, pwarm := m.warm.toNat, phase := .sendMark }
  match e.rejectReason p m with
  | some r =>
    let t : Trump := .thin 3 (x.thinMsg h r 0)
    (e.setPort p { x with lastAnswer := some (m.seq, t) }).pushTrump p t
  | none =>
    let t : Trump := .thin 2 (x.thinMsg h 0 0)
    if h.skips x.txLanes then
      ((e.setPort p { x with lastAnswer := some (m.seq, t), hs := some { h with phase := .ready } }).pushTrump p t).hsRetrain p h
    else
      ((e.setPort p { x with lastAnswer := some (m.seq, t), hs := some h }).pushTrump p t).pushTrump p
        (.thin 5 (x.thinMsg h 0 1))

/-- The end with the greater identity: 0 this end, 1 the partner, 2 neither (R142). Where no partner record is held, as
after a withdrawal, the partner's identity counts as 0 and this end wins (DESIGN CHOICE, log entry 69). -/
def Eng.identityWins (e : Eng) (p : PortId) : Nat :=
  let r := (e.port p).partner
  let own := (engId, p.val)
  let his := (ofBE r.chassis, ofBE r.portId)
  if own = his then 2
  else if his.1 < own.1 ∨ (his.1 = own.1 ∧ his.2 < own.2) then 0 else 1

/-- RX_PROPOSE (R140 to R143). -/
def Eng.rxPropose (e : Eng) (p : PortId) (m : ThinMsg) : Eng :=
  let x := e.port p
  if x.state ≠ .up then e
  else match x.hs with
    | none =>
      if x.gap.isSome then e.pushTrump p (.thin 3 (x.thinMsg { initiator := false, seq := m.seq, target := m.target.toNat, phase := .ready } 4 0))
      else match x.lastAnswer with
        | some (s, t) => if s = m.seq then e.pushTrump p t else e.answerPropose p m
        | none => e.answerPropose p m
    | some h =>
      match h.phase with
      | .proposed _ =>
        let mine := decide (x.txLanes < h.target)
        let his := decide (x.txLanes < x.target m)
        let win := if mine && !his then 0 else if his && !mine then 1 else e.identityWins p
        if win = 0 then e
        else if win = 1 then (e.hsDrop p).answerPropose p m
        else (e.hsDrop p).modPort p (fun y => { y with noPropose := e.now + 3906250 })
      | .waitMark | .sendMark | .sentMark | .ready | .finishing =>
        match x.lastAnswer with
        | some (s, t) =>
          if s = m.seq ∧ h.initiator = false ∧ h.seq = s then e.pushTrump p t
          else e.pushTrump p (.thin 3 (x.thinMsg { h with seq := m.seq, target := m.target.toNat } 4 0))
        | none => e.pushTrump p (.thin 3 (x.thinMsg { h with seq := m.seq, target := m.target.toNat } 4 0))

/-- RX_ACCEPT (R140 steps 2, 3 and 6). -/
def Eng.rxAccept (e : Eng) (p : PortId) (m : ThinMsg) : Eng :=
  let x := e.port p
  if x.state ≠ .up then e
  else match x.hs with
    | none => e.thinBad p
    | some h =>
      if h.seq ≠ m.seq then e.thinBad p
      else match h.initiator, h.phase with
        | true, .proposed _ =>
          let h := { h with pwarm := m.warm.toNat }
          if h.skips x.txLanes then (e.setPort p { x with hs := some { h with phase := .ready } }).hsRetrain p h
          else e.setPort p { x with hs := some { h with phase := .waitMark } }
        | _, _ => e

/-- RX_REJECT (R141, R148). -/
def Eng.rxReject (e : Eng) (p : PortId) (m : ThinMsg) : Eng :=
  let x := e.port p
  if x.state ≠ .up then e
  else match x.hs with
    | none => e.thinBad p
    | some h =>
      if h.seq ≠ m.seq then e.thinBad p
      else match h.initiator, h.phase with
        | true, .proposed _ =>
          let e := e.hsDrop p
          if h.target < x.txLanes then
            (e.modPort p (fun y => { y with
              noNarrow := e.now + 39062500, thin := { y.thin with rejects := sat64 (y.thin.rejects + 1) } })).widenNext p
          else e.widenNext p
        | _, _ => e

/-- RX_READY (R140 step 6). -/
def Eng.rxReady (e : Eng) (p : PortId) (m : ThinMsg) : Eng :=
  let x := e.port p
  if x.state ≠ .up then e
  else match x.hs with
    | none => e.thinBad p
    | some h => if h.seq ≠ m.seq then e.thinBad p else (e.setPort p { x with hs := some { h with readyRcvd := true } }).hsReady p

/-- RX_MARK (R140 step 5, R144). -/
def Eng.rxMark (e : Eng) (p : PortId) (m : ThinMsg) : Eng :=
  let x := e.port p
  if x.state ≠ .up then e
  else match x.hs with
    | none => e.thinBad p
    | some h =>
      if h.seq ≠ m.seq then e.thinBad p
      else if m.switch.toNat ≠ h.switch then e
      else match h.phase with
        | .waitMark =>
          let h := { h with markRcvd := true, phase := .sendMark }
          ((e.setPort p { x with rxLanes := h.width, hs := some h }).mi p .rxMap h.width).pushTrump p
            (.thin 5 (x.thinMsg h 0 h.switch))
        | .sentMark =>
          let h := { h with markRcvd := true, phase := .finishing }
          (((e.setPort p { x with rxLanes := h.width, hs := some h }).mi p .rxMap h.width).hsRetrain p h).hsSettle p
        | .proposed _ | .sendMark | .ready | .finishing => e

/-! ### Timers -/

/-- The handshake timers run: the port's PAUSE timer is zero (R143). -/
def Port.hsTimers (x : Port) : Bool := x.pauseP.isNone

/-- PROPOSE_RETRY: a PROPOSE has gone unanswered for 50 µs (R143, R148). -/
def Eng.proposeRetry (e : Eng) (p : PortId) : Eng :=
  let x := e.port p
  match x.hs with
  | some h =>
    match h.phase with
    | .proposed n =>
      if !x.hsTimers then e
      else if n < 4 then
        (e.setPort p { x with hs := some { h with phase := .proposed (n + 1) } }).pushTrump p (x.proposal h)
      else if h.target < x.txLanes then
        ((e.hsDrop p).thinCnt p (fun c => { c with failures := sat64 (c.failures + 1) })).widenNext p
      else e.thinRecover p
    | .waitMark | .sendMark | .sentMark | .ready | .finishing => e
  | none => e

/-- HANDSHAKE_TIMEOUT: no MARK within 50 µs (R148). -/
def Eng.handshakeTimeout (e : Eng) (p : PortId) : Eng :=
  let x := e.port p
  match x.hs with
  | some h =>
    match h.phase with
    | .waitMark | .sentMark => if x.hsTimers then e.thinRecover p else e
    | .proposed _ | .sendMark | .ready | .finishing => e
  | none => e

/-- READY_TIMEOUT: READY not sent and received within 6 ms of ACCEPT (R148). -/
def Eng.readyTimeout (e : Eng) (p : PortId) : Eng :=
  let x := e.port p
  match x.hs with
  | some h =>
    match h.phase with
    | .ready =>
      if !x.hsTimers ∨ (h.readySent ∧ h.readyRcvd) then e
      else
        let e := (e.hsDrop p).thinCnt p (fun c => { c with failures := sat64 (c.failures + 1) })
        (e.modPort p (fun y => { y with rewiden := some (e.now + 390625000), widenDue := none })).fail 47 p.val mNone
    | .proposed _ | .waitMark | .sendMark | .sentMark | .finishing => e
  | none => e

/-- A partner feature is withdrawn from a port (R90, R148): a handshake past its ACCEPT fails into recovery; a
port below its width widens with RESTORE. -/
def Eng.thinWithdraw (e : Eng) (p : PortId) : Eng :=
  let x := e.port p
  if x.state ≠ .up then e
  else match x.hs with
    | some h =>
      match h.phase with
      | .proposed _ => if h.restore then e else (e.hsDrop p).widen p true
      | .waitMark | .sendMark | .sentMark | .ready | .finishing => if h.restore then e else e.thinRecover p
    | none => if x.txLanes < x.width ∨ x.gap.isSome then e.widen p true else e

/-- THIN_MODE set to OFF: the port narrows no further (R132). A narrowing that has not been answered is void; one that
has been, and whose MARK this end has not sent, is abandoned as R90 abandons one (DEDUCED, log entry 69). -/
def Eng.thinOff (e : Eng) (p : PortId) : Eng :=
  let e := e.modPort p (fun x => { x with lowCount := [0, 0, 0], spoiled := true })
  let x := e.port p
  match x.hs with
  | some h =>
    if h.target < x.txLanes then
      match h.phase with
      | .proposed _ => e.hsDrop p
      | .waitMark | .sendMark | .ready => if h.markSent then e else e.thinRecover p
      | .sentMark | .finishing => e
    else e
  | none => e

/-! ### MI_CTL -/

/-- A command failed at the line block (R148, R489). -/
def Eng.miFailed (e : Eng) (p : PortId) (c : MiCmd) : Eng :=
  let e := (e.fail 46 (p.val + 16 * p.val) (mSlot p.val)).miNext p
  match c with
  | .txMap | .rxMap => if (e.port p).state = .up then e.thinRecover p else e
  | .enable | .retrain =>
    if (e.port p).state = .training then (e.portState p .training cTrain).mi p .retrain (e.port p).laneMask else e
  | .disable | .warm | .cold | .watchKeep => e

/-- MI_CTL_ACK: the line block answers the command outstanding (R489). -/
def Eng.miAck (e : Eng) (p : PortId) (failed : Bool) : Eng :=
  match (e.port p).miCtl with
  | none => e
  | some (c, arg) =>
    if failed then e.miFailed p c
    else
      let e := e.miNext p
      let x := e.port p
      match c with
      | .txMap => e.setPort p { x with gap := x.gap.map (fun g => if g.1 = arg then (g.1, true) else g) }
      | .rxMap => e.hsSettle p
      | .retrain =>
        match x.hs with
        | some h =>
          if x.state = .up ∧ h.switch = 1 ∧ min h.warm h.pwarm < h.target then e.pushTrump p (.thin 4 (x.thinMsg h 0 0)) else e
        | none => e
      | .enable | .disable | .warm | .cold | .watchKeep => e

/-- MI_CTL_TIMEOUT: the command outstanding is unacknowledged at its bound (R148, R489). R143 stops the handshake timers
while the port's PAUSE timer runs; whether it also stops this bound and the 1 s wait of R148 is open, and the model stops
neither (DESIGN CHOICE, log entry 69). -/
def Eng.miTimeout (e : Eng) (p : PortId) : Eng :=
  match (e.port p).miCtl with
  | none => e
  | some (c, _) => e.miFailed p c

end Sys2Proof.Machine
end

