-- ==== Sys2Proof/Machine/SteerOps.lean ====
section
/-! DEFINITION. SteerOps.lean: search keys, the TCAM, policers, hashes, stream groups and steering generations
(08_receive_steering.md R228 to R255). -/
namespace Sys2Proof.Machine

/-- A frame on its way through the receive pipeline. -/
structure RxJob where
  port : PortId
  tc : Tc
  /-- the frame as it lies in the packet buffer -/
  bytes : List Byte
  /-- frame bytes the parser sees (R225, R279) -/
  n : Nat
  /-- length charged to policers (R250) -/
  len : Nat
  /-- what a ring or stream group is given (R105, R239, R279) -/
  out : List Byte
  strm : List Byte
  pass2 : Bool := false
  rtag : Nat := 0
  genB : Bool := false
  stale : Bool := false
  fcsErr : Bool := false
  trailer : Bool := false
  lines : Nat
  area : Area
  /-- arrival times in TB0 to TB3, in sixteenths of a nanosecond (R327) -/
  stamps : List Nat
  parity : Option ParityErr := none

/-! ### Generations -/

/-- Generation A or B (R232). -/
def Eng.gen (e : Eng) (b : Bool) : Generation := if b then e.steer.genB else e.steer.genA

/-- The engine with a generation changed. -/
def Eng.modGen (e : Eng) (b : Bool) (g : Generation → Generation) : Eng :=
  if b then { e with steer := { e.steer with genB := g e.steer.genB } }
  else { e with steer := { e.steer with genA := g e.steer.genA } }

/-- A command that waits for retirement gets its answer: OK with the generation's serial and the time of the
switch (R234, R528). -/
def Eng.swapAnswer (e : Eng) (status : Nat) : Eng :=
  let f : Fn := 0
  match (e.fn f).cmd with
  | some c =>
    if c.opcode = 0x0304 ∧ c.st = .working then
      e.respond f status 0 (bytesLE 8 (e.gen e.steer.activeB).serial.toNat ++ bytesLE 8 ((e.steer.swapAt.map (·.1)).getD 0))
    else e
  | none => e

/-- A generation's in-flight count reaches zero while it retires (R235, R237). -/
def Eng.retireCheck (e : Eng) : Eng :=
  if e.steer.retiring.isSome ∧ (e.gen (!e.steer.activeB)).count = 0 then
    ({ e with steer := { e.steer with retiring := none } }).swapAnswer stOK
  else e

/-- An in-flight count falls by 1 (R235). -/
def Eng.genDown (e : Eng) (b : Bool) : Eng := (e.modGen b (fun g => { g with count := g.count - 1 })).retireCheck

/-- The live generation of a serial: the active one, or the retiring one (R236). -/
def Eng.liveGen (e : Eng) (serial : BitVec 16) : Option Bool :=
  let a := e.steer.activeB
  if (e.gen a).serial = serial then some a
  else if e.steer.retiring.isSome ∧ (e.gen (!a)).serial = serial then some (!a) else none

/-- FORCED_RETIREMENT, 10 ms after the swap or at a power entry's first step (R236, R237): retirement has ended, and a
STEER_SWAP that still waits for it is answered (R234). -/
def Eng.forceRetire (e : Eng) : Eng :=
  match e.steer.retiring with
  | none => e
  | some _ =>
    let b := !e.steer.activeB
    let s := (e.gen b).serial.toNat
    let e := e.modGen b (fun g => { g with count := 0 })
    ({ e with steer := { e.steer with retiring := none, forced := sat64 (e.steer.forced + 1) } }).fail 30 (1 + 2 * s) mPipe
    |>.swapAnswer stOK

/-! ### Keys and lookups -/

/-- First byte of an anchor's header, where the classification uses it (R229). -/
def Walk.anchor (w : Walk) (a : Nat) : Option Nat :=
  let l3 (l : Layer) : Option Nat := match l.l3 with
    | .ipv4 | .ipv6 => some l.l3off
    | .other => none
  let l4 (l : Layer) : Option Nat := match l.l4 with
    | .tcp | .udp => some l.l4off
    | .other | .gre => none
  match a with
  | 1 => some 0
  | 2 => l3 w.outer
  | 3 => l4 w.outer
  | 4 => match w.tunnel with
    | some (4, o) => if w.inner.isSome then some o else none
    | some (_, o) => some o
    | none => none
  | 5 => match w.inner with
    | some _ => w.innerEth
    | none => none
  | 6 => w.inner.bind l3
  | 7 => w.inner.bind l4
  | _ => none

/-- The four bytes of an extractor (R229). -/
def extract (w : Walk) (bs : List Byte) (n : Nat) (x : Nat × Nat) : List Byte :=
  match w.anchor x.1 with
  | none => zeros 4
  | some o => (upTo 4).map (fun k => if o + x.2 + k < min n 256 then bs.getD (o + x.2 + k) 0 else 0)

/-- The extractors of a key profile: 16 of anchor NONE where none is set (R232). -/
def Generation.profile (g : Generation) (i : Nat) : List (Nat × Nat) := g.profiles.get (List.replicate 16 (0, 0)) i

/-- A search key as a number, byte 0 lowest (R228). `w` is the parse, classified. -/
def searchKey (g : Generation) (j : RxJob) (w : Walk) (flagged : Bool) : Nat :=
  let gp := g.ports.get {} j.port.val
  let prof := if j.pass2 then gp.rcirc else gp.profile
  let l := w.innermost
  let head := pack [(j.port.val, 4), (j.tc.val, 3), (b2n j.pass2, 1), (prof, 3), (0, 5),
    (b2n (1 ≤ w.tags.length), 1), (b2n (2 ≤ w.tags.length), 1), (u8 j.bytes 0 % 2, 1), (b2n (isBcast j.bytes), 1), (0, 4),
    (l.l3.code, 2), (l.l4.code, 2), (b2n w.inner.isSome, 1), (b2n w.depth, 1), (b2n w.frag, 1), (b2n flagged, 1),
    ((w.tunnel.map (·.1)).getD 0, 4), (0, 4), (if j.pass2 then j.rtag else 0, 8), (w.etype, 16)]
  head + 2 ^ 64 * ofLE ((g.profile prof).flatMap (extract w j.bytes j.n))

/-- An entry is valid in a generation (R230). -/
def TcamEntry.valid (t : TcamEntry) (b : Bool) : Bool := if b then t.validB else t.validA

/-- A key matches an entry (R230). -/
def TcamEntry.hits (t : TcamEntry) (key : Nat) : Bool := (key ^^^ t.key) &&& t.mask == 0

/-- The lowest-numbered entry that matches and is valid in a generation (R230). -/
def Eng.lookupRule (e : Eng) (b : Bool) (key : Nat) : Option (Nat × TcamEntry) :=
  e.steer.tcam.rows.find? (fun r => r.2.valid b && r.2.hits key)

/-! ### Policers -/

/-- A policer that has accrued up to the present (R250). -/
def Policer.accrue (p : Policer) (now : Nat) : Policer :=
  { p with tokens := min (p.burst * 6250) (p.tokens + p.rate * (now - p.last)), last := now }

/-- A frame charged to a policer: whether it passes (R250). -/
def Eng.police (e : Eng) (i : Fin 4096) (len : Nat) : Bool × Eng :=
  let p := (e.policer i).accrue (2 * e.now)
  let cost : Int := (len + p.lenAdj) * 6250
  if cost ≤ p.tokens then
    (true, e.setPolicer i { p with tokens := (p.tokens - cost).toNat, passFrames := sat64 (p.passFrames + 1)
                                   passOctets := sat64 (p.passOctets + len) })
  else
    (false, e.setPolicer i { p with dropFrames := sat64 (p.dropFrames + 1), dropOctets := sat64 (p.dropOctets + len) })

/-! ### Hashes -/

/-- The hash input of a frame (R246): none where R246 gives none. -/
def hashInput (w : Walk) (bs : List Byte) (ip4t inner : Bool) : Option (List Byte) :=
  let l := if inner then w.innermost else w.outer
  let ports := if ip4t ∧ w.frag = false then
      (match l.l4 with
       | .tcp | .udp => slice bs l.l4off 4
       | .other | .gre => []) else []
  match l.l3 with
  | .ipv4 => some (slice bs (l.l3off + 12) 8 ++ ports)
  | .ipv6 => some (slice bs (l.l3off + 8) 32 ++ ports)
  | .other => none

/-- A frame's hash with a key (R247). -/
def frameHash (w : Walk) (bs : List Byte) (key : List Byte) (ip4t inner : Bool) : Nat :=
  match hashInput w bs ip4t inner with
  | some i => toeplitz key i
  | none => 0

/-! ### Stream groups -/

/-- Index of a destination's credits (R498). -/
def creditIdx (sp : Fin 2) (d : Fin 8) : Nat := 8 * sp.val + d.val

/-- The 32-byte metadata of a unit (R239). -/
def streamInfo (u : StreamUnit) (g seq : Nat) (sp : Fin 2) (d : Fin 8) : List Byte :=
  let l := u.walk.innermost
  bytesLE 32 (pack [(u.port.val, 4), (u.tc.val, 3), (b2n u.genB, 1), (u.pass, 2), (b2n u.ret, 1), (b2n u.fcsErr, 1),
    (b2n u.walk.depth, 1), (b2n u.walk.frag, 1), (b2n u.walk.malformed.isSome, 1), (b2n u.genStale, 1),
    (u.bytes.length, 14), (0, 2), (u.rule.getD 0, 14), (b2n u.rule.isSome, 1), (0, 1), (u.serial.toNat, 16), (seq, 32),
    (u.hash, 32), (u.arrival, 64), (u.mark, 16), (g, 6), (0, 2), (d.val, 3), (sp.val, 1), (0, 4),
    (l.l3.code, 2), (l.l4.code, 2), (b2n u.walk.inner.isSome, 1), (0, 3),
    ((u.walk.anchor 2).getD 0, 8), ((u.walk.anchor 3).getD 0, 8), (0, 8)])

/-- Frames of a group leave while the next member's credit covers the first of them (R238, R498). -/
def Eng.pump (g : Fin 64) : Nat → Eng → Eng
  | 0, e => e
  | n + 1, e =>
    let x := e.steer.groups.get {} g.val
    match x.waiting with
    | [] => e
    | u :: r =>
      match x.members[x.turn % x.members.length]? with
      | none => e
      | some (sp, d) =>
        let need := ceilDiv (32 + u.bytes.length) 16
        let have_ := e.steer.credits.get 0 (creditIdx sp d)
        if have_ < need ∨ e.dataOn = false then e
        else
          let x' := { x with waiting := r, turn := (x.turn % x.members.length + 1) % x.members.length, seq := x.seq + 1 }
          let e := { e with steer := { e.steer with
            groups := e.steer.groups.put {} g.val x'
            credits := e.steer.credits.put 0 (creditIdx sp d) (have_ - need) } }
          let e := e.emit (.stream sp d (streamInfo u g.val x.seq.toNat sp d) u.bytes)
          let e := if u.ret then e.steerStat u.port 13 1 else e
          Eng.pump g n (e.freeRx u.port u.tc u.area u.lines)

/-- A frame joins its stream group (R238). -/
def Eng.toGroup (e : Eng) (g : Fin 64) (u : StreamUnit) : Eng :=
  let x := e.steer.groups.get {} g.val
  let e := { e with steer := { e.steer with groups := e.steer.groups.put {} g.val { x with waiting := x.waiting ++ [u] } } }
  Eng.pump g (x.waiting.length + 1) e

/-- Every group is tried. -/
def Eng.pumpAll (e : Eng) : Eng :=
  foldEng (upTo 64) (fun e g => Eng.pump (fin 64 g) ((e.steer.groups.get {} g).waiting.length) e) e

/-- SP_CREDIT_RETURN (R498). -/
def Eng.spCredit (e : Eng) (sp : Fin 2) (d : Fin 8) (n : Nat) : Eng :=
  let c := e.steer.credits.get 0 (creditIdx sp d) + n
  let e := { e with steer := { e.steer with credits := e.steer.credits.put 0 (creditIdx sp d) (min c 65535) } }
  (if 65535 < c then e.fail 45 sp.val mPipe else e).pumpAll

end Sys2Proof.Machine
end

