-- ==== Sys2Proof/Machine/RxOps.lean ====
section
/-! DEFINITION. RxOps.lean: receive rings: placement, completions, parking and drains (06_rings.md R172 to R180,
07_translation.md R211 to R215), and the receive path of a frame (08_receive_steering.md R220). -/
namespace Sys2Proof.Machine

/-! ### Completion entries -/

/-- A receive completion of TYPE FRAME (R177). -/
def rxFrameBytes (x : Rxq) (phase : Nat) (r : RxPlaced) : List Byte :=
  let f := r.fr
  let ts := (f.ts.map (fun t => (t.1 * 1000000000 + t.2) % 2 ^ 32)).getD 0
  let tsv := f.ts.isSome
  let b := bytesLE 16 (pack [(phase, 1), (0, 2), (b2n r.closed, 1), (b2n f.fcsErr, 1), (b2n tsv, 1), (b2n f.trailer, 1), (0, 1),
    (b2n f.depth, 1), (b2n f.frag, 1), (b2n f.malformed, 1), (b2n f.genStale, 1), (f.port.val, 4),
    (f.bytes.length, 14), (0, 2), (r.post.toNat, 16), (r.off / 64, 10), (r.span, 3), (0, 3),
    (f.l3c, 2), (f.l4c, 2), (f.inL3c, 2), (f.inL4c, 2), (f.l3t, 2), (f.l4t, 2), (b2n f.tunnel, 1), (f.tc.val, 3),
    (f.rule.getD 0, 14), (b2n f.rule.isSome, 1), (0, 1), (if tsv then ts else f.hash, 32)])
  if x.cqe = 32 then
    b ++ bytesLE 4 f.hash ++ bytesLE 4 ((f.ts.map (·.2)).getD 0) ++ bytesLE 8 ((f.ts.map (·.1)).getD 0)
  else b

/-- An ANCHOR entry (R178). -/
def anchorBytes (x : Rxq) (phase tb sec ns : Nat) : List Byte :=
  let b := bytesLE 1 (phase + 2) ++ bytesLE 1 tb ++ zeros 2 ++ bytesLE 4 ns ++ bytesLE 8 sec
  b ++ zeros (x.cqe - 16)

/-- A CLOSE or STOP entry, TYPE 2 or 3 (R178). -/
def closeBytes (x : Rxq) (phase ty idx : Nat) : List Byte :=
  bytesLE 1 (phase + 2 * ty) ++ zeros 3 ++ bytesLE 2 idx ++ zeros 10 ++ zeros (x.cqe - 16)

/-- Some record write of receive ring `q` waits for its translation (R211). -/
def Eng.rxRecBlocked (e : Eng) (q : RxqId) : Bool := e.dma.blocked.any (fun b => decide (b.acc.owner = .rxCompl q))

/-- An entry of ring `q`'s completion ring is due: written, or held behind a fault of that ring (R212). `b` makes
it from its PHASE. -/
def Eng.rxEntry (e : Eng) (q : RxqId) (b : Nat → List Byte) : Eng :=
  match e.rxq q with
  | none => e
  | some x =>
    if x.state = .error then e
    else
      let d := b (phaseBit x.cqCount x.cqSize)
      let addr := x.cqBase + x.cqe * (x.cqCount % x.cqSize)
      let x' := { x with cqCount := x.cqCount + 1 }
      if !x.held.isEmpty || e.rxRecBlocked q then e.setRxq q (some { x' with held := x.held ++ [d] })
      else
        (((e.setRxq q (some x')).writeRecord (.rxCompl q) x.fn x.pasid addr d).2).tal
          { code := 0x205, dir := some .rx, fn := some x.fn, addr := some addr }

/-- Held entries are written in order (R212). -/
def Eng.rxHeldOut (e : Eng) (q : RxqId) : Eng :=
  match e.rxq q with
  | none => e
  | some x =>
    let n := x.cqCount - x.held.length
    let e := e.setRxq q (some { x with held := [] })
    foldEng (x.held.zip (upTo x.held.length)) (fun e (b, i) =>
      (e.writeRecord (.rxCompl q) x.fn x.pasid (x.cqBase + x.cqe * ((n + i) % x.cqSize)) b).2) e

/-- An ANCHOR of the ring's time base (R178). -/
def Eng.rxAnchor (e : Eng) (q : RxqId) : Eng :=
  match e.rxq q with
  | none => e
  | some x =>
    match (e.fn x.fn).timeBase with
    | none => e
    | some b =>
      let t := e.tb b
      let e := e.rxEntry q (fun ph => anchorBytes x ph b.val t.sec t.ns)
      e.modRxq q (fun x => { x with anchorAt := some e.now, anchorDue := false, anchorLast := true })

/-- A CLOSE entry for a buffer: it and every earlier one are software's (R175). -/
def Eng.rxClose (e : Eng) (q : RxqId) (idx : BitVec 16) : Eng :=
  match e.rxq q with
  | none => e
  | some x =>
    (e.rxEntry q (fun ph => closeBytes x ph 2 idx.toNat)).modRxq q (fun x => { x with cons := idx + 1, anchorLast := false })

/-- A frame's completion is due: its ANCHOR first where R178 asks for one. -/
def Eng.rxComplete (e : Eng) (q : RxqId) (r : RxPlaced) : Eng :=
  match e.rxq q with
  | none => e
  | some x =>
    let due := x.rxTs && (x.anchorDue || (match x.anchorAt with
      | some t => decide (1000000000 * 25 < (e.now - t) * 64)
      | none => true))
    let e := if due then e.rxAnchor q else e
    let e := e.rxEntry q (fun ph => rxFrameBytes x ph r)
    let last := r.post + BitVec.ofNat 16 r.span
    let e := e.modRxq q (fun x => { x with
      cons := if r.closed then last + 1 else last
      rxFrames := sat64 (x.rxFrames + 1), rxOctets := sat64 (x.rxOctets + r.fr.bytes.length), anchorLast := false })
    match r.closeAfter with
    | some i => e.rxClose q i
    | none => e

/-- Frames at the head of the placement order whose data is visible complete in order (R176, R180). -/
def Eng.rxCompleteAll (q : RxqId) : Nat → Eng → Eng
  | 0, e => e
  | n + 1, e =>
    match e.rxq q with
    | none => e
    | some x =>
      match x.placed with
      | [] => e
      | r :: rest =>
        if r.dataDone then Eng.rxCompleteAll q n ((e.setRxq q (some { x with placed := rest })).rxComplete q r) else e

/-! ### Placement -/

/-- The buffers a frame of `n` bytes takes from those posted, and the rest: none where too few remain (R174). -/
def takeBufs : List PostBuf → Nat → Option (List PostBuf × List PostBuf)
  | [], n => if n = 0 then some ([], []) else none
  | b :: t, n =>
    if n = 0 then some ([], b :: t)
    else match takeBufs t (n - b.size) with
      | some (u, r) => some (b :: u, r)
      | none => none

/-- Pieces of a frame in buffers taken from offset 0: address, length, position. -/
def bufPieces : List PostBuf → Nat → Nat → List (Nat × Nat × Nat)
  | [], _, _ => []
  | b :: t, n, pos => if n ≤ b.size then [(b.addr, n, pos)] else (b.addr, b.size, pos) :: bufPieces t (n - b.size) (pos + b.size)

/-- Bytes a frame has in the last of its buffers. -/
def lastFill : List PostBuf → Nat → Nat
  | [], n => n
  | [_], n => n
  | b :: t, n => lastFill t (n - b.size)

/-- A buffer that can take no further frame (R175). -/
def Rxq.full (x : Rxq) (size fill started : Nat) : Bool :=
  !x.packed || decide (size - fill < 64) || decide (x.packMax ≤ started)

/-- Where a frame goes: the ring after it, its record, and its pieces; none where too few buffers remain (R174). -/
def Rxq.place (x : Rxq) (now grp : Nat) (f : RxRec) : Option (Rxq × RxPlaced × List (Nat × Nat × Nat)) :=
  let n := f.bytes.length
  let fresh : Option (Rxq × RxPlaced × List (Nat × Nat × Nat)) :=
    match takeBufs x.posted n with
    | none => none
    | some (u, rest) =>
      match u, u.getLast? with
      | b :: _, some l =>
        let fill := lastFill u n
        let closed := x.full l.size fill 1
        some ({ x with posted := rest, cur := if closed then none else some { buf := l, fill := fill, started := 1, last := now } },
          { fr := f, grp := grp, post := b.idx, off := 0, span := u.length - 1, closed := closed, wasOpen := x.cur, took := u },
          bufPieces u n 0)
      | _, _ => none
  match x.cur with
  | none => fresh
  | some o =>
    let start := alignUp o.fill x.packAlign
    if x.packed ∧ start + n ≤ o.buf.size ∧ o.started < x.packMax then
      let closed := x.full o.buf.size (start + n) (o.started + 1)
      some ({ x with cur := if closed then none else some { o with fill := start + n, started := o.started + 1, last := now } },
        { fr := f, grp := grp, post := o.buf.idx, off := start, span := 0, closed := closed, wasOpen := x.cur },
        [(o.buf.addr + start, n, 0)])
    else fresh

/-- A ring counter changed. -/
def Eng.rxCnt (e : Eng) (q : RxqId) (g : Rxq → Rxq) : Eng := e.modRxq q g

/-- A frame of ring `q` is dropped with its lines freed. -/
def Eng.rxFree (e : Eng) (f : RxRec) : Eng := e.freeRx f.port f.chargeTc f.area f.lines

/-- A frame is being placed: its data is not all in memory (R214). -/
def Rxq.placing (x : Rxq) : Bool := x.placed.any (fun r => !r.dataDone)

/-- A data write of ring `q` waits for a translation. -/
def Eng.rxDataBlocked (e : Eng) (q : RxqId) : Bool :=
  e.dma.blocked.any (fun b => match b.acc.owner with
    | .rxData r _ => decide (r = q)
    | _ => false)

/-- A frame is placed: its data writes start (R174); with too few buffers it is dropped. -/
def Eng.rxPlace (e : Eng) (q : RxqId) (f : RxRec) : Eng :=
  match e.rxq q with
  | none => e.rxFree f
  | some x =>
    let (g, e) := e.newGrp
    match x.place e.now g f with
    | none => (e.setRxq q (some { x with noBuffer := sat64 (x.noBuffer + 1) })).rxFree f
    | some (x', r, ps) =>
      let e := e.setRxq q (some { x' with placed := x'.placed ++ [r] })
      foldEng ps (fun e (a, n, pos) =>
        foldEng (pieces (n / 512 + 2) a n pos) (fun e (a, n, pos) =>
          e.access { owner := .rxData q f.id, fn := x.fn, pasid := x.pasid, addr := a, len := n, kind := .write
                     data := slice f.bytes pos n, grp := g, pos := pos }) e) e

/-- A frame being placed gives its buffers back as they were before it; what of its data has been written lies in buffers
that the engine still holds (R212). -/
def Rxq.unplace (x : Rxq) (r : RxPlaced) : Rxq :=
  { x with placed := x.placed.filter (fun s => s.grp != r.grp), cur := r.wasOpen, posted := r.took ++ x.posted }

/-- Its writes not sent are given up with it. -/
def Eng.rxUnplace (e : Eng) (q : RxqId) (r : RxPlaced) : Eng :=
  ({ e with dma := { e.dma with queue := e.dma.queue.filter (fun a => a.grp != r.grp)
                                blocked := e.dma.blocked.filter (fun b => b.acc.grp != r.grp) } }).modRxq q (fun x => x.unplace r)

/-- A frame waits for post entries that are accepted and still being read (R159, R174). -/
def Rxq.short (x : Rxq) (now : Nat) (f : RxRec) : Bool := x.fetching != 0 && (x.place now 0 f).isNone

/-- Frames waiting for a ring are placed in order, one at a time (R214). -/
def Eng.rxPlaceAll (q : RxqId) : Nat → Eng → Eng
  | 0, e => e
  | n + 1, e =>
    match e.rxq q with
    | none => e
    | some x =>
      match x.waiting with
      | [] => e
      | f :: r =>
        if x.short e.now f = true ∨ x.placing ∨ e.rxDataBlocked q ∨ x.state = .paused ∨ x.state = .error ∨ x.state = .stopped then e
        else Eng.rxPlaceAll q n ((e.setRxq q (some { x with waiting := r })).rxPlace q f)

/-- Waiting frames of a ring are tried. -/
def Eng.rxPlaceNext (e : Eng) (q : RxqId) : Eng :=
  match e.rxq q with
  | none => e
  | some x => Eng.rxPlaceAll q x.waiting.length e

/-! ### Parking and draining -/

/-- Parked frames that a drain has placed and whose parking lines it has not released (R214). -/
def Rxq.draining (x : Rxq) : List RxRec := (x.placed.filter (fun r => !r.dataDone && decide (r.fr.area = .parking))).map (·.fr)

/-- Bytes parked for a ring (R213). -/
def Rxq.parkedBytes (x : Rxq) : Nat := (x.draining ++ x.parked).foldl (fun s f => s + 64 * f.lines) 0

/-- A frame for a FAULTED ring: parked behind its earlier parked frames, or dropped (R212, R213). -/
def Eng.rxPark (e : Eng) (q : RxqId) (f : RxRec) : Eng :=
  match e.rxq q with
  | none => e.rxFree f
  | some x =>
    if x.parkedBytes + 64 * f.lines ≤ e.dma.parkRing ∧ e.start.parkedBytes + 64 * f.lines ≤ e.dma.parkSize then
      let e := e.setRxq q (some { x with parked := x.parked ++ [{ f with area := .parking }] })
      let e := (e.chargeRx f.port f.chargeTc .parking f.lines).freeRx f.port f.chargeTc f.area f.lines
      (e.xcnt (fun c => { c with parked := sat64 (c.parked + 1) })).tal
        { code := 0x304, port := some f.port, tc := some f.tc, fn := some x.fn }
    else (e.setRxq q (some { x with faultDrops := sat64 (x.faultDrops + 1) })).rxFree f

/-- Every frame parked for a ring is discarded and counted in rx_fault_drops (R188, R215). -/
def Eng.rxUnpark (e : Eng) (q : RxqId) : Eng :=
  match e.rxq q with
  | none => e
  | some x =>
    foldEng x.parked (fun e f => e.rxFree f)
      (e.setRxq q (some { x with parked := [], faultDrops := sat64 (x.faultDrops + x.parked.length) }))

/-- A drain goes on: parked frames are placed in order, at most one being placed at a time (R214). It stands
while the owner is quenched (R218). When none is left the ring returns to RUNNING. -/
def Eng.rxDrain (q : RxqId) : Nat → Eng → Eng
  | 0, e => e
  | n + 1, e =>
    match e.rxq q with
    | none => e
    | some x =>
      let stop := decide (x.state = .stopping)
      if (x.state ≠ .paused ∧ stop = false) ∨ (e.waitOf (.rxq q)).any (fun w => w.run.isSome) ∨ (e.fn x.fn).quenched ∨
          x.placing ∨ e.rxDataBlocked q ∨ e.rxRecBlocked q then e
      else match x.parked with
        | [] =>
          let e := { e with dma := { e.dma with waits := e.dma.waits.filter (fun w => !decide (w.obj = .rxq q)) } }
          if stop then e else (e.rxState q .running 0).rxFetch q
        | f :: r => if x.short e.now f then e else Eng.rxDrain q n ((e.setRxq q (some { x with parked := r })).rxPlace q f)

/-- A drain is tried. -/
def Eng.rxDrainNext (e : Eng) (q : RxqId) : Eng :=
  match e.rxq q with
  | none => e
  | some x => Eng.rxDrain q (x.parked.length + 1) e

/-! ### Delivery -/

/-- A frame whose action or spreading entry names ring `q` (R248). -/
def Eng.toRing (e : Eng) (q : RxqId) (f : RxRec) : Eng :=
  match e.rxq q with
  | none => e.rxFree f
  | some x =>
    if (e.fn x.fn).quenched then (e.setRxq q (some { x with quenchDrops := sat64 (x.quenchDrops + 1) })).rxFree f
    else match x.state with
      | .running => (e.setRxq q (some { x with waiting := x.waiting ++ [f] })).rxPlaceNext q
      | .paused => e.rxPark q f
      | .stopped | .stopping | .error =>
        (e.setRxq q (some { x with stoppedDrops := sat64 (x.stoppedDrops + 1) })).rxFree f

/-- The receive record of a job for a ring's owner (R177, R330). -/
def Eng.rxRec (e : Eng) (j : RxJob) (w : Walk) (cs : Nat × Nat × Nat × Nat) (q : RxqId) (rule : Option Nat) (hash : Nat)
    (flagged : Bool) : RxRec × Eng :=
  let l := w.innermost
  let ts := match e.rxq q with
    | some x => if x.rxTs then ((e.fn x.fn).timeBase).map (fun b => let t := nth j.stamps b.val 0; (stSec t, stNs t)) else none
    | none => none
  let (c1, c2, c3, c4) := cs
  ({ id := e.nextRx, port := j.port, tc := j.tc, bytes := j.out, lines := j.lines, area := j.area, chargeTc := j.tc
     fcsErr := j.fcsErr, trailer := j.trailer, depth := w.depth, frag := w.frag, malformed := flagged, genStale := j.stale
     l3c := c1, l4c := c2, inL3c := c3, inL4c := c4, l3t := l.l3.code, l4t := l.l4.code, tunnel := w.inner.isSome
     rule := rule, hash := hash, ts := ts },
   { e with nextRx := e.nextRx + 1 })

/-- A frame that ends in the pipeline is freed. -/
def Eng.jobFree (e : Eng) (j : RxJob) : Eng := e.freeRx j.port j.tc j.area j.lines

/-- Checksum results that are BAD are counted (R283). -/
def Eng.countBad (e : Eng) (p : PortId) (cs : Nat × Nat × Nat × Nat) : Eng :=
  let (c1, c2, c3, c4) := cs
  e.modPort p (fun x => { x with off := { x.off with
    badL3 := sat64 (x.off.badL3 + b2n (c1 == 2)), badL4 := sat64 (x.off.badL4 + b2n (c2 == 2))
    badInL3 := sat64 (x.off.badInL3 + b2n (c3 == 2)), badInL4 := sat64 (x.off.badInL4 + b2n (c4 == 2)) } })

/-- A trailer report (R280, R281): the strip is counted, and written where the port names a ring. -/
def Eng.trailerReport (e : Eng) (j : RxJob) (rule : Option Nat) : Eng :=
  if !j.trailer then e
  else
    let x := e.port j.port
    let seq := x.trailerSeq
    let t := slice j.bytes (j.bytes.length - 16) 12
    let e := e.setPort j.port { x with trailerSeq := seq + 1, off := { x.off with stripped := sat64 (x.off.stripped + 1) } }
    match x.reportRing with
    | none => e
    | some r =>
      match e.off.rings.get none r.val with
      | none => e
      | some ring =>
        let b := bytesLE 1 (phaseBit ring.count ring.size) ++ bytesLE 1 (j.port.val + 16 * j.tc.val) ++ bytesLE 2 j.out.length ++
          bytesLE 6 (ofBE (slice t 0 6)) ++ bytesLE 4 (ofBE (slice t 6 4)) ++ slice t 10 2 ++
          bytesLE 8 (stLin (nth j.stamps e.off.trailerTb.val 0)) ++ bytesLE 4 seq.toNat ++
          bytesLE 2 (rule.getD 0 + 16384 * b2n rule.isSome) ++ zeros 2
        let e := { e with off := { e.off with rings := e.off.rings.put none r.val (some { ring with count := ring.count + 1 }) } }
        (e.writeRecord (.trailer r) ring.fn ring.pasid (ring.base + 32 * (ring.count % ring.size)) b).2

/-- An action taken on a frame: its target (R231, R238, R241, R245). -/
def Eng.target (e : Eng) (j : RxJob) (w : Walk) (cs : Nat × Nat × Nat × Nat) (a : Action) (rule : Option Nat) : Eng :=
  let flagged := w.malformed.isSome
  let unit (ret : Bool) (e : Eng) : StreamUnit :=
    let g := e.gen j.genB
    { port := j.port, tc := j.tc, genB := j.genB, pass := if j.pass2 then 2 else 1, ret := ret, fcsErr := j.fcsErr, walk := w
      genStale := j.stale, rule := rule, serial := g.serial
      hash := frameHash w j.bytes e.steer.streamKey e.steer.streamIp4t e.steer.streamInner
      arrival := stLin (nth j.stamps 0 0), mark := a.mark, bytes := j.strm, lines := j.lines, area := j.area }
  if a.ty = 1 then
    let q : RxqId := fin 32768 a.target
    let (f, e) := e.rxRec j w cs q rule 0 flagged
    e.toRing q f
  else if a.ty = 2 then
    match e.steer.spreads.get none a.target with
    | none => e.jobFree j
    | some t =>
      let h := frameHash w j.bytes t.key t.ip4t t.inner
      match e.rxqOf t.owner (t.entries.get 0 (h % t.size)) with
      | none => e.jobFree j
      | some q =>
        let (f, e) := e.rxRec j w cs q rule h flagged
        e.toRing q f
  else if a.ty = 3 then e.toGroup (fin 64 a.target) (unit false e)
  else if a.ty = 4 then e.toGroup (fin 64 a.target) (unit true e)
  else e.jobFree j

/-- Steps 5 to 7 of R220 for a frame whose generation is settled. -/
def Eng.steerJob (e : Eng) (j : RxJob) : Eng :=
  let g := e.gen j.genB
  let w := (walkFrame j.bytes j.n g.vxlan g.geneve false).classify
  let p := j.port
  let x := e.port p
  let e := if w.depth then e.steerStat p 3 1 else e
  let e := if w.frag then e.steerStat p 4 1 else e
  let e := match w.malformed with
    | some m => e.steerStat p (4 + m.code) 1
    | none => e
  let cs := rxCsums j.bytes w g.vxlan g.geneve
  let e := e.countBad p cs
  if w.malformed.isSome ∧ x.malAction = 0 then (e.trailerReport j none).jobFree j
  else
    if w.malformed.isSome ∧ x.malAction = 2 then
      let e := (e.steerStat p 12 1).trailerReport j none
      match x.excRing.bind (fun r => e.rxqOf r.1 r.2) with
      | none => e.jobFree j
      | some q =>
        let (f, e) := e.rxRec j w cs q none 0 true
        e.toRing q f
    else
      let valid (k : ParityErr) : Bool := (e.steer.tcam.get {} k.entry.val).valid j.genB && decide (0 < k.fails.val)
      let lost := match j.parity with
        | some k => valid k && decide (k.fails.val = 4)
        | none => false
      let e := match j.parity with
        | some k => if valid k then
            e.raiseEv (mkEv 5 (if k.fails.val = 4 then .failure else .corrected) k.entry.val mPipe 0 0) else e
        | none => e
      if lost then ((e.steerStat p 18 1).trailerReport j none).jobFree j
      else
        let hit := e.lookupRule j.genB (searchKey g j w w.malformed.isSome)
        let rule := hit.map (·.1)
        let a := match hit with
          | some r => r.2.action
          | none => (g.ports.get {} p.val).miss
        let t (code : Nat) : TEvent := { code := code, port := some p, tc := some j.tc }
        let e := if hit.isSome then (e.steerStat p 0 1).tal (t 0x401) else (e.steerStat p 1 1).tal (t 0x402)
        let e := e.trailerReport j rule
        if a.ty = 4 ∧ j.pass2 then (e.steerStat p 14 1).jobFree j
        else
          let e := if a.ty = 4 then e.modGen j.genB (fun g => { g with count := g.count + 1 }) else e
          let (ok, e) := match a.policer with
            | some i => e.police i j.len
            | none => (true, e)
          if !ok then
            let e := (e.tal (t 0x403)).jobFree j
            if a.ty = 4 then e.genDown j.genB else e
          else if a.ty = 0 then (e.steerStat p 2 1).jobFree j
          else e.target j w cs a rule

end Sys2Proof.Machine
end

