-- ==== Sys2Proof/Machine/MacOps.lean ====
section
/-! DEFINITION. MacOps.lean: frames received on the media interface and on SP_RCIRC, flow-control timers, and
LLDPDUs (04_wire.md R99 to R126, 03_ports_partners.md R85 to R89, 08_receive_steering.md R220, R240). -/
namespace Sys2Proof.Machine

/-! ### MAC control -/

/-- A pause time received (R109, R110): acted on in PAUSE mode. -/
def Eng.macPause (e : Eng) (p : PortId) (q : Nat) : Eng :=
  let e := (e.stat p 32 1).tal { code := 0x004, port := some p, dir := some .rx }
  match (e.port p).fcMode with
  | .pause => e.setPause p q
  | .none | .pfc => e.stat p 50 1

/-- Pause times received for the classes of `en` (R109, R111): acted on in PFC mode. -/
def Eng.macPfc (e : Eng) (p : PortId) (en : Nat) (times : List Nat) : Eng :=
  let cs := (upTo 8).filter (bitAt en)
  let e := foldEng cs (fun e c => e.stat p (34 + c) 1) e
  let e := e.tal { code := 0x004, port := some p, dir := some .rx }
  match (e.port p).fcMode with
  | .pfc => foldEng cs (fun e c => e.setPfc p c (nth times c 0)) e
  | .none | .pause => e.stat p 50 1

/-! ### LLDPDUs -/

/-- The TLVs of an LLDPDU up to its end: type and value. -/
def lldpTlvs : Nat → List Byte → List (Nat × List Byte)
  | 0, _ => []
  | n + 1, bs =>
    if bs.length < 2 then []
    else
      let ty := u8 bs 0 / 2
      let len := u16 bs 0 % 512
      if ty = 0 ∨ bs.length < 2 + len then [] else (ty, slice bs 2 len) :: lldpTlvs n (bs.drop (2 + len))

/-- A Voxfold TLV of a subtype (R86). -/
def isVox (sub : Nat) (t : Nat × List Byte) : Bool :=
  t.1 == 127 && ofBE (t.2.take 3) == 0x7A5F02 && decide (4 ≤ t.2.length) && u8 t.2 3 == sub

/-- A capability TLV of a value long enough and of a known version (R86, R87). -/
def capOf (v : List Byte) : Option CapTlv :=
  if v.length < 12 ∨ u8 v 4 = 0 then none
  else
    let f := u8 v 5
    some { version := BitVec.ofNat 8 (u8 v 4), thin := bitAt f 0, trailerTx := bitAt f 1, trailerRx := bitAt f 2, pair := bitAt f 3
           steps := BitVec.ofNat 4 (u8 v 6), lanes := BitVec.ofNat 8 (u8 v 7), engineId := BitVec.ofNat 8 (u8 v 8)
           portNum := BitVec.ofNat 8 (u8 v 9) }

/-- A pair identity TLV of a value long enough (R86, R87). -/
def pairOf (v : List Byte) : Option PairTlv :=
  if v.length < 20 then none
  else some { pairId := BitVec.ofNat 64 (ofBE (slice v 4 8)), epoch := BitVec.ofNat 32 (ofBE (slice v 12 4))
              role := BitVec.ofNat 8 (u8 v 16), engineId := BitVec.ofNat 8 (u8 v 17) }

/-- An LLDPDU taken apart: chassis ID, port ID and TTL come first (R85 to R87). -/
def lldpOf (bs : List Byte) : Option Lldpdu :=
  match lldpTlvs bs.length bs with
  | (1, c) :: (2, q) :: (3, t) :: r =>
    if c.length < 2 ∨ q.length < 2 ∨ t.length < 2 then none
    else
      let caps := r.filter (isVox 1)
      let prs := r.filter (isVox 2)
      let bad := (caps.filter (fun t => (capOf t.2).isNone)).length + (prs.filter (fun t => (pairOf t.2).isNone)).length
      some { chassis := c.drop 1, portId := q.drop 1, ttl := BitVec.ofNat 16 (u16 t 0)
             cap := caps.findSome? (fun t => capOf t.2), pair := prs.findSome? (fun t => pairOf t.2), badTlvs := bad }
  | _ => none

/-- A received LLDPDU reaches the agent (R85 to R90); one that shows the port cabled to the pair partner raises source 42
(R453). -/
def Eng.lldpRx (e : Eng) (p : PortId) (d : Lldpdu) : Eng :=
  if !(e.port p).lldpAgent then e
  else
    let was := e.miscabled (e.port p).partner.pair
    let (lost, e) := (e.stat p 82 d.badTlvs).partnerRx p d
    let e := if e.miscabled (e.port p).partner.pair ∧ was = false then e.fail 42 6 mPair else e
    if lost then e.thinWithdraw p else e

/-- A handshake message of a TYPE (R138, R139). -/
def Eng.thinRx (e : Eng) (p : PortId) (ty : Nat) (m : ThinMsg) : Eng :=
  match ty with
  | 1 => e.rxPropose p m
  | 2 => e.rxAccept p m
  | 3 => e.rxReject p m
  | 4 => e.rxReady p m
  | 5 => e.rxMark p m
  | _ => e.thinBad p

/-- The fields of a handshake frame (R138). -/
def thinOf (bs : List Byte) : ThinMsg :=
  { seq := BitVec.ofNat 16 (u16 bs 20), cur := BitVec.ofNat 8 (u8 bs 22), target := BitVec.ofNat 8 (u8 bs 23)
    restore := bitAt (u8 bs 24) 0, cold := bitAt (u8 bs 24) 1, warm := BitVec.ofNat 8 (u8 bs 25)
    reason := BitVec.ofNat 8 (u8 bs 26), switch := BitVec.ofNat 8 (u8 bs 27) }

/-- What consumes a good frame (R109, R88, R139). -/
inductive Consume where
  | none
  | mac
  | lldp
  | thin
  deriving DecidableEq, Repr

/-- The consumer of a frame with a good FCS. -/
def Port.consumer (x : Port) (bs : List Byte) : Consume :=
  let da := ofBE (bs.take 6)
  let ty := u16 bs 12
  if ty = 0x8808 ∧ (da = 0x0180C2000001 ∨ bs.take 6 = bytesLE 6 x.station) then .mac
  else if ty = 0x88CC ∧ da = 0x0180C200000E then .lldp
  else if ty = 0x88B5 ∧ ofBE (slice bs 14 3) = 0x7A5F02 ∧ u8 bs 17 = 1 then .thin
  else .none

/-- A frame is consumed (R220 step 4). -/
def Eng.consume (e : Eng) (p : PortId) (bs : List Byte) : Consume → Eng
  | .none => e
  | .mac =>
    let op := u16 bs 14
    if op = 0x0001 then e.macPause p (u16 bs 16)
    else if op = 0x0101 then e.macPfc p (u16 bs 16) ((upTo 8).map (fun c => u16 bs (18 + 2 * c)))
    else e.stat p 51 1
  | .lldp =>
    match lldpOf (slice bs 14 (bs.length - 18)) with
    | some d => e.lldpRx p d
    | none => e
  | .thin => if u8 bs 18 = 0 then e.thinBad p else e.thinRx p (u8 bs 19) (thinOf bs)

/-! ### Frames received -/

/-- The ingress class (R123). -/
def Port.ingress (x : Port) (bs : List Byte) : Tc :=
  if isTag (u16 bs 12) then fin 8 (nth x.pcpToTc (u8 bs 14 / 32) 0) else x.defaultTc

/-- Admission at the first segment: an area, or the counter of the drop (R123). -/
def Eng.admission (e : Eng) (p : PortId) (c : Tc) (lines : Nat) : Area ⊕ Nat :=
  let x := e.port p
  let full := decide (e.sharedCap < e.sharedUse + lines)
  let i := x.fcIdx c
  if x.lossless? c then
    if !full && decide (x.useOf c < nth x.xoff i 0) then .inl .shared
    else if 64 * (e.kittyUse + lines) ≤ e.start.kittySize then .inl .kitty else .inr 65
  else if !full && decide (64 * nth x.shared c.val 0 < nth x.lossyLimit c.val 0) then .inl .shared
  else .inr 64

/-- A good received frame's counts (R128, R465). -/
def Eng.rxGood (e : Eng) (p : PortId) (c : Option Tc) (bs : List Byte) (len : Nat) : Eng :=
  e.frameOk p .rx c (some .host) bs len

/-- A frame counted in an error counter of R104. -/
def Eng.rxBad (e : Eng) (p : PortId) (i : Nat) : Eng :=
  (e.stat p i 1).tal { code := 0x006, port := some p, dir := some .rx }

/-- A port receives: in UP, with its slot MAC powered (R72, R129). -/
def Eng.mayReceive (e : Eng) (p : PortId) : Bool := decide ((e.port p).state = .up) && e.macOn

/-- The trailer decision at the first segment (R279). -/
def Port.hasTrailer (x : Port) (c : Tc) : Bool :=
  x.trailerStrip && bitAt x.trailerTcs.toNat c.val && decide (x.partner.st = .present) &&
  (match x.partner.cap with
   | some k => k.trailerTx
   | none => false)

/-- A frame that has passed step 4 of R220; `tr` is the trailer decision of its first segment (R279). -/
def Eng.rxSteer (e : Eng) (r : RxFrame) (p : PortId) (c : Tc) (lines : Nat) (a : Area) (fcsErr tr : Bool) : Eng :=
  let x := e.port p
  let len := r.bytes.length
  if e.standby then
    ({ e with pair := { e.pair with cnt := addCnt e.pair.cnt 4 1 } }).freeRx p c a lines
  else
    let strip := tr && !fcsErr && decide (76 ≤ len)
    let e := if tr && !fcsErr && decide (len < 76) then
        e.modPort p (fun x => { x with off := { x.off with trailerShort := sat64 (x.off.trailerShort + 1) } }) else e
    let body := r.bytes.take (len - 4)
    let core := if strip then body.take (body.length - 12) else body
    e.steerJob
      { port := p, tc := c, bytes := r.bytes, n := if tr then len - 16 else len - 4, len := len
        out := if x.fcsStrip then core else core ++ r.bytes.drop (len - 4)
        strm := core, genB := e.steer.activeB, fcsErr := fcsErr, trailer := strip
        lines := lines, area := a, stamps := (upTo 4).map (fun k => e.stampRx p (fin 4 k) r.dp.val r.seg.val), parity := r.parity }

/-- RX_FRAME: a frame on the media interface, from its first segment to its steering (R220). One that a port outside UP
has received and not steered is discarded and counted (R74). -/
def Eng.rxFrame (e : Eng) (r : RxFrame) : Eng :=
  let p := e.portOf r.port
  let x := e.port p
  let len := r.bytes.length
  if !e.mayReceive p then (if e.macOn then e.stat p 66 1 else e)
  else
    let e := match r.badBeat with
      | some s => e.fail 46 (p.val + 16 * s.val) (mSlot s.val)
      | none => e
    let phy := r.err || r.cut || r.badBeat.isSome
    let w := len + 20
    if len < 64 then
      (((e.wireBytes p .rx none (some .host) len).rxBad p 60).slotFrame p .rx clWasted w)
    else
      let c := x.ingress r.bytes
      let tr := x.hasTrailer c
      let e := e.wireBytes p .rx (some c) (some .host) len
      let fcsOk := fcsBytes (r.bytes.take (len - 4)) == r.bytes.drop (len - 4)
      let ok := decide (len ≤ x.maxFrame) && !phy && fcsOk
      let lines := linesOf (min len (x.maxFrame + 1))
      if e.pwr.closed then
        let e := e.pwrCnt 3 1
        if ok then (e.rxGood p (some c) r.bytes len).slotFrame p .rx clRetired w else e.slotFrame p .rx clWasted w
      else match e.admission p c lines with
        | .inr i =>
          let e := e.stat p i 1
          (if ok then e.rxGood p (some c) r.bytes len else e).slotFrame p .rx clStarvedFront w
        | .inl a =>
          let e := e.chargeRx p c a lines
          if x.maxFrame < len then ((e.rxBad p 61).slotFrame p .rx clWasted w).freeRx p c a lines
          else if phy then ((e.rxBad p 63).slotFrame p .rx clWasted w).freeRx p c a lines
          else if !fcsOk then
            let e := (e.rxBad p 62).slotFrame p .rx clWasted w
            if x.badFcsDeliver then e.rxSteer r p c lines a true tr else e.freeRx p c a lines
          else
            let e := (e.rxGood p (some c) r.bytes len).slotFrame p .rx clRetired w
            let k := x.consumer r.bytes
            let e := e.consume p r.bytes k
            if k = .none ∨ (k = .lldp ∧ x.lldpMirror) then e.rxSteer r p c lines a false tr else e.freeRx p c a lines

/-- A control frame of `len` bytes received good: what RX_FRAME counts of it. -/
def Eng.rxControl (e : Eng) (p : PortId) (da len : Nat) : Eng :=
  let c := (e.port p).defaultTc
  let e := (e.wireBytes p .rx (some c) (some .host) len).rxGood p (some c) (bytesBE 6 da) len
  e.slotFrame p .rx clRetired (len + 20)

/-- RX_PAUSE: a good PAUSE frame of 64 bytes (R110). -/
def Eng.rxPause (e : Eng) (p : PortId) (q : Nat) : Eng :=
  if e.mayReceive p then (e.rxControl p 0x0180C2000001 64).macPause p q else e

/-- RX_PFC: a good PFC frame of 64 bytes (R111). -/
def Eng.rxPfc (e : Eng) (p : PortId) (en : Nat) (times : List Nat) : Eng :=
  if e.mayReceive p then (e.rxControl p 0x0180C2000001 64).macPfc p en times else e

/-- RX_LLDPDU: a good LLDP frame is received, consumed and, under LLDP_MIRROR, steered (R88, R89). A frame that does not
arrive at port `p`, or that the port does not consume as an LLDPDU, is no such happening. -/
def Eng.rxLldpdu (e : Eng) (p : PortId) (r : RxFrame) : Eng :=
  if e.portOf r.port = p ∧ (e.port p).consumer r.bytes = .lldp then e.rxFrame r else e

/-- A good handshake frame of 64 bytes (R138, R139). -/
def Eng.rxThin (e : Eng) (p : PortId) (ty : Nat) (m : ThinMsg) : Eng :=
  if e.mayReceive p then (e.rxControl p 0x0180C200000E 64).thinRx p ty m else e

/-! ### Returned frames -/

/-- RCIRC_RETURN: a unit on SP_RCIRC (R240, R241, R498): while a power entry has withdrawn the credits (R418) each is one
sent beyond them. -/
def Eng.rcircReturn (e : Eng) (u : RcUnit) : Eng :=
  if !e.dataOn then e
  else
    let p := e.portOf u.port
    let x := e.port p
    let live := e.liveGen u.serial
    let e := e.tal { code := 0x404, port := some p, tc := some u.tc }
    let e := match live with
      | some b => if u.ret then e.genDown b else e
      | none => e
    let need := ceilDiv (32 + u.bytes.length) 16
    let bad (e : Eng) : Eng := (e.steerStat p 15 1).fail 45 2 mPipe
    if e.steer.rcircCredit < need then bad e
    else
      let e := { e with steer := { e.steer with rcircCredit := e.steer.rcircCredit - need } }
      if u.pass = 1 ∧ u.ret ∧ x.state ≠ .up then (e.steerStat p 16 1).rcircTopUp
      else if u.pass = 2 then (e.steerStat p 14 1).rcircTopUp
      else if u.pass ≠ 1 ∨ u.ret = false ∨ u.len.toNat < 60 ∨ x.maxFrame - 4 < u.len.toNat ∨ u.len.toNat ≠ u.bytes.length then
        (bad e).rcircTopUp
      else
        let lines := linesOf u.bytes.length
        let e := e.chargeRx p u.tc .recirc lines
        let e := if live.isNone then e.steerStat p 17 1 else e
        let t (k : Nat) : Nat := stampRound ((e.tb (fin 4 k)).fine u.dp.val)
        e.steerJob
          { port := p, tc := u.tc, bytes := u.bytes, n := u.bytes.length, len := u.bytes.length, out := u.bytes, strm := u.bytes
            pass2 := true, rtag := u.tag.toNat, genB := live.getD e.steer.activeB, stale := live.isNone, fcsErr := u.fcsErr
            lines := lines, area := .recirc, stamps := (upTo 4).map t, parity := u.parity }

/-- RCIRC_DISCARD_NOTICE (R236, R240): a live serial's count falls, whether or not the notice was sent within the credit. -/
def Eng.rcircNotice (e : Eng) (slot : PortId) (serial : BitVec 16) : Eng :=
  if !e.dataOn then e
  else
    let e := if e.steer.rcircCredit < 2 then (e.steerStat (e.portOf slot) 15 1).fail 45 2 mPipe
      else ({ e with steer := { e.steer with rcircCredit := e.steer.rcircCredit - 2 } }).rcircTopUp
    match e.liveGen serial with
    | some b => e.genDown b
    | none => e.steerStat (e.portOf slot) 17 1

/-! ### Flow-control timers -/

/-- PAUSE_TIMER_EXPIRY: a pause timer that runs reaches zero (R110, R126, R128). -/
def Eng.pauseExpiry (e : Eng) (p : PortId) (c : Option Tc) : Eng :=
  let x := e.port p
  match c with
  | none => if x.pauseP.isSome then e.setPause p 0 else e
  | some c => if (nth x.pauseC c.val none).isSome then e.setPfc p c.val 0 else e

/-- FC_REFRESH: half of PAUSE_QUANTA has passed for a class in XOFF (R116). -/
def Eng.fcRefresh (e : Eng) (p : PortId) (c : Tc) : Eng :=
  if bitAt (e.port p).xoffSt.toNat c.val then e.fcReady p else e

/-- PFC_WATCHDOG_EXPIRY: a pause timer has stayed above zero beyond WD_LIMIT (R125). -/
def Eng.pfcWatchdog (e : Eng) (p : PortId) (c : Tc) : Eng :=
  let x := e.port p
  let on := match x.fcMode with
    | .none => false
    | .pause => x.pauseP.isSome && !bitAt x.drain.toNat 0
    | .pfc => (nth x.pauseC c.val none).isSome && !bitAt x.drain.toNat c.val
  if x.wdLimit = 0 ∨ on = false then e
  else
    let k := match x.fcMode with
      | .pause => 0
      | .none | .pfc => c.val
    let d : BitVec 8 := match x.fcMode with
      | .pause => 0xFF
      | .none | .pfc => BitVec.ofNat 8 (2 ^ c.val)
    (e.setPort p { x with drain := x.drain ||| d }).fail 33 (p.val + 16 * k) (mSlot p.val)

/-- DRAIN_RESTORE: WD_RESTORE has passed without a pause (R126). -/
def Eng.drainRestore (e : Eng) (p : PortId) (c : Tc) : Eng :=
  let x := e.port p
  match x.fcMode with
  | .none => e
  | .pause =>
    if bitAt x.drain.toNat 0 ∧ (nth x.restoreAt 0 none).isSome then
      e.setPort p { x with drain := 0, restoreAt := List.replicate 8 none } else e
  | .pfc =>
    if bitAt x.drain.toNat c.val ∧ (nth x.restoreAt c.val none).isSome then
      e.setPort p { x with drain := x.drain &&& ~~~(BitVec.ofNat 8 (2 ^ c.val)), restoreAt := setNth x.restoreAt c.val none } else e

/-- A partner record whose TTL has passed is lost (R89). -/
def Eng.partnerLost (e : Eng) (p : PortId) : Eng :=
  match (e.port p).partner.st with
  | .none => e
  | .present | .stale => ((e.modPort p (fun x => { x with partner := {} })).portEvent p 4 0).thinWithdraw p

/-- PARTNER_TTL_EXPIRY: the record's TTL has passed; the agent does not run while PD_CTL is gated (R89). -/
def Eng.partnerExpiry (e : Eng) (p : PortId) : Eng := if e.pwr.ctlOn then e.partnerLost p else e

/-- After a wake, a STALE record whose TTL has passed in TB0 time across the power state is lost (R89). -/
def Eng.lateTtls (e : Eng) : Eng :=
  foldEng e.portList (fun e p =>
    let r := (e.port p).partner
    if r.st = .stale ∧ r.time + r.ttl * 1000000000 ≤ e.tb0 then e.partnerLost p else e) e

/-- TRAIN_TIMEOUT: 10 s without link-up held (R73). -/
def Eng.trainTimeout (e : Eng) (p : PortId) : Eng :=
  if (e.port p).state = .training then (e.portState p .training cTrain).mi p .retrain (e.port p).laneMask else e

/-- LINK_UP: the port's link comes up (R73, R488). -/
def Eng.linkUp (e : Eng) (p : PortId) : Eng :=
  let x := e.port p
  if x.state = .training then e.setPort p { x with linkUp := true, debouncing := true } else e.setPort p { x with linkUp := true }

/-- UP_DEBOUNCE expires with the link still up (R73). -/
def Eng.debounced (e : Eng) (p : PortId) : Eng :=
  let x := e.port p
  if x.state = .training ∧ x.debouncing ∧ x.linkUp then e.enterUp p else e

/-- A lane of a slot is kept up in the power state the engine is in or entering (R413, R421). -/
def Eng.laneKept (e : Eng) (s : PortId) : Bool :=
  let p := e.portOf s
  match e.sleepState with
  | .doze => decide ((e.port p).state = .up)
  | .watch => decide (s = e.portOf e.pwr.watchPort)
  | .run | .off => false

/-- LINK_FAULT: a link fault, or loss of signal-detect, on a slot in service (R73, R488): it may wake the engine
(R421), and while PD_MAC is gated it is not acted on (R413). -/
def Eng.linkFault (e : Eng) (s : PortId) (_sigdet : Bool) : Eng :=
  let p := e.portOf s
  let x := e.port p
  if s.val - p.val < max x.txLanes x.rxLanes then
    let kept := e.laneKept s
    let e := e.modPort p (fun x => { x with linkUp := false })
    let e := if e.macOn then e.linkLost p cLinkFault else e
    if kept then e.wakeEvent 4 0 p.val else e
  else e

end Sys2Proof.Machine
end

