-- ==== Sys2Proof/Machine/CarryOps.lean ====
section
/-! DEFINITION. CarryOps.lean: the Carry engine's requests, slots, stops and endings (13_carry.md R358 to R375).
An access of a channel carries its request's operation number in `grp`, 0 where its response is to be ignored; the
`pos` of a read is twice the beat's first byte, plus 1 for a COMPARE's second operand; that of a write is the
beat's first byte plus 2^48 times the REQ_ID. -/
namespace Sys2Proof.Machine

/-! ### Elements -/

/-- A list element of 32 bytes (R360). -/
def elemOf (w : BitVec 256) : CElem :=
  let n := w.toNat
  { op := fld n 0 2, len := fld n 32 32, src := fld n 64 64, dst := fld n 128 64 }

/-- The first check of R361 that an element fails, 0 for none: ELEM_ERROR 4, MISALIGNED 2, OVERLAP 3. -/
def elemCheck (w : BitVec 256) (samePasid : Bool) : Nat :=
  let n := w.toNat
  let x := elemOf w
  let link := x.op == 3
  if fld n 3 29 ≠ 0 ∨ fld n 192 64 ≠ 0 ∨ (link ∧ (bitAt n 2 ∨ x.len ≠ 0 ∨ x.dst ≠ 0)) ∨
      (link = false ∧ (x.len < 64 ∨ 1073741824 < x.len)) then 4
  else if (x.op ≠ 1 ∧ x.src % 64 ≠ 0) ∨ (link = false ∧ (x.dst % 64 ≠ 0 ∨ x.len % 64 ≠ 0)) then 2
  else if x.op = 0 ∧ samePasid ∧ x.src < x.dst ∧ x.dst < x.src + x.len then 3
  else 0

/-- The part of check 1 of R361 that counts elements and LINKs: more than 4,096 LINKs, or no LAST within 65,535 elements;
`n` elements and `links` LINKs come before. -/
def elemCount (w : BitVec 256) (n links : Nat) : Bool :=
  if (elemOf w).op = 3 then decide (4096 ≤ links) else !bitAt w.toNat 2 && decide (65535 ≤ n + 1)

/-- Outcome of the first pass (R361): still reading, all checks pass, or a failure with its element index. -/
inductive Validated where
  | reading
  | pass (els : List CElem)
  | fail (status idx : Nat)
  deriving DecidableEq, Repr

/-- The first pass over a list: `n` elements and `links` LINKs so far. -/
def validate (same : Bool) : List (BitVec 256) → Nat → Nat → List CElem → Validated
  | [], _, _, _ => .reading
  | w :: t, n, links, acc =>
    let x := elemOf w
    if elemCount w n links then .fail 4 n
    else match elemCheck w same with
      | 0 =>
        if x.op = 3 then validate same t n (links + 1) acc
        else if bitAt w.toNat 2 then .pass (acc ++ [x])
        else validate same t (n + 1) links (acc ++ [x])
      | s => .fail s n

/-- What the first pass of a channel has come to. -/
def Chan.checked (x : Chan) : Validated := validate (x.srcPasid == x.dstPasid) x.words 0 0 []

/-- A LINK, or the last element: nothing after it in its 64 bytes is of the list (R360). -/
def wordEnds (w : BitVec 256) : Bool := (elemOf w).op == 3 || bitAt w.toNat 2

/-- The elements that 64 bytes of a list at address `a` bring, and the address at which the list goes on: at a LINK's SRC,
else behind them (R360). -/
def lineWords (a : Nat) (bytes : List Byte) : List (BitVec 256) × Nat :=
  let w0 : BitVec 256 := BitVec.ofNat 256 (ofLE (slice bytes 0 32))
  let w1 : BitVec 256 := BitVec.ofNat 256 (ofLE (slice bytes 32 32))
  let next (w : BitVec 256) : Nat := if (elemOf w).op = 3 then (elemOf w).src else a + 64
  if wordEnds w0 then ([w0], next w0) else ([w0, w1], next w1)

/-- Elements that the second pass has read (R361). -/
def Chan.avail (x : Chan) : Nat := ((x.lines.take x.linesRead).map (·.2)).foldl (· + ·) 0

/-- The element with this index, where the second pass has read it. -/
def Chan.elem? (x : Chan) (i : Nat) : Option CElem := if i < x.avail then x.elems[i]? else none

/-- Element that holds byte `pos` of a request. -/
def elemAt : List CElem → Nat → Nat → Nat
  | [], _, i => i
  | x :: t, pos, i => if pos < x.len then i else elemAt t (pos - x.len) (i + 1)

/-! ### Endings -/

/-- A counter of R375 raised. -/
def Eng.carryCnt (e : Eng) (i n : Nat) : Eng := { e with carry := { e.carry with cnt := addCnt e.carry.cnt i n } }

/-- A completion record (R365). -/
def carryRecord (reqId status : Nat) (fenced : Bool) (elem done : Nat) : List Byte :=
  bytesLE 2 reqId ++ bytesLE 1 status ++ bytesLE 1 (b2n fenced + 2) ++ bytesLE 4 elem ++ bytesLE 8 done

/-- An access belongs to channel `c`. -/
def Owner.chan? (o : Owner) (c : ChId) : Bool := decide (o.obj = some (.carry c))

/-- The longest run from a request's start whose writes have all been answered, or whose reads have all been
compared (R367). -/
def Eng.carryRun (e : Eng) (c : ChId) : Nat :=
  let x := e.chan c
  let low (l : List Nat) (m : Nat) : Nat := l.foldl min m
  let blk := (e.dma.blocked.map (·.acc) ++ e.dma.queue).filterMap (fun a =>
    if a.owner = .carryWrite c ∧ a.grp = x.grp then some (a.pos % 2 ^ 48) else none)
  low x.writes (low blk (low (x.buf.map (·.pos)) x.rdPos))

/-- A CARRY_ABORT waiting for channel `c` is answered. -/
def Eng.abortAnswer (e : Eng) (c : ChId) : Eng :=
  foldEng e.ctl.inflight (fun e f =>
    match (e.fn f).cmd with
    | some k => if k.opcode = 0x0A06 ∧ k.st = .working ∧ fld k.params 0 64 = c.val then e.respond f stOK 0 [] else e
    | none => e) e

/-- The request of channel `c` is over: beats are discarded, and its record and DONE_VEC follow, unless Carry is
stopped: then they wait for the resume (R364, R369, R370). -/
def Eng.carryEnd (e : Eng) (c : ChId) (status elem done : Nat) : Eng :=
  let e := e.abandon (.carry c)
  let x := e.chan c
  let rcd := carryRecord x.curReq status x.fence elem done
  let x := { x with state := .idle, result := status, elemIdx := elem, doneBytes := done, buf := [], elems := [], ending := none
                    words := [], lines := [], linesRead := 0
                    quenched := false, rdElem := 0, rdOff := 0, rdPos := 0, rdSecond := false, writes := [] }
  let e := if e.carry.stopped then e.setChan c { x with heldRec := some rcd }
    else
      let e := e.setChan c { x with done := true }
      let e := (e.writeRecord (.carryRecord c) x.owner x.dstPasid x.compl rcd).2
      if x.doneIrq then e.irqOpt x.owner x.doneVec else e
  e.abortAnswer c

/-- ELEM_IDX for a request that ends before its last element. -/
def Chan.elemNow (x : Chan) (pos : Nat) : Nat := elemAt x.elems pos 0

/-- The request ends with what has been done so far counted exactly (R367). -/
def Eng.carryFail (e : Eng) (c : ChId) (status : Nat) : Eng :=
  let n := e.carryRun c
  e.carryEnd c status ((e.chan c).elemNow n) n

/-! ### Starting -/

/-- The next 64 bytes of its list that channel `c` reads: in the first pass until its checks are over, in the second each of
the list's reads once more (R361). -/
def Chan.listNext (x : Chan) : Option Nat :=
  match x.state with
  | .validate => match x.checked with
    | .reading => some x.listAt
    | .pass _ | .fail _ _ => none
  | .active => (x.lines[x.linesRead]?).map (·.1)
  | .idle | .wait | .suspended | .fencing | .halted => none

/-- Channel `c` reads on in its list, one read at a time (R360, R361). -/
def Eng.carryList (e : Eng) (c : ChId) : Eng :=
  let x := e.chan c
  if x.ending.isSome ∨ e.busyFor (fun o => decide (o = .carryList c)) then e
  else match x.listNext with
    | some a =>
      e.access { owner := .carryList c, fn := x.owner, pasid := x.dstPasid, addr := a, len := 64, kind := .read, grp := x.grp }
    | none => e

/-- The first pass of channel `c` starts: its list is read (R361). -/
def Eng.carryValidate (e : Eng) (c : ChId) : Eng :=
  let x := e.chan c
  let st : CState := if (e.fn x.owner).quenched then .suspended else .validate
  (e.setChan c { x with state := st, prev := .validate, quenched := (e.fn x.owner).quenched, elemIdx := 0, doneBytes := 0
                        elems := [], words := [], listAt := x.list, lines := [], linesRead := 0, buf := [], writes := []
                        mismatch := none, rdElem := 0, rdOff := 0, rdPos := 0, issued := 0 }).carryList c

/-- A request starts on an idle channel (R373). -/
def Eng.carryGo (e : Eng) (c : ChId) : Eng :=
  let (g, e) := e.newGrp
  let x := e.chan c
  let e := (e.setChan c { x with curReq := x.reqId, grp := g, ending := none }).carryCnt 0 1
  if e.carry.stopped then e.setChan c { e.chan c with state := .wait } else e.carryValidate c

/-- CARRY_VALIDATE_DONE: the first pass, which has read the elements `els`, is over, and the request ends or its second pass
starts (R361). A pass that has read others is no such happening. -/
def Eng.carryChecked (e : Eng) (c : ChId) (els : List (BitVec 256)) : Eng :=
  let x := e.chan c
  if x.state ≠ .validate ∨ x.ending.isSome ∨ els ≠ x.words then e
  else match x.checked with
    | .reading => e
    | .fail s i => e.carryEnd c s i 0
    | .pass l => (e.setChan c { x with state := .active, elems := l }).carryList c

/-! ### Moving beats -/

/-- Writes of a channel that have not left the engine. -/
def Eng.carryWaits (e : Eng) (c : ChId) : Nat :=
  ((e.dma.blocked.map (·.acc) ++ e.dma.queue).filter (fun a => decide (a.owner = .carryWrite c))).length

/-- Beats that a channel holds (R363): two for a COMPARE beat whose second operand's read is issued, and one for a write,
of those that `unsent` counts, that has not left the engine. -/
def Chan.held (x : Chan) (unsent : Nat) : Nat :=
  unsent + x.buf.length + (x.buf.filter (fun b => match x.elems[b.elem]? with
    | some k => k.op == 2
    | none => false)).length - b2n x.rdSecond

/-- The buffer has a free beat (R363). -/
def Chan.room (x : Chan) (unsent : Nat) : Bool := decide (x.held unsent < 16)

/-- FILL beats need no read: they enter the buffer as room allows (R360, R363). -/
def Chan.fill (u : Nat) : Nat → Chan → Chan
  | 0, x => x
  | n + 1, x =>
    match x.elem? x.rdElem with
    | none => x
    | some k =>
      if k.op ≠ 1 ∨ x.room u = false then x
      else
        let b : CBeat := { pos := x.rdPos, elem := x.rdElem, off := x.rdOff, a := some ((List.replicate 8 (bytesLE 8 k.src)).flatten) }
        let last := decide (k.len ≤ x.rdOff + 64)
        Chan.fill u n { x with buf := x.buf ++ [b], rdPos := x.rdPos + 64
                               rdElem := if last then x.rdElem + 1 else x.rdElem, rdOff := if last then 0 else x.rdOff + 64 }

/-- Its FILL beats enter channel `c`'s buffer. -/
def Eng.carryFill (e : Eng) (c : ChId) : Eng :=
  let x := e.chan c
  if x.state = .active ∧ x.rdSecond = false then e.setChan c (Chan.fill (e.carryWaits c) 16 x) else e

/-- A channel is ready for a slot (R363). Its beats are written in order of address (R362): none while an earlier write has
not left the engine. -/
def Eng.carryReady (e : Eng) (write : Bool) (c : ChId) : Bool :=
  let x := e.chan c
  decide (x.state = .active) && x.ending.isNone && x.enable &&
  (if write then e.carryWaits c == 0 &&
    match x.buf with
    | b :: _ => b.a.isSome && (match x.elems[b.elem]? with
      | some k => decide (k.op = 0 ∨ k.op = 1)
      | none => false)
    | [] => false
   else x.room (e.carryWaits c) && (x.rdSecond || (match x.elem? x.rdElem with
     | some k => decide (k.op ≠ 1)
     | none => false)))

/-- Place of a PRIO and a kind of slot in `turns`. -/
def turnOf (prio : Nat) (write : Bool) : Nat := 2 * prio + b2n write

/-- The channel that takes a slot: the lowest PRIO number, and of equal ones the first after the one of that PRIO that last
took a slot of the kind (R363). -/
def Eng.carryPick (e : Eng) (write : Bool) : Option ChId :=
  let l := allChans.filter (e.carryReady write)
  (upTo 4).findSome? (fun p =>
    ((upTo 64).map (fun k => fin 64 ((nth e.carry.turns (turnOf p write) 63).val + 1 + k))).find? (fun c =>
      l.contains c && (e.chan c).prio == p))

/-- The read of one beat. -/
def Eng.carryReadBeat (e : Eng) (c : ChId) : Eng :=
  let x := e.chan c
  if x.rdSecond then
    match x.buf.getLast? with
    | none => e
    | some b =>
      match x.elems[b.elem]? with
      | none => e
      | some k =>
        ((e.setChan c { x with rdSecond := false }).carryFill c).access
          { owner := .carryRead c, fn := x.owner, pasid := x.dstPasid, addr := k.dst + b.off, len := 64, kind := .read
            grp := x.grp, pos := 2 * b.pos + 1 }
  else
    match x.elem? x.rdElem with
    | none => e
    | some k =>
      let b : CBeat := { pos := x.rdPos, elem := x.rdElem, off := x.rdOff }
      let last := decide (k.len ≤ x.rdOff + 64)
      let x' := { x with buf := x.buf ++ [b], rdPos := x.rdPos + 64, rdSecond := decide (k.op = 2)
                         rdElem := if last then x.rdElem + 1 else x.rdElem, rdOff := if last then 0 else x.rdOff + 64 }
      ((e.setChan c x').carryFill c).access
        { owner := .carryRead c, fn := x.owner, pasid := x.srcPasid, addr := k.src + b.off, len := 64, kind := .read
          grp := x.grp, pos := 2 * b.pos }

/-- Nothing is left to read, and the buffer is empty. -/
def Chan.drained (x : Chan) : Bool := decide (x.elems.length ≤ x.rdElem) && x.buf.isEmpty

/-- A write of the channel has not left the engine. -/
def Eng.carryUnsent (e : Eng) (c : ChId) : Bool := e.carryWaits c != 0

/-- The last write has left: a request with FENCE 1 waits for its responses (R373). -/
def Eng.carryLeft (e : Eng) (c : ChId) : Eng :=
  let x := e.chan c
  if x.state = .active ∧ x.drained ∧ e.carryUnsent c = false ∧ x.fence ∧ x.writes ≠ [] then e.setChan c { x with state := .fencing }
  else e

/-- The write of one beat. -/
def Eng.carryWriteBeat (e : Eng) (c : ChId) : Eng :=
  let x := e.chan c
  match x.buf with
  | [] => e
  | b :: r =>
    match x.elems[b.elem]? with
    | none => e
    | some k =>
      let x := { x with buf := r, writes := x.writes ++ [b.pos], issued := x.issued + 64 }
      ((((e.setChan c x).carryCnt 1 64).access
        { owner := .carryWrite c, fn := x.owner, pasid := x.dstPasid, addr := k.dst + b.off, len := 64, kind := .write
          data := b.a.getD (zeros 64), grp := x.grp, pos := b.pos + 2 ^ 48 * x.curReq }).carryFill c).carryLeft c

/-- CARRY_SLOT_OFFER: a slot that ring DMA leaves unused (R363). -/
def Eng.carrySlot (e : Eng) (write : Bool) : Eng :=
  if e.carry.stopped ∨ e.dataOn = false then e
  else
    let e := foldEng allChans (fun e c => e.carryFill c) e
    match e.carryPick write with
    | none => e
    | some c =>
      let l := e.carry.lastSlot
      let e := if (e.chan c).prio < (e.chan l).prio ∧ e.carryReady write l then
          (e.carryCnt 2 1).tal { code := 0x503, fn := some (e.chan l).owner
                                 orig := some (if l.val < 8 then .firmware else .host) }
        else e
      let t := turnOf (e.chan c).prio write
      let e := { e with carry := { e.carry with lastSlot := c, turns := modNth e.carry.turns t (fun _ => c) } }
      if write then e.carryWriteBeat c else e.carryReadBeat c

/-- First byte in which two beats differ. -/
def firstDiff : List Byte → List Byte → Nat → Option Nat
  | a :: s, b :: t, i => if a = b then firstDiff s t (i + 1) else some i
  | _, _, _ => none

/-- COMPARE beats at the head of the buffer with both operands read are compared (R360, R366). -/
def Eng.carryCompare (c : ChId) : Nat → Eng → Eng
  | 0, e => e
  | n + 1, e =>
    let x := e.chan c
    match x.buf with
    | [] => e
    | b :: r =>
      match x.elems[b.elem]?, b.a, b.b with
      | some k, some s, some t =>
        if k.op ≠ 2 then e
        else match firstDiff s t 0 with
          | none =>
            Eng.carryCompare c n (((e.setChan c { x with buf := r, issued := x.issued + 64 }).carryFill c).carryCnt 1 64)
          | some i =>
            (e.setChan c { x with errAddr := k.src + b.off + i }).carryEnd c 1 b.elem (b.pos + i)
      | _, _, _ => e

/-- Data of a channel's read (R362). -/
def Eng.carryData (e : Eng) (c : ChId) (a : Acc) (bytes : List Byte) : Eng :=
  let x := e.chan c
  if a.grp ≠ x.grp ∨ a.grp = 0 then e
  else
    let d := bytes.take 64 ++ zeros (64 - (bytes.take 64).length)
    let e := e.setChan c { x with buf := x.buf.map (fun b =>
      if b.pos = a.pos / 2 then (if a.pos % 2 = 1 then { b with b := some d } else { b with a := some d }) else b) }
    Eng.carryCompare c 17 e

/-- Data of a channel's list (R360, R361): the first pass takes in its elements; in the second, which finds the list
unchanged, they may run from now on. -/
def Eng.carryListData (e : Eng) (c : ChId) (a : Acc) (bytes : List Byte) : Eng :=
  let x := e.chan c
  if a.grp ≠ x.grp ∨ a.grp = 0 then e
  else
    let first := decide (x.state = .validate) || (decide (x.state = .suspended) && decide (x.prev = .validate))
    let (ws, next) := lineWords a.addr bytes
    let y := if first then
        { x with words := x.words ++ ws, listAt := next
                 lines := x.lines ++ [(a.addr, (ws.filter (fun w => (elemOf w).op != 3)).length)] }
      else { x with linesRead := x.linesRead + 1 }
    (e.setChan c y).carryList c

/-- An abort whose writes have all been answered is over (R372). -/
def Eng.carryEnding (e : Eng) (c : ChId) : Eng :=
  let x := e.chan c
  match x.ending with
  | some s => if x.writes = [] then e.carryEnd c s (x.elemNow x.issued) x.issued else e
  | none => e

/-- WRITE_DONE of a channel's data write (R364, R367). -/
def Eng.carryWritten (e : Eng) (c : ChId) (a : Acc) : Eng :=
  let x := e.chan c
  if a.grp = 0 ∨ a.grp ≠ x.grp then e
  else (e.setChan c { x with writes := x.writes.filter (fun p => p != a.pos % 2 ^ 48) }).carryEnding c

/-- CARRY_REQUEST_COMPLETE: the request has run its course (R364). -/
def Eng.carryComplete (e : Eng) (c : ChId) : Eng :=
  let x := e.chan c
  let total := x.elems.foldl (fun s k => s + k.len) 0
  let ended : Bool := match x.state with
    | .active => x.drained && !e.carryUnsent c && (!x.fence || x.writes.isEmpty)
    | .fencing => x.writes.isEmpty
    | .idle | .wait | .validate | .suspended | .halted => false
  if ended = true ∧ x.ending.isNone ∧ e.carry.stopped = false then e.carryEnd c 0 x.elems.length total else e

/-! ### Suspension, stops, aborts -/

/-- Channel `c` is suspended (R217, R372, R373). -/
def Eng.carrySuspend (e : Eng) (c : ChId) : Eng :=
  let x := e.chan c
  match x.state with
  | .validate | .active => (e.setChan c { x with state := .suspended, prev := x.state }).carryCnt 3 1
  | .idle | .wait | .suspended | .fencing | .halted => e

/-- Channel `c` goes on where nothing suspends it any more (R373). -/
def Eng.carryUnsuspend (e : Eng) (c : ChId) : Eng :=
  let x := e.chan c
  if x.state = .suspended ∧ x.quenched = false ∧ (e.waitOf (.carry c)).isNone then
    ((e.setChan c { x with state := x.prev }).carryList c).carryLeft c
  else e

/-- A quench of function `f` suspends its channels; their fault waits stand still (R372). -/
def Eng.carryQuench (e : Eng) (f : Fn) : Eng :=
  foldEng allChans (fun e c =>
    let x := e.chan c
    if x.owner = f ∧ (x.state = .validate ∨ x.state = .active ∨ x.state = .suspended) then
      let e := (e.carrySuspend c).modChan c (fun x => { x with quenched := true })
      { e with dma := { e.dma with waits := e.dma.waits.map (fun (w : FWait) =>
        if w.obj = FObj.carry c then match w.run with
          | some t => { w with used := w.used + (e.now - t), run := none }
          | none => w
        else w) } }
    else e) e

/-- Its release (R372). -/
def Eng.carryRelease (e : Eng) (f : Fn) : Eng :=
  foldEng allChans (fun e c =>
    let x := e.chan c
    if x.owner = f ∧ x.quenched then
      let e := e.setChan c { x with quenched := false }
      let e := { e with dma := { e.dma with waits := e.dma.waits.map (fun (w : FWait) =>
        if w.obj = FObj.carry c then { w with run := some (w.run.getD e.now) } else w) } }
      e.carryUnsuspend c
    else e) e

/-- Carry stops: every request in progress ends with BUS_STOP and waits for the resume (R369). -/
def Eng.carryStop (e : Eng) : Eng :=
  if e.carry.stopped then e
  else
    let e := ({ e with carry := { e.carry with stopped := true, stopCount := e.carry.stopCount + 1 } }).carryCnt 4 1
    foldEng allChans (fun e c =>
      match (e.chan c).state with
      | .validate | .active | .suspended | .fencing =>
        let n := e.carryRun c
        let w := (e.chan c).writes
        let left := (e.chan c).elems
        let x := e.chan c
        let low (l : List Nat) (m : Nat) : Nat := l.foldl min m
        -- the first byte whose write has not been issued
        let blk := (e.dma.blocked.map (·.acc) ++ e.dma.queue).filterMap (fun a =>
          if a.owner = .carryWrite c ∧ a.grp = x.grp then some (a.pos % 2 ^ 48) else none)
        let top := low blk (low (x.buf.map (·.pos)) x.rdPos)
        let e := e.abandon (.carry c)
        e.setChan c { x with state := .halted, result := 5, buf := [], ending := none, quenched := false
                             elems := left, writes := w.filter (fun p => decide (p < top)), issued := top, doneBytes := n
                             elemIdx := x.elemNow n }
      | .idle | .wait | .halted => e) e

/-- Carry resumes (R370). -/
def Eng.carryResume (e : Eng) : Eng :=
  if !e.carry.stopped then e
  else
    let e := { e with carry := { e.carry with stopped := false } }
    let e := foldEng allChans (fun e c =>
      let x := e.chan c
      match x.state, x.heldRec with
      | .halted, _ =>
        let n := x.writes.foldl min x.issued
        e.carryEnd c 5 (x.elemNow n) n
      | .idle, some r =>
        let e := e.setChan c { x with heldRec := none, done := true }
        let e := (e.writeRecord (.carryRecord c) x.owner x.dstPasid x.compl r).2
        if x.doneIrq then e.irqOpt x.owner x.doneVec else e
      | _, _ => e) e
    foldEng allChans (fun e c => if (e.chan c).state = .wait then e.carryValidate c else e) e

/-- A bus error, or a completion timeout, on an access of channel `c` (R368, R369). -/
def Eng.carryError (e : Eng) (c : ChId) (a : Acc) : Eng :=
  let x := e.chan c
  let live : Bool := match x.state with
    | .idle | .wait => false
    | .validate | .active | .suspended | .fencing | .halted => a.grp == x.grp
  let write : Bool := match a.owner with
    | .carryWrite _ => true
    | _ => false
  if a.grp = 0 then e
  else if write ∧ live = false then
    let e := (e.raiseEv (mkEv 27 .failure (c.val + 64) a.fn.val 2 a.sent)).carryCnt 5 1
    let e := e.setChan c { x with lateErr := true, lateAddr := a.addr, lateReq := a.pos / 2 ^ 48 }
    if x.errIrq then e.irqOpt x.owner x.errVec else e
  else if e.carry.stopped then e
  else (e.raiseEv (mkEv 27 .failure c.val a.fn.val (a.owner.access a.kind) a.sent)).carryStop

/-- Clearing ENABLE: the request ends with DISABLED, and ELEM_IDX and DONE_BYTES are free values (R372). -/
def Eng.carryDisable (e : Eng) (c : ChId) : Eng :=
  let x := e.chan c
  let e := e.setChan c { x with enable := false }
  match x.state with
  | .idle => e
  | .wait | .validate | .active | .suspended | .fencing | .halted =>
    let e := { e with dma := { e.dma with outst := e.dma.outst.map (fun (o : Outst) =>
      if o.acc.owner.chan? c then { o with acc := { o.acc with grp := 0 } } else o) } }
    let (u, e) := e.fresh
    let (v, e) := e.fresh
    e.carryEnd c 7 (u % 2 ^ 32) (v % 2 ^ 64)

/-- The request of channel `c` ends with a status once the writes issued are answered, so that DONE_BYTES is exact (R372). -/
def Eng.carryQuit (e : Eng) (c : ChId) (status : Nat) : Eng :=
  let x := e.chan c
  match x.state with
  | .idle => e
  | .wait => e.carryEnd c status 0 0
  | .halted => e.carryEnd c status (x.elemNow (x.writes.foldl min x.issued)) (x.writes.foldl min x.issued)
  | .validate | .active | .suspended | .fencing =>
    let low (l : List Nat) (m : Nat) : Nat := l.foldl min m
    let blk := (e.dma.blocked.map (·.acc) ++ e.dma.queue).filterMap (fun a =>
      if a.owner = .carryWrite c ∧ a.grp = x.grp then some (a.pos % 2 ^ 48) else none)
    let top := low blk (low (x.buf.map (·.pos)) x.rdPos)
    let e := e.abandon (.carry c)
    (e.setChan c { x with state := if x.state = .suspended then x.prev else x.state, ending := some status, buf := []
                          quenched := false, writes := x.writes.filter (fun p => decide (p < top)), issued := top }).carryEnding c

/-- CARRY_ABORT, or FUNC_RESET of the owner: ABORTED (R372). -/
def Eng.carryAbort (e : Eng) (c : ChId) : Eng := e.carryQuit c 8

/-- An uncorrectable error in the buffer of channel `c`: its request ends with BUS_STOP, and no other channel's (R375). A
channel whose request a stop has ended is left to the resume (R370). -/
def Eng.carryBufferLost (e : Eng) (c : ChId) : Eng :=
  match (e.chan c).state with
  | .validate | .active | .suspended | .fencing => if (e.chan c).ending.isSome then e else e.carryQuit c 5
  | .idle | .wait | .halted => e

/-- A fault wait of channel `c` ends in failure (R371). -/
def Eng.carryXltFail (e : Eng) (c : ChId) (va : Nat) : Eng :=
  let n := e.carryRun c
  let x := e.chan c
  (((e.setChan c { x with errAddr := va }).carryCnt 6 1).carryEnd c 6 (x.elemNow n) n)

/-- Requests a function holds (R359). -/
def Eng.carryHeld (e : Eng) (f : Fn) : Nat :=
  (allChans.filter (fun c => (e.chan c).submitted && decide ((e.chan c).owner = f) && !decide ((e.chan c).state = .idle))).length

end Sys2Proof.Machine
end

