-- ==== Sys2Proof/Machine/XltOps.lean ====
section
/-! DEFINITION. XltOps.lean: responses on the DMA master ports and the translation port, fault waits, queue
errors, and the entries that descriptor reads bring (06_rings.md R159 to R191, 07_translation.md R198 to R218). -/
namespace Sys2Proof.Machine

/-! ### Errors of queues -/

/-- A transmit queue enters ERROR (R187): granted frames not started are discarded, nothing more is fetched. -/
def Eng.txError (e : Eng) (q : TxqId) (cause : Nat) : Eng :=
  match e.txq q with
  | none => e
  | some x =>
    if x.state = .error ∨ x.state = .stopped then e
    else
      let (_, e) := e.takeGranted x.port (fun g => decide (g.q = q))
      let e := e.abandon (.txq q)
      let e := e.modTxq q (fun x => { x with fetching := 0, held := [], batch := none, partials := [] })
      e.txState q .error cause

/-- Frames whose data has not been written yet leave a ring with their lines; those that a drain had placed count in
rx_fault_drops, as parked frames do (R215). -/
def Eng.dropPlaced (e : Eng) (q : RxqId) : Eng :=
  match e.rxq q with
  | none => e
  | some x =>
    foldEng (x.placed.filter (fun r => !r.dataDone)) (fun e r => e.rxFree r.fr)
      (e.setRxq q (some { x with placed := [], faultDrops := sat64 (x.faultDrops + x.draining.length) }))

/-- Frames that wait for a ring are dropped and counted in rx_stopped_drops. -/
def Eng.dropWaiting (e : Eng) (q : RxqId) : Eng :=
  match e.rxq q with
  | none => e
  | some x =>
    foldEng x.waiting (fun e f => e.rxFree f)
      (e.setRxq q (some { x with waiting := [], stoppedDrops := sat64 (x.stoppedDrops + x.waiting.length) }))

/-- A receive ring enters ERROR (R187, R215): held completions and parked frames are discarded. -/
def Eng.rxError (e : Eng) (q : RxqId) (cause : Nat) : Eng :=
  match e.rxq q with
  | none => e
  | some x =>
    if x.state = .error ∨ x.state = .stopped then e
    else
      let e := ((((e.abandon (.rxq q)).rxUnpark q).dropWaiting q).dropPlaced q).modRxq q (fun x => { x with fetching := 0, held := [] })
      e.rxState q .error cause

/-- An event queue enters ERROR and drops its events (R191). -/
def Eng.eqError (e : Eng) (i : EqId) (cause : Nat) : Eng :=
  (e.abandon (.eq i)).modEq i (fun q => { q with error := true, cause := cause })

/-- Counts added to a list of counters. -/
def addAll : List Nat → List Nat → List Nat
  | [], l => l
  | _, [] => []
  | a :: s, b :: t => sat64 (a + b) :: addAll s t

/-- Deck counters of a port in the order of R357. -/
def Deck.counts (d : Deck) : List Nat := [d.neverFits, d.fitWaits, d.lateDropped, d.lateSent, d.cuts, d.extensions, d.truncations]

/-- Deck counters set. -/
def Deck.setCounts (d : Deck) (l : List Nat) : Deck :=
  { d with neverFits := nth l 0 0, fitWaits := nth l 1 0, lateDropped := nth l 2 0, lateSent := nth l 3 0
           cuts := nth l 4 0, extensions := nth l 5 0, truncations := nth l 6 0 }

/-- The counts that a read-and-clear command copied are added back (R518). Only responses that leave by the
indirect buffer can fail: STATS_READ, DECK_STATUS_GET and DEALER_QUERY. -/
def Eng.undo (e : Eng) (u : Undo) : Eng :=
  let p : PortId := fin 16 u.object
  if u.opcode = 0x0901 then
    foldEng (u.counts.zip (upTo u.counts.length)) (fun e (n, i) =>
      if 52 ≤ i ∧ i < 60 then e.modPort p (fun x => { x with pausedFor := modNth x.pausedFor (i - 52) (· + (n : Int)) })
      else e.stat p i n) e
  else if u.opcode = 0x0503 then e.modPort p (fun x => { x with deck := x.deck.setCounts (addAll u.counts x.deck.counts) })
  else if u.opcode = 0x0404 then
    { e with dealer := { e.dealer with samplerDrops := sat64 (e.dealer.samplerDrops + nth u.counts 0 0)
                                       shaperResets := sat64 (e.dealer.shaperResets + nth u.counts 1 0) } }
  else e

/-- An indirect buffer of function `f`'s command fails: FAULTED, DETAIL 0xFFFE (R45, R518). -/
def Eng.mbxFault (e : Eng) (f : Fn) : Eng :=
  match (e.fn f).cmd with
  | none => e
  | some c =>
    let e := match c.undo with
      | some u => e.undo u
      | none => e
    (e.abandon (.mbx f)).finishMbx f stFaulted 0xFFFE 0 0 []

/-- A record of an engine-internal ring is lost (R281, R307, R468): a trailer report counts on the port whose frame it
reports, which its byte 1 names (R280). -/
def Eng.lostRecord (e : Eng) (a : Acc) : Eng :=
  match a.owner with
  | .sample => { e with dealer := { e.dealer with samplerDrops := sat64 (e.dealer.samplerDrops + 1) } }
  | .bandwidth => { e with tally := { e.tally with bwDrops := sat64 (e.tally.bwDrops + 1) } }
  | .trailer _ =>
    e.modPort (fin 16 (u8 a.data 1)) (fun x => { x with off := { x.off with reportDrops := sat64 (x.off.reportDrops + 1) } })
  | _ => e

/-! ### Data reads of granted frames -/

/-- Some granted or committed frame of a port has this data read. -/
def Port.hasGrp (x : Port) (g : Nat) : Bool :=
  x.lists.any (fun l => l.any (fun h => h.grp == g)) || x.wire.any (fun w => w.g.grp == g)

/-- The port with a granted or committed frame changed. -/
def Port.modGrp (x : Port) (g : Nat) (f : GFrame → GFrame) : Port :=
  { x with lists := x.lists.map (fun l => l.map (fun h => if h.grp = g then f h else h))
           wire := x.wire.map (fun w => if w.g.grp = g then { w with g := f w.g } else w) }

/-- The port whose granted or committed frame has this data read. -/
def Eng.grpPort (e : Eng) (g : Nat) : Option PortId := e.portList.find? (fun p => (e.port p).hasGrp g)

/-- Bytes from position `n` on without a gap. -/
def prefixOf : List (Nat × List Byte) → Nat → List Byte
  | [], _ => []
  | (p, bs) :: t, n => if p = n then bs ++ prefixOf t (n + bs.length) else []

/-- Bytes an operation has brought from its start on. -/
def Eng.readSoFar (e : Eng) (g : Nat) : List Byte :=
  match e.dma.bufs.find? (fun b => b.grp == g) with
  | some b => prefixOf b.parts 0
  | none => []

/-- Data of a granted frame (R106). -/
def Eng.txDataIn (e : Eng) (q : TxqId) (id : Nat) (a : Acc) (bytes : List Byte) : Eng :=
  match e.grpPort a.grp with
  | none => e.tryEnd q id
  | some p =>
    let e := e.addPart a bytes
    let d := e.readSoFar a.grp
    (e.modPort p (fun x => x.modGrp a.grp (fun g => { g with data := d }))).tryEnd q id

/-- Committed frames whose data read failed are stomped as they come to the front (R191, R208). -/
def Eng.stompFailed (p : PortId) : Nat → Eng → Eng
  | 0, e => e
  | n + 1, e =>
    match (e.port p).wire with
    | [] => e
    | w :: _ =>
      if w.g.failed = 0 then e
      else
        let e := e.stomp p w
        let e := if w.orphan then e
          else if w.g.failed = 1 then e.endFrame w.g.q w.g.frame w.g.seg 9 0
          else e
        Eng.stompFailed p n e

/-- Failed frames at the front of a port are stomped. -/
def Eng.stompAll (e : Eng) (p : PortId) : Eng := Eng.stompFailed p (e.port p).wire.length e

/-- A bus error on a data read of a granted frame: it completes with BUS_ERROR, stomped where committed (R191). -/
def Eng.txDataError (e : Eng) (q : TxqId) (id : Nat) (g : Nat) : Eng :=
  match e.grpPort g with
  | none => e.tryEnd q id
  | some p =>
    let x := e.port p
    if x.wire.any (fun w => w.g.grp == g) then
      (e.modPort p (fun x => x.modGrp g (fun h => { h with failed := 1 }))).stompAll p
    else
      match (x.lists.flatMap (fun l => l)).find? (fun (h : GFrame) => h.grp == g) with
      | some h => e.endFrame q id h.seg 9 0
      | none => e

/-- The data reads of a frame that wait become lookups of its pages (R207, R208). -/
def Eng.dataToLookup (e : Eng) (q : TxqId) (id : Nat) : Eng :=
  { e with dma := { e.dma with blocked := e.dma.blocked.map (fun (b : Blocked) =>
    if b.acc.owner = Owner.txData q id then { b with acc := { b.acc with owner := .txXlt q id, len := 1, grp := 0 } } else b) } }

/-- A data read of a granted frame meets a fault: a frame not started goes back with those after it, one started is
stomped and sent again whole (R207, R208). -/
def Eng.txDataFault (e : Eng) (q : TxqId) (id : Nat) (a : Acc) : Eng :=
  let e := e.dataToLookup q id
  match e.grpPort a.grp with
  | none => e
  | some p =>
    let x := e.port p
    let e := match x.wire.find? (fun w => w.g.grp == a.grp) with
      | some w =>
        let e := e.xcnt (fun c => { c with txStomps := sat64 (c.txStomps + 1) })
        let e := (e.modPort p (fun x => x.modGrp a.grp (fun h => { h with failed := 2 }))).stompAll p
        if w.orphan then e else e.retryFrame p w.g
      | none =>
        match (x.lists.flatMap (fun l => l)).find? (fun (h : GFrame) => h.grp == a.grp) with
        | some h => e.ungrant p (fun k => decide (k.q = q) && decide (h.order ≤ k.order))
        | none => e
    e.modTxq q (fun y => y.modFrame id (fun f => match f.st with
      | .offered | .granted => { f with st := .lookup }
      | .lookup | .done _ => f))

/-! ### Parking a frame whose write faults -/

/-- A buffer write of a ring faults: the frame is parked whole, and the ring's buffers are as before it; frames that
wait behind it are parked after it (R212). -/
def Eng.rxDataFault (e : Eng) (q : RxqId) : Eng :=
  match e.rxq q with
  | none => e
  | some x =>
    let blk (r : RxPlaced) : Bool := e.dma.blocked.any (fun b => decide (b.acc.grp = r.grp))
    match x.placed.find? blk with
    | none => e
    | some r =>
      let e := { e with dma := { e.dma with blocked := e.dma.blocked.map (fun (b : Blocked) =>
        if b.acc.grp = r.grp then { b with acc := { b.acc with grp := 0 } } else b)
                                            queue := e.dma.queue.filter (fun a => a.grp != r.grp) } }
      let rest := x.waiting
      let e := e.setRxq q (some { x.unplace r with waiting := [] })
      if r.fr.area = .parking then
        -- a drained frame is parked already: it goes back to the front
        e.modRxq q (fun x => { x with parked := r.fr :: x.parked })
      else foldEng rest (fun e f => e.rxPark q f) (e.rxPark q r.fr)

/-! ### Fault waits -/

/-- Elapsed time of a wait in CLK_TS edges (R211). -/
def FWait.elapsed (w : FWait) (now : Nat) : Nat :=
  w.used + (match w.run with
    | some t => now - t
    | none => 0)

/-- A fault wait changed. -/
def Eng.modWait (e : Eng) (o : FObj) (g : FWait → FWait) : Eng :=
  { e with dma := { e.dma with waits := e.dma.waits.map (fun (w : FWait) => if w.obj = o then g w else w) } }

/-- The transmit frame whose pages an access looks up (R206). -/
def Owner.lookupOf (o : Owner) : Option Nat := match o with
  | .txXlt _ id => some id
  | _ => Option.none

/-- A transmit queue pauses for a fault (R206 to R209). -/
def Eng.txEnterPaused (e : Eng) (q : TxqId) : Eng :=
  match e.txq q with
  | none => e
  | some x => if x.state = .running then (e.txState q .paused 5).pwrFault else e

/-- A receive ring enters FAULTED (R211): frames that wait for it are parked. -/
def Eng.rxEnterFaulted (e : Eng) (q : RxqId) : Eng :=
  match e.rxq q with
  | none => e
  | some x =>
    if x.state = .running then
      let e := (e.rxState q .paused 5).pwrFault
      match e.rxq q with
      | none => e
      | some y => foldEng y.waiting (fun e f => e.rxPark q f) (e.setRxq q (some { y with waiting := [] }))
    else e

/-- A fault wait begun is counted (R219, R457). -/
def Eng.countWait (e : Eng) (a : Acc) : Eng :=
  (e.xcnt (fun c => { c with faults := sat64 (c.faults + 1) })).tal
    { code := 0x303, fn := some a.fn, orig := some a.owner.orig, addr := some a.addr }

/-- An access meets a fault: its object's fault wait begins; in an episode of a ring whose timer stands, the timer goes on
with the new wait (R203, R211). -/
def Eng.enterWait (e : Eng) (o : FObj) (a : Acc) : Eng :=
  match e.waitOf o with
  | some w =>
    match w.run with
    | some _ => e
    | none => (e.modWait o (fun w => { w with
        va := a.addr, pasid := a.pasid, access := a.owner.access a.kind, frame := a.owner.lookupOf, run := some e.now })).countWait a
  | none =>
    let w : FWait := { obj := o, va := a.addr, pasid := a.pasid, access := a.owner.access a.kind, frame := a.owner.lookupOf,
                       began := e.tb0, run := some e.now }
    let e := ({ e with dma := { e.dma with waits := e.dma.waits ++ [w] } }).countWait a
    match o with
    | .txq q => e.txEnterPaused q
    | .rxq q => e.rxEnterFaulted q
    | .eq i => e.modEq i (fun q => { q with overflow := true })
    | .carry c => e.carrySuspend c
    | .mbx _ => e

/-- Accesses of an object that wait. -/
def Eng.blockedOf (e : Eng) (o : FObj) : List Blocked := e.dma.blocked.filter (fun b => decide (b.acc.owner.obj = some o))

/-- A fault wait of a queue or ring covers the accesses of the frame, or of the kind (descriptor or post entry, data,
record), of the access that began it; another object's covers all (R204). -/
def FWait.covers (w : FWait) (a : Acc) : Bool :=
  match w.obj with
  | .txq _ | .rxq _ => decide (a.owner.lookupOf = w.frame) && a.owner.access a.kind == w.access
  | .eq _ | .carry _ | .mbx _ => true

/-- Accesses that an object's fault wait covers (R204). -/
def Eng.unitOf (e : Eng) (o : FObj) : List Blocked :=
  match e.waitOf o with
  | some w => (e.blockedOf o).filter (fun b => w.covers b.acc)
  | none => e.blockedOf o

/-- An access of an object that has met a fault and that no page request has been sent for. -/
def Eng.missingOf (e : Eng) (o : FObj) : Option Blocked := (e.blockedOf o).find? (fun b => decide (b.st = .missing))

/-- An object's fault wait is over, and so are its page requests. -/
def Eng.waitGone (e : Eng) (o : FObj) : Eng :=
  { e with dma := { e.dma with
      waits := e.dma.waits.filter (fun w => !decide (w.obj = o))
      groups := e.dma.groups.map (fun (g : PageGrp) => if g.obj = some o then { g with obj := none } else g) } }

/-- Pages of accesses without repeats. -/
def pagesOf : List Blocked → List (Fn × Nat × Nat × Bool) → List (Fn × Nat × Nat × Bool)
  | [], acc => acc
  | b :: t, acc =>
    let k := (b.acc.fn, b.acc.pasid, b.acc.addr / 4096, b.acc.kind != AccKind.read)
    pagesOf t (if acc.contains k then acc else acc ++ [k])

/-- The page requests of an object are sent together once none of its accesses waits for a translation (R204). -/
def Eng.pageAsk (e : Eng) (o : FObj) : Eng :=
  let l := e.unitOf o
  if l.isEmpty ∨ l.any (fun b => decide (b.st ≠ .missing)) ∨ e.dma.groups.any (fun g => decide (g.obj = some o)) ∨
      512 ≤ e.dma.groups.length then e
  else
    let used := e.dma.groups.map (fun g => g.group.val)
    let g : Fin 512 := fin 512 (firstFree used used.length 0)
    let ps := pagesOf l []
    let e := { e with dma := { e.dma with groups := e.dma.groups ++ [({ group := g, obj := some o } : PageGrp)] } }
    let e := e.xcnt (fun c => { c with pageReqs := sat64 (c.pageReqs + ps.length) })
    foldEng (ps.zip (upTo ps.length)) (fun e ((f, s, v, w), i) => e.emit (.pageReq g f s v w (i + 1 == ps.length))) e

/-- Objects that wait are looked at for page requests still to be sent. -/
def Eng.pageAskAll (e : Eng) : Eng := foldEng (e.dma.waits.map (·.obj)) (fun e o => e.pageAsk o) e

/-- Accesses that wait for a translation place take those that are free, ring DMA's first (R198). -/
def askPlaces : List Blocked → List Blocked → Eng → List Blocked × Eng
  | [], acc, e => (acc.reverse, e)
  | b :: t, acc, e =>
    match b.st with
    | .place =>
      let (e, st) := e.xltAsk b.acc
      askPlaces t ({ b with st := st } :: acc) e
    | .waiting | .missing => askPlaces t (b :: acc) e

/-- Free translation places are taken. -/
def Eng.takePlaces (e : Eng) : Eng :=
  let (l, e) := askPlaces e.dma.blocked [] e
  { e with dma := { e.dma with blocked := l } }

/-- An object goes on where accesses of it no longer wait: held records, lookups done, frames waiting. -/
def Eng.goOn (e : Eng) (o : FObj) : Eng :=
  match o with
  | .txq q =>
    let e := if e.txRecBlocked q then e else e.txHeldOut q
    match e.txq q with
    | none => e
    | some x => foldEng (x.frames.filter (fun f => decide (f.st = .lookup))) (fun e f => e.offer q f.id) e
  | .rxq q =>
    let e := if e.rxRecBlocked q then e else e.rxHeldOut q
    (e.rxPlaceNext q).rxDrainNext q
  | .carry c => (e.carryFill c).carryLeft c
  | .eq _ | .mbx _ => e

/-- A transmit queue's wait is over: it runs again, or the next frame that met a fault waits (R204, R210). -/
def Eng.txWaitOver (e : Eng) (q : TxqId) : Eng :=
  match e.txq q with
  | none => e
  | some x =>
    let e := if x.state = .paused then e.txState q .running 0 else e
    match e.missingOf (.txq q) with
    | some b => (e.enterWait (.txq q) b.acc).pageAsk (.txq q)
    | none => e.txFetch q

/-- A receive ring's fault is resolved: its timer stops and the ring drains (R211, R214), or the next of its accesses that
met a fault waits. Under quench the drain is held and the timer runs on (R218). -/
def Eng.rxWaitOver (e : Eng) (q : RxqId) : Eng :=
  match e.rxq q with
  | none => e
  | some x =>
    let e := e.modWait (.rxq q) (fun w => { w with used := w.elapsed e.now, run := none })
    match e.missingOf (.rxq q) with
    | some b => (e.enterWait (.rxq q) b.acc).pageAsk (.rxq q)
    | none =>
      if (e.fn x.fn).quenched then e.modWait (.rxq q) (fun w => { w with run := some e.now }) else (e.rxFetch q).rxDrainNext q

/-- A fault wait ends in resolution (R210, R214, R216, R217). -/
def Eng.resolve (e : Eng) (o : FObj) : Eng :=
  match o with
  | .txq q => (e.waitGone o).txWaitOver q
  | .rxq q => e.rxWaitOver q
  | .eq i => (e.waitGone o).leaveOverflow i
  | .carry c => (e.waitGone o).carryUnsuspend c
  | .mbx _ => e.waitGone o

/-- A fault wait that covers no access any more, its frame having been given up, ends; the next of the object's accesses
that met a fault waits (R204). -/
def Eng.lapse (e : Eng) (o : FObj) : Eng :=
  if (e.waitOf o).isSome ∧ (e.unitOf o).isEmpty then
    let e := e.waitGone o
    match e.missingOf o with
    | some b => (e.enterWait o b.acc).pageAsk o
    | none => e
  else e

/-- An object whose accesses have been served goes on, and its wait ends where none is left. -/
def Eng.served (e : Eng) (o : FObj) : Eng :=
  let e := e.goOn o
  if (e.waitOf o).any (fun w => w.run.isSome) ∧ (e.unitOf o).isEmpty then e.resolve o else e

/-- Objects of a list of accesses, without repeats. -/
def objsOf : List Acc → List FObj → List FObj
  | [], acc => acc
  | a :: t, acc =>
    match a.owner.obj with
    | some o => objsOf t (if acc.contains o then acc else acc ++ [o])
    | none => objsOf t acc

/-! ### Failures -/

/-- What a failure does to the object of a blocked access (R210, R215, R216, R371). -/
def Eng.xltFailed (e : Eng) (o : FObj) (a : Acc) (cause : Nat) : Eng :=
  match o with
  | .txq q =>
    match a.owner with
    | .txXlt _ id =>
      match e.txq q with
      | none => e
      | some x =>
        if cause ≠ 5 ∨ x.state = .stopping then e.txError q cause
        else
          let seg := ((x.frame? id).map TxFrame.segNext).getD 0
          let e := (e.dropUnsent (fun w => decide (w = .txXlt q id))).endFrame q id seg 10 0
          if (e.waitOf o).isSome then e else e.txWaitOver q
    | _ => e.txError q cause
  | .rxq q => e.rxError q cause
  | .eq i => e.eqError i cause
  | .carry c => e.carryXltFail c a.addr
  | .mbx f => e.mbxFault f

/-- A translation failure raises source 26 and counts (R203, R219). -/
def Eng.countFail (e : Eng) (a : Acc) : Eng :=
  (e.raiseEv (mkEv 26 .failure a.pasid a.fn.val 5 a.addr)).xcnt (fun c => { c with failures := sat64 (c.failures + 1) })

/-- A translation failure: source 26, and the wait that covers the access ends (R203). -/
def Eng.xltFail (e : Eng) (o : FObj) (a : Acc) : Eng :=
  let e := e.countFail a
  let e := if (e.waitOf o).all (fun (w : FWait) => w.covers a) then e.waitGone o else e
  e.xltFailed o a 5

/-- Data accesses take the form in which they wait through a fault. -/
def Eng.settleFault (e : Eng) (a : Acc) : Acc × Eng :=
  match a.owner with
  | .txData q id => ({ a with owner := .txXlt q id }, e.txDataFault q id a)
  | .rxData q _ => (a, e.rxDataFault q)
  | _ => (a, e)

/-- Accesses served by an answered TRANSLATE that meet a fault or a failure, one for each object; records of an
internal ring are lost, after `h`. -/
def Eng.faultEach (e : Eng) (l : List Acc) (h : Eng → Acc → Eng) (g : Eng → FObj → Acc → Eng) : Eng :=
  foldEng l (fun e a =>
    match a.owner.obj with
    | none => (h e a).lostRecord a
    | some o => if e.dma.blocked.any (fun b => decide (b.acc.owner.obj = some o ∧ b.acc.addr = a.addr)) then
        let (a, e) := e.settleFault a
        g e o a
      else e) e

/-- The entry of a successful response (R197, R495). -/
def xltEntry (r : XReq) (pa : Nat) (size : Fin 3) (rd wr : Bool) : XEnt :=
  let n := pageBytes size / 4096
  { fn := r.fn, pasid := r.pasid, vpn := r.vpn / n * n, size := size, ppn := pa / n * n, rd := rd, wr := wr }

/-- A TRANSLATION message (R198, R199, R203, R496). -/
def Eng.translation (e : Eng) (tag : Fin 512) (res : XltResult) : Eng :=
  match e.dma.xreqs.find? (fun r => decide (r.tag = tag)) with
  | none => e.fail 7 0 mXlt
  | some r =>
    let e := { e with dma := { e.dma with xreqs := e.dma.xreqs.filter (fun r => !decide (r.tag = tag)) } }
    let mine (b : Blocked) : Bool := decide (b.st = .waiting) && r.serves b.acc
    let l : List Acc := (e.dma.blocked.filter mine).map (·.acc)
    let e := match res with
      | .success pa size rd wr =>
        let x := xltEntry r pa.toNat size rd wr
        let e := { e with dma := { e.dma with cache := xltFill e.dma.cache x } }
        let ok (b : Blocked) : Bool := mine b && x.allows b.acc.kind
        let go : List Acc := (e.dma.blocked.filter ok).map (fun (b : Blocked) => b.acc)
        let e := { e with dma := { e.dma with blocked := (e.dma.blocked.filter (fun b => !ok b)).map (fun (b : Blocked) =>
          if mine b then { b with st := .place } else b) } }
        let e := foldEng go (fun e (a : Acc) => if a.grp = 0 then e else e.issue { a with pa := some (x.ppn * 4096 + (a.addr - x.vpn * 4096)) }) e
        foldEng (objsOf go []) (fun e o => e.served o) e
      | .notPresent =>
        let e := { e with dma := { e.dma with blocked := (e.dma.blocked.filter (fun b => !(mine b && b.acc.owner.obj.isNone))).map (fun (b : Blocked) =>
          if mine b then { b with st := .missing } else b) } }
        let e := e.faultEach l (fun e _ => e) (fun e o a => e.enterWait o a)
        foldEng (objsOf l []) (fun e o => e.pageAsk o) e
      | .denied =>
        let e := { e with dma := { e.dma with blocked := (e.dma.blocked.filter (fun b => !(mine b && b.acc.owner.obj.isNone))).map (fun (b : Blocked) =>
          if mine b then { b with st := .missing } else b) } }
        e.faultEach l Eng.countFail (fun e o a => e.xltFail o a)
    e.takePlaces.pageAskAll

/-- A PAGE_RSP message (R203, R218, R496). -/
def Eng.pageRsp (e : Eng) (group : Fin 512) (ok : Bool) : Eng :=
  match e.dma.groups.find? (fun g => decide (g.group = group)) with
  | none => e.fail 7 0 mXlt
  | some g =>
    let e := { e with dma := { e.dma with groups := e.dma.groups.filter (fun g => !decide (g.group = group)) } }
    let e := match g.obj with
      | none => e
      | some o =>
        if ok then
          let covered (b : Blocked) : Bool := (e.waitOf o).all (fun (w : FWait) => w.covers b.acc)
          ({ e with dma := { e.dma with blocked := e.dma.blocked.map (fun (b : Blocked) =>
            if b.acc.owner.obj = some o ∧ b.st = BlockSt.missing ∧ covered b then { b with st := .place } else b) } }).takePlaces
        else
          match (e.unitOf o).head? with
          | some b => e.xltFail o b.acc
          | none => e
    e.pageAskAll

/-- The access a fault wait ends in failure for: its first, at the address the wait began with; of a ring whose drain a
quench holds, with nothing left to wait for, a write there (R218). -/
def Eng.expired (e : Eng) (o : FObj) (w : FWait) : Option Acc :=
  match (e.unitOf o).head?, o with
  | some b, _ => some { b.acc with addr := w.va }
  | none, .rxq q => (e.rxq q).map (fun x =>
      { owner := .rxData q 0, fn := x.fn, pasid := w.pasid, addr := w.va, len := 1, kind := .write })
  | none, _ => none

/-- FAULT_TIMEOUT_EXPIRY: a wait of FAULT_TIMEOUT ends as a failure (R205, R211). An indirect buffer's wait ends
with its command's class limit instead (R45). -/
def Eng.faultExpiry (e : Eng) (o : FObj) : Eng :=
  match o, e.waitOf o with
  | .mbx _, _ => e
  | _, some w =>
    if w.run.isSome ∧ e.dma.faultTimeout * 1000000 * 25 ≤ w.elapsed e.now * 64 then
      match e.expired o w with
      | some a => e.xltFail o a
      | none => e
    else e
  | _, none => e

/-- A TRANSLATE unanswered for 50 ms: source 25, and its objects enter ERROR with cause TIMEOUT (R198). -/
def Eng.xltTimeout (e : Eng) (tag : Fin 512) : Eng :=
  match e.dma.xreqs.find? (fun r => decide (r.tag = tag)) with
  | none => e
  | some r =>
    let e := { e with dma := { e.dma with xreqs := e.dma.xreqs.filter (fun r => !decide (r.tag = tag)) } }
    let mine (b : Blocked) : Bool := decide (b.st = .waiting) && r.serves b.acc
    let l : List Acc := (e.dma.blocked.filter mine).map (·.acc)
    let e := e.raiseEv (mkEv 25 .failure 0 r.fn.val 5 (r.vpn * 4096))
    let e := { e with dma := { e.dma with blocked := e.dma.blocked.filter (fun b => !(mine b && b.acc.owner.obj.isNone)) } }
    let e := e.faultEach l (fun e _ => e) (fun e o a => match o with
      | .carry c => e.carryError c { a with grp := (e.chan c).grp }
      | .txq _ | .rxq _ | .eq _ | .mbx _ => e.xltFailed o a 3)
    e.takePlaces.pageAskAll

/-! ### Invalidations -/

/-- An invalidation's scope takes in a page range of a function and PASID (R201). -/
def InvScope.hits (s : InvScope) (f : Fn) (pasid vpn n : Nat) : Bool :=
  match s with
  | .range g q v k => decide (f = g ∧ pasid = q.toNat ∧ vpn < v.toNat + k ∧ v.toNat < vpn + n)
  | .pasid g q => decide (f = g ∧ pasid = q.toNat)
  | .func g => decide (f = g)
  | .all => true

/-- An INVALIDATE message (R201): matching entries go, the requests sent with them are waited for, and an access that has
a removed translation and is not sent yet is looked up again. -/
def Eng.invalidate (e : Eng) (tag : Fin 32) (s : InvScope) : Eng :=
  let hit (x : XEnt) : Bool := InvScope.hits s x.fn x.pasid x.vpn (pageBytes x.size / 4096)
  let out := e.dma.cache.filter hit
  let due (a : Acc) : Bool := a.pa.isSome &&
    (InvScope.hits s a.fn a.pasid (a.addr / 4096) 1 || out.any (fun x => x.covers a.fn a.pasid a.addr))
  let w := (e.dma.outst.filter (fun o => due o.acc)).map (fun o => (o.port.val, o.tag.val))
  let again := e.dma.queue.filter due
  let e := ({ e with dma := { e.dma with cache := e.dma.cache.filter (fun x => !hit x)
                                         queue := e.dma.queue.filter (fun a => !due a)
                                         invals := e.dma.invals ++ [({ tag := tag, waits := w } : Inval)] } }).xcnt
    (fun c => { c with invals := sat64 (c.invals + 1) })
  foldEng again (fun e a => e.access { a with pa := none }) e

/-- INVALIDATION_ACK: every request that used a removed translation has its response (R201). -/
def Eng.invAck (e : Eng) (tag : Fin 32) : Eng :=
  match takeFirst (fun (i : Inval) => decide (i.tag = tag) && i.waits.isEmpty) e.dma.invals with
  | some (_, r) => ({ e with dma := { e.dma with invals := r } }).emit (.invAck tag)
  | none => e

/-! ### Responses on the DMA master ports -/

/-- An object's accesses are given up, and the responses to those sent will be ignored: their operation number
becomes 0 (R189, R194). -/
def Eng.forget (e : Eng) (o : FObj) : Eng :=
  let e := e.abandon o
  let out := e.dma.outst.map (fun (x : Outst) =>
    if decide (x.acc.owner.obj = some o) && !e.onWire x.acc.grp then { x with acc := { x.acc with grp := 0 } } else x)
  { e with dma := { e.dma with outst := out } }

/-- READ_DATA with the whole of a request's lines (R491). -/
def Eng.readData (e : Eng) (m : Fin 4) (tag : Fin 1024) (bytes : List Byte) : Eng :=
  match e.takeOutst m tag AccKind.isRead with
  | none => e
  | some (o, e) =>
    let a := o.acc
    if a.grp = 0 then e
    else
      let e := e.readLatency o
      match a.owner with
      | .txData q id => e.txDataIn q id a bytes
      | .carryRead c => e.carryData c a bytes
      | .carryList c => e.carryListData c a bytes
      | .mbxReq f =>
        let e := e.addPart a bytes
        if e.busy a.grp then e
        else
          let d := e.readSoFar a.grp
          let e := { e with dma := { e.dma with bufs := e.dma.bufs.filter (fun b => b.grp != a.grp) } }
          e.modFn f (fun x => { x with cmd := x.cmd.map (fun c => if c.st = .fetching then { c with params := ofLE d, st := .ready } else c) })
      | _ => e

/-- The data of a frame is in memory: its lines are free, its completion is due in order, and the next frame is
placed (R176, R180, R214). -/
def Eng.rxDataDone (e : Eng) (q : RxqId) (g : Nat) : Eng :=
  if g = 0 ∨ e.busy g then e
  else match e.rxq q with
    | none => e
    | some x =>
      match x.placed.find? (fun r => r.grp == g) with
      | none => e
      | some r =>
        let e := e.setRxq q (some { x with placed := x.placed.map (fun r => if r.grp = g then { r with dataDone := true } else r) })
        let e := Eng.rxCompleteAll q x.placed.length (e.rxFree r.fr)
        (e.rxPlaceNext q).rxDrainNext q

/-- WRITE_DONE (R180, R493). -/
def Eng.writeDone (e : Eng) (m : Fin 4) (tag : Fin 1024) : Eng :=
  match e.takeOutst m tag (fun k => !k.isRead) with
  | none => e
  | some (o, e) =>
    let a := o.acc
    if a.grp = 0 then e
    else match a.owner with
      | .txCompl q => (e.modTxq q (fun x => { x with uncovered := true })).txEvent q
      | .rxData q _ => e.rxDataDone q a.grp
      | .rxCompl q =>
        let ty := u8 a.data 0 / 2 % 4
        let e := e.modRxq q (fun x => { x with
          uncovered := if ty = 0 then x.uncovered + 1 else x.uncovered
          uncovClose := x.uncovClose || decide (2 ≤ ty), uncovSince := some (x.uncovSince.getD e.now) })
        e.rxEvent q false
      | .event i => e.eventDone i a.grp
      | .mbxRsp f =>
        if e.busy a.grp then e
        else match (e.fn f).cmd.bind (·.held) with
          | some (s, d, n) => e.finishMbx f s d n 2 []
          | none => e
      | .carryWrite c => e.carryWritten c a
      | _ => e

/-- What a failed access does to its owner (R191, R45, R369); `cause` 3 for a completion timeout, 0 for a bus error. -/
def Eng.accFailed (e : Eng) (a : Acc) (cause : Nat) : Eng :=
  let c (k : Nat) : Nat := if cause = 0 then k else cause
  if a.grp = 0 then e
  else match a.owner with
  | .txDesc q => e.txError q (c 1)
  | .txData q id => if cause = 0 then e.txDataError q id a.grp else e.txError q cause
  | .txXlt q _ => e.txError q (c 1)
  | .txCompl q => e.txError q (c 2)
  | .rxPost q => e.rxError q (c 1)
  | .rxData q _ | .rxCompl q => e.rxError q (c 2)
  | .event i => e.eqError i (c 2)
  | .mbxReq f | .mbxRsp f => e.mbxFault f
  | .carryList k | .carryRead k | .carryWrite k | .carryRecord k => e.carryError k a
  | .rxXlt _ | .sample | .trailer _ | .bandwidth | .lease => e.lostRecord a

/-- An ERROR response: source 24 (R191). -/
def Eng.dmaError (e : Eng) (m : Fin 4) (tag : Fin 1024) : Eng :=
  match e.takeOutst m tag (fun _ => true) with
  | none => e
  | some (o, e) =>
    let a := o.acc
    (e.raiseEv (mkEv 24 .failure m.val a.master (a.owner.access a.kind) a.sent)).accFailed a 0

/-- A request unanswered for 50 ms: source 25 (R492). -/
def Eng.dmaTimeout (e : Eng) (m : Fin 4) (tag : Fin 1024) : Eng :=
  match e.takeOutst m tag (fun _ => true) with
  | none => e
  | some (o, e) =>
    let a := o.acc
    (e.raiseEv (mkEv 25 .failure m.val a.master (a.owner.access a.kind) a.sent)).accFailed a 3

/-! ### Entries read -/

/-- Doorbells that a queue has gone past. -/
def Txq.pruneBells (x : Txq) : Txq :=
  let s := x.fetched - BitVec.ofNat 16 x.partials.length
  { x with bells := x.bells.filter (fun b => decide (b.1 ≠ s ∧ (b.1 - s).toNat ≤ (x.prod - s).toNat)) }

/-- DESC_READS (R457). -/
def Eng.talDescs (e : Eng) (d : TDir) (f : Fn) (addr n : Nat) : Eng :=
  e.tal { code := 0x202, inc := n, dir := some d, fn := some f, addr := some addr }

/-- TX_DESCRIPTORS_READ: the descriptors of a read come back (R159, R164). -/
def Eng.txDescs (e : Eng) (q : TxqId) (ds : List (BitVec 128)) (hdrs : List (List Byte)) : Eng :=
  match e.txq q with
  | none => e
  | some x =>
    let n := x.fetching
    if n = 0 ∨ ds.length < n ∨ e.unsent x.fetchGrp then e
    else
      let e := (e.endReads (fun a => a.grp == x.fetchGrp && decide (a.owner = .txDesc q))).talDescs .tx x.fn (x.base + 16 * (x.fetched.toNat % x.size)) n
      let x := { x with partials := x.partials ++ (ds.take n).map (fun d => (d, e.profile (fld d.toNat 88 8))), fetched := x.fetched + BitVec.ofNat 16 n, fetching := 0 }
      let e := Eng.parseChains q (x.partials.length + 1) hdrs (e.setTxq q (some x))
      (e.modTxq q Txq.pruneBells).txFetch q

/-- A post entry's buffer, none where it breaks R173. -/
def postBuf (idx : BitVec 16) (w : BitVec 64) : Option PostBuf :=
  let n := w.toNat
  if 4 < fld n 0 3 ∨ fld n 3 9 ≠ 0 then none
  else some { idx := idx, addr := fld n 12 52 * 4096, size := 4096 * 2 ^ fld n 0 3 }

/-- Buffers of post entries up to the first that breaks R173, and whether one does. -/
def postBufs : BitVec 16 → List (BitVec 64) → List PostBuf × Bool
  | _, [] => ([], true)
  | i, w :: t =>
    match postBuf i w with
    | none => ([], false)
    | some b =>
      let (l, ok) := postBufs (i + 1) t
      (b :: l, ok)

/-- The pages of posted buffers are looked up as their entries are read (R202). A fault is met only by a data
write (R211). -/
def Eng.lookPosts (e : Eng) (q : RxqId) (x : Rxq) (l : List PostBuf) : Eng :=
  foldEng l (fun e b =>
    foldEng (upTo (b.size / 4096)) (fun e k =>
      e.access { owner := .rxXlt q, fn := x.fn, pasid := x.pasid, addr := b.addr + 4096 * k, len := 1, kind := .write }) e) e

/-- RX_POST_ENTRIES_READ: post entries come back (R159, R173). -/
def Eng.rxPosts (e : Eng) (q : RxqId) (ws : List (BitVec 64)) : Eng :=
  match e.rxq q with
  | none => e
  | some x =>
    let n := x.fetching
    if n = 0 ∨ ws.length < n ∨ e.unsent x.fetchGrp then e
    else
      let e := (e.endReads (fun a => a.grp == x.fetchGrp && decide (a.owner = .rxPost q))).talDescs .rx x.fn (x.base + 8 * (x.fetched.toNat % x.size)) n
      let (l, ok) := postBufs x.fetched (ws.take n)
      let e := e.setRxq q (some { x with posted := x.posted ++ l, fetched := x.fetched + BitVec.ofNat 16 n, fetching := 0 })
      if ok then (((e.lookPosts q x l).rxFetch q).rxPlaceNext q).rxDrainNext q else e.rxError q 4

/-! ### Timers of rings -/

/-- PACK_TIMEOUT: the open buffer is closed (R175), after the completion of the last frame in it; PACK_TIMEOUT 0 never
closes one (R172). -/
def Eng.packClose (e : Eng) (q : RxqId) : Eng :=
  match e.rxq q with
  | none => e
  | some x =>
    match x.cur with
    | none => e
    | some o =>
      if x.packTimeout = 0 then e else
      let e := e.setRxq q (some { x with cur := none })
      match x.placed.reverse with
      | [] => e.rxClose q o.buf.idx
      | r :: t => e.setRxq q (some { x with cur := none, placed := (({ r with closeAfter := some o.buf.idx } : RxPlaced) :: t).reverse })

/-- EQ_MOD_TIME: the oldest unconsumed event is MOD_TIME old (R185). -/
def Eng.modRaise (e : Eng) (i : EqId) : Eng :=
  match e.eq_ i with
  | none => e
  | some q =>
    if q.armed.isSome ∧ q.modTime ≠ 0 ∧ q.evs.any (·.seen) then (e.setEq i (some { q with armed := none })).irqOpt q.fn q.vector
    else e

/-- ANCHOR_TIMER: a second without an ANCHOR on an idle ring (R178). -/
def Eng.anchorTimer (e : Eng) (q : RxqId) : Eng :=
  match e.rxq q with
  | none => e
  | some x => if x.rxTs ∧ x.anchorAt.isSome ∧ x.anchorLast = false ∧ x.state = .running then e.rxAnchor q else e

end Sys2Proof.Machine
end

