-- ==== Sys2Proof/Machine/SchedOps.lean ====
section
/-! DEFINITION. SchedOps.lean: refills of the Dealer's buckets and its sampler (10_dealer.md R298 to R308). -/
namespace Sys2Proof.Machine

/-- One refill of a bucket, in the order of R299. -/
def DObj.refill (x : DObj) : DObj :=
  let s := x.shadow.getD x.sh
  let x := { x with sh := s, shadow := none, tokens := if s.en ∧ x.sh.en = false then 125 * (s.burst : Int) else x.tokens }
  let x := if x.forgive then { x with tokens := max x.tokens 0, forgive := false } else x
  if x.sh.en then { x with tokens := min (125 * (x.sh.burst : Int)) (x.tokens + x.sh.rate) } else x

/-- SHAPER_REFILL: none while PD_SCH is gated (R308). -/
def Eng.shaperRefill (e : Eng) (o : DObjId) : Eng :=
  match o with
  | .root _ => e
  | .leaf _ | .node _ => if e.dataOn ∧ (e.dobj o).live then e.modDobj o DObj.refill else e

/-- PACING_REFILL: the bytes the port's lanes in service carry in 64 ns, up to the cap (R303). -/
def Eng.pacingRefill (e : Eng) (p : PortId) : Eng :=
  if e.dataOn ∧ e.isPort p then
    let r := e.root p
    e.setRoot p { r with pacing := min 32768 (r.pacing + 1600 * ((e.port p).txLanes : Int)) }
  else e

/-- The queue sampled next: the first existing one of the range from the sampler's place on, then from its start
(R305). -/
def Eng.sampleQueue (e : Eng) : Option TxqId :=
  let d := e.dealer
  let l := (e.txqList.map (·.1)).filter (fun q => decide (d.sampleFirst ≤ q.val ∧ q.val < d.sampleFirst + d.sampleCount))
  match l.find? (fun q => decide (d.sampleNext ≤ q.val)) with
  | some q => some q
  | none => l.head?

/-- A sample record (R306). -/
def Eng.sampleBytes (e : Eng) (q : TxqId) (x : Txq) (phase : Nat) : List Byte :=
  let open_ := x.frames.filter (fun f => match f.st with
    | .done _ => false
    | .lookup | .offered | .granted => true)
  let age := match open_ with
    | f :: _ => min (edgesNs (e.now - f.bell)) 0xFFFFFFFF
    | [] => 0
  bytesLE 1 phase ++ bytesLE 1 (x.port.val + 16 * x.tc.val) ++ bytesLE 2 q.val ++ bytesLE 2 x.fn.val ++ bytesLE 2 x.loc ++
  bytesLE 4 (min (open_.foldl (fun s f => s + f.supplied) 0) 0xFFFFFFFF) ++ bytesLE 2 open_.length ++
  bytesLE 2 (x.prod - x.fetched).toNat ++ bytesLE 4 age ++ bytesLE 4 e.dealer.sampleSeq.toNat ++
  bytesLE 1 (e.leafCode q) ++ zeros 3 ++ bytesLE 4 (e.tb0 % 2 ^ 32)

/-- SAMPLER_SAMPLE: one sample (R305 to R307). -/
def Eng.sample (e : Eng) : Eng :=
  if e.dealer.sampleEn = false ∨ e.dataOn = false then e
  else
    match e.sampleQueue with
    | none => e
    | some q =>
      match e.txq q with
      | none => e
      | some x =>
        let r := e.dealer.ring
        let b := e.sampleBytes q x (phaseBit r.count r.size)
        let e := { e with dealer := { e.dealer with sampleNext := q.val + 1, sampleSeq := e.dealer.sampleSeq + 1
                                                    ring := { r with count := r.count + 1 } } }
        (e.writeRecord .sample r.fn r.pasid (r.base + 32 * (r.count % r.size)) b).2

/-- The Dealer's state that a wake does not keep: pacing buckets, grant windows and the sampler's SEQ (R308). -/
def Eng.dealerWake (e : Eng) : Eng :=
  let e := { e with dealer := { e.dealer with sampleSeq := 0 } }
  foldEng allSlots (fun e p => e.setRoot p { e.root p with pacing := 0, window := 0 }) e

end Sys2Proof.Machine
end

