-- ==== Sys2Proof/Machine/DeckOps.lean ====
section
/-! DEFINITION. DeckOps.lean: arming, cutting and clearing a port's gate control list
(12_deck_launch.md R338 to R345). -/
namespace Sys2Proof.Machine

/-- N and the cut time of an admin list armed at linear time `a` of its base (R342). -/
def GateList.cutAfter (l : GateList) (a : Nat) : Nat × Nat :=
  let n := ceilDiv (a + 10000 - l.base) l.cycle
  (n, l.base + n * l.cycle)

/-- Extension and truncation in ns that the pending cut of a port applies (R343). -/
def Eng.cutEffect (e : Eng) (d : Deck) : Nat × Nat :=
  match d.oper, d.admin with
  | some o, some a =>
    let t : Int := d.cut + ((e.tb o.tb).linear - (e.tb a.tb).linear : Int)
    let r := (o.cutPart t).2
    if r ≤ a.ext then (r, 0) else (0, r)
  | _, _ => (0, 0)

/-- The gates that the schedule opens at the present time, one bit per class (R340). -/
def Eng.gatesNow (e : Eng) (p : PortId) : BitVec 8 :=
  let (s, b) := e.sched p
  let t : Int := (e.tb b).linear
  BitVec.ofNat 8 (pack ((upTo 8).map (fun c => (b2n (s.at c t).1, 1))))

/-- GATE_ENTRY_CHANGE: the gates take the state of the schedule (R340). -/
def Eng.gateUpdate (e : Eng) (p : PortId) : Eng :=
  let g := e.gatesNow p
  e.modPort p (fun x => { x with deck := { x.deck with gates := g } })

/-- DECK_SET arms an admin list: the cut is computed from now (R342, R344, R345). -/
def Eng.deckArm (e : Eng) (p : PortId) (l : GateList) : Eng :=
  let (n, t) := l.cutAfter (e.tb l.tb).linear
  e.modPort p (fun x => { x with deck := { x.deck with
    admin := some l, cut := t, cutN := n
    st := match x.deck.st with
      | .none | .pending => .pending
      | .operational | .operPending | .clearing => .operPending } })

/-- DECK_CUT: the admin list becomes the operational list (R342, R343, R345). `stepped`: a step has passed the cut's
time, and the old cycle is truncated whatever CYCLE_EXT says (R355). -/
def Eng.deckCut (e : Eng) (p : PortId) (stepped : Bool) : Eng :=
  let d := (e.port p).deck
  match d.admin with
  | none => e
  | some a =>
    let (x, t) := if stepped then (0, (d.oper.map (fun o => o.off (e.tb o.tb).linear)).getD 0) else e.cutEffect d
    let e := e.modPort p (fun y => { y with deck := { d with
      st := .operational, oper := some a, operFrom := d.cut, admin := none
      cuts := sat64 (d.cuts + 1)
      extensions := sat64 (d.extensions + if 0 < x then 1 else 0)
      truncations := sat64 (d.truncations + if 0 < t then 1 else 0) } })
    e.gateUpdate p

/-- The Decks after a step or add of base `n`, or its return from holdover (R355). -/
def Eng.deckStepped (e : Eng) (n : TbId) : Eng :=
  foldEng e.portList (fun e p =>
    let d := (e.port p).deck
    let e := match d.admin with
      | some a => if a.tb = n ∧ d.cut ≤ (e.tb n).linear then e.deckCut p true else e
      | none => e
    if (e.port p).deck.oper.isSome then e.gateUpdate p else e) e

/-- DECK_CLEAR (R344, R345). -/
def Eng.deckClear (e : Eng) (p : PortId) : Eng :=
  let d := (e.port p).deck
  match d.oper with
  | none => e.setPort p { e.port p with deck := { d with st := .none, admin := none, gates := 0xFF } }
  | some o =>
    if d.st = .clearing then e
    else
      let a := (e.tb o.tb).linear + 10000
      let r := o.off a
      let at_ := if r = 0 then a else a + (o.cycle - r)
      e.setPort p { e.port p with deck := { d with st := .clearing, admin := none, clearAt := at_ } }

/-- DECK_CLEAR_POINT: every gate opens (R344). -/
def Eng.deckClearPoint (e : Eng) (p : PortId) : Eng :=
  let x := e.port p
  if x.deck.st = .clearing then
    e.setPort p { x with deck := { x.deck with st := .none, oper := none, gates := 0xFF } }
  else e

end Sys2Proof.Machine
end

