-- ==== Sys2Proof/Machine/TimeOps.lean ====
section
/-! DEFINITION. TimeOps.lean: the time bases, pulse outputs, capture inputs and time-stamp queues
(11_time.md R311 to R337). -/
namespace Sys2Proof.Machine

/-! ### Increments -/

/-- Units of 2^-32 ns in a second. -/
def secUnits : Nat := 1000000000 * 4294967296

/-- The time with a signed number of units of 2^-32 ns added; SEC wraps at 64 bits. -/
def TimeBase.addUnits (t : TimeBase) (u : Int) : TimeBase :=
  let v : Int := (t.sec * secUnits + t.ns * 4294967296 + t.sub : Nat) + u
  let w := (v % ((18446744073709551616 * secUnits : Nat) : Int)).toNat
  { t with sec := w / secUnits, ns := w % secUnits / 4294967296, sub := w % 4294967296 }

/-- The nominal increment at phase `p`: 2.56 ns, the further unit at 19 of 25 phases (R312). -/
def nominal (p : Nat) : Nat := 2 * 4294967296 + 2405181685 + if 6 ≤ 19 * p % 25 then 1 else 0

/-- Slew in one edge at `ppm` parts per million, in units, rounded down (R318, log entry 23). -/
def slewUnits (ppm : Nat) : Nat := ppm * 1099511627776 / 100000000

/-- The slew term of an edge: what is left where that is less (R318). -/
def TimeBase.slewStep (t : TimeBase) : Int :=
  if !t.slewing then 0
  else
    let s : Int := slewUnits t.ppm
    if 0 ≤ t.left then min s t.left else max (-s) t.left

/-- One CLK_TS edge of a base (R312, R318). -/
def TimeBase.tick (t : TimeBase) (p : Nat) : TimeBase :=
  let s := t.slewStep
  let left := t.left - s
  let t := { t with left := left, slewing := t.slewing && decide (left ≠ 0) }
  t.addUnits (nominal p + t.freq + s)

/-- Nominal units of `n` edges from phase `p` on. -/
def nominals : Nat → Nat → Nat
  | 0, _ => 0
  | n + 1, p => nominal (p % 25) + nominals n (p + 1)

/-- One CLK_AON edge of a base in holdover: the increments of the 40 CLK_TS edges it spans (R321). -/
def TimeBase.hold40 (t : TimeBase) (p : Nat) : TimeBase := t.addUnits (nominals 40 p + 40 * t.freq)

/-- The four time bases. -/
def allTbs : List TbId := (upTo 4).map (fin 4)

/-! ### TIME events -/

/-- A TIME event for the CONTROL event queue of a function (R336). -/
def Eng.timeEvent (e : Eng) (f : Fn) (code object data : Nat) : Eng := e.ctlEvent f 8 code object data

/-- Functions whose TIME_BASE is a base (R153). -/
def Eng.fnsOfTb (e : Eng) (n : TbId) : List Fn :=
  let l := (e.fns.rows.filter (fun r => decide (r.2.timeBase = some n))).map (fun r => fin 2048 r.1)
  if (e.fn 0).timeBase = some n ∧ l.contains 0 = false then 0 :: l else l

/-- A TIME event for F0 and every function that uses a base (R336). -/
def Eng.timeEventTb (e : Eng) (n : TbId) (code data : Nat) : Eng :=
  let l := e.fnsOfTb n
  foldEng (if l.contains 0 then l else 0 :: l) (fun e f => e.timeEvent f code n.val data) e

/-- TIME_BASE_INCREMENT: a CLK_TS edge (R312). There is none while the bases are held over. -/
def Eng.timeTick (e : Eng) : Eng :=
  if e.time.holdover.isSome ∨ e.pwr.pll = false then e
  else
    let p := e.time.phase
    let done := allTbs.filter (fun n => (e.tb n).slewing && !((e.tb n).tick p).slewing)
    let e := foldEng allTbs (fun e n => e.modTb n (fun t => t.tick p)) e
    let e := { e with time := { e.time with phase := (p + 1) % 25, clk := e.time.clk + 1 } }
    foldEng done (fun e n => e.timeEvent 0 6 n.val 0) e

/-- HOLDOVER_INCREMENT: a CLK_AON edge while the bases are held over (R321). -/
def Eng.holdTick (e : Eng) : Eng :=
  if e.time.holdover.isNone then e
  else
    let p := e.time.phase
    let e := foldEng allTbs (fun e n => e.modTb n (fun t => t.hold40 p)) e
    { e with time := { e.time with phase := (p + 40) % 25, clk := e.time.clk + 40 } }

/-! ### Pulse outputs -/

/-- Pulse output `k` (R323). -/
def Eng.ppo (e : Eng) (k : Fin 8) : Ppo := e.time.ppo.get {} k.val
/-- The engine with pulse output `k` set. -/
def Eng.setPpo (e : Eng) (k : Fin 8) (v : Ppo) : Eng := { e with time := { e.time with ppo := e.time.ppo.put {} k.val v } }

/-- Register offset of pulse output `k` in the engine window (R314). -/
def ppoOff (k : Fin 8) : Nat := 0x41000 + 0x40 * k.val

/-- START in linear ns (R323). -/
def Ppo.start (x : Ppo) : Nat := x.startSec * 1000000000 + x.startNs

/-- A pulse in progress ends: the output goes to its inactive level (R324). -/
def Eng.pulseEnd (e : Eng) (k : Fin 8) : Eng :=
  let x := e.ppo k
  if x.active then (e.setPpo k { x with active := false }).emit (.pulse k x.polarity) else e

/-- An output is aligned to the time of its base (R324): PERIODIC to its next edge not in the past, ONCE to START, or
to a missed pulse where START lies in the past. -/
def Eng.pulseAlign (e : Eng) (k : Fin 8) : Eng :=
  let e := e.pulseEnd k
  let x := e.ppo k
  let t := (e.tb x.tb).linear
  if x.mode = 2 then
    e.setPpo k { x with next := some (if t ≤ x.start then x.start else x.start + ceilDiv (t - x.start) x.period * x.period) }
  else if x.mode = 1 then
    if t ≤ x.start then e.setPpo k { x with next := some x.start }
    else (e.setPpo k { x with mode := 0, next := none, missed := true }).timeEvent 0 5 k.val 0
  else e.setPpo k { x with next := none }

/-- WIDTH and PERIOD are in range for a mode (R323). -/
def Ppo.inRange (x : Ppo) (mode : Nat) : Bool :=
  decide (6 ≤ x.width ∧ 16 ≤ x.period) && (mode != 2 || decide (x.width + 6 ≤ x.period))

/-- PPO_MODE_SET (R323, R324): a reserved mode, or one whose WIDTH or PERIOD is out of range, is ignored. -/
def Eng.ppoMode (e : Eng) (k : Fin 8) (mode : Nat) : Eng :=
  let x := e.ppo k
  if mode = 0 then
    let e := e.pulseEnd k
    e.setPpo k { e.ppo k with mode := 0, next := none }
  else if mode = 3 ∨ x.inRange mode = false then e.badAccess 0 (ppoOff k)
  else
    let e := e.setPpo k { x with mode := mode }
    if e.time.holdover.isSome then e else e.pulseAlign k

/-- PULSE_EDGE: the next edge of an output (R324). -/
def Eng.pulseEdge (e : Eng) (k : Fin 8) : Eng :=
  let x := e.ppo k
  match x.next with
  | none => e
  | some t =>
    if e.time.holdover.isSome then e
    else if x.active then
      let x := if x.mode = 2 then { x with active := false, next := some (t + x.period - x.width) }
        else { x with active := false, mode := 0, next := none }
      (e.setPpo k x).emit (.pulse k x.polarity)
    else (e.setPpo k { x with active := true, next := some (t + x.width) }).emit (.pulse k (!x.polarity))

/-! ### Steps, adds, slews and snapshots -/

/-- Register offset of base `n` in the engine window (R314). -/
def tbOff (n : TbId) : Nat := 0x40000 + 0x100 * n.val

/-- Launch times of queues that use a base are tested again (R355). -/
def Eng.launchAgain (e : Eng) (n : TbId) : Eng :=
  foldEng (e.txqList.filter (fun r => decide (e.txBase r.2.fn = n))) (fun e r =>
    (e.modTxq r.1 (fun x => { x with frames := x.frames.map (fun f => { f with headSeen := false }) })).txHead r.1 false) e

/-- What follows a step or add of a base (R319, R355). -/
def Eng.stepped (e : Eng) (n : TbId) (data : Nat) : Eng :=
  let fs := e.fnsOfTb n
  let e := foldEng e.rxqList (fun e r => if fs.contains r.2.fn then e.modRxq r.1 (fun x => { x with anchorDue := true }) else e) e
  let e := e.timeEventTb n 2 data
  let e := foldEng ((upTo 8).map (fin 8)) (fun e k => if (e.ppo k).tb = n ∧ (e.ppo k).mode ≠ 0 then e.pulseAlign k else e) e
  (e.deckStepped n).launchAgain n

/-- A base after a step or add to a time: DEGRADED clear, no slew, STEP_COUNT up by 1 (R316). -/
def TimeBase.jump (t : TimeBase) (sec ns sub : Nat) : TimeBase :=
  { t with sec := sec, ns := ns, sub := sub, degraded := false, left := 0, slewing := false, stepCount := t.stepCount + 1 }

/-- TB_SNAP (R316). -/
def Eng.tbSnap (e : Eng) (n : TbId) : Eng := e.modTb n (fun t => { t with snapNs := t.ns, snapSub := t.sub, snapSec := t.sec })

/-- TB_STEP (R316). -/
def Eng.tbStep (e : Eng) (n : TbId) : Eng := (e.modTb n (fun t => t.jump t.setSec t.setNs 0)).stepped n 0

/-- A signed count of ns as the DATA of a STEPPED event (R336). -/
def satInt32 (v : Int) : Nat := unsigned 32 (max (-2147483648) (min 2147483647 v))

/-- TB_ADD (R316): ignored where the result would be below zero. -/
def Eng.tbAdd (e : Eng) (n : TbId) : Eng :=
  let t := e.tb n
  let v : Int := (t.sec * 1000000000 + t.ns : Nat) + t.offset
  if v < 0 then e.badAccess 0 (tbOff n)
  else
    let w := v.toNat
    (e.setTb n (t.jump (w / 1000000000 % 18446744073709551616) (w % 1000000000) t.sub)).stepped n (satInt32 t.offset)

/-- SLEW_GO (R318): with AMOUNT 0 the slew is over at once. -/
def Eng.slewGo (e : Eng) (n : TbId) : Eng :=
  let t := e.tb n
  if t.amount = 0 then (e.setTb n { t with left := 0, slewing := false }).timeEvent 0 6 n.val 0
  else e.setTb n { t with left := t.amount * 4294967296, slewing := true }

/-- SLEW_STOP: the remainder stays in LEFT (R318). -/
def Eng.slewStop (e : Eng) (n : TbId) : Eng := e.modTb n (fun t => { t with slewing := false })

/-- The actions of one write of TSU_TB_CTRL, in the order of R320. -/
def Eng.tbCtrl (e : Eng) (n : TbId) (v : Nat) : Eng :=
  let e := if bitAt v 0 then e.tbSnap n else e
  let e := if bitAt v 1 then e.tbStep n else e
  let e := if bitAt v 2 then e.tbAdd n else e
  let e := if bitAt v 4 then e.slewStop n else e
  if bitAt v 3 then e.slewGo n else e

/-! ### Holdover -/

/-- Holdover begins (R321, R324): slews end, outputs rest at their inactive level, time-stamp queues are lost (R333). -/
def Eng.holdBegin (e : Eng) : Eng :=
  if e.time.holdover.isSome then e
  else
    let e := foldEng allTbs (fun e n => e.slewStop n) e
    let e := foldEng ((upTo 8).map (fin 8)) (fun e k => e.pulseEnd k) e
    { e with time := { e.time with holdover := some e.time.clk, tsq := {
      rows := e.time.tsq.rows.filterMap (fun r => if r.2.ovf = 0 ∧ r.2.exp = 0 then none else some (r.1, { r.2 with ents := [] })) } } }

/-- Return from holdover (R322, R324, R355). -/
def Eng.holdEnd (e : Eng) : Eng :=
  match e.time.holdover with
  | none => e
  | some t =>
    let ms := min (edgesNs (e.now - t) / 1000000) 0xFFFFFFFF
    let e := { e with time := { e.time with holdover := none } }
    foldEng allTbs (fun e n =>
      let e := (e.modTb n (fun t => { t with degraded := true })).timeEventTb n 3 ms
      let e := foldEng ((upTo 8).map (fin 8)) (fun e k => if (e.ppo k).tb = n ∧ (e.ppo k).mode ≠ 0 then e.pulseAlign k else e) e
      (e.deckStepped n).launchAgain n) e

/-! ### Captures and the 1PPS input -/

/-- Capture input `k` (R325). -/
def Eng.cap (e : Eng) (k : Fin 8) : Cap := e.time.cap.get {} k.val
/-- The engine with capture input `k` set. -/
def Eng.setCap (e : Eng) (k : Fin 8) (v : Cap) : Eng := { e with time := { e.time with cap := e.time.cap.put {} k.val v } }

/-- CAPTURE_EDGE (R325). -/
def Eng.capture (e : Eng) (k : Fin 8) (rise : Bool) : Eng :=
  let x := e.cap k
  if e.time.holdover.isSome ∨ (if rise then x.rise else x.fall) = false then e
  else if 16 ≤ x.queue.length then e.setCap k { x with drops := sat64 (x.drops + 1) }
  else
    let t := e.tb x.tb
    let c : CapEnt := { sec := t.sec % 2 ^ 48, ns := t.ns, frac := t.sub / 268435456, rise := rise, tb := x.tb }
    let e := e.setCap k { x with queue := x.queue ++ [c] }
    if x.eventEn ∧ x.queue = [] then e.timeEvent 0 4 k.val 1 else e

/-- CAPTURE_READ: the value of TSU_CAP_LO, and the engine after the read (R325). -/
def Eng.capRead (e : Eng) (k : Fin 8) : Nat × Eng :=
  let x := e.cap k
  match x.queue with
  | [] => (0, e)
  | c :: r =>
    (pack [(c.ns, 32), (c.frac, 4), (b2n c.rise, 1), (1, 1), (c.tb.val, 2), (r.length, 5)],
     e.setCap k { x with queue := r, hi := c.sec })

/-- PPS_EDGE (R326). -/
def Eng.ppsEdge (e : Eng) : Eng :=
  if e.time.ppsEn = false ∨ e.time.holdover.isSome then e
  else
    let at_ := allTbs.foldl (fun (t : Tab (Nat × Nat)) n => t.put (0, 0) n.val ((e.tb n).sec % 2 ^ 48, (e.tb n).ns)) e.time.ppsAt
    let e := { e with time := { e.time with ppsAt := at_, ppsCount := e.time.ppsCount + 1 } }
    if e.time.ppsEvent then e.timeEvent 0 4 8 0 else e

/-- PPS_READ: the value of TSU_PPS_LO[n]; its seconds are latched (R326). -/
def Eng.ppsRead (e : Eng) (n : TbId) : Nat × Eng :=
  let (s, ns) := e.time.ppsAt.get (0, 0) n.val
  let off := if ns < 500000000 then ns else unsigned 32 ((ns : Int) - 1000000000)
  (ns + off * 4294967296, { e with time := { e.time with ppsHi := e.time.ppsHi.put 0 n.val s } })

/-- TSQ_ENTRY_EXPIRY: the oldest entry of a port's queue has been unread for 1 s (R333). -/
def Eng.tsqExpire (e : Eng) (p : PortId) : Eng :=
  let q := e.time.tsq.get {} p.val
  match q.ents with
  | [] => e
  | _ :: r => { e with time := { e.time with tsq := e.time.tsq.put {} p.val { q with ents := r, exp := sat64 (q.exp + 1) } } }

end Sys2Proof.Machine
end

