-- ==== Sys2Proof/Machine/QuenchOps.lean ====
section
/-! DEFINITION. QuenchOps.lean: quench of a function and its release (02_control.md R34 to R42, 06_rings.md R193,
13_carry.md R372). -/
namespace Sys2Proof.Machine

/-- TX_STOPPED: no frame of function `f` is in progress on any port under quench (R38). -/
def Eng.txStopped (e : Eng) (f : Fn) : Bool :=
  (e.fn f).quenched && !(e.portList.any (fun p => (e.port p).wire.any (fun w => decide (w.fn = f))))

/-- A receive data write to function `f`. -/
def Acc.dataTo (a : Acc) (f : Fn) : Bool :=
  match a.owner with
  | .rxData _ _ => decide (a.fn = f)
  | _ => false

/-- RX_STOPPED: no receive data write to function `f` is in progress under quench, sent or still to be sent of a frame
that has started (R38, R193). The page that a parked frame waits for is no write in progress. -/
def Eng.rxStopped (e : Eng) (f : Fn) : Bool :=
  (e.fn f).quenched && !(e.dma.outst.any (fun o => o.acc.dataTo f) || e.dma.queue.any (fun a => a.dataTo f) ||
    e.dma.blocked.any (fun b => b.acc.dataTo f && b.acc.grp != 0))

/-- Bytes of operation `g` whose requests have not been sent. -/
def Eng.unsentLen (e : Eng) (g : Nat) : Nat :=
  let mine (l : List Acc) : Nat := ((l.filter (fun a => a.grp == g)).map (·.len)).foldl (· + ·) 0
  mine e.dma.queue + mine (e.dma.blocked.map (·.acc))

/-- Frames steered to a ring whose data write has not started are dropped by a quench (R193). One placed without a write
sent leaves the ring's buffers as they were, and goes back to the parked frames where a drain had taken it from there. -/
def Eng.quenchDrop (e : Eng) (q : RxqId) : Eng :=
  match e.rxq q with
  | none => e
  | some x =>
    let e := foldEng x.waiting (fun e r => e.rxFree r)
      (e.setRxq q (some { x with waiting := [], quenchDrops := sat64 (x.quenchDrops + x.waiting.length) }))
    match x.placed.find? (fun r => !r.dataDone && e.unsentLen r.grp == r.fr.bytes.length) with
    | none => e
    | some r =>
      let e := e.rxUnplace q r
      if r.fr.area = .parking then e.modRxq q (fun x => { x with parked := r.fr :: x.parked })
      else (e.modRxq q (fun x => { x with quenchDrops := sat64 (x.quenchDrops + 1) })).rxFree r.fr

/-- The fault timer of a ring whose drain a quench holds runs on (R218). -/
def Eng.quenchTimer (e : Eng) (q : RxqId) : Eng :=
  e.modWait (.rxq q) (fun w => if w.run.isSome then w else { w with run := some e.now })

/-- A function becomes quenched (R193, R372): granted frames not committed go back to their queue heads. -/
def Eng.quenchOn (e : Eng) (f : Fn) : Eng :=
  let e := foldEng e.portList (fun e p => e.ungrant p (fun g => ((e.txq g.q).map (fun x => decide (x.fn = f))).getD false)) e
  let e := foldEng (e.rxqList.filter (fun r => decide (r.2.fn = f))) (fun e r => (e.quenchDrop r.1).quenchTimer r.1) e
  e.carryQuench f

/-- A ring's work goes on as the quench of its owner is released: a drain it held resumes (R193, R218). -/
def Eng.rxRelease (e : Eng) (q : RxqId) : Eng :=
  let e := if (e.waitOf (.rxq q)).isSome ∧ (e.unitOf (.rxq q)).isEmpty then e.resolve (.rxq q) else e
  (e.rxDrainNext q).rxPlaceNext q

/-- A function's quench is released (R36, R193): work resumes from the recorded doorbells and queue heads. -/
def Eng.quenchOff (e : Eng) (f : Fn) : Eng :=
  let e := foldEng e.dma.queue (fun e _ => e.issueNext) e
  let e := foldEng (e.rxqList.filter (fun r => decide (r.2.fn = f))) (fun e r => e.rxRelease r.1) e
  (e.fetchFn f).carryRelease f

/-- The quench bits of function `f` take new values (R35, R37, R42). -/
def Eng.quenchTo (e : Eng) (f : Fn) (own admin : Bool) : Eng :=
  let was := (e.fn f).quenched
  let e := e.modFn f (fun x => { x with quench := own, admin := admin })
  let now := (e.fn f).quenched
  if now && !was then e.quenchOn f else if was && !now then e.quenchOff f else e

end Sys2Proof.Machine
end

