-- ==== Sys2Proof/Machine/LcpOps.lean ====
section
/-! DEFINITION. LcpOps.lean: the link control processor's threads, channels, restarts and debug controls
(14_lcp.md R376 to R391). -/
namespace Sys2Proof.Machine

/-- Threads T0 to T7. -/
def allThreads : List ThreadId := (upTo 8).map (fin 8)

/-- A thread changed. -/
def Eng.modThread (e : Eng) (t : ThreadId) (g : Thread → Thread) : Eng := e.setThread t (g (e.thread t))

/-- CLK_CTL cycles of a hold timer (R385): two in each CLK_TS edge (R20). -/
def Thread.holdNow (x : Thread) (now : Nat) : Nat :=
  x.holdTimer + (match x.holdSince with
    | some t => 2 * (now - t)
    | none => 0)

/-- A thread's hold timer stands still (R385). -/
def Thread.freeze (x : Thread) (now : Nat) : Thread := { x with holdTimer := x.holdNow now, holdSince := none }

/-- A FUNC_RESET in progress is given up: the quench it set is withdrawn (R52, R194). -/
def Eng.dropResets (e : Eng) : Eng :=
  foldEng ((e.fns.rows.map (fun r => fin 2048 r.1))) (fun e g =>
    match (e.fn g).resetting with
    | some had => (e.modFn g (fun x => { x with resetting := none })).quenchTo g (e.fn g).quench had
    | none => e) e

/-- Function `f`'s command in flight ends with a status, and what it still had under way is given up (R52, R55). -/
def Eng.cmdEnd (e : Eng) (f : Fn) (status detail : Nat) : Eng :=
  let e := if f = 0 then e.dropResets else e
  (e.forget (.mbx f)).finishMbx f status detail 0 0 []

/-! ### Restarts -/

/-- The LCP restarts (R382, R55): READY falls, and every thread and channel starts anew. -/
def Eng.lcpRestart (e : Eng) (cause : Nat) : Eng :=
  { e with
    ctl := { e.ctl with ready := false, restarting := true }
    lcp := { e.lcp with threads := {}, chnls := {}, notices := [], lastCause := cause, restarts := e.lcp.restarts + 1
                        lastRestart := e.tb0 } }

/-- MBX_STATUS.FW_RESTART of a function, and its interrupt (R46, R55). -/
def Eng.fwRestarted (e : Eng) (f : Fn) : Eng :=
  let e := e.modFn f (fun x => { x with fwRestart := true })
  let x := e.fn f
  let e := if x.irqRestart then e.irq f x.irqVec.toNat else e
  e.ctlEvent f 6 0 0 0

/-- T1 to T7, where they still are in RESET, are released (R377): the spec states no moment, and READY finds them released
(log entry 75, DESIGN CHOICE). -/
def Eng.releaseThreads (e : Eng) : Eng :=
  foldEng (allThreads.filter (fun t => decide (t ≠ 0) && decide ((e.thread t).state = .reset))) (fun e t =>
    e.modThread t (fun x => { x with state := .running })) e

/-- LCP_RESTART_READY: the end of a restart (R55, R382). -/
def Eng.lcpReady (e : Eng) : Eng :=
  if !e.ctl.restarting then e
  else
    let e := { e with ctl := { e.ctl with restarting := false } }
    let e := foldEng e.ctl.inflight (fun e f => e.cmdEnd f stTimeout 0) e
    let e := foldEng e.enabledFns (fun e f => e.fwRestarted f) e
    let e := e.releaseThreads
    { e with ctl := { e.ctl with ready := true }, lcp := { e.lcp with readyAt := e.now } }

/-! ### Channels -/

/-- Threads that wait on a channel and now may go on do so (R381). -/
def Eng.wakeChn (e : Eng) (c : ChnId) : Eng :=
  let x := e.chnl c
  foldEng allThreads (fun e t =>
    let y := e.thread t
    let st := if y.state = .haltedDebug then y.halted else y.state
    match y.waitChn with
    | some (d, w) =>
      let free := if w then x.part.isNone && decide (x.msgs.length < 4) else !x.msgs.isEmpty
      if d = c ∧ st = .waitChannel ∧ free = true then
        e.setThread t (if y.state = .haltedDebug then { y with halted := .running, waitChn := none }
          else { y with state := .running, waitChn := none })
      else e
    | none => e) e

/-- The partial message of a thread is discarded. -/
def Eng.dropPart (e : Eng) (t : ThreadId) : Eng :=
  let cs := ((upTo 32).map (fin 32)).filter (fun c => match (e.chnl c).part with
    | some (u, _) => decide (u = t)
    | none => false)
  let e := e.modThread t (fun x => { x with hold := none, holdTimer := 0, holdSince := none })
  foldEng cs (fun e c => (e.setChnl c { e.chnl c with part := none }).wakeChn c) e

/-- A thread may execute an access to a channel: it runs, or waits for that access. -/
def Thread.mayUse (x : Thread) (c : ChnId) (w : Bool) : Bool :=
  decide (x.state = .running) || (decide (x.state = .waitChannel) && decide (x.waitChn = some (c, w)))

/-- CHANNEL_WRITE (R381): a write that must wait is made again by the thread once it goes on. -/
def Eng.chnWrite (e : Eng) (t : ThreadId) (c : ChnId) (w : Word) (last : Bool) : Eng :=
  let y := e.thread t
  let x := e.chnl c
  if !y.mayUse c true ∨ e.pwr.ctlOn = false then e
  else
    let wait : Eng := e.setThread t { y with state := .waitChannel, waitChn := some (c, true) }
    let go (ws : List Word) : Eng :=
      let y := { y with state := .running, waitChn := none }
      if last then
        let e := e.setThread t { y with hold := none, holdTimer := 0, holdSince := none }
        (e.setChnl c { msgs := x.msgs ++ [ws ++ [w]], part := none }).wakeChn c
      else
        let y := if ws = [] then { y with hold := some c, holdTimer := 0, holdSince := some e.now } else y
        (e.setThread t y).setChnl c { x with part := some (t, ws ++ [w]) }
    match x.part with
    | some (u, ws) => if u ≠ t then wait else if 8 ≤ ws.length then e else go ws
    | none => if 4 ≤ x.msgs.length then wait else go []

/-- CHANNEL_READ (R381). -/
def Eng.chnRead (e : Eng) (t : ThreadId) (c : ChnId) : Eng :=
  let y := e.thread t
  let x := e.chnl c
  if !y.mayUse c false ∨ e.pwr.ctlOn = false then e
  else match x.msgs with
    | [] => e.setThread t { y with state := .waitChannel, waitChn := some (c, false) }
    | m :: r =>
      (((e.setThread t { y with state := .running, waitChn := none }).setChnl c { x with msgs := r }).emit (.message t m)).wakeChn c

/-! ### Faults of threads -/

/-- A program counter the spec does not state: a free value. -/
def Eng.freePc (e : Eng) (t : ThreadId) : Eng :=
  let (v, e) := e.fresh
  e.modThread t (fun x => { x with pc := v % 2 ^ 32 })

/-- A thread fault (R379): source 36; T1 to T7 stop, T0 restarts the LCP. -/
def Eng.threadFault (e : Eng) (t : ThreadId) (cause : Nat) : Eng :=
  let y := e.thread t
  if e.pwr.ctlOn = false ∨ y.state = .reset ∨ y.state = .faulted then e
  else
    let e := e.fail 36 (t.val + 16 * (cause % 16)) (mThread t.val)
    if t = 0 then e.lcpRestart 3
    else
      let e := (e.setThread t { y.freeze e.now with state := .faulted, waitChn := none }).freePc t
      { e with lcp := { e.lcp with notices := e.lcp.notices ++ [t] } }

/-- CHANNEL_HOLD_EXPIRY (R385): the writer takes a thread fault and its partial message is discarded. -/
def Eng.holdExpiry (e : Eng) (c : ChnId) : Eng :=
  match (e.chnl c).part with
  | none => e
  | some (t, _) =>
    match (e.thread t).holdSince with
    | none => e
    | some _ =>
      let (v, e) := e.fresh
      (e.threadFault t v).dropPart t

/-- The condition of the deadlock detector (R383). -/
def Eng.deadlock (e : Eng) : Bool :=
  let l := allThreads.map e.thread
  l.all (fun x => decide (x.state ≠ .running ∧ x.state ≠ .haltedDebug ∧ x.state ≠ .faulted)) &&
  l.any (fun x => decide (x.state = .waitChannel)) &&
  !l.any (fun x => decide (x.state = .waitEvent) && x.armed)

/-- DEADLOCK_DETECTED (R383). -/
def Eng.deadlocked (e : Eng) : Eng :=
  if e.deadlock ∧ e.pwr.ctlOn then
    let m := pack (allThreads.map (fun t => (b2n (decide ((e.thread t).state = .waitChannel)), 1)))
    (e.fail 37 m (mThread 0)).lcpRestart 1
  else e

/-- LCP_WATCHDOG_EXPIRY (R378): its count stands while T0 is halted. At the edge of a deadlock there is one restart, with
cause DEADLOCK (R384). -/
def Eng.lcpWatchdog (e : Eng) : Eng :=
  if (e.thread 0).state = .haltedDebug ∨ e.pwr.ctlOn = false then e
  else
    let e := e.fail 38 0 (mThread 0)
    if e.ctl.restarting ∧ e.lcp.lastCause = 1 ∧ e.lcp.lastRestart = e.tb0 then e else e.lcpRestart 2

/-! ### Debug controls -/

/-- Offset of DBG_THREAD_CTRL[n] in the engine window (R391). -/
def dbgCtrlOff (t : ThreadId) : Nat := 0x200108 + 0x40 * t.val

/-- The debug controls act (R386). -/
def Eng.dbgOn (e : Eng) (t : ThreadId) (g : Eng → Eng) : Eng :=
  if e.lcp.enable then g e else e.badAccess 0 (dbgCtrlOff t)

/-- A thread halts at its next instruction: one that is held or faulted has none. -/
def Eng.haltThread (e : Eng) (t : ThreadId) : Eng :=
  let y := e.thread t
  match y.state with
  | .running | .waitChannel | .waitEvent =>
    (e.setThread t { y.freeze e.now with state := .haltedDebug, halted := y.state }).freePc t
  | .reset | .haltedDebug | .faulted => e

/-- A halted thread goes on (R385, R386). -/
def Eng.resumeThread (e : Eng) (t : ThreadId) : Eng :=
  let y := e.thread t
  if y.state = .haltedDebug then
    e.setThread t { y with state := y.halted, holdSince := if y.hold.isSome then some e.now else none }
  else e

/-- A halted thread executes one instruction and halts again: its program counter is a free value. -/
def Eng.stepThread (e : Eng) (t : ThreadId) : Eng := if (e.thread t).state = .haltedDebug then e.freePc t else e

/-- A write of DBG_THREAD_CTRL[t] (R386, R391). -/
def Eng.dbgCtrl (e : Eng) (t : ThreadId) (v : Nat) : Eng :=
  e.dbgOn t (fun e =>
    let e := if bitAt v 0 then e.haltThread t else e
    let e := if bitAt v 2 then e.stepThread t else e
    if bitAt v 1 then e.resumeThread t else e)

/-- DBG_CTRL.ENABLE set or cleared: clearing resumes every halted thread (R386, R391). -/
def Eng.dbgEnable (e : Eng) (on : Bool) : Eng :=
  let e := { e with lcp := { e.lcp with enable := on } }
  if on then e else foldEng allThreads (fun e t => e.resumeThread t) e

/-- A path that function `f`'s command needs is held by a halted thread (R387). -/
def Eng.heldByDebug (e : Eng) (f : Fn) : Bool :=
  match (e.fn f).cmd.bind (·.thread) with
  | none => false
  | some t =>
    let y := e.thread t
    decide (y.state = .haltedDebug) ||
    (match y.waitChn with
     | some (c, _) => match (e.chnl c).part with
       | some (u, _) => decide (y.state = .waitChannel) && decide ((e.thread u).state = .haltedDebug)
       | none => false
     | none => false)

/-- DBG_THREAD_STATUS[t] (R391). -/
def Eng.threadStatus (e : Eng) (t : ThreadId) : Nat :=
  let y := e.thread t
  let st := match y.state with
    | .reset => 0 | .running => 1 | .waitChannel => 2 | .waitEvent => 3 | .haltedDebug => 4 | .faulted => 5
  let wc := if y.state = .waitChannel then (y.waitChn.map (fun w => w.1.val)).getD 0 else 0
  pack [(st, 3), (wc, 5), (b2n y.hold.isSome, 1), ((y.hold.map (·.val)).getD 0, 5), (0, 2), (y.holdNow e.now / 2, 16), (y.pc, 32)]

/-- DBG_CHN_STATUS[c] (R391). -/
def Eng.chnStatus (e : Eng) (c : ChnId) : Nat :=
  let x := e.chnl c
  let ws := pack (allThreads.map (fun t => let y := e.thread t
    (b2n (decide (y.state = .waitChannel) && decide ((y.waitChn.map (·.1)) = some c)), 1)))
  pack [(x.msgs.length, 3), (b2n x.part.isSome, 1), ((x.part.map (fun p => p.1.val)).getD 0, 3), (0, 1), (ws, 8)]

end Sys2Proof.Machine
end

