-- ==== Sys2Proof/Machine/Operands.lean ====
section
/-! DEFINITION. Operands.lean: the operand forms of mailbox commands: the request header, slots and the SET layout,
the order of the checks, and two-phase commits (02_control.md R43 to R64, 21_twizu_reference.md R509 to R519). -/
namespace Sys2Proof.Machine

/-! ### The request header -/

/-- A request taken from MBX_REQ (R43). -/
def reqCmd (req : Nat) (now : Nat) : Cmd :=
  { opcode := fld req 0 16, tag := fld req 16 16, indReq := bitAt req 32, indRsp := bitAt req 33
    reqLen := fld req 64 32, rspMax := fld req 96 32, reqAddr := fld req 128 64, rspAddr := fld req 192 64
    params := fld req 256 1792, st := .ready, start := now }

/-- Byte offset of the first field of a request header that breaks R43 or R45. -/
def headerFault (req : Nat) : Option Nat :=
  let ir := bitAt req 32
  let ip := bitAt req 33
  let len := fld req 64 32
  let rmax := fld req 96 32
  let ra := fld req 128 64
  let pa := fld req 192 64
  if fld req 34 6 ≠ 0 then some 4
  else if fld req 40 24 ≠ 0 then some 5
  else if (if ir then len < 64 ∨ 1048576 < len else 224 < len) then some 8
  else if (if ip then rmax < 64 ∨ 1048576 < rmax else rmax ≠ 0) then some 12
  else if (if ir then ra % 64 ≠ 0 else ra ≠ 0) then some 16
  else if (if ip then pa % 64 ≠ 0 else pa ≠ 0) then some 24
  else none

/-- Classes of commands (R50): 0 FAST, 1 NORMAL, 2 SLOW, 3 LONG; none where the opcode is no command (R509). -/
def opClass (op : Nat) : Option Nat :=
  let fast : List Nat := [0x0003, 0x0004, 0x0007, 0x0103, 0x0107, 0x010A, 0x010D, 0x0209, 0x020A, 0x020B, 0x0305, 0x030D, 0x030E,
    0x0404, 0x0503, 0x0504, 0x0602, 0x0701, 0x0806, 0x0807, 0x0903, 0x0904, 0x0A04, 0x0A05, 0x0A07, 0x0B01, 0x0B04]
  let normal : List Nat := [0x0001, 0x0005, 0x0006, 0x0101, 0x0102, 0x0104, 0x0105, 0x0106, 0x0109, 0x010B, 0x010C, 0x010E, 0x010F,
    0x0110, 0x0201, 0x0202, 0x0203, 0x0204, 0x0205, 0x0207, 0x0208, 0x020C, 0x020D, 0x020E, 0x0301, 0x0302, 0x0304, 0x0306,
    0x0307, 0x0308, 0x0309, 0x030A, 0x030B, 0x030C, 0x0401, 0x0402, 0x0403, 0x0405, 0x0501, 0x0502, 0x0801, 0x0804, 0x0901,
    0x0902, 0x0A01, 0x0A02, 0x0A03, 0x0A06, 0x0B03]
  let slow : List Nat := [0x0002, 0x0108, 0x0206, 0x0303, 0x0803, 0x0805]
  let long : List Nat := [0x0601, 0x0802, 0x0B02]
  if fast.contains op then some 0 else if normal.contains op then some 1 else if slow.contains op then some 2
  else if long.contains op then some 3 else none

/-- Class limit in ns (R50). -/
def classLimit (c : Nat) : Nat :=
  if c = 0 then 10000 else if c = 1 then 1000000 else if c = 2 then 100000000 else 30000000000

/-- Commands that change state a pair mirrors (R434, R438). -/
def mirroredOp (op : Nat) : Bool :=
  [0x0001, 0x0002, 0x0101, 0x0102, 0x0104, 0x0105, 0x0109, 0x010B, 0x010C, 0x010E, 0x010F, 0x0110, 0x0201, 0x0202, 0x0203, 0x0204,
   0x0205, 0x0206, 0x0207, 0x0208, 0x020B, 0x020C, 0x020D, 0x020E, 0x0301, 0x0302, 0x0303, 0x0304, 0x0306, 0x0307, 0x0308, 0x0309,
   0x030A, 0x030B, 0x030C, 0x0401, 0x0402, 0x0403, 0x0405, 0x0501, 0x0502, 0x0A01, 0x0A02, 0x0A03].contains op

/-- A standby serves function `f`'s command (R438). -/
def standbyServes (f : Fn) (op : Nat) : Bool :=
  op == 0x0807 || op == 0x0B01 || op == 0x0602 || (decide (f = 0) && !mirroredOp op)

/-! ### Slots -/

/-- Slot `i` of the parameters (R512). -/
def Cmd.slot (c : Cmd) (i : Nat) : Nat := fld c.params (64 * i) 64

/-- `n` bits of the parameters from byte `b` on. -/
def Cmd.at_ (c : Cmd) (b n : Nat) : Nat := fld c.params (8 * b) n

/-- Bytes of the parameters. -/
def Cmd.bytes (c : Cmd) (b n : Nat) : List Byte := bytesLE n (fld c.params (8 * b) (8 * n))

/-- An offset as DETAIL gives it (R515): from MBX_REQ byte 0. -/
def detOff (b : Nat) : Nat := if 65533 < b then 0xFFFD else b

/-- DETAIL of slot `i`. -/
def slotOff (i : Nat) : Nat := detOff (32 + 8 * i)

/-- The value NONE of a slot (R514). -/
def vNone : Nat := 0xFFFFFFFFFFFFFFFF
/-- The value ALL of a slot (R514). -/
def vAll : Nat := 0xFFFFFFFFFFFFFFFE

/-- Slots as bytes. -/
def slotBytes (l : List Nat) : List Byte := l.flatMap (bytesLE 8)

/-- A slot number is a port that exists (R15). -/
def Eng.portArg (e : Eng) (v : Nat) : Bool := decide (v < 16) && e.isPort (fin 16 v)

/-! ### Answers -/

/-- A response without a result. -/
def Eng.answer (e : Eng) (f : Fn) (status detail : Nat) : Eng := e.respond f status detail []

/-- INVALID with the first offending field (R53). -/
def Eng.invalid (e : Eng) (f : Fn) (detail : Nat) : Eng := e.answer f stInvalid detail

/-- An entry of the configuration reject log, newest first, at most 64 (R60). -/
def Eng.reject (e : Eng) (f : Fn) (what : Nat) (isReg : Bool) (field : Nat) : Eng :=
  let x : RejectEntry := { time := e.tb0, fn := f, what := what, isReg := isReg, field := field, status := stLocked }
  { e with ctl := { e.ctl with rejects := (x :: e.ctl.rejects).take 64 } }

/-- LOCKED: the change attempted is logged (R59, R60, R515). -/
def Eng.lockedAt (e : Eng) (f : Fn) (c : Cmd) (field off : Nat) : Eng := (e.reject f c.opcode false field).answer f stLocked off

/-- A command waits for the event that its final response names. -/
def Eng.working (e : Eng) (f : Fn) : Eng := e.modFn f (fun x => { x with cmd := x.cmd.map (fun c => { c with st := .working }) })

/-- A result of `n` bytes fits the request's response buffers (R517). -/
def Cmd.fits (c : Cmd) (n : Nat) : Bool := decide (n ≤ 240) || (c.indRsp && decide (n ≤ c.rspMax))

/-! ### Handling a request -/

/-- Functions whose admitted command waits for an LCP thread or is being carried out by one, in the order in which threads
take them: F0 before all others, then the oldest first (R49). -/
def Eng.takeOrder (e : Eng) : List Fn :=
  let l := e.ctl.inflight.filter (fun g => decide (((e.fn g).cmd.map (·.st)) = some .ready))
  l.filter (fun g => decide (g = 0)) ++ l.filter (fun g => decide (g ≠ 0))

/-- A thread has taken function `f`'s command: fewer than eight commands, one for each thread, stand before it in the
order of R49 (R376; log entry 30). -/
def Eng.taken (e : Eng) (f : Fn) : Bool := (e.takeOrder.take 8).contains f

/-- Function `f`'s command in flight, where it is one of opcode `op` whose parameters are in, firmware runs and a thread
has taken it. -/
def Eng.mbxReady (e : Eng) (f : Fn) (op : Nat) : Option Cmd :=
  match (e.fn f).cmd with
  | some c => if c.opcode = op ∧ c.st = .ready ∧ e.ctl.ready ∧ e.taken f then some c else none
  | none => none

/-- A command of a mirrored opcode that has changed state is carried by the journal of an active member (R442). -/
def Eng.journalCmd (e : Eng) (f : Fn) (c : Cmd) : Eng :=
  let st := fld (e.fn f).rsp.toNat 32 8
  let ok : Bool := match (e.fn f).cmd with
    | some d => decide (d.st = .working)
    | none => st == stOK || st == stPartial || st == stPending
  if e.journals ∧ mirroredOp c.opcode ∧ ok = true then
    { e with pair := { e.pair with changes := e.pair.changes ++
      [.cmd f (BitVec.ofNat 16 c.opcode) (bytesLE c.reqLen c.params)] } }
  else e

/-- The handling of function `f`'s command of opcode `op`, none where no such command is in flight. -/
def Eng.mbx (e : Eng) (f : Fn) (op : Nat) (body : Eng → Cmd → Eng) : Eng :=
  match e.mbxReady f op with
  | none => e
  | some c => if e.standby ∧ e.pair.applying = false ∧ standbyServes f op = false then e.answer f stNotPermitted 0 else (body e c).journalCmd f c

/-- The response buffer that STATS_READ (0x0901) and STATS_PEEK (0x0902) always need (R517). -/
def Cmd.statBuf (c : Cmd) (op : Nat) : Bool :=
  (op != 0x0901 && op != 0x0902) || (c.indRsp && decide (1024 ≤ c.rspMax))

/-- A command of `n` slots: a missing statistics buffer is INVALID, DETAIL 4, a bad length INVALID, DETAIL 8. -/
def Eng.mbxSlots (e : Eng) (f : Fn) (op n : Nat) (body : Eng → Cmd → Eng) : Eng :=
  e.mbx f op (fun e c =>
    if !c.statBuf op then e.invalid f 4 else if c.reqLen ≠ 8 * n then e.invalid f 8 else body e c)

/-! ### The SET layout -/

/-- A field of a SET command (R516): its slots, whether it is LOCKED, and the values a slot may hold. -/
structure Fld where
  slots : Nat := 1
  locked : Bool := false
  /-- slot number and value -/
  ok : Nat → Nat → Bool

/-- A number from `lo` to `hi`. -/
def Fld.num (lo hi : Nat) (locked : Bool := false) : Fld := { locked := locked, ok := fun _ v => decide (lo ≤ v ∧ v ≤ hi) }
/-- A named value: one of `n`. -/
def Fld.enum (n : Nat) (locked : Bool := false) : Fld := { locked := locked, ok := fun _ v => decide (v < n) }
/-- A signed number. -/
def Fld.int (lo hi : Int) : Fld := { ok := fun _ v => decide (lo ≤ signed 64 v ∧ signed 64 v ≤ hi) }
/-- Values that pass a test. -/
def Fld.test (p : Nat → Bool) (locked : Bool := false) : Fld := { locked := locked, ok := fun _ v => p v }
/-- `n` slots of any value. -/
def Fld.raw (n : Nat) (locked : Bool := false) : Fld := { slots := n, locked := locked, ok := fun _ _ => true }
/-- Eight values, one for each class. -/
def Fld.perClass (lo hi step : Nat) : Fld := { slots := 8, ok := fun _ v => decide (lo ≤ v ∧ v ≤ hi ∧ v % step = 0) }

/-- A field present in a SET block: its index, the DETAIL of its first slot, and its values. -/
structure SetFld where
  idx : Nat
  off : Nat
  vals : List Nat
  deriving DecidableEq, Repr

/-- A SET block (R513). -/
structure SetBlk where
  object : Nat
  /-- byte of the parameters at which it starts -/
  start : Nat
  flds : List SetFld
  /-- its length in bytes -/
  len : Nat
  deriving DecidableEq, Repr

/-- A parsed request, or the DETAIL of its first offending field. -/
inductive Parsed (α : Type) where
  | good (v : α)
  | bad (detail : Nat)
  deriving DecidableEq, Repr

/-- The value of a field present in a block. -/
def SetBlk.get (b : SetBlk) (i : Nat) : Option SetFld := b.flds.find? (fun x => x.idx == i)
/-- The first slot of a field, or a default where it is absent. -/
def SetBlk.val (b : SetBlk) (i d : Nat) : Nat := match b.get i with
  | some x => x.vals.headD d
  | none => d
/-- A field is present. -/
def SetBlk.has (b : SetBlk) (i : Nat) : Bool := (b.get i).isSome
/-- DETAIL of a field's first slot, of MASK where the field is absent. -/
def SetBlk.off (b : SetBlk) (i : Nat) : Nat := ((b.get i).map (·.off)).getD (detOff (40 + b.start))

/-- The fields present, from byte `at_` of the parameters on: the first value out of range, or a request that is too
short, is bad. -/
def parseFlds (c : Cmd) (mask : Nat) : List Fld → Nat → Nat → List SetFld → Parsed (List SetFld × Nat)
  | [], _, at_, acc => .good (acc.reverse, at_)
  | s :: t, i, at_, acc =>
    if !bitAt mask i then parseFlds c mask t (i + 1) at_ acc
    else if c.reqLen < at_ + 8 * s.slots then .bad 8
    else
      let vs := (upTo s.slots).map (fun j => c.at_ (at_ + 8 * j) 64)
      if (vs.zip (upTo s.slots)).all (fun (v, j) => s.ok j v) then
        parseFlds c mask t (i + 1) (at_ + 8 * s.slots) ({ idx := i, off := detOff (32 + at_), vals := vs } :: acc)
      else .bad (detOff (32 + at_))

/-- Slots of the fields a MASK names. -/
def maskSlots (mask : Nat) : List Fld → Nat → Nat
  | [], _ => 0
  | s :: t, i => (if bitAt mask i then s.slots else 0) + maskSlots mask t (i + 1)

/-- Bytes of the SET block at byte `at_`, none where its MASK names a field that does not exist. -/
def blockLen (c : Cmd) (specs : List Fld) (at_ : Nat) : Option Nat :=
  let mask := c.at_ (at_ + 8) 64
  if 2 ^ specs.length ≤ mask then none else some (16 + 8 * maskSlots mask specs 0)

/-- The SET block at byte `at_` of the parameters, of an OBJECT that passes `obj` (R513, R515). -/
def parseBlock (c : Cmd) (specs : List Fld) (obj : Nat → Bool) (at_ : Nat) : Parsed SetBlk :=
  if c.reqLen < at_ + 16 then .bad 8
  else if !obj (c.at_ at_ 32) then .bad (detOff (32 + at_))
  else if c.at_ (at_ + 4) 32 ≠ 0 then .bad (detOff (36 + at_))
  else
    let mask := c.at_ (at_ + 8) 64
    if 2 ^ specs.length ≤ mask then .bad (detOff (40 + at_))
    else match parseFlds c mask specs 0 (at_ + 16) [] with
      | .bad d => .bad d
      | .good (fs, end_) => .good { object := c.at_ at_ 32, start := at_, flds := fs, len := end_ - at_ }

/-- The SET blocks from byte `at_` on fill the request: false where a length does not fit. -/
def spansOk (c : Cmd) (specs : Nat → List Fld) : Nat → Nat → Bool
  | 0, at_ => at_ == c.reqLen
  | n + 1, at_ =>
    if at_ = c.reqLen ∧ 0 < at_ then true
    else if c.reqLen < at_ + 16 then false
    else match blockLen c (specs (c.at_ at_ 32)) at_ with
      | none => true
      | some k => decide (at_ + k ≤ c.reqLen) && spansOk c specs n (at_ + k)

/-- The SET blocks from byte `at_` on, at most `n`, or the first field that fails. -/
def parseSeq (c : Cmd) (specs : Nat → List Fld) (obj : Nat → Bool) : Nat → Nat → Parsed (List SetBlk)
  | 0, _ => .good []
  | n + 1, at_ =>
    if c.reqLen ≤ at_ ∧ 0 < at_ then .good []
    else match parseBlock c (specs (c.at_ at_ 32)) obj at_ with
      | .bad d => .bad d
      | .good b => match parseSeq c specs obj n (at_ + b.len) with
        | .bad d => .bad d
        | .good l => .good (b :: l)

/-- One to `n` SET blocks back to back; `specs` may depend on a block's OBJECT. -/
def parseBlocks (c : Cmd) (specs : Nat → List Fld) (obj : Nat → Bool) (n : Nat) : Parsed (List SetBlk) :=
  if spansOk c specs n 0 then parseSeq c specs obj n 0 else .bad 8

/-- A request of one SET block. -/
def Cmd.set (c : Cmd) (specs : Nat → List Fld) (obj : Nat → Bool) : Parsed SetBlk :=
  match parseBlocks c specs obj 1 with
  | .bad d => .bad d
  | .good [b] => .good b
  | .good _ => .bad 8

/-- A field's first slot as a flag. -/
def SetBlk.bool (b : SetBlk) (i : Nat) (d : Bool) : Bool := match b.get i with
  | some x => x.vals.headD 0 == 1
  | none => d
/-- A field's slots. -/
def SetBlk.list (b : SetBlk) (i : Nat) (d : List Nat) : List Nat := match b.get i with
  | some x => x.vals
  | none => d

/-- The first check that fails: its DETAIL. -/
def firstBad : List (Nat × Bool) → Option Nat
  | [] => none
  | (d, ok) :: t => if ok then firstBad t else some d

/-- A command of `n` slots with the checks of its parameters (INVALID), then of its issuer (NOT_PERMITTED). -/
def Eng.mbxArgs (e : Eng) (f : Fn) (op n : Nat) (checks : Eng → Cmd → List (Nat × Bool)) (may : Eng → Cmd → Bool)
    (body : Eng → Cmd → Eng) : Eng :=
  e.mbxSlots f op n (fun e c =>
    match firstBad (checks e c) with
    | some d => e.invalid f d
    | none => if may e c then body e c else e.answer f stNotPermitted 0)

/-- Issuer F0 (R511). -/
def f0Only (f : Fn) (_ : Eng) (_ : Cmd) : Bool := decide (f = 0)
/-- Issuer ANY or OWN (R511). -/
def anyFn (_ : Eng) (_ : Cmd) : Bool := true

/-- A command of one SET block: its layout and its fields' values, then further checks of its parameters, then
its issuer. -/
def Eng.mbxSet (e : Eng) (f : Fn) (op : Nat) (specs : Nat → List Fld) (obj : Eng → Nat → Bool)
    (checks : Eng → SetBlk → List (Nat × Bool)) (may : Eng → SetBlk → Bool) (body : Eng → Cmd → SetBlk → Eng) : Eng :=
  e.mbx f op (fun e c =>
    match c.set specs (obj e) with
    | .bad d => e.invalid f d
    | .good b => match firstBad (checks e b) with
      | some d => e.invalid f d
      | none => if may e b then body e c b else e.answer f stNotPermitted 0)

/-- The OBJECT of an engine-wide object (R513). -/
def objEngine : Nat := 0xFFFFFFFF

/-- The first LOCKED field that is present with a value other than its present one (R59, R515). -/
def lockedChange (specs : List Fld) (b : SetBlk) (cur : Nat → List Nat) (counts : Nat → Bool) : Option SetFld :=
  b.flds.find? (fun x => ((specs[x.idx]?).map (·.locked)).getD false && counts x.idx && !decide (x.vals = cur x.idx))

/-- The SET layout of an object with every field present, as CONFIG_GET answers it (R520). -/
def setBytes (object : Nat) (fs : List (List Nat)) : List Byte :=
  bytesLE 4 object ++ zeros 4 ++ bytesLE 8 (2 ^ fs.length - 1) ++ slotBytes (fs.flatMap (fun l => l))

/-! ### Objects and functions -/

/-- An object reference in a slot: function and local number (R514). -/
def refOf (v : Nat) : Fn × Nat := (fin 2048 (fld v 32 11), fld v 0 16)
/-- A slot is an object reference. -/
def refOk (v : Nat) : Bool := v < 2 ^ 43 && fld v 16 16 == 0
/-- An object reference as a slot. -/
def refSlot (f : Fn) (n : Nat) : Nat := n + 2 ^ 32 * f.val

/-- An optional number as a slot: NONE where absent. -/
def optSlot (o : Option Nat) : Nat := o.getD vNone
/-- A slot as an optional number. -/
def slotOpt (v : Nat) : Option Nat := if v = vNone then none else some v

/-- A scope as a slot (R256, R285). -/
def Scope.slot : Scope → Nat
  | .none => vNone
  | .all => vAll
  | .fn f => f.val
/-- A slot as a scope. -/
def Scope.ofSlot (v : Nat) : Scope := if v = vNone then .none else if v = vAll then .all else .fn (fin 2048 v)
/-- A slot holds a scope. -/
def Scope.slotOk (v : Nat) : Bool := v == vNone || v == vAll || (decide (1 ≤ v) && decide (v < 2048))

/-- Function `f` holds a transmit queue on port `p`. -/
def Eng.txOwner (e : Eng) (f : Fn) (p : PortId) : Bool := e.txqList.any (fun r => decide (r.2.fn = f ∧ r.2.port = p))

/-- A scope allows function `f` (R285); F0, which sets the scopes, is not bound by them (log entry 25). -/
def Scope.allows (s : Scope) (f : Fn) : Bool :=
  decide (f = 0) || match s with
  | .none => false
  | .all => true
  | .fn g => decide (g = f)

/-- A number of a pool that is not in use; which one the engine takes is not stated (log entry 24). -/
def pickFree (pool n : Nat) (used : List Nat) : Option Nat :=
  let l := (upTo n).filter (fun i => !used.contains i)
  if l.isEmpty then none else l[Config.poolPick pool used % l.length]?

/-- F0, or the port's STATS_OWNER (R511). -/
def Eng.mayStat (e : Eng) (f : Fn) (p : PortId) : Bool := decide (f = 0) || decide ((e.port p).statsOwner = f)

/-! ### Two-phase commits -/

/-- The fault source of a slot, or of the slot calendar for its lowest slot, with its DETAIL (R392, R549). -/
def Eng.slotSource (e : Eng) (lowest : Nat) (u : Nat) : Nat × Nat :=
  let p := if u < 16 then u else lowest
  (8 + p, (e.portOf (fin 16 p)).val)

/-- The source of a Dealer unit whose failure lies in token or deficit memory (R309, R549). -/
def tokenSource (tokens : Bool) (s : Nat × Nat) : Nat × Nat := if tokens && s.1 == 28 then (29, s.2) else s

/-- The event a failing unit raises: its source and DETAIL. -/
def Eng.unitFail (e : Eng) (s : Nat × Nat) : Eng :=
  let m := if 8 ≤ s.1 ∧ s.1 < 24 then mSlot (s.1 - 8) else if s.1 = 28 ∨ s.1 = 29 then mDealer else if s.1 = 5 then mPipe else mNone
  e.fail (fin 64 s.1) s.2 m

/-- The outcome of a two-phase command's commit over its units (R61, R63): applied in full; or a unit fails and every
unit is restored; or a rollback fails too, and that unit is stopped. -/
def Eng.twoPhase (e : Eng) (f : Fn) (cf : Commit) (units : List Nat) (source : Nat → Nat × Nat) (stop : Eng → Nat → Eng)
    (commit : Eng → Eng) : Eng :=
  match cf.fail.bind (fun u => if units.contains u.toNat then some u.toNat else none) with
  | none => commit e
  | some u =>
    let e := e.unitFail (tokenSource cf.tokens (source u))
    match cf.rollback.bind (fun r => if units.contains r.toNat ∧ r.toNat ≠ u then some r.toNat else none) with
    | none => e.answer f stRolledBack u
    | some r => ((stop e r).unitFail (tokenSource cf.backTokens (source r))).answer f stFaulted r

end Sys2Proof.Machine
end

