-- ==== Sys2Proof/Machine/CmdPorts.lean ====
section
/-! DEFINITION. CmdPorts.lean: the mailbox commands of the ports and modules group (R523): fields, grouping,
modules, LLDP, flow control, thinning and telemetry trailers. -/
namespace Sys2Proof.Machine

/-- A condition on a PORT slot: the first slot names a port that exists. -/
def portFirst (e : Eng) (c : Cmd) : List (Nat × Bool) := [(32, e.portArg (c.slot 0))]
/-- The port a command's first slot names. -/
def Cmd.port (c : Cmd) : PortId := fin 16 (c.slot 0)
/-- Issuer F0/SO on the port of the first slot (R511). -/
def statMay (f : Fn) (e : Eng) (c : Cmd) : Bool := e.mayStat f c.port
/-- A CLEAR slot, or any slot that is 0 or 1. -/
def flagOk (v : Nat) : Bool := decide (v < 2)

/-! ### Headroom (R121, R122) -/

/-- Headroom of one lossless class of a port (R121): C is 200 bits per nanosecond and slot. -/
def Port.headroom (x : Port) : Nat :=
  alignUp (ceilDiv (200 * x.width * (2 * x.cableDelay + x.partnerResp)) 8 + 2 * (x.maxFrame + 20) + 84) 64

/-- Headroom of all lossless classes of a port (R121, R122). -/
def Port.headrooms (x : Port) : Nat :=
  match x.fcMode with
  | .none => 0
  | .pause => x.headroom
  | .pfc => popCount 8 x.lossless.toNat * x.headroom

/-- The total headroom (R122). -/
def Eng.headroom (e : Eng) : Nat := e.portList.foldl (fun s p => s + (e.port p).headrooms) 0

/-- KITTY_OVERSUB is set exactly while the total headroom exceeds KITTY_SIZE (R122). -/
def Eng.setOversub (e : Eng) : Eng := { e with start := { e.start with oversub := decide (e.start.kittySize < e.headroom) } }

/-! ### PORT_GROUP -/

/-- The port that a PORT_GROUP request gives slot `p`. -/
def Cmd.groupOf (c : Cmd) (p : Nat) : Nat := c.at_ p 8

/-- Slots that a request gives the port that it gives slot `p`. -/
def Cmd.groupWidth (c : Cmd) (p : Nat) : Nat := ((upTo 16).filter (fun s => c.groupOf s == c.groupOf p)).length

/-- The request's grouping meets R66 at slot `p`. -/
def Cmd.groupOk (c : Cmd) (p : Nat) : Bool :=
  let q := c.groupOf p
  let n := c.groupWidth p
  decide (q < 16) && [1, 2, 4, 8].contains n && decide (q % n = 0 ∧ q ≤ p ∧ p < q + n)

/-- Slot `p` keeps its port, of the same slots. -/
def Eng.groupKept (e : Eng) (c : Cmd) (p : PortId) : Bool :=
  decide (c.groupOf p.val = (e.portOf p).val ∧ c.groupWidth p.val = (e.port (e.portOf p)).width)

/-- Lanes of a port in its cage clash with another's (R69). -/
def lanesClash (a b : Port) : Bool := decide (a.cage = b.cage) && decide (a.cageLanes &&& b.cageLanes ≠ 0)

/-- A port as PORT_GROUP creates it (R67, R68): every field at its reset value. -/
def Port.created (p : PortId) (w : Nat) : Port :=
  { Port.reset p.val with width := w, txLanes := w, rxLanes := w, lanes := List.replicate w .inService }

/-- A port being removed holds a leaf, a node, or a gate control list (R161, R286, R341). -/
def Eng.portHeld (e : Eng) (p : PortId) : Bool :=
  e.txqList.any (fun r => decide (r.2.port = p)) ||
  e.dealer.nodes.rows.any (fun r => r.2.live && decide (r.2.port = p)) ||
  (e.port p).deck.oper.isSome || (e.port p).deck.admin.isSome

/-- The checks of PORT_GROUP's parameters (R66, R69, R161, R286, R341). -/
def Eng.groupChecks (e : Eng) (c : Cmd) : List (Nat × Bool) :=
  let fit := allSlots.map (fun p => (32 + p.val, c.groupOk p.val))
  let clash := allSlots.map (fun p =>
    (32 + p.val, e.groupKept c p || decide (c.groupOf p.val ≠ p.val) ||
      !(e.portList.any (fun q => e.groupKept c q && lanesClash (e.port q) (Port.created p (c.groupWidth p.val))))))
  let free := allSlots.map (fun p => (32 + p.val, e.groupKept c p || !e.portHeld (e.portOf p)))
  fit ++ clash ++ free

/-- The grouping is applied: removed ports go with their counters, created ports start at reset (R67). -/
def Eng.groupApply (e : Eng) (c : Cmd) : Eng :=
  let ch := allSlots.filter (fun p => !e.groupKept c p)
  foldEng ch (fun e p =>
    let q := c.groupOf p.val
    let e := e.setSlot p { e.slot p with port := fin 16 q }
    let e := if q = p.val then e.setPort p (Port.created p (c.groupWidth p.val)) else e.setPort p (Port.reset p.val)
    -- a root exists while its port exists (R284)
    let e := e.setRoot p {}
    { e with tally := { e.tally with
      slots := (e.tally.slots.put {} (2 * p.val) {}).put {} (2 * p.val + 1) {}
      bw := e.tally.bw.put {} p.val {} } }) e

/-- A slot's stopped state, where a rollback fails on it (R63): its port in ADMIN_DOWN. -/
def Eng.stopSlot (e : Eng) (u : Nat) : Eng := if u < 16 then e.adminDown (e.portOf (fin 16 u)) else e

/-- PORT_GROUP (R67, R519). -/
def Eng.portGroup (e : Eng) (f : Fn) (cf : Commit) : Eng :=
  e.mbx f 0x0101 (fun e c =>
    if c.reqLen ≠ 16 then e.invalid f 8
    else match firstBad (e.groupChecks c) with
      | some d => e.invalid f d
      | none =>
        if f ≠ 0 then e.answer f stNotPermitted 0
        else
          let ch := allSlots.filter (fun p => !e.groupKept c p)
          match ch.find? (fun p => !decide ((e.port (e.portOf p)).state = .adminDown)) with
          | some p => e.lockedAt f c 0 (32 + p.val)
          | none =>
            let low := (ch.map (·.val)).headD 0
            e.twoPhase f cf (if ch.isEmpty then [] else ch.map (·.val) ++ [0x10]) (e.slotSource low) Eng.stopSlot
              (fun e => (e.groupApply c).setOversub.answer f stOK 0))

/-! ### PORT_CONFIG -/

/-- Fields of PORT_CONFIG (R516). -/
def portFlds : List Fld :=
  [.enum 2, .num 0 15 true, .num 0 7 true, .num 0 1000, .enum 2, .num 1 3600, .enum 2,
   .num 1518 16383 true, .num 0 (2 ^ 48 - 1), .enum 2, .enum 2, .enum 2, .enum 2,
   .test (fun v => [256, 512, 1024, 2048, 4096].contains v), .num 0 2047,
   .enum 2, .test (fun v => [1, 2, 4, 8].contains v), .num 500 100000]

/-- Their present values. -/
def Port.cfg (x : Port) : List (List Nat) :=
  [[b2n x.admin], [x.cage.val], [x.laneBase], [x.debounce], [b2n x.lldpAgent], [x.lldpInterval], [b2n x.lldpMirror],
   [x.maxFrame], [x.station], [b2n x.padEn], [b2n x.fcsStrip], [b2n x.badFcsDeliver], [b2n x.ctSaf],
   [x.ctFloor], [x.statsOwner.val], [b2n x.thinAuto], [x.thinMin], [x.schedLead]]

/-- The fields written, but for ADMIN. -/
def Port.setCfg (x : Port) (b : SetBlk) : Port :=
  let floor := b.val 13 x.ctFloor
  { x with
    cage := fin 16 (b.val 1 x.cage.val)
    laneBase := b.val 2 x.laneBase
    debounce := b.val 3 x.debounce
    lldpAgent := b.bool 4 x.lldpAgent
    lldpInterval := b.val 5 x.lldpInterval
    lldpMirror := b.bool 6 x.lldpMirror
    maxFrame := b.val 7 x.maxFrame
    station := b.val 8 x.station
    padEn := b.bool 9 x.padEn
    fcsStrip := b.bool 10 x.fcsStrip
    badFcsDeliver := b.bool 11 x.badFcsDeliver
    ctSaf := b.bool 12 x.ctSaf
    ctFloor := floor
    statsOwner := fin 2048 (b.val 14 x.statsOwner.val)
    thinAuto := b.bool 15 x.thinAuto
    thinMin := b.val 16 x.thinMin
    schedLead := b.val 17 x.schedLead
    ct := if b.has 12 && !b.bool 12 true then .bytes floor else x.ct
    ctFrames := if b.has 12 && !b.bool 12 true then 0 else x.ctFrames }

/-- A port on which thinning is excluded (R133): it has a gate control list or a launch-time queue. -/
def Eng.scheduled (e : Eng) (p : PortId) : Bool :=
  (e.port p).deck.oper.isSome || (e.port p).deck.admin.isSome ||
  e.txqList.any (fun r => decide (r.2.port = p) && r.2.launchEn)

/-- The checks of PORT_CONFIG beyond its fields' values (R69, R133), lowest offset first. -/
def Eng.portChecks (e : Eng) (b : SetBlk) : List (Nat × Bool) :=
  let p := fin 16 b.object
  let x := (e.port p).setCfg b
  let clash := e.portList.any (fun q => decide (q ≠ p) && lanesClash (e.port q) x)
  let lanes := b.has 1 || b.has 2
  [(b.off 1, !b.has 1 || !clash),
   (if b.has 2 then b.off 2 else b.off 1, !lanes || decide (x.laneBase + x.width ≤ 8)),
   (b.off 2, !b.has 2 || !clash),
   (b.off 15, !b.bool 15 false || !e.scheduled p)]

/-- What the partner learns of a port's fields (R85, R86, R132, R278). -/
def Port.advertised (x : Port) : List Nat :=
  [b2n x.advThin, x.thinSteps, min (4 * x.lldpInterval) 65535, b2n x.trailerStrip, x.width]

/-- A port's advertised values have changed since `x`: a fast start (R85). -/
def Eng.advertise (e : Eng) (p : PortId) (x : Port) : Eng :=
  if (e.port p).advertised = x.advertised then e else e.fastStart p

/-- PORT_CONFIG's fields take effect (R68, R85, R108, R134). -/
def Eng.portApply (e : Eng) (f : Fn) (p : PortId) (b : SetBlk) : Eng :=
  let x := e.port p
  let e := (e.setPort p (x.setCfg b)).setOversub
  let e := if b.has 0 then (if b.bool 0 false then e.adminUp p else e.adminDown p) else e
  let e := e.advertise p x
  let y := e.port p
  let e := if b.has 15 && !b.bool 15 true then e.thinOff p else e
  if b.has 15 && !b.bool 15 true && decide (y.state = .up ∧ (y.txLanes < y.width ∨ y.rxLanes < y.width)) then
    (e.widen p false).answer f stPending 0
  else e.answer f stOK 0

/-- PORT_CONFIG (R68, R92, R130, R349, R519). -/
def Eng.portConfig (e : Eng) (f : Fn) (cf : Commit) : Eng :=
  e.mbxSet f 0x0102 (fun _ => portFlds) Eng.portArg Eng.portChecks (fun _ _ => decide (f = 0)) (fun e c b =>
    let p := fin 16 b.object
    let x := e.port p
    match lockedChange portFlds b (fun i => nth x.cfg i []) (fun _ => !decide (x.state = .adminDown)) with
    | some l => e.lockedAt f c l.idx l.off
    | none =>
      match (e.slotsOf p).find? (fun s => (e.slot s).failed) with
      | some s =>
        if b.bool 0 false then e.answer f stFaulted s.val
        else e.twoPhase f cf (if 1 < x.width then (e.slotsOf p).map (·.val) else []) (e.slotSource p.val) Eng.stopSlot
          (fun e => e.portApply f p b)
      | none =>
        e.twoPhase f cf (if 1 < x.width then (e.slotsOf p).map (·.val) else []) (e.slotSource p.val) Eng.stopSlot
          (fun e => e.portApply f p b))

/-! ### Port state and events -/

/-- PORT_STATE_GET (R523). -/
def Eng.portStateGet (e : Eng) (f : Fn) : Eng :=
  e.mbxArgs f 0x0103 1 portFirst (fun e c => decide (f = 0) || e.ownsOn f c.port) (fun e c =>
    let x := e.port c.port
    e.respond f stOK 0 (slotBytes
      [x.state.code, x.cause, x.changed, x.txLanes, x.rxLanes,
       optSlot x.ctNow.bytes?, b2n e.start.oversub,
       match x.partner.st with
       | .none => 0
       | .present => 1
       | .stale => 2]))

/-- PORT_EVENT_SUBSCRIBE (R75, R523): one event queue is named per function and port. -/
def Eng.portSubscribe (e : Eng) (f : Fn) : Eng :=
  e.mbxArgs f 0x0104 3
    (fun e c => [(32, decide (c.slot 0 < 65536) && (upTo 16).all (fun p => !bitAt (c.slot 0) p || e.portArg p)),
                 (40, (e.eqOf f (c.slot 1)).isSome), (48, flagOk (c.slot 2))])
    (fun e c => decide (f = 0) || (upTo 16).all (fun p => !bitAt (c.slot 0) p || e.ownsOn f (fin 16 p)))
    (fun e c =>
      let e := foldEng ((upTo 16).filter (fun p => bitAt (c.slot 0) p)) (fun e p =>
        e.modPort (fin 16 p) (fun x =>
          let others := x.subs.filter (fun s => !decide (s.1 = f))
          { x with subs := if c.slot 2 = 1 then others ++ [(f, c.slot 1)] else others })) e
      e.answer f stOK 0)

/-! ### Modules -/

/-- Fields of MODULE_CONFIG: SPEED. -/
def cageFlds : List Fld := [.enum 3]

/-- MODULE_CONFIG (R79). -/
def Eng.moduleConfig (e : Eng) (f : Fn) : Eng :=
  e.mbxSet f 0x0105 (fun _ => cageFlds) (fun _ v => decide (v < 16)) (fun _ _ => []) (fun _ _ => decide (f = 0)) (fun e _ b =>
    (e.modCage (fin 16 b.object) (fun k => { k with speed := b.val 0 k.speed })).answer f stOK 0)

/-- The cage that a command's first slot names. -/
def Cmd.cage (c : Cmd) : Cage := fin 16 (c.slot 0)

/-- MODULE_RESET (R76, R78): MOD_RST_N is pulsed, and MOD_LPM is high until the identity checks pass again. -/
def Eng.moduleReset (e : Eng) (f : Fn) : Eng :=
  e.mbxArgs f 0x0106 1
    (fun e c => [(32, decide (c.slot 0 < 16) &&
      (decide ((e.cage c.cage).state = .fault) || decide ((e.cage c.cage).state = .unsupported)))])
    (f0Only f)
    (fun e c =>
      let e := ((e.emit (.modPulse c.cage)).drivePins c.cage true true).modCage c.cage CageSt.unread
      (e.cageTo c.cage .mgmtInit 0).answer f stOK 0)

/-- Codes of cage states (R525). -/
def CageState.code : CageState → Nat
  | .empty => 0 | .mgmtInit => 1 | .identify => 2 | .powerUp => 3 | .ready => 4 | .fault => 5 | .unsupported => 6

/-- MODULE_INFO_GET's bytes (R525). -/
def CageSt.infoBytes (k : CageSt) : List Byte :=
  let rev := (k.ident.map (fun m => m.rev.toNat)).getD 0
  let media := (k.ident.map (fun m => m.media.toNat)).getD 0
  let v : List Byte := (k.ident.map (fun m => m.vendor)).getD []
  let part (i n : Nat) : List Byte := (slice v i n) ++ zeros (n - (slice v i n).length)
  bytesLE 1 k.state.code ++ bytesLE 1 k.cause ++ bytesLE 1 rev ++ bytesLE 1 media ++
  part 0 16 ++ part 16 3 ++ zeros 1 ++ part 19 16 ++ part 35 2 ++ zeros 2 ++ part 37 16 ++ part 53 8 ++ zeros 4 ++
  bytesLE 8 k.flags.toNat ++ bytesLE 64 k.laneFlags.toNat

/-- MODULE_INFO_GET (R83, R525). -/
def Eng.moduleInfoGet (e : Eng) (f : Fn) : Eng :=
  e.mbxArgs f 0x0107 2 (fun _ c => [(32, decide (c.slot 0 < 16)), (40, flagOk (c.slot 1))]) (f0Only f) (fun e c =>
    let k := e.cage c.cage
    let e := if c.slot 1 = 1 then e.setCage c.cage { k with flags := 0, laneFlags := 0 } else e
    e.respond f stOK 0 k.infoBytes)

/-- The ports mapped to a cage, whatever their ADMIN. -/
def Eng.cagePorts (e : Eng) (c : Cage) : List PortId := e.portList.filter (fun p => decide ((e.port p).cage = c))

/-- MODULE_ACCESS, with the bus transaction as it went (R84, R523). -/
def Eng.moduleAccess (e : Eng) (f : Fn) (bus : ModBus) : Eng :=
  e.mbx f 0x0108 (fun e c =>
    let n := c.slot 4
    let len := if c.slot 5 = 1 ∧ n ≤ 128 then 48 + n else 48
    if c.reqLen < 48 ∨ c.reqLen ≠ len then e.invalid f 8
    else match firstBad [(32, decide (c.slot 0 < 16)), (40, decide (c.slot 1 < 256)), (48, decide (c.slot 2 < 256)),
        (56, decide (c.slot 3 < 256)), (64, decide (1 ≤ n ∧ n ≤ 128)), (72, flagOk (c.slot 5))] with
      | some d => e.invalid f d
      | none =>
        if f ≠ 0 then e.answer f stNotPermitted 0
        else if c.slot 5 = 1 ∧ (e.cagePorts c.cage).any (fun p => !decide ((e.port p).state = .adminDown)) then
          e.lockedAt f c 0 72
        else
          let k := e.cage c.cage
          if k.state = .empty then e.answer f stFaulted (0x20 + c.cage.val)
          else
            let w : Option (List Byte) := if c.slot 5 = 1 then some (c.bytes 48 n) else none
            let e := e.emit (.modAccess c.cage (c.slot 1) (c.slot 2) (c.slot 3) n w)
            match bus with
            | .done bs => if c.slot 5 = 1 then e.answer f stOK 0 else e.respond f stOK 0 (slice (bs ++ zeros 128) 0 n)
            | .failed prsN =>
              let e := match k.state with
                | .identify | .powerUp | .ready =>
                  if prsN then e else (e.fail 44 c.cage.val mModule).cageFault c.cage cNoMgmt
                | .empty | .mgmtInit | .fault | .unsupported => e
              e.answer f stFaulted (0x20 + c.cage.val))

/-! ### LLDP -/

/-- LLDP_CONFIG (R85): the TLV bytes change what is advertised. -/
def Eng.lldpConfig (e : Eng) (f : Fn) : Eng :=
  e.mbx f 0x0109 (fun e c =>
    let n := c.slot 1
    if c.reqLen < 16 ∨ (n ≤ 512 ∧ c.reqLen ≠ 16 + n) then e.invalid f 8
    else match firstBad [(32, e.portArg (c.slot 0)), (40, decide (n ≤ 512))] with
      | some d => e.invalid f d
      | none =>
        if f ≠ 0 then e.answer f stNotPermitted 0
        else
          let bs := c.bytes 16 n
          let old := (e.port c.port).lldpExtra
          let e := e.modPort c.port (fun x => { x with lldpExtra := bs })
          (if old = bs then e else e.fastStart c.port).answer f stOK 0)

/-- The capability TLV's bytes 0 to 7 (R86). -/
def capBytes (t : CapTlv) : List Byte :=
  [t.version, BitVec.ofNat 8 (pack [(b2n t.thin, 1), (b2n t.trailerTx, 1), (b2n t.trailerRx, 1), (b2n t.pair, 1)]),
   BitVec.ofNat 8 t.steps.toNat, t.lanes, t.engineId, t.portNum, 0, 0]

/-- The pair identity TLV's bytes 0 to 15 (R86). -/
def pairBytes (t : PairTlv) : List Byte :=
  bytesBE 8 t.pairId.toNat ++ bytesBE 4 t.epoch.toNat ++ [t.role, t.engineId, 0, 0]

/-- A length byte and 63 bytes of an ID, truncated. -/
def idBytes (id : List Byte) : List Byte :=
  let b := id.take 63
  BitVec.ofNat 8 b.length :: (b ++ zeros (63 - b.length))

/-- LLDP_PARTNER_GET (R89, R523). -/
def Eng.lldpPartnerGet (e : Eng) (f : Fn) : Eng :=
  e.mbxArgs f 0x010A 1 portFirst (statMay f) (fun e c =>
    let r := (e.port c.port).partner
    let st := match r.st with
      | .none => 0
      | .present => 1
      | .stale => 2
    let cap : List Byte := match r.cap with
      | some t => capBytes t
      | none => zeros 8
    let pr : List Byte := match r.pair with
      | some t => pairBytes t
      | none => zeros 16
    e.respond f stOK 0 (slotBytes [st, r.count, r.ttl, r.time] ++ cap ++ pr ++ idBytes r.chassis ++ idBytes r.portId))

/-! ### Flow control and the kitty -/

/-- Fields of FC_CONFIG (R516); index 12 is OVERSUB. -/
def fcFlds : List Fld :=
  [.enum 3 true, .num 0 255 true, .num 0 (2 ^ 24 - 1), .num 0 7, .num 1 65535,
   .perClass 8192 4194304 1, .perClass 0 4190208 1, .perClass 8192 16777216 1,
   .num 0 10000 true, .num 0 20000 true, .num 0 10000, .num 1 1000, .enum 2]

/-- Codes of FC_MODE. -/
def FcMode.code : FcMode → Nat
  | .none => 0 | .pause => 1 | .pfc => 2
/-- FC_MODE from its code. -/
def FcMode.ofCode (n : Nat) : FcMode := if n = 1 then .pause else if n = 2 then .pfc else .none

/-- PCP_TO_TC as one slot (R514). -/
def pcpSlot (l : List Nat) : Nat := pack (l.map (fun c => (c, 3)))

/-- Their present values; OVERSUB reads as the flag. -/
def Port.fcCfg (x : Port) (oversub : Bool) : List (List Nat) :=
  [[x.fcMode.code], [x.lossless.toNat], [pcpSlot x.pcpToTc], [x.defaultTc.val], [x.pauseQuanta],
   x.xoff, x.xon, x.lossyLimit, [x.cableDelay], [x.partnerResp], [x.wdLimit], [x.wdRestore], [b2n oversub]]

/-- The fields written. -/
def Port.setFc (x : Port) (b : SetBlk) : Port :=
  { x with
    fcMode := FcMode.ofCode (b.val 0 x.fcMode.code)
    lossless := BitVec.ofNat 8 (b.val 1 x.lossless.toNat)
    pcpToTc := (upTo 8).map (fun p => fld (b.val 2 (pcpSlot x.pcpToTc)) (3 * p) 3)
    defaultTc := fin 8 (b.val 3 x.defaultTc.val)
    pauseQuanta := b.val 4 x.pauseQuanta
    xoff := b.list 5 x.xoff
    xon := b.list 6 x.xon
    lossyLimit := b.list 7 x.lossyLimit
    cableDelay := b.val 8 x.cableDelay
    partnerResp := b.val 9 x.partnerResp
    wdLimit := b.val 10 x.wdLimit
    wdRestore := b.val 11 x.wdRestore }

/-- XON_BYTES of every class is at most its XOFF_BYTES less 4,096. -/
def Port.xonOk (x : Port) : Bool := (upTo 8).all (fun i => decide (nth x.xon i 0 + 4096 ≤ nth x.xoff i 0))

/-- The first class whose XON_BYTES is too high, among eight slots. -/
def Port.xonBad (x : Port) : Nat :=
  ((upTo 8).find? (fun i => !decide (nth x.xon i 0 + 4096 ≤ nth x.xoff i 0))).getD 0

/-- The checks of FC_CONFIG beyond its fields' values. -/
def Eng.fcChecks (e : Eng) (b : SetBlk) : List (Nat × Bool) :=
  let y := (e.port (fin 16 b.object)).setFc b
  [((if b.has 5 then b.off 5 else b.off 6), y.xonOk || !(b.has 5 || b.has 6))]

/-- FC_CONFIG's fields take effect (R92, R116, R122): a port whose lossless classes change forgets the XOFF states of
the old ones, and every class follows its use against the thresholds it now has (R123). -/
def Eng.fcApply (e : Eng) (p : PortId) (b : SetBlk) : Eng :=
  let x := e.port p
  let y := x.setFc b
  let y := if y.fcMode = x.fcMode ∧ y.lossless = x.lossless then y else { y with xoffSt := 0, released := 0 }
  (foldEng ((upTo 8).map (fin 8)) (fun e c => e.fcCheck p c false) (e.setPort p y)).setOversub

/-- FC_CONFIG (R92, R122, R519). -/
def Eng.fcConfig (e : Eng) (f : Fn) (cf : Commit) : Eng :=
  e.mbxSet f 0x010B (fun _ => fcFlds) Eng.portArg Eng.fcChecks (fun _ _ => decide (f = 0)) (fun e c b =>
    let p := fin 16 b.object
    let x := e.port p
    match lockedChange fcFlds b (fun i => nth (x.fcCfg e.start.oversub) i []) (fun _ => !decide (x.state = .adminDown)) with
    | some l => e.lockedAt f c l.idx l.off
    | none =>
      if e.start.kittySize < (e.setPort p (x.setFc b)).headroom ∧ b.bool 12 false = false then e.answer f stNoResource 0
      else e.twoPhase f cf (if 1 < x.width then (e.slotsOf p).map (·.val) else []) (e.slotSource p.val) Eng.stopSlot
        (fun e => (e.fcApply p b).answer f stOK 0))

/-- Fields of KITTY_CONFIG: KITTY_SIZE, OVERSUB. -/
def kittyFlds : List Fld := [.test (fun v => decide (v ≤ 8388608 ∧ v % 65536 = 0)) true, .enum 2]

/-- KITTY_CONFIG (R120, R122). -/
def Eng.kittyConfig (e : Eng) (f : Fn) : Eng :=
  e.mbxSet f 0x010C (fun _ => kittyFlds) (fun _ v => v == objEngine) (fun _ _ => []) (fun _ _ => decide (f = 0)) (fun e c b =>
    let up := e.portList.any (fun p => !decide ((e.port p).state = .adminDown))
    match lockedChange kittyFlds b (fun i => if i = 0 then [e.start.kittySize] else []) (fun _ => up) with
    | some l => e.lockedAt f c l.idx l.off
    | none =>
      let size := b.val 0 e.start.kittySize
      if size < e.headroom ∧ b.bool 1 false = false then e.answer f stNoResource 0
      else ({ e with start := { e.start with kittySize := size } }).setOversub.answer f stOK 0)

/-! ### Thinning -/

/-- A lane's slot in THIN_STATUS_GET: its state and the milliseconds left warm (R147, R523). -/
def Eng.laneSlot (e : Eng) : LaneSt → Nat
  | .inService => 0
  | .warm t => 1 + 2 ^ 32 * ((1000000000 - edgesNs (e.now - t)) / 1000000)
  | .cold => 2

/-- THIN_STATUS_GET (R151, R523); a slot beyond the port's lanes reads COLD. -/
def Eng.thinStatusGet (e : Eng) (f : Fn) : Eng :=
  e.mbxArgs f 0x010D 2 (fun e c => portFirst e c ++ [(40, flagOk (c.slot 1))]) (statMay f) (fun e c =>
    let x := e.port c.port
    let t := x.thin
    let e' := if c.slot 1 = 1 then e.setPort c.port { x with thin := {} } else e
    e'.respond f stOK 0 (slotBytes ([x.txLanes, x.rxLanes, x.lastSwitch] ++
      (upTo 8).map (fun i => e.laneSlot (nth x.lanes i .cold)) ++
      [t.narrow, t.widen, t.rejects, t.failures, t.recoveries, t.malformed, t.hostDrops])))

/-! ### Telemetry trailers -/

/-- Fields of TRAILER_CONFIG, of the engine or of a port (R275, R278). -/
def trailerFlds (object : Nat) : List Fld :=
  if object = objEngine then [.enum 4, .num 0 255]
  else [.enum 2, .num 0 255, .test (fun v => v == vNone || decide (v < 16))]

/-- Present values of TRAILER_CONFIG's fields. -/
def Eng.trailerCfg (e : Eng) (object : Nat) : List (List Nat) :=
  if object = objEngine then [[e.off.trailerTb.val], [e.off.engineId]]
  else
    let x := e.port (fin 16 object)
    [[b2n x.trailerStrip], [x.trailerTcs.toNat], [optSlot (x.reportRing.map (·.val))]]

/-- A REPORT_RING named exists. -/
def Eng.trailerChecks (e : Eng) (b : SetBlk) : List (Nat × Bool) :=
  if b.object = objEngine then []
  else [(b.off 2, match slotOpt (b.val 2 vNone) with
    | some r => (e.off.rings.get none r).isSome
    | none => true)]

/-- TRAILER_CONFIG (R275, R278); ENGINE_ID stays as it is while the engine is paired (R439). -/
def Eng.trailerConfig (e : Eng) (f : Fn) : Eng :=
  e.mbxSet f 0x010E trailerFlds (fun e v => v == objEngine || e.portArg v) Eng.trailerChecks
    (fun e b => decide (f = 0) && !(b.object == objEngine && e.paired && b.val 1 e.off.engineId != e.off.engineId))
    (fun e _ b =>
      let e :=
        if b.object = objEngine then
          let id := b.val 1 e.off.engineId
          let old := e.off.engineId
          let e := { e with off := { e.off with trailerTb := fin 4 (b.val 0 e.off.trailerTb.val), engineId := id } }
          if id = old then e else e.fastStartAll
        else
          let p := fin 16 b.object
          let x := e.port p
          let e := e.setPort p { x with
            trailerStrip := b.bool 0 x.trailerStrip
            trailerTcs := BitVec.ofNat 8 (b.val 1 x.trailerTcs.toNat)
            reportRing := (slotOpt (b.val 2 (optSlot (x.reportRing.map (·.val))))).map (fin 16) }
          e.advertise p x
      e.answer f stOK 0)

/-- A ring's size: a power of two from 64 to 65,536. -/
def sizeOk (v : Nat) : Bool := [64, 128, 256, 512, 1024, 2048, 4096, 8192, 16384, 32768, 65536].contains v
/-- A ring's base: aligned to 4 KiB. -/
def baseOk (v : Nat) : Bool := v % 4096 == 0

/-- TRAILER_RING_CREATE (R281). -/
def Eng.trailerRingCreate (e : Eng) (f : Fn) : Eng :=
  e.mbxArgs f 0x010F 4
    (fun _ c => [(32, decide (c.slot 0 < 2048)), (40, decide (c.slot 1 < 2 ^ 20)), (48, baseOk (c.slot 2)), (56, sizeOk (c.slot 3))])
    (f0Only f)
    (fun e c =>
      match pickFree 5 16 ((upTo 16).filter (fun r => (e.off.rings.get none r).isSome)) with
      | none => e.answer f stNoResource 0
      | some r =>
        let ring : TeleRing := { fn := fin 2048 (c.slot 0), pasid := c.slot 1, base := c.slot 2, size := c.slot 3 }
        ({ e with off := { e.off with rings := e.off.rings.put none r (some ring) } }).respond f stOK 0 (slotBytes [r]))

/-- TRAILER_RING_DESTROY (R281). -/
def Eng.trailerRingDestroy (e : Eng) (f : Fn) : Eng :=
  e.mbxArgs f 0x0110 1
    (fun e c => [(32, decide (c.slot 0 < 16) && (e.off.rings.get none (c.slot 0)).isSome &&
      !(e.portList.any (fun p => decide ((e.port p).reportRing = some (fin 16 (c.slot 0))))))])
    (f0Only f)
    (fun e c =>
      ({ e with off := { e.off with rings := e.off.rings.put none (c.slot 0) none } }).answer f stOK 0)

end Sys2Proof.Machine
end

