-- ==== Sys2Proof/Machine/CmdRings.lean ====
section
/-! DEFINITION. CmdRings.lean: the mailbox commands of the rings and event queues group (R526). -/
namespace Sys2Proof.Machine

/-! ### Objects named by a command -/

/-- A Dealer object in the encoding of R516: number in [14:0], kind in [17:16] (0 leaf, 1 node, 2 root). -/
def dobjOf (v : Nat) : Option DObjId :=
  let n := fld v 0 15
  if v < 32768 then some (.leaf (fin 32768 n))
  else if v / 65536 = 1 ∧ n < 8192 ∧ v % 65536 = n then some (.node (fin 8192 n))
  else if v / 65536 = 2 ∧ n < 16 ∧ v % 65536 = n then some (.root (fin 16 n))
  else none
/-- A Dealer object as that code. -/
def dobjCode : DObjId → Nat
  | .leaf q => q.val
  | .node n => 65536 + n.val
  | .root p => 131072 + p.val

/-- Functions that may place leaves directly under a node or root (R285). -/
def Eng.attachOf (e : Eng) : DObjId → Scope
  | .leaf _ => .none
  | .node n => (e.node n).attach
  | .root p => (e.root p).attach

/-- A parent of leaves and nodes on port `p`: its root, or a node of it (R285). -/
def Eng.parentOk (e : Eng) (p : PortId) (v : Nat) : Bool :=
  match dobjOf v with
  | some (.node n) => (e.node n).live && decide ((e.node n).port = p)
  | some (.root q) => decide (q = p)
  | some (.leaf _) | none => false

/-- The PARENT field that a slot gives. -/
def parentOf (v : Nat) : Option (Fin 8192) := match dobjOf v with
  | some (.node n) => some n
  | some (.root _) | some (.leaf _) | none => none

/-- A queue, ring or event queue named by OBJECT: [15:0] local number, [17:16] kind (R516). -/
def Eng.objOf (e : Eng) (f : Fn) (v : Nat) : Option FObj :=
  let n := fld v 0 16
  if v / 65536 = 0 then (e.txqOf f n).map FObj.txq
  else if v / 65536 = 1 then (e.rxqOf f n).map FObj.rxq
  else if v / 65536 = 2 then (e.eqOf f n).map FObj.eq
  else none

/-! ### Fields -/

/-- PASID values (R195). -/
def pasidFld : Fld := .num 0 1048575 true

/-- Fields of TXQ_CREATE and of a transmit queue's QUEUE_MODIFY (R161, R286, R346, R516). -/
def txFlds : List Fld :=
  [.test sizeOk true, .test baseOk true, .test baseOk true, pasidFld, .num 0 15 true, .num 0 7 true, .enum 2 true,
   .num 0 511 true, .num 1 4096, .num 0 1000, .test (fun v => decide (v < 2 ^ 18)), .num 0 7, .num 64 1048576,
   .enum 2 true, .enum 2, .num 0 65535]

/-- Fields of RXQ_CREATE (R172). -/
def rxFlds : List Fld :=
  [.test sizeOk true, .test baseOk true, .test sizeOk true, .test baseOk true, .test (fun v => v == 16 || v == 32) true, pasidFld,
   .enum 2 true, .test (fun v => [1, 2, 4, 8, 16, 32, 64].contains v) true, .test (fun v => [64, 128, 256].contains v) true,
   .num 0 1000, .enum 2 true, .num 0 511 true, .num 1 4096, .num 0 1000]

/-- Fields of EQ_CREATE (R181). -/
def eqFlds : List Fld :=
  [.test sizeOk true, .test baseOk true, pasidFld, .enum 2 true, .test (fun v => v == vNone || decide (v < 4096)),
   .num 1 4096, .num 0 1000]

/-- LATE_POLICY's code. -/
def LatePolicy.code : LatePolicy → Nat
  | .drop => 0 | .send => 1

/-- Present values of a transmit queue's fields. -/
def Eng.txCfg (e : Eng) (q : TxqId) (x : Txq) : List (List Nat) :=
  let l := e.leaf q
  [[x.size], [x.base], [x.cqBase], [x.pasid], [x.port.val], [x.tc.val], [b2n x.fcsPass], [x.eq], [x.coalFrames], [x.coalTime],
   [dobjCode l.up], [l.band], [l.quantum], [b2n x.launchEn], [x.late.code], [x.lateTol]]
/-- The queue with the fields written. -/
def Txq.setCfg (x : Txq) (b : SetBlk) : Txq :=
  { x with
    size := b.val 0 x.size, base := b.val 1 x.base, cqBase := b.val 2 x.cqBase, pasid := b.val 3 x.pasid
    port := fin 16 (b.val 4 x.port.val), tc := fin 8 (b.val 5 x.tc.val), fcsPass := b.bool 6 x.fcsPass
    eq := b.val 7 x.eq, coalFrames := b.val 8 x.coalFrames, coalTime := b.val 9 x.coalTime
    launchEn := b.bool 13 x.launchEn, late := if b.val 14 x.late.code = 1 then .send else .drop
    lateTol := b.val 15 x.lateTol }

/-- Present values of a receive ring's fields. -/
def Rxq.cfg (x : Rxq) : List (List Nat) :=
  [[x.size], [x.base], [x.cqSize], [x.cqBase], [x.cqe], [x.pasid], [b2n x.packed], [x.packMax], [x.packAlign], [x.packTimeout],
   [b2n x.rxTs], [x.eq], [x.coalFrames], [x.coalTime]]
/-- The ring with the fields written. -/
def Rxq.setCfg (x : Rxq) (b : SetBlk) : Rxq :=
  { x with
    size := b.val 0 x.size, base := b.val 1 x.base, cqSize := b.val 2 x.cqSize, cqBase := b.val 3 x.cqBase
    cqe := b.val 4 x.cqe, pasid := b.val 5 x.pasid, packed := b.bool 6 x.packed, packMax := b.val 7 x.packMax
    packAlign := b.val 8 x.packAlign, packTimeout := b.val 9 x.packTimeout, rxTs := b.bool 10 x.rxTs
    eq := b.val 11 x.eq, coalFrames := b.val 12 x.coalFrames, coalTime := b.val 13 x.coalTime }

/-- Present values of an event queue's fields. -/
def Evq.cfg (x : Evq) : List (List Nat) :=
  [[x.size], [x.base], [x.pasid], [b2n x.control], [optSlot x.vector], [x.modEvents], [x.modTime]]
/-- The event queue with the fields written. -/
def Evq.setCfg (x : Evq) (b : SetBlk) : Evq :=
  { x with
    size := b.val 0 x.size, base := b.val 1 x.base, pasid := b.val 2 x.pasid, control := b.bool 3 x.control
    vector := slotOpt (b.val 4 (optSlot x.vector)), modEvents := b.val 5 x.modEvents, modTime := b.val 6 x.modTime }

/-- Checks of a transmit queue's fields beyond their values, lowest offset first (R133, R153, R161, R286). -/
def Eng.txChecks (e : Eng) (f : Fn) (y : Txq) (b : SetBlk) : List (Nat × Bool) :=
  [(b.off 4, !b.has 4 || (e.isPort y.port && bitAt (e.fn f).portMask.toNat y.port.val)),
   (b.off 7, !b.has 7 || (e.eqOf f y.eq).isSome),
   (b.off 10, !b.has 10 || e.parentOk y.port (b.val 10 0)),
   ((if b.has 13 then b.off 13 else b.off 4), !(b.has 13 || b.has 4) || !(y.launchEn && (e.port y.port).thinAuto))]

/-- Checks of a receive ring's fields beyond their values (R172, R179). -/
def Eng.rxChecks (e : Eng) (f : Fn) (y : Rxq) (b : SetBlk) : List (Nat × Bool) :=
  let need := y.size * y.packMax * (if y.rxTs then 4 else 2)
  let szOff := if b.has 0 then b.off 0 else if b.has 2 then b.off 2 else if b.has 7 then b.off 7 else b.off 10
  let pkOff := if b.has 6 then b.off 6 else b.off 7
  [((if b.has 2 then b.off 2 else szOff), !(b.has 0 || b.has 2 || b.has 7 || b.has 10) || decide (need ≤ y.cqSize)),
   ((if b.has 7 then b.off 7 else pkOff), !(b.has 6 || b.has 7) || y.packed || y.packMax == 1),
   (b.off 10, !b.has 10 || !y.rxTs || (e.fn f).timeBase.isSome),
   (b.off 11, !b.has 11 || (e.eqOf f y.eq).isSome)]

/-- Checks of an event queue's fields beyond their values (R181, R526). -/
def Eng.eqChecks (e : Eng) (f : Fn) (y : Evq) (b : SetBlk) : List (Nat × Bool) :=
  [(b.off 3, !b.has 3 || !y.control || (e.ctlEq f).isNone),
   (b.off 4, !b.has 4 || (match y.vector with
     | some v => decide (v < (e.fn f).vecCount)
     | none => true))]

/-! ### Creation -/

/-- Objects of a kind that function `f` holds: transmit queues, receive rings, event queues. -/
def Eng.heldTx (e : Eng) (f : Fn) : Nat := (e.txqList.filter (fun r => decide (r.2.fn = f))).length
def Eng.heldRx (e : Eng) (f : Fn) : Nat := (e.rxqList.filter (fun r => decide (r.2.fn = f))).length
def Eng.heldEq (e : Eng) (f : Fn) : Nat := (e.eqList.filter (fun r => decide (r.2.fn = f))).length

/-- What a failing unit of a transmit queue's commands reports: the queue's context lies in RB4 to RB7, 8,192 of 64 bytes in
each (R23, R549), and its leaf in the Dealer's tree memory. -/
def ctxSource (q : TxqId) (p : PortId) (u : Nat) : Nat × Nat := if u = 0x8000 then (4, 4 + q.val / 8192) else (28, p.val)

/-- A SET block gives each of the fields listed. -/
def SetBlk.gives (b : SetBlk) (l : List Nat) : Bool := l.all b.has

/-- The engine after a creation: where a field without a reset value was left out, free values have been used. -/
def Eng.made (e : Eng) (b : SetBlk) (l : List Nat) : Eng := if b.gives l then e else e.spend 6

/-- Fields of a creation without a reset value, the dash of R11: a transmit queue's, a receive ring's, an event queue's. -/
def txDash : List Nat := [0, 1, 2, 3, 4, 7]
def rxDash : List Nat := [0, 1, 2, 3, 5, 11]
def eqDash : List Nat := [0, 1, 2]

/-- Undefined values of the fields that the dash of R11 stands for: a ring's size and base, a PASID. -/
def Eng.anySize (e : Eng) (i : Nat) : Nat := 2 ^ (6 + e.undef i % 11)
def Eng.anyBase (e : Eng) (i : Nat) : Nat := 4096 * (e.undef i % 2 ^ 52)
def Eng.anyPasid (e : Eng) (i : Nat) : Nat := e.undef i % 2 ^ 20

/-- A transmit queue, a receive ring and an event queue before its creation's fields are written: what has no reset value
is undefined, a free value within the field's range (R11; log entry 48). -/
def Eng.txBlank (e : Eng) (f : Fn) (n : Nat) : Txq :=
  { fn := f, loc := n, size := e.anySize 0, base := e.anyBase 1, cqBase := e.anyBase 2, pasid := e.anyPasid 3
    port := nth e.portList (e.undef 4 % e.portList.length) 0, eq := e.undef 5 % 512 }
def Eng.rxBlank (e : Eng) (f : Fn) (n : Nat) : Rxq :=
  { fn := f, loc := n, size := e.anySize 0, base := e.anyBase 1, cqSize := e.anySize 2, cqBase := e.anyBase 3
    pasid := e.anyPasid 4, eq := e.undef 5 % 512 }
def Eng.eqBlank (e : Eng) (f : Fn) (n : Nat) : Evq :=
  { fn := f, loc := n, size := e.anySize 0, base := e.anyBase 1, pasid := e.anyPasid 2 }

/-- A frame number that no committed frame of an earlier queue of this number has. -/
def Eng.firstFrame (e : Eng) (q : TxqId) : Nat :=
  e.portList.foldl (fun n p => (e.port p).wire.foldl (fun n w => if w.g.q = q then max n (w.g.frame + 1) else n) n) 0

/-- A transmit queue and its leaf are made (R187, R286). -/
def Eng.txMake (e : Eng) (f : Fn) (q : TxqId) (x : Txq) (b : SetBlk) : Eng :=
  let leaf : DObj := { live := true, port := x.port, parent := parentOf (b.val 10 (dobjCode (.root x.port)))
                       band := b.val 11 0, quantum := b.val 12 4096 }
  let e := e.setTxq q (some { x with nextFrame := e.firstFrame q })
  (e.setLeaf q leaf).respond f stOK 0 (slotBytes [q.val])

/-- TXQ_CREATE (R154, R161, R286, R519). -/
def Eng.txqCreate (e : Eng) (f : Fn) (cf : Commit) : Eng :=
  let new (e : Eng) (b : SetBlk) : Txq := (e.txBlank f b.object).setCfg b
  e.mbxSet f 0x0201 (fun _ => txFlds) (fun e v => decide (v < 4096) && (e.txqOf f v).isNone)
    (fun e b => e.txChecks f (new e b) b)
    (fun e b => (e.attachOf ((dobjOf (b.val 10 (dobjCode (.root (new e b).port)))).getD (.root (new e b).port))).allows f)
    (fun e _ b =>
      if (e.fn f).txqQuota ≤ e.heldTx f then e.answer f stNoResource 0
      else match pickFree 0 32768 (e.txqList.map (·.1.val)) with
        | none => e.answer f stNoResource 0
        | some n =>
          let q : TxqId := fin 32768 n
          let x := new e b
          (e.made b txDash).twoPhase f cf [0x8000, 0x8001] (ctxSource q x.port)
            (fun e u => if u = 0x8000 then e.setTxq q (some x) else e)
            (fun e => e.txMake f q x b))

/-- RXQ_CREATE (R154, R172). -/
def Eng.rxqCreate (e : Eng) (f : Fn) : Eng :=
  let new (e : Eng) (b : SetBlk) : Rxq := (e.rxBlank f b.object).setCfg b
  e.mbxSet f 0x0202 (fun _ => rxFlds) (fun e v => decide (v < 4096) && (e.rxqOf f v).isNone)
    (fun e b => e.rxChecks f (new e b) b) (fun _ _ => true)
    (fun e _ b =>
      if (e.fn f).rxqQuota ≤ e.heldRx f then e.answer f stNoResource 0
      else match pickFree 1 32768 (e.rxqList.map (·.1.val)) with
        | none => e.answer f stNoResource 0
        | some n => ((e.made b rxDash).setRxq (fin 32768 n) (some (new e b))).respond f stOK 0 (slotBytes [n]))

/-- EQ_CREATE (R154, R181). -/
def Eng.eqCreate (e : Eng) (f : Fn) : Eng :=
  let new (e : Eng) (b : SetBlk) : Evq := (e.eqBlank f b.object).setCfg b
  e.mbxSet f 0x0203 (fun _ => eqFlds) (fun e v => decide (v < 512) && (e.eqOf f v).isNone)
    (fun e b => e.eqChecks f (new e b) b) (fun _ _ => true)
    (fun e _ b =>
      if (e.fn f).eqQuota ≤ e.heldEq f then e.answer f stNoResource 0
      else match pickFree 2 4096 (e.eqList.map (·.1.val)) with
        | none => e.answer f stNoResource 0
        | some n => ((e.made b eqDash).setEq (fin 4096 n) (some (new e b))).respond f stOK 0 (slotBytes [n]))

/-! ### QUEUE_MODIFY -/

/-- Fields of QUEUE_MODIFY by the kind in OBJECT. -/
def modifyFlds (v : Nat) : List Fld :=
  if v / 65536 = 0 then txFlds else if v / 65536 = 1 then rxFlds else if v / 65536 = 2 then eqFlds else []

/-- Checks of QUEUE_MODIFY. A queue leaves its port only by QUEUE_DESTROY (R153) and keeps the FCS_PASS of its creation
(R94), so another value of these is INVALID (log entry 45, DEDUCED). A leaf's PARENT, BAND and QUANTUM belong to
DEALER_SET. -/
def Eng.modifyChecks (e : Eng) (f : Fn) (b : SetBlk) : List (Nat × Bool) :=
  match e.objOf f b.object with
  | some (.txq q) => match e.txq q with
    | some x =>
      let y := x.setCfg b
      [(b.off 4, decide (y.port = x.port)), (b.off 6, y.fcsPass == x.fcsPass)] ++ e.txChecks f y b ++
        [(b.off 10, !b.has 10), (b.off 11, !b.has 11), (b.off 12, !b.has 12)]
    | none => []
  | some (.rxq q) => match e.rxq q with
    | some x => e.rxChecks f (x.setCfg b) b
    | none => []
  | some (.eq i) => match e.eq_ i with
    | some x => e.eqChecks f (if (x.setCfg b).control = x.control then { x.setCfg b with control := false } else x.setCfg b) b
    | none => []
  | some (.carry _) | some (.mbx _) | none => []

/-- Present values of the fields of a queue, ring or event queue. -/
def Eng.objCfg (e : Eng) (o : FObj) : List (List Nat) :=
  match o with
  | .txq q => match e.txq q with
    | some x => e.txCfg q x
    | none => []
  | .rxq q => match e.rxq q with
    | some x => x.cfg
    | none => []
  | .eq i => match e.eq_ i with
    | some x => x.cfg
    | none => []
  | .carry _ | .mbx _ => []

/-- A queue, ring or event queue runs for the purposes of R59 (R187): an event queue always. -/
def Eng.objRuns (e : Eng) (o : FObj) : Bool :=
  match o with
  | .txq q => match e.txq q with
    | some x => !decide (x.state = .stopped)
    | none => false
  | .rxq q => match e.rxq q with
    | some x => !decide (x.state = .stopped)
    | none => false
  | .eq _ | .carry _ | .mbx _ => true

/-- QUEUE_MODIFY's fields take effect. -/
def Eng.modifyApply (e : Eng) (o : FObj) (b : SetBlk) : Eng :=
  match o with
  | .txq q => e.modTxq q (fun x => x.setCfg b)
  | .rxq q => e.modRxq q (fun x => x.setCfg b)
  | .eq i => e.modEq i (fun x => x.setCfg b)
  | .carry _ | .mbx _ => e

/-- QUEUE_MODIFY (R161, R172, R181). -/
def Eng.queueModify (e : Eng) (f : Fn) : Eng :=
  e.mbxSet f 0x0204 modifyFlds (fun e v => (e.objOf f v).isSome) (fun e b => e.modifyChecks f b) (fun _ _ => true)
    (fun e c b =>
      match e.objOf f b.object with
      | none => e.invalid f 32
      | some o =>
        match lockedChange (modifyFlds b.object) b (fun i => nth (e.objCfg o) i []) (fun _ => e.objRuns o) with
        | some l => e.lockedAt f c l.idx l.off
        | none => (e.modifyApply o b).answer f stOK 0)

/-! ### Starting, stopping, resetting, destroying -/

/-- A command whose first slot is OBJECT, of a queue or ring that exists. -/
def Eng.mbxObj (e : Eng) (f : Fn) (op n : Nat) (checks : Eng → Cmd → List (Nat × Bool)) (body : Eng → Cmd → FObj → Eng) : Eng :=
  e.mbxArgs f op n (fun e c => (32, (e.objOf f (c.slot 0)).isSome) :: checks e c) anyFn (fun e c =>
    match e.objOf f (c.slot 0) with
    | some o => body e c o
    | none => e.invalid f 32)

/-- State of a transmit queue that exists. -/
def Eng.txqState (e : Eng) (q : TxqId) : Option QState := (e.txq q).map (·.state)
/-- State of a receive ring that exists. -/
def Eng.rxqState (e : Eng) (q : RxqId) : Option QState := (e.rxq q).map (·.state)

/-- QUEUE_START (R187, R526): the accepted producer index is acted on. -/
def Eng.queueStart (e : Eng) (f : Fn) : Eng :=
  e.mbxObj f 0x0205 1 (fun _ _ => []) (fun e _ o =>
    match o with
    | .txq q =>
      match e.txqState q with
      | some .stopped => ((e.txState q .running 0).txFetch q).answer f stOK 0
      | some .running => e.answer f stOK 0
      | _ => e.invalid f 32
    | .rxq q =>
      match e.rxqState q with
      | some .stopped =>
        let e := e.modRxq q (fun x => { x with anchorDue := true, anchorAt := none, anchorLast := false })
        ((e.rxState q .running 0).rxFetch q).answer f stOK 0
      | some .running => e.answer f stOK 0
      | _ => e.invalid f 32
    | .eq _ | .carry _ | .mbx _ => e.invalid f 32)

/-- A FLUSH of a transmit queue (R188): every frame not granted completes with FLUSHED, one held by a translation fault
too, once its buffers are read no more (R166); granted frames finish. The lookups of those frames, and their fault wait, are
given up; descriptors accepted and not read are still read, and flushed as they come. -/
def Eng.txFlush (e : Eng) (q : TxqId) : Eng :=
  match e.txq q with
  | none => e
  | some x =>
    let e := e.dropUnsent (fun o => match o with
      | .txXlt r _ => decide (r = q)
      | _ => false)
    let e := foldEng (x.frames.filter (·.waiting)) (fun e f => e.endFrame q f.id f.segNext 11 0) e
    (e.lapse (.txq q)).txFetch q

/-- A FLUSH of a receive ring (R188): frames not placed are dropped, parked frames discarded, and what is read or looked up
for them is given up. -/
def Eng.rxFlush (e : Eng) (q : RxqId) : Eng :=
  let e := (e.dropWaiting q).rxUnpark q
  let late (a : Acc) : Bool := match a.owner with
    | .rxData r _ => decide (r = q) && a.grp == 0
    | .rxPost r => decide (r = q)
    | _ => false
  let unsent := e.dma.queue.any (fun a => decide (a.owner = .rxPost q)) || e.dma.blocked.any (fun b => decide (b.acc.owner = .rxPost q))
  let e := { e with dma := { e.dma with queue := e.dma.queue.filter (fun a => !late a)
                                        blocked := e.dma.blocked.filter (fun b => !late b.acc) } }
  (e.modRxq q (fun x => { x with fetching := if unsent then 0 else x.fetching })).lapse (.rxq q)

/-- Where a stop of a queue ends whose accepted index at the command's admission was `lim`: not before the descriptors read
or being read (R188; log entry 73, DEDUCED). -/
def Txq.stopEnd (x : Txq) (lim : BitVec 16) : BitVec 16 :=
  let done := x.fetched + BitVec.ofNat 16 x.fetching
  if (x.prod - done).toNat < (x.prod - lim).toNat then done else lim

/-- A stop of a transmit queue begins, with the frames up to `lim`, or turns into FLUSH (R188). -/
def Eng.txStop (e : Eng) (q : TxqId) (lim : BitVec 16) (flush : Bool) : Eng :=
  match e.txq q with
  | none => e
  | some x =>
    let e := if x.state = .stopping then e
      else (e.setTxq q (some { x with stopAt := x.stopEnd lim, stopMode := .drain })).txState q .stopping x.cause
    if flush then (e.modTxq q (fun x => { x with stopMode := .flush })).txFlush q else e.txFetch q

/-- A stop of a receive ring begins, or turns into FLUSH (R188). -/
def Eng.rxStop (e : Eng) (q : RxqId) (flush : Bool) : Eng :=
  match e.rxq q with
  | none => e
  | some x =>
    let e := if x.state = .stopping then e
      else (e.setRxq q (some { x with stopMode := .drain })).rxState q .stopping x.cause
    if flush then (e.modRxq q (fun x => { x with stopMode := .flush })).rxFlush q else e

/-- The producer index accepted for a queue when the command was admitted (R188). -/
def Cmd.prodOf (c : Cmd) (q : TxqId) (now : BitVec 16) : BitVec 16 := ((c.prods.find? (fun r => decide (r.1 = q))).map (·.2)).getD now

/-- The producer index accepted for a queue. -/
def Eng.prodNow (e : Eng) (q : TxqId) : BitVec 16 := ((e.txq q).map (·.prod)).getD 0

/-- QUEUE_STOP (R188): the answer comes with STOPPED, or with the class limit. -/
def Eng.queueStop (e : Eng) (f : Fn) : Eng :=
  e.mbxObj f 0x0206 2 (fun _ c => [(40, flagOk (c.slot 1))]) (fun e c o =>
    let flush := c.slot 1 == 1
    match o with
    | .txq q =>
      match e.txqState q with
      | some .stopped => e.answer f stOK 0
      | some .running | some .paused | some .stopping => (e.txStop q (c.prodOf q (e.prodNow q)) flush).working f
      | some .error | none => e.invalid f 32
    | .rxq q =>
      match e.rxqState q with
      | some .stopped => e.answer f stOK 0
      | some .running | some .paused | some .stopping => (e.rxStop q flush).working f
      | some .error | none => e.invalid f 32
    | .eq _ | .carry _ | .mbx _ => e.invalid f 32)

/-- A QUEUE_STOP in flight that names this object is answered. -/
def Eng.stopAnswer (e : Eng) (f : Fn) (o : FObj) : Eng :=
  match (e.fn f).cmd with
  | some c => if c.opcode = 0x0206 ∧ c.st = .working ∧ e.objOf f (c.slot 0) = some o then e.answer f stOK 0 else e
  | none => e

/-- QUEUE_STOPPED: a stopping queue with no frame in progress and every record written writes its last records and
reaches STOPPED (R188). -/
def Eng.queueStopped (e : Eng) (o : FObj) : Eng :=
  match o with
  | .txq q =>
    match e.txq q with
    | none => e
    | some x =>
      let idle := x.frames.isEmpty && x.fetching == 0 && x.held.isEmpty && !e.busyFor (fun w => decide (w = .txCompl q)) &&
        decide (x.fetched = x.stopAt) &&
        !((e.port x.port).wire.any (fun w => decide (w.g.q = q)))
      if x.state = .stopping ∧ idle = true then
        let e := (e.txBatchOut q).txRecord q 2 0 x.cons.toNat 0 0 0 0
        (e.txState q .stopped 0).stopAnswer x.fn o
      else e
  | .rxq q =>
    match e.rxq q with
    | none => e
    | some x =>
      let idle := x.fetching == 0 && x.placed.isEmpty && x.waiting.isEmpty && x.parked.isEmpty && x.held.isEmpty &&
        !e.busyFor (fun w => decide (w = .rxCompl q))
      if x.state = .stopping ∧ idle = true then
        let next := (x.posted.head?.map (·.idx)).getD x.fetched
        let e := e.rxEntry q (fun ph => closeBytes x ph 3 next.toNat)
        let e := e.modRxq q (fun x => { x with cur := none, cons := next, anchorLast := false })
        (e.rxState q .stopped 0).stopAnswer x.fn o
      else e
  | .eq _ | .carry _ | .mbx _ => e

/-- What a transmit queue has under way is given up: granted frames not started are discarded, committed ones finish
without a completion (R189). -/
def Eng.txClear (e : Eng) (q : TxqId) (x : Txq) : Eng :=
  let (_, e) := e.takeGranted x.port (fun g => decide (g.q = q))
  let e := e.forget (.txq q)
  e.modPort x.port (fun p => { p with wire := p.wire.map (fun w => if w.g.q = q then { w with orphan := true } else w) })

/-- What a receive ring has under way is given up, its lines freed (R189). -/
def Eng.rxClear (e : Eng) (q : RxqId) (x : Rxq) : Eng :=
  let e := e.forget (.rxq q)
  let e := foldEng (x.placed.filter (fun r => !r.dataDone)) (fun e r => e.rxFree r.fr) e
  foldEng (x.waiting ++ x.parked) (fun e r => e.rxFree r) e

/-- A transmit queue after QUEUE_RESET: its fields and counters are kept (R189, R192). -/
def Txq.fresh (x : Txq) : Txq :=
  { x with
    cause := 0, prod := 0, cons := 0, fetched := 0, fetching := 0, fetchGrp := 0, partials := [], bells := [], stopAt := 0
    stopMode := .drain, frames := [], batch := none, cqCount := 0, held := [], uncovered := false }

/-- A receive ring after QUEUE_RESET. -/
def Rxq.fresh (x : Rxq) : Rxq :=
  { x with
    cause := 0, prod := 0, cons := 0, fetched := 0, fetching := 0, fetchGrp := 0, acted := 0, posted := [], cur := none, placed := []
    waiting := [], parked := [], held := [], cqCount := 0, uncovered := 0, uncovSince := none, uncovClose := false
    anchorAt := none, anchorDue := true, anchorLast := false, stopMode := .drain }

/-- An event queue after QUEUE_RESET. -/
def Evq.fresh (x : Evq) : Evq :=
  { x with head := 0, count := 0, evs := [], overflow := false, dropped := 0, armed := none, error := false, cause := 0 }

/-- An object is reset (R189). -/
def Eng.objReset (e : Eng) (o : FObj) : Eng :=
  match o with
  | .txq q =>
    match e.txq q with
    | none => e
    | some x =>
      let e := (e.txClear q x).modTxq q Txq.fresh
      if x.state = .stopped then e else e.txState q .stopped 0
  | .rxq q =>
    match e.rxq q with
    | none => e
    | some x =>
      let e := (e.rxClear q x).modRxq q Rxq.fresh
      if x.state = .stopped then e else e.rxState q .stopped 0
  | .eq i => (e.forget (.eq i)).modEq i Evq.fresh
  | .carry _ | .mbx _ => e

/-- Something started for an object before its reset has not ended: a data read of a frame on the wire, or a request on the
DMA ports (R189). -/
def Eng.objBusy (e : Eng) (o : FObj) : Bool := e.busyFor (fun w => decide (w.obj = some o))

/-- QUEUE_RESET (R189): with OK every descriptor and buffer is software's again, so the answer waits for what was on the
DMA ports. -/
def Eng.queueReset (e : Eng) (f : Fn) : Eng :=
  e.mbxObj f 0x0207 1 (fun _ _ => []) (fun e _ o =>
    let e := e.objReset o
    if e.objBusy o then e.working f else e.answer f stOK 0)

/-- QUEUE_RESETs whose object has nothing left on the DMA ports are answered (R189). -/
def Eng.resetsDone (e : Eng) : Eng :=
  foldEng e.ctl.inflight (fun e f =>
    match (e.fn f).cmd with
    | some c =>
      if c.opcode = 0x0207 ∧ c.st = .working ∧ (e.objOf f (c.slot 0)).all (fun o => !e.objBusy o) then e.answer f stOK 0 else e
    | none => e) e

/-- An action names receive ring `q`. -/
def Action.names (a : Action) (q : RxqId) : Bool := a.ty == 1 && a.target == q.val

/-- Receive ring `q` is named by a steering rule action, or its local number by a spreading table of its owner (R190). -/
def Eng.ringNamed (e : Eng) (q : RxqId) (x : Rxq) : Bool :=
  e.steer.tcam.rows.any (fun r => (r.2.validA || r.2.validB) && r.2.action.names q) ||
  e.steer.genA.ports.rows.any (fun r => r.2.miss.names q) || e.steer.genB.ports.rows.any (fun r => r.2.miss.names q) ||
  e.portList.any (fun p => decide ((e.port p).excRing = some (x.fn, x.loc))) ||
  e.steer.spreads.rows.any (fun r => match r.2 with
    | some t => decide (t.owner = x.fn) && (upTo t.size).any (fun i => t.entries.get 0 i == x.loc)
    | none => false)

/-- Something is bound to event queue `n` of function `f`, or a port subscription names it (R190). -/
def Eng.eqBound (e : Eng) (f : Fn) (n : Nat) : Bool :=
  e.txqList.any (fun r => decide (r.2.fn = f ∧ r.2.eq = n)) || e.rxqList.any (fun r => decide (r.2.fn = f ∧ r.2.eq = n)) ||
  e.portList.any (fun p => (e.port p).subs.contains (f, n))

/-- An object may be destroyed (R187, R190). -/
def Eng.mayDestroy (e : Eng) (o : FObj) : Bool :=
  match o with
  | .txq q => match e.txq q with
    | some x => decide (x.state = .stopped) || decide (x.state = .error)
    | none => false
  | .rxq q => match e.rxq q with
    | some x => (decide (x.state = .stopped) || decide (x.state = .error)) && !e.ringNamed q x
    | none => false
  | .eq i => match e.eq_ i with
    | some x => !e.eqBound x.fn x.loc
    | none => false
  | .carry _ | .mbx _ => false

/-- An object is destroyed: its numbers are free again, and a queue's leaf leaves its tree (R190). -/
def Eng.objDestroy (e : Eng) (o : FObj) : Eng :=
  match o with
  | .txq q =>
    match e.txq q with
    | none => e
    | some x => ((e.txClear q x).setTxq q none).setLeaf q {}
  | .rxq q =>
    match e.rxq q with
    | none => e
    | some x => (e.rxClear q x).setRxq q none
  | .eq i => (e.forget (.eq i)).setEq i none
  | .carry _ | .mbx _ => e

/-- QUEUE_DESTROY (R190, R519). -/
def Eng.queueDestroy (e : Eng) (f : Fn) (cf : Commit) : Eng :=
  e.mbxObj f 0x0208 1 (fun e c => [(32, ((e.objOf f (c.slot 0)).map e.mayDestroy).getD false)]) (fun e _ o =>
    match o with
    | .txq q =>
      match e.txq q with
      | none => e
      | some x =>
        e.twoPhase f cf [0x8000, 0x8001] (ctxSource q x.port)
          (fun e u => if u = 0x8000 then (if x.state = .stopped then e else e.txState q .stopped 0) else e.setLeaf q {})
          (fun e => (e.objDestroy o).answer f stOK 0)
    | .rxq _ | .eq _ | .carry _ | .mbx _ => (e.objDestroy o).answer f stOK 0)

/-! ### Queries -/

/-- The items of R219 of an object in a fault wait: address, PASID, access type, start, nanoseconds left, parked bytes. -/
def Eng.faultItems (e : Eng) (o : FObj) (parked : Nat) : List Nat :=
  match e.waitOf o with
  | some w => [w.va, w.pasid, w.access, w.began, e.dma.faultTimeout * 1000000 - edgesNs (w.elapsed e.now), parked]
  | none => [0, 0, 0, 0, 0, parked]

/-- QUEUE_QUERY (R219, R526). The state of an event queue without ERROR and its producer index are not stated: free
values (log entry 1). -/
def Eng.queueQuery (e : Eng) (f : Fn) : Eng :=
  e.mbxObj f 0x0209 1 (fun _ _ => []) (fun e _ o =>
    match o with
    | .txq q =>
      match e.txq q with
      | none => e
      | some x =>
        let tail := if x.state = .paused then e.faultItems o 0 else [0, 0, 0, 0, 0]
        e.respond f stOK 0 (slotBytes ([x.state.code, x.cause, x.prod.toNat, x.cons.toNat, x.cqCount % 65536] ++ tail))
    | .rxq q =>
      match e.rxq q with
      | none => e
      | some x =>
        let tail := if x.state = .paused then e.faultItems o x.parkedBytes else [0, 0, 0, 0, 0]
        e.respond f stOK 0 (slotBytes ([x.state.code, x.cause, x.prod.toNat, x.cons.toNat, x.cqCount % 65536] ++ tail))
    | .eq i =>
      match e.eq_ i with
      | none => e
      | some x =>
        let (st, e) := e.fresh
        let (pr, e) := e.fresh
        e.respond f stOK 0 (slotBytes [if x.error then 3 else st, x.cause, pr, x.head.toNat, x.tail.toNat, 0, 0, 0, 0, 0])
    | .carry _ | .mbx _ => e)

/-- QUEUE_STATS (R192); an event queue keeps no counters. -/
def Eng.queueStats (e : Eng) (f : Fn) : Eng :=
  e.mbxObj f 0x020A 2 (fun _ c => [(40, flagOk (c.slot 1))]) (fun e c o =>
    let clear := c.slot 1 == 1
    match o with
    | .txq q =>
      match e.txq q with
      | none => e
      | some x =>
        let e := if clear then e.setTxq q (some { x with txFrames := 0, txOctets := 0, txErrors := 0, rejects := 0 }) else e
        e.respond f stOK 0 (slotBytes [x.txFrames, x.txOctets, x.txErrors, x.rejects])
    | .rxq q =>
      match e.rxq q with
      | none => e
      | some x =>
        let e := if clear then e.setRxq q (some { x with
            rxFrames := 0, rxOctets := 0, noBuffer := 0, stoppedDrops := 0, quenchDrops := 0, faultDrops := 0, rejects := 0 })
          else e
        e.respond f stOK 0 (slotBytes [x.rxFrames, x.rxOctets, x.noBuffer, x.stoppedDrops, x.quenchDrops, x.faultDrops, x.rejects])
    | .eq _ | .carry _ | .mbx _ => e.respond f stOK 0 [])

/-- MASK of a function's local vector takes a value; clearing it sends the message that waited (R186). -/
def Eng.maskVec (e : Eng) (f : Fn) (v : Nat) (m : Bool) : Eng :=
  let n := (e.fn f).vecBase + v
  let x := e.vec n
  if m then e.setVec n { x with mask := true }
  else
    let e := e.setVec n { mask := false, pending := false }
    if x.mask && x.pending then e.irqOut f v else e

/-- VECTOR_MASK (R186, R526). -/
def Eng.vectorMask (e : Eng) (f : Fn) : Eng :=
  e.mbxArgs f 0x020B 3
    (fun e c => [(40, decide (1 ≤ c.slot 1 ∧ c.slot 1 ≤ 4096 ∧ c.slot 0 + c.slot 1 ≤ (e.fn f).vecCount)), (48, flagOk (c.slot 2))])
    anyFn
    (fun e c => (foldEng (upTo (c.slot 1)) (fun e i => e.maskVec f (c.slot 0 + i) (c.slot 2 == 1)) e).answer f stOK 0)

/-! ### Translation settings and offload profiles -/

/-- Fields of XLT_FUNC_CONFIG: XLT_MODE. -/
def xltFnFlds : List Fld := [.enum 2 true]

/-- XLT_FUNC_CONFIG (R196). -/
def Eng.xltFuncConfig (e : Eng) (f : Fn) : Eng :=
  e.mbxSet f 0x020C (fun _ => xltFnFlds) (fun _ v => decide (v < 2048)) (fun _ _ => []) (fun _ _ => decide (f = 0)) (fun e c b =>
    let g : Fn := fin 2048 b.object
    match lockedChange xltFnFlds b (fun _ => [b2n (!(e.fn g).translated)]) (fun _ => (e.fn g).enabled) with
    | some l => e.lockedAt f c l.idx l.off
    | none => (e.modFn g (fun x => { x with translated := !b.bool 0 (!x.translated) })).answer f stOK 0)

/-- Fields of XLT_CONFIG (R205). -/
def xltFlds : List Fld :=
  [.test (fun v => decide (v ≤ 2097152 ∧ v % 65536 = 0)) true, .test (fun v => decide (4096 ≤ v ∧ v ≤ 2097152 ∧ v % 4096 = 0)), .num 1 1000]

/-- XLT_CONFIG (R205): a wait already longer than a new FAULT_TIMEOUT expires at once. -/
def Eng.xltConfig (e : Eng) (f : Fn) : Eng :=
  e.mbxSet f 0x020D (fun _ => xltFlds) (fun _ v => v == objEngine) (fun _ _ => []) (fun _ _ => decide (f = 0)) (fun e c b =>
    let up := e.portList.any (fun p => !decide ((e.port p).state = .adminDown))
    match lockedChange xltFlds b (fun _ => [e.dma.parkSize]) (fun _ => up) with
    | some l => e.lockedAt f c l.idx l.off
    | none =>
      let limit := b.val 2 e.dma.faultTimeout
      let e := { e with dma := { e.dma with parkSize := b.val 0 e.dma.parkSize, parkRing := b.val 1 e.dma.parkRing, faultTimeout := limit } }
      let expired := e.dma.waits.filter (fun w => w.run.isSome && decide (limit * 1000000 ≤ edgesNs (w.elapsed e.now)))
      (foldEng expired (fun e w => e.faultExpiry w.obj) e).answer f stOK 0)

/-- Fields of OFFLOAD_PROFILE_SET (R256). -/
def profileFlds : List Fld := [.test Scope.slotOk, .enum 2, .enum 2, .enum 2, .enum 2, .enum 2, .enum 2, .enum 2]

/-- Present values of a profile's fields. -/
def OffProfile.cfg (x : OffProfile) : List (List Nat) :=
  [[x.grant.slot], [b2n x.l3], [b2n x.l4], [b2n x.inL3], [b2n x.inL4], [b2n x.lso], [b2n (!x.outerIdInc)], [b2n (!x.ts80)]]

/-- OFFLOAD_PROFILE_SET (R256). -/
def Eng.offloadProfileSet (e : Eng) (f : Fn) : Eng :=
  e.mbxSet f 0x020E (fun _ => profileFlds) (fun _ v => decide (1 ≤ v ∧ v < 256)) (fun _ _ => []) (fun _ _ => decide (f = 0)) (fun e _ b =>
    let x := e.profile b.object
    let y : OffProfile :=
      { grant := Scope.ofSlot (b.val 0 x.grant.slot), l3 := b.bool 1 x.l3, l4 := b.bool 2 x.l4, inL3 := b.bool 3 x.inL3
        inL4 := b.bool 4 x.inL4, lso := b.bool 5 x.lso, outerIdInc := !b.bool 6 (!x.outerIdInc), ts80 := !b.bool 7 (!x.ts80) }
    ({ e with off := { e.off with profiles := e.off.profiles.put (OffProfile.reset b.object) b.object y } }).answer f stOK 0)

/-! ### FUNC_CONFIG and FUNC_RESET (R153, R194) -/

/-- Fields of FUNC_CONFIG (R153). -/
def fnFlds : List Fld :=
  [.enum 2, .num 0 4096, .num 0 4096, .num 0 512, .num 0 4095 true, .num 0 4096 true,
   .test (fun v => v == vNone || decide (v < 4)), .num 0 65535]

/-- Present values of a function's fields. -/
def FnState.cfg (x : FnState) : List (List Nat) :=
  [[b2n x.enabled], [x.txqQuota], [x.rxqQuota], [x.eqQuota], [x.vecBase], [x.vecCount], [optSlot (x.timeBase.map (·.val))], [x.portMask.toNat]]

/-- The function with the fields written. -/
def FnState.setCfg (x : FnState) (b : SetBlk) : FnState :=
  { x with
    enabled := b.bool 0 x.enabled, txqQuota := b.val 1 x.txqQuota, rxqQuota := b.val 2 x.rxqQuota, eqQuota := b.val 3 x.eqQuota
    vecBase := b.val 4 x.vecBase, vecCount := b.val 5 x.vecCount
    timeBase := (slotOpt (b.val 6 (optSlot (x.timeBase.map (·.val))))).map (fin 4)
    portMask := BitVec.ofNat 16 (b.val 7 x.portMask.toNat) }

/-- A function's vectors lie within the engine's and apart from those of the other enabled functions (R153). -/
def Eng.vecsOk (e : Eng) (g : Fn) (y : FnState) : Bool :=
  decide (y.vecBase + y.vecCount ≤ 4096) &&
  (!y.enabled || y.vecCount == 0 || e.enabledFns.all (fun h =>
    let z := e.fn h
    decide (h = g) || z.vecCount == 0 || decide (y.vecBase + y.vecCount ≤ z.vecBase ∨ z.vecBase + z.vecCount ≤ y.vecBase)))

/-- Checks of FUNC_CONFIG beyond its fields' values (R153; R329 for TIME_BASE). -/
def Eng.fnChecks (e : Eng) (b : SetBlk) : List (Nat × Bool) :=
  let g : Fn := fin 2048 b.object
  let y := (e.fn g).setCfg b
  let vec := e.vecsOk g y
  [(b.off 0, !b.has 0 || ((decide (g ≠ 0) || y.enabled) && (b.has 4 || b.has 5 || vec))),
   (b.off 1, !b.has 1 || decide (e.heldTx g ≤ y.txqQuota)),
   (b.off 2, !b.has 2 || decide (e.heldRx g ≤ y.rxqQuota)),
   (b.off 3, !b.has 3 || decide (e.heldEq g ≤ y.eqQuota)),
   (b.off 4, !b.has 4 || vec),
   (b.off 5, !b.has 5 || vec),
   (b.off 6, !b.has 6 || y.timeBase.isSome || e.rxqList.all (fun r => !(decide (r.2.fn = g) && r.2.rxTs))),
   (b.off 7, !b.has 7 || e.txqList.all (fun r => !decide (r.2.fn = g) || bitAt y.portMask.toNat r.2.port.val))]

/-- FUNC_CONFIG's fields take effect; a changed TIME_BASE makes an ANCHOR due on the function's rings (R178). -/
def Eng.fnApply (e : Eng) (g : Fn) (b : SetBlk) : Eng :=
  let x := e.fn g
  let y := x.setCfg b
  let e := e.setFn g y
  if y.timeBase = x.timeBase then e
  else foldEng (e.rxqList.filter (fun r => decide (r.2.fn = g))) (fun e r => e.modRxq r.1 (fun x => { x with anchorDue := true })) e

/-- Step 1 of FUNC_RESET (R194): the quench is set; Carry's requests are aborted (R372). -/
def Eng.resetBegin (e : Eng) (g : Fn) : Eng :=
  let had := (e.fn g).admin
  let e := (e.modFn g (fun x => { x with resetting := some had })).quenchTo g (e.fn g).quench true
  foldEng (allChans.filter (fun c => decide ((e.chan c).owner = g ∧ (e.chan c).state ≠ .idle))) (fun e c => e.carryAbort c) e

/-- Step 1 is over: nothing of the function is in progress. -/
def Eng.resetReady (e : Eng) (g : Fn) : Bool :=
  e.txStopped g && e.rxStopped g &&
  allChans.all (fun c => !decide ((e.chan c).owner = g ∧ (e.chan c).state ≠ .idle ∧ (e.chan c).ending.isSome))

/-- Steps 2 to 5 of FUNC_RESET (R194, R333). No record of the function still to be written is. -/
def Eng.resetFinish (e : Eng) (g : Fn) (had : Bool) : Eng :=
  let e := if (e.fn g).cmd.isSome then e.cmdEnd g stTimeout 0 else e
  let e := foldEng (e.txqList.filter (fun r => decide (r.2.fn = g))) (fun e r => e.objDestroy (.txq r.1)) e
  let e := foldEng (e.rxqList.filter (fun r => decide (r.2.fn = g))) (fun e r => e.objDestroy (.rxq r.1)) e
  let e := foldEng (e.eqList.filter (fun r => decide (r.2.fn = g))) (fun e r => e.objDestroy (.eq r.1)) e
  let e := foldEng e.portList (fun e p => e.modPort p (fun x => { x with subs := x.subs.filter (fun s => !decide (s.1 = g)) })) e
  let x := e.fn g
  let e := foldEng (upTo x.vecCount) (fun e v => e.setVec (x.vecBase + v) { mask := true, pending := false }) e
  let tsq := allSlots.foldl (fun (t : Tab TsQueue) p =>
    let q := t.get {} p.val
    t.put {} p.val { q with ents := q.ents.filter (fun s => !decide (s.fn = g)) }) e.time.tsq
  let e := { e with
    time := { e.time with tsq := tsq }
    dma := { e.dma with queue := e.dma.queue.filter (fun (a : Acc) => !decide (a.fn = g ∧ a.kind = AccKind.write))
                        blocked := e.dma.blocked.filter (fun (b : Blocked) => !decide (b.acc.fn = g ∧ b.acc.kind = AccKind.write)) } }
  let e := foldEng (allChans.filter (fun c => decide ((e.chan c).owner = g) && (e.chan c).heldRec.isSome)) (fun e c =>
    e.modChan c (fun x => { x with heldRec := none, done := true })) e
  (e.modFn g (fun x => { x with resetting := none })).quenchTo g x.quench had

/-- A FUNC_RESET whose step 1 is over goes on to its end, and F0's command is answered (R153, R194); a QUEUE_RESET that
waited is answered (R189). -/
def Eng.resetStep (e : Eng) : Eng :=
  (foldEng (e.fns.rows.map (fun r => fin 2048 r.1)) (fun e g =>
    match (e.fn g).resetting with
    | some had =>
      if e.resetReady g then
        let e := e.resetFinish g had
        match (e.fn 0).cmd with
        | some c =>
          if c.opcode = 0x0002 ∧ c.st = .working then e.answer 0 stOK 0
          else if c.opcode = 0x0001 ∧ c.st = .working then
            match c.set (fun _ => fnFlds) (fun _ => true) with
            | .good b => (e.fnApply g b).answer 0 stOK 0
            | .bad _ => e
          else e
        | none => e
      else e
    | none => e) e).resetsDone

/-- FUNC_CONFIG (R153): setting ENABLED to OFF performs FUNC_RESET first. -/
def Eng.funcConfig (e : Eng) (f : Fn) : Eng :=
  e.mbxSet f 0x0001 (fun _ => fnFlds) (fun _ v => decide (v < 2048)) Eng.fnChecks (fun _ _ => decide (f = 0)) (fun e c b =>
    let g : Fn := fin 2048 b.object
    let x := e.fn g
    match lockedChange fnFlds b (fun i => nth x.cfg i []) (fun _ => x.enabled) with
    | some l => e.lockedAt f c l.idx l.off
    | none =>
      if x.enabled && !b.bool 0 true then (e.working f).resetBegin g
      else (e.fnApply g b).answer f stOK 0)

/-- FUNC_RESET (R194). -/
def Eng.funcReset (e : Eng) (f : Fn) : Eng :=
  e.mbxArgs f 0x0002 1 (fun _ c => [(32, decide (1 ≤ c.slot 0 ∧ c.slot 0 < 2048))]) (f0Only f) (fun e c =>
    (e.working f).resetBegin (fin 2048 (c.slot 0)))

end Sys2Proof.Machine
end

