-- ==== Sys2Proof/Machine/CmdSteer.lean ====
section
/-! DEFINITION. CmdSteer.lean: the mailbox commands of the steering group (R527, R528). -/
namespace Sys2Proof.Machine

/-! ### Actions in requests -/

/-- An action of a request, a 16-byte number: the byte of its first offending field, or the action with a ring's
global number (R231, R233, R528). For RING, TARGET is the local ring and bytes 8 and 9 the owning function. -/
def Eng.actionIn (e : Eng) (v : Nat) : Nat ⊕ Action :=
  let ty := fld v 8 3
  let target := fld v 16 15
  let fn : Fn := fin 2048 (fld v 64 11)
  let exists_ : Bool := match ty with
    | 0 => target == 0
    | 1 => (e.rxqOf fn target).isSome
    | 2 => decide (target < 256) && (e.steer.spreads.get none target).isSome
    | _ => decide (target < 64) && !(e.steer.groups.get {} target).members.isEmpty
  if fld v 0 8 ≠ 0 then .inl 0
  else if 4 < ty ∨ fld v 11 5 ≠ 0 then .inl 1
  else if bitAt v 31 || !exists_ then .inl 2
  else if fld v 44 3 ≠ 0 then .inl 4
  else if (if ty = 1 then fld v 75 53 else fld v 64 64) ≠ 0 then .inl 8
  else .inr
    { ty := ty, target := if ty = 1 then ((e.rxqOf fn target).map (·.val)).getD 0 else target
      policer := if bitAt v 47 then some (fin 4096 (fld v 32 12)) else none, mark := fld v 48 16 }

/-- An action as a response gives it: a ring by function and local number. -/
def Eng.actionOut (e : Eng) (a : Action) : Nat :=
  let (t, f) := if a.ty = 1 then
      (match e.rxq (fin 32768 a.target) with
       | some x => (x.loc, x.fn.val)
       | none => (0, 0))
    else (a.target, 0)
  pack [(0, 8), (a.ty, 3), (0, 5), (t, 15), (0, 1), ((a.policer.map (·.val)).getD 0, 12), (0, 3), (b2n a.policer.isSome, 1),
    (a.mark, 16), (f, 11), (0, 53)]

/-- Actions in force in either generation: those of valid entries and the miss actions. -/
def Eng.liveActions (e : Eng) : List Action :=
  (e.steer.tcam.rows.filter (fun r => r.2.validA || r.2.validB)).map (fun r => r.2.action) ++
  e.steer.genA.ports.rows.map (fun r => r.2.miss) ++ e.steer.genB.ports.rows.map (fun r => r.2.miss)

/-! ### Ports and generations -/

/-- Fields of STEER_PORT_CONFIG (R227). -/
def steerPortFlds : List Fld := [.enum 3, .test (fun v => v == vNone || refOk v)]

/-- EXC_RING as a slot. -/
def excSlot (o : Option (Fn × Nat)) : Nat := match o with
  | some (f, n) => refSlot f n
  | none => vNone

/-- The port with STEER_PORT_CONFIG's fields written. -/
def Port.setSteer (x : Port) (b : SetBlk) : Port :=
  { x with
    malAction := b.val 0 x.malAction
    excRing := (slotOpt (b.val 1 (excSlot x.excRing))).map refOf }

/-- Checks of STEER_PORT_CONFIG (R227). -/
def Eng.steerPortChecks (e : Eng) (b : SetBlk) : List (Nat × Bool) :=
  let y := (e.port (fin 16 b.object)).setSteer b
  [((if b.has 0 then b.off 0 else b.off 1), !(b.has 0 || b.has 1) || !(y.malAction == 2 && y.excRing.isNone)),
   (b.off 1, !b.has 1 || (match y.excRing with
     | some (f, n) => (e.rxqOf f n).isSome
     | none => true))]

/-- STEER_PORT_CONFIG (R227). -/
def Eng.steerPortConfig (e : Eng) (f : Fn) : Eng :=
  e.mbxSet f 0x0301 (fun _ => steerPortFlds) Eng.portArg Eng.steerPortChecks (fun _ _ => decide (f = 0)) (fun e _ b =>
    (e.modPort (fin 16 b.object) (fun x => x.setSteer b)).answer f stOK 0)

/-- Fields of STEER_GEN_SET by its OBJECT (R528). -/
def genFlds (v : Nat) : List Fld :=
  if v < 8 then List.replicate 16 (.test (fun x => x == fld x 0 3 + 256 * fld x 8 8))
  else if v / 256 = 1 then [.num 0 7, .num 0 7, .raw 2]
  else if v = 0x200 then [.num 0 65535, .num 0 65535]
  else []

/-- Objects of STEER_GEN_SET. -/
def Eng.genObj (e : Eng) (v : Nat) : Bool := decide (v < 8) || (decide (256 ≤ v) && e.portArg (v - 256)) || v == 0x200

/-- The action of a MISS_ACTION field: two slots. -/
def Eng.missIn (e : Eng) (b : SetBlk) : Nat ⊕ Action :=
  let l := b.list 2 [0, 0]
  e.actionIn (nth l 0 0 + 2 ^ 64 * nth l 1 0)

/-- A generation with the fields of STEER_GEN_SET written. -/
def Generation.setItem (g : Generation) (b : SetBlk) (miss : Action) : Generation :=
  if b.object < 8 then
    let l := g.profile b.object
    let l' := (upTo 16).map (fun i => match b.get i with
      | some x => (fld (x.vals.headD 0) 0 3, fld (x.vals.headD 0) 8 8)
      | none => nth l i (0, 0))
    { g with profiles := g.profiles.put (List.replicate 16 (0, 0)) b.object l' }
  else if b.object = 0x200 then { g with vxlan := b.val 0 g.vxlan, geneve := b.val 1 g.geneve }
  else
    let p := b.object - 256
    let x := g.ports.get {} p
    let y : GenPort := { profile := b.val 0 x.profile, rcirc := b.val 1 x.rcirc, miss := if b.has 2 then miss else x.miss }
    { g with ports := g.ports.put {} p y }

/-- STEER_GEN_SET: an item of the inactive generation (R232, R234, R528). -/
def Eng.steerGenSet (e : Eng) (f : Fn) : Eng :=
  e.mbxSet f 0x0302 genFlds Eng.genObj
    (fun e b => [(b.off 2, !(b.object / 256 == 1 && b.has 2) || (match e.missIn b with
      | .inl _ => false
      | .inr _ => true))])
    (fun _ _ => decide (f = 0))
    (fun e _ b =>
      if e.steer.retiring.isSome then e.answer f stBusy 0
      else
        let miss : Action := match e.missIn b with
          | .inl _ => {}
          | .inr a => a
        (e.modGen (!e.steer.activeB) (fun g => g.setItem b miss)).answer f stOK 0)

/-! ### STEER_RULE_BATCH -/

/-- An entry record of STEER_RULE_BATCH (R528). -/
structure RuleRec where
  entry : Nat
  validOnly : Bool
  valid : Bool
  key : Nat
  mask : Nat
  action : Action
  deriving DecidableEq, Repr

/-- The entry record at byte `at_` of the parameters: the byte of its first offending field, or the record. -/
def Eng.ruleIn (e : Eng) (c : Cmd) (at_ : Nat) : Nat ⊕ RuleRec :=
  let ent := c.at_ at_ 16
  let b2 := c.at_ (at_ + 2) 8
  let only := bitAt b2 0
  if 16384 ≤ ent then .inl at_
  else if 4 ≤ b2 then .inl (at_ + 2)
  else if c.at_ (at_ + 3) 40 ≠ 0 then .inl (at_ + 3)
  else if only then .inr { entry := ent, validOnly := true, valid := bitAt b2 1, key := 0, mask := 0, action := {} }
  else match e.actionIn (c.at_ (at_ + 152) 128) with
    | .inl d => .inl (at_ + 152 + d)
    | .inr a => .inr { entry := ent, validOnly := false, valid := bitAt b2 1
                       key := c.at_ (at_ + 8) 576, mask := c.at_ (at_ + 80) 576, action := a }

/-- The records of a batch, or the byte of the first offending field. -/
def Eng.rulesIn (e : Eng) (c : Cmd) : Nat → Nat → Nat ⊕ List RuleRec
  | 0, _ => .inr []
  | n + 1, at_ => match e.ruleIn c at_ with
    | .inl d => .inl d
    | .inr r => match e.rulesIn c n (at_ + 168) with
      | .inl d => .inl d
      | .inr l => .inr (r :: l)

/-- An entry of the TCAM. -/
def Eng.tcam (e : Eng) (i : Nat) : TcamEntry := e.steer.tcam.get {} i

/-- An entry's valid bit in a generation set. -/
def TcamEntry.setValid (t : TcamEntry) (b v : Bool) : TcamEntry := if b then { t with validB := v } else { t with validA := v }

/-- The record byte of the first of KEY, MASK and ACTION that a record changes in an entry valid in the active
generation (R59, R233, R515). -/
def Eng.ruleLocked (e : Eng) (r : RuleRec) : Option Nat :=
  let t := e.tcam r.entry
  if r.validOnly || !t.valid e.steer.activeB then none
  else if t.key ≠ r.key then some 8
  else if t.mask ≠ r.mask then some 80
  else if t.action ≠ r.action then some 152
  else none

/-- A record is written to the inactive generation (R233). -/
def Eng.ruleApply (e : Eng) (r : RuleRec) : Eng :=
  let t := e.tcam r.entry
  let t := if r.validOnly then t else { t with key := r.key, mask := r.mask, action := r.action }
  { e with steer := { e.steer with tcam := e.steer.tcam.put {} r.entry (t.setValid (!e.steer.activeB) r.valid) } }

/-- STEER_RULE_BATCH (R233, R234, R519, R528). -/
def Eng.steerRuleBatch (e : Eng) (f : Fn) (cf : Commit) : Eng :=
  e.mbx f 0x0303 (fun e c =>
    let n := c.slot 0
    if c.reqLen < 8 ∨ (1 ≤ n ∧ n ≤ 4096 ∧ c.reqLen ≠ 8 + 168 * n) then e.invalid f 8
    else if n = 0 ∨ 4096 < n then e.invalid f 32
    else match e.rulesIn c n 8 with
      | .inl d => e.invalid f (detOff (32 + d))
      | .inr rs =>
        if f ≠ 0 then e.answer f stNotPermitted 0
        else if e.steer.retiring.isSome then e.answer f stBusy 0
        else match (rs.zip (upTo n)).findSome? (fun (r, i) => (e.ruleLocked r).map (fun k => 168 * i + k)) with
          | some k => e.lockedAt f c 0 (detOff (32 + 8 + k))
          | none =>
            let entry (u : Nat) : Nat := ((rs[u - 0x8000]?).map (·.entry)).getD 0
            e.twoPhase f cf ((upTo n).map (fun i => 0x8000 + i))
              (fun u => (5, entry u + 16384 * (Config.freeValue e.free % 4)))
              (fun e u => { e with steer := { e.steer with
                tcam := e.steer.tcam.put {} (entry u) ((e.tcam (entry u)).setValid (!e.steer.activeB) false) } })
              (fun e => (foldEng rs (fun e r => e.ruleApply r) e).answer f stOK 0))

/-! ### Swap and status -/

/-- STEER_SWAP (R232, R234, R237): the inactive generation becomes active with the next serial. -/
def Eng.steerSwap (e : Eng) (f : Fn) : Eng :=
  e.mbxArgs f 0x0304 0 (fun _ _ => []) (f0Only f) (fun e _ =>
    if e.steer.retiring.isSome then e.answer f stBusy 0
    else
      let b := !e.steer.activeB
      let s := e.steer.lastSerial + 1
      let e := e.modGen b (fun g => { g with serial := s })
      let e := { e with steer := { e.steer with
        activeB := b, lastSerial := s, retiring := some e.now, swapAt := some (e.tb0, e.now), swaps := sat64 (e.steer.swaps + 1) } }
      (e.working f).retireCheck)

/-- STEER_STATUS_GET (R255): a time in nanoseconds, 0 before the first swap. -/
def Eng.steerStatusGet (e : Eng) (f : Fn) : Eng :=
  e.mbxArgs f 0x0305 0 (fun _ _ => []) (f0Only f) (fun e _ =>
    let s := e.steer
    let old := e.gen (!s.activeB)
    let ret := s.retiring.isSome
    e.respond f stOK 0 (slotBytes
      [b2n s.activeB, (e.gen s.activeB).serial.toNat, b2n ret, if ret then old.serial.toNat else 0, if ret then old.count else 0,
       (match s.swapAt with
        | some (_, t) => edgesNs (e.now - t)
        | none => 0),
       s.forced, s.swaps]))

/-- Fields of STEER_CONFIG (R243). -/
def steerFlds : List Fld := [.num 65536 1048576, .raw 5, .enum 2, .enum 2]

/-- A byte string of five slots, and back (R514). -/
def keyBytes (l : List Nat) : List Byte := l.flatMap (bytesLE 8)
/-- The five slots of a 40-byte key. -/
def keySlots (bs : List Byte) : List Nat := (upTo 5).map (fun i => ofLE (slice bs (8 * i) 8))

/-- STEER_CONFIG (R243). -/
def Eng.steerConfig (e : Eng) (f : Fn) : Eng :=
  e.mbxSet f 0x0306 (fun _ => steerFlds) (fun _ v => v == objEngine) (fun _ _ => []) (fun _ _ => decide (f = 0)) (fun e _ b =>
    let s := e.steer
    let e := { e with steer := { s with
      rcircLimit := b.val 0 s.rcircLimit, streamKey := keyBytes (b.list 1 (keySlots s.streamKey))
      streamIp4t := b.bool 2 s.streamIp4t, streamInner := b.bool 3 s.streamInner } }
    e.rcircTopUp.answer f stOK 0)

/-! ### Stream groups -/

/-- A STREAM_GROUP_SET leaves a group that is named with no member (R238). -/
def Eng.groupNamed (e : Eng) (g : Nat) : Bool := e.liveActions.any (fun a => (a.ty == 3 || a.ty == 4) && a.target == g)

/-- STREAM_GROUP_SET (R238). -/
def Eng.streamGroupSet (e : Eng) (f : Fn) : Eng :=
  e.mbx f 0x0307 (fun e c =>
    let n := c.slot 1
    if c.reqLen < 16 ∨ (n ≤ 16 ∧ c.reqLen ≠ 16 + 8 * n) then e.invalid f 8
    else match firstBad ([(32, decide (c.slot 0 < 64)), (40, decide (n ≤ 16) && (n != 0 || !e.groupNamed (c.slot 0)))] ++
        (upTo (min n 16)).map (fun i => (slotOff (2 + i), c.slot (2 + i) == fld (c.slot (2 + i)) 0 1 + 256 * fld (c.slot (2 + i)) 8 3))) with
      | some d => e.invalid f d
      | none =>
        if f ≠ 0 then e.answer f stNotPermitted 0
        else
          let g := c.slot 0
          let m := (upTo n).map (fun i => ((fin 2 (fld (c.slot (2 + i)) 0 1) : Fin 2), (fin 8 (fld (c.slot (2 + i)) 8 3) : Fin 8)))
          let x := e.steer.groups.get {} g
          let e := { e with steer := { e.steer with groups := e.steer.groups.put {} g { x with members := m } } }
          (Eng.pump (fin 64 g) x.waiting.length e).answer f stOK 0)

/-! ### Spreading tables -/

/-- Entries of the pool in use (R245). -/
def Eng.spreadUse (e : Eng) : Nat := e.steer.spreads.rows.foldl (fun s r => s + ((r.2.map (·.size)).getD 0)) 0

/-- SPREAD_CREATE (R245). -/
def Eng.spreadCreate (e : Eng) (f : Fn) : Eng :=
  e.mbxArgs f 0x0308 2
    (fun _ c => [(32, decide (c.slot 0 < 2048)), (40, [16, 32, 64, 128, 256, 512, 1024, 2048].contains (c.slot 1))])
    (f0Only f)
    (fun e c =>
      if 32768 < e.spreadUse + c.slot 1 then e.answer f stNoResource 0
      else match pickFree 4 256 ((upTo 256).filter (fun t => (e.steer.spreads.get none t).isSome)) with
        | none => e.answer f stNoResource 0
        | some t =>
          let s : Spread := { owner := fin 2048 (c.slot 0), size := c.slot 1 }
          ({ e with steer := { e.steer with spreads := e.steer.spreads.put none t (some s) } }).respond f stOK 0 (slotBytes [t]))

/-- SPREAD_DESTROY (R245). -/
def Eng.spreadDestroy (e : Eng) (f : Fn) : Eng :=
  e.mbxArgs f 0x0309 1
    (fun e c => [(32, decide (c.slot 0 < 256) && (e.steer.spreads.get none (c.slot 0)).isSome &&
      !(e.liveActions.any (fun a => a.ty == 2 && a.target == c.slot 0)))])
    (f0Only f)
    (fun e c => ({ e with steer := { e.steer with spreads := e.steer.spreads.put none (c.slot 0) none } }).answer f stOK 0)

/-- SPREAD_SET's parts after TABLE and MASK: the byte at which HASH_SET, INNER, FIRST and the entries start, and the
request's length. -/
def spreadLayout (mask n : Nat) : Nat × Nat × Nat × Nat :=
  let hash := 16 + 40 * b2n (bitAt mask 0)
  let inner := hash + 8 * b2n (bitAt mask 1)
  let first := inner + 8 * b2n (bitAt mask 2)
  (hash, inner, first, first + (if bitAt mask 3 then 16 + alignUp (2 * n) 8 else 0))

/-- SPREAD_SET (R245). -/
def Eng.spreadSet (e : Eng) (f : Fn) : Eng :=
  e.mbx f 0x030A (fun e c =>
    let mask := c.slot 1
    let (_, _, first, _) := spreadLayout mask 0
    let n := if bitAt mask 3 then c.at_ (first + 8) 64 else 0
    let (hash, inner, first, len) := spreadLayout mask n
    if c.reqLen < 16 ∨ (mask < 16 ∧ (c.reqLen < (if bitAt mask 3 then first + 16 else first) ∨ (n ≤ 2048 ∧ c.reqLen ≠ len))) then
      e.invalid f 8
    else match e.steer.spreads.get none (c.slot 0 % 2 ^ 32) with
      | none => e.invalid f 32
      | some t =>
        let ring (i : Nat) : Nat := c.at_ (first + 16 + 2 * i) 16
        match firstBad ([(32, decide (c.slot 0 < 256)), (40, decide (mask < 16)),
            (detOff (32 + hash), !bitAt mask 1 || flagOk (c.at_ hash 64)),
            (detOff (32 + inner), !bitAt mask 2 || flagOk (c.at_ inner 64)),
            (detOff (32 + first), !bitAt mask 3 || decide (c.at_ first 64 ≤ t.size)),
            (detOff (40 + first), !bitAt mask 3 || decide (c.at_ first 64 + n ≤ t.size))] ++
            (if n ≤ 2048 then (upTo n).map (fun i => (detOff (48 + first + 2 * i), (e.rxqOf t.owner (ring i)).isSome)) else []) ++
            [(detOff (48 + first + 2 * n), !bitAt mask 3 || c.at_ (first + 16 + 2 * n) (8 * (alignUp (2 * n) 8 - 2 * n)) == 0)]) with
        | some d => e.invalid f d
        | none =>
          if f ≠ 0 ∧ f ≠ t.owner then e.answer f stNotPermitted 0
          else
            let ents := (upTo n).foldl (fun (s : Tab Nat) i => s.put 0 (c.at_ first 64 + i) (ring i)) t.entries
            let t' : Spread := { t with
              key := if bitAt mask 0 then c.bytes 16 40 else t.key
              ip4t := if bitAt mask 1 then c.at_ hash 64 == 1 else t.ip4t
              inner := if bitAt mask 2 then c.at_ inner 64 == 1 else t.inner
              entries := ents }
            ({ e with steer := { e.steer with spreads := e.steer.spreads.put none (c.slot 0) (some t') } }).answer f stOK 0)

/-! ### Itemised commands (R527) -/

/-- The blocks of an itemised command, each with the DETAIL of its first failing field or what it parses to; a block whose
MASK names a field that does not exist hides the blocks behind it. -/
def itemBlocks (c : Cmd) (specs : List Fld) (obj : Nat → Bool) : Nat → Nat → List (Nat ⊕ SetBlk)
  | 0, _ => []
  | n + 1, at_ =>
    if c.reqLen ≤ at_ then []
    else
      let r : Nat ⊕ SetBlk := match parseBlock c specs obj at_ with
        | .bad d => .inl d
        | .good b => .inr b
      match blockLen c specs at_ with
      | none => [r]
      | some k => r :: itemBlocks c specs obj n (at_ + k)

/-- The outcome of an itemised command over its blocks: the engine, the blocks applied, and the first failure. -/
def Eng.items (e : Eng) (apply : Eng → SetBlk → Nat ⊕ Eng) (l : List (Nat ⊕ SetBlk)) : Eng × Nat × Option Nat :=
  (l.zip (upTo l.length)).foldl (fun s (r, i) =>
    let (e, done, bad) := s
    match r with
    | .inl d => (e, done, some (bad.getD d))
    | .inr b => match apply e b with
      | .inl d => (e, done, some (bad.getD d))
      | .inr e => (e, done + 2 ^ i, bad)) (e, 0, none)

/-- An itemised command of F0: one to `n` SET blocks (R527). -/
def Eng.mbxItems (e : Eng) (f : Fn) (op n : Nat) (specs : List Fld) (obj : Eng → Nat → Bool)
    (apply : Eng → SetBlk → Nat ⊕ Eng) : Eng :=
  e.mbx f op (fun e c =>
    if !spansOk c (fun _ => specs) n 0 then e.invalid f 8
    else
      let (e', done, bad) := e.items apply (itemBlocks c specs (obj e) n 0)
      match bad with
      | some d =>
        if done = 0 then e.invalid f d
        else if f ≠ 0 then e.answer f stNotPermitted 0
        else e'.respond f stPartial d (slotBytes [done])
      | none => if f ≠ 0 then e.answer f stNotPermitted 0 else e'.respond f stOK 0 (slotBytes [done]))

/-- Fields of POLICER_SET (R249). -/
def policerFlds : List Fld := [.num 0 1600000, .num 64 16777216, .int (-32) 32]

/-- A policer with the fields written: its tokens become BURST where any is (R249). -/
def Eng.policerApply (e : Eng) (b : SetBlk) : Nat ⊕ Eng :=
  let i : Fin 4096 := fin 4096 b.object
  let x := e.policer i
  let y := { x with rate := b.val 0 x.rate, burst := b.val 1 x.burst
                    lenAdj := signed 64 (b.val 2 (unsigned 64 x.lenAdj)) }
  .inr (e.setPolicer i (if b.flds.isEmpty then y else { y with tokens := y.burst * 6250, last := 2 * e.now }))

/-- POLICER_SET (R249, R527). -/
def Eng.policerSet (e : Eng) (f : Fn) : Eng := e.mbxItems f 0x030B 64 policerFlds (fun _ v => decide (v < 4096)) Eng.policerApply

/-- Fields of WAKE_PATTERN_SET (R251). -/
def wakeFlds : List Fld := [.enum 2, .raw 4, .num 0 0xFFFFFFFF]

/-- The object of WAKE_PATTERN_SET: [3:0] port, [12:8] pattern (R516). -/
def Eng.wakeObj (e : Eng) (v : Nat) : Bool := v == fld v 0 4 + 256 * fld v 8 5 && e.portArg (fld v 0 4)
/-- Index of a wake pattern. -/
def wakeIdx (v : Nat) : Nat := 32 * fld v 0 4 + fld v 8 5

/-- A wake pattern with the fields written: an all-zero MASK fails (R251). -/
def Eng.wakeApply (e : Eng) (b : SetBlk) : Nat ⊕ Eng :=
  let i := wakeIdx b.object
  let x := e.steer.wakePats.get {} i
  let m := match b.get 1 with
    | some s => (s.vals.zip (upTo 4)).foldl (fun a (v, k) => a + v * 2 ^ (64 * k)) 0
    | none => x.mask
  if m = 0 then .inl (b.off 1)
  else .inr { e with steer := { e.steer with
    wakePats := e.steer.wakePats.put {} i { enable := b.bool 0 x.enable, mask := m, check := b.val 2 x.check } } }

/-- WAKE_PATTERN_SET (R251, R527). -/
def Eng.wakePatternSet (e : Eng) (f : Fn) : Eng := e.mbxItems f 0x030C 32 wakeFlds Eng.wakeObj Eng.wakeApply

/-! ### Statistics -/

/-- POLICER_STATS (R250). -/
def Eng.policerStats (e : Eng) (f : Fn) : Eng :=
  e.mbxArgs f 0x030D 2 (fun _ c => [(32, decide (c.slot 0 < 4096)), (40, flagOk (c.slot 1))]) (f0Only f) (fun e c =>
    let i : Fin 4096 := fin 4096 (c.slot 0)
    let x := e.policer i
    let e := if c.slot 1 = 1 then e.setPolicer i { x with passFrames := 0, passOctets := 0, dropFrames := 0, dropOctets := 0 } else e
    e.respond f stOK 0 (slotBytes [x.passFrames, x.passOctets, x.dropFrames, x.dropOctets]))

/-- STEER_STATS (R255). -/
def Eng.steerStats (e : Eng) (f : Fn) : Eng :=
  e.mbxArgs f 0x030E 2 (fun e c => portFirst e c ++ [(40, flagOk (c.slot 1))]) (statMay f) (fun e c =>
    let x := e.port c.port
    let e := if c.slot 1 = 1 then e.setPort c.port { x with steer := {} } else e
    e.respond f stOK 0 (slotBytes ((upTo 19).map (fun i => x.steer.get 0 i))))

end Sys2Proof.Machine
end

