-- ==== Sys2Proof/Machine/CmdDealer.lean ====
section
/-! DEFINITION. CmdDealer.lean: the mailbox commands of the Dealer group (R529). -/
namespace Sys2Proof.Machine

/-! ### Depth (R17, R18) -/

/-- Level of a node or leaf below its root, within `fuel` levels: a root's children are at level 1 (R17). -/
def Eng.level (e : Eng) : Nat → DObjId → Nat
  | 0, _ => 0
  | n + 1, o =>
    match o with
    | .root _ => 0
    | .leaf _ | .node _ => 1 + e.level n (e.dobj o).up

/-- Levels of nodes and leaves at and below an object, within `fuel` levels. -/
def Eng.height (e : Eng) : Nat → DObjId → Nat
  | 0, _ => 0
  | n + 1, o =>
    match o with
    | .root _ => 0
    | .leaf _ => 1
    | .node _ => 1 + (e.kids o).foldl (fun m r => max m (e.height n r.1)) 0

/-- Object `o` is `a` or lies below it, within `fuel` levels. -/
def Eng.below (e : Eng) : Nat → DObjId → DObjId → Bool
  | 0, _, _ => false
  | n + 1, o, a =>
    decide (o = a) || match o with
      | .root _ => false
      | .leaf _ | .node _ => e.below n (e.dobj o).up a

/-- An object may be placed under a parent: no node deeper than level 8, nor any descendant of a moved node, none its own
ancestor (R18, R287). A leaf may be moved under any node. -/
def Eng.placeOk (e : Eng) (o parent : DObjId) : Bool :=
  (match o with
   | .leaf _ | .root _ => true
   | .node _ => decide (e.level 10 parent + e.height 10 o ≤ 8)) && !e.below 10 parent o

/-! ### Fields -/

/-- Fields of DEALER_SET (R285, R516). -/
def dealerFlds : List Fld :=
  [.num 0 15 true, .test Scope.slotOk, .test (fun v => decide (v < 2 ^ 18)), .num 0 7, .num 64 1048576,
   .enum 2, .num 0 1600000, .num 16384 16777216, .int (-63) 63, .enum 2]

/-- The fields in effect of an object, FORGIVE reading as 0 (R529). -/
def Eng.dealerCfg (e : Eng) (o : DObjId) : List (List Nat) :=
  let x := e.dobj o
  [[match o with
    | .root p => p.val
    | .leaf _ | .node _ => x.port.val],
   [(e.attachOf o).slot], [dobjCode x.up], [x.band], [x.quantum], [b2n x.sh.en], [x.sh.rate], [x.sh.burst],
   [unsigned 64 x.sh.lenAdj], [0]]

/-- A shaper with fields of a block written. -/
def Shaper.set (s : Shaper) (b : SetBlk) : Shaper :=
  { en := b.bool 5 s.en, rate := b.val 6 s.rate, burst := b.val 7 s.burst, lenAdj := signed 64 (b.val 8 (unsigned 64 s.lenAdj)) }

/-- A block names a STAGED shaper field. -/
def SetBlk.staged (b : SetBlk) : Bool := b.has 5 || b.has 6 || b.has 7 || b.has 8

/-- A node or leaf with the fields written: LIVE fields at once, STAGED ones in its shadow (R58, R286). -/
def DObj.set (x : DObj) (b : SetBlk) : DObj :=
  { x with
    attach := Scope.ofSlot (b.val 1 x.attach.slot)
    parent := if b.has 2 then parentOf (b.val 2 0) else x.parent
    band := b.val 3 x.band
    quantum := b.val 4 x.quantum
    shadow := if b.staged then some ((x.shadow.getD x.sh).set b) else x.shadow
    forgive := x.forgive || b.bool 9 false }

/-- A node or leaf leaves its parent's round lists. -/
def Eng.leaveRounds (e : Eng) (o : DObjId) : Eng :=
  let up := (e.dobj o).up
  foldEng (upTo 8) (fun e b => e.setRound up b ((nth (e.rounds up) b []).filter (fun c => !decide (c = o)))) e

/-- A SET block's fields take effect on an object; one that changes PARENT or BAND joins its new band's tail with
deficit 0 (R287). -/
def Eng.dealerApply (e : Eng) (o : DObjId) (b : SetBlk) : Eng :=
  match o with
  | .root p => let r := e.root p; e.setRoot p { r with attach := Scope.ofSlot (b.val 1 r.attach.slot) }
  | .leaf _ | .node _ =>
    let x := e.dobj o
    let y := x.set b
    if y.parent = x.parent ∧ y.band = x.band then e.setDobj o y
    else (e.leaveRounds o).setDobj o { y with deficit := 0, turn := false }

/-- The object a block names for function `f`: F0 names leaves by global number, others by local number (R516). -/
def Eng.dealerObj (e : Eng) (f : Fn) (v : Nat) : Option DObjId :=
  match dobjOf v with
  | some (.leaf q) =>
    if f = 0 then (if (e.leaf q).live then some (.leaf q) else none) else (e.txqOf f q.val).map DObjId.leaf
  | some (.node n) => if (e.node n).live then some (.node n) else none
  | some (.root p) => if e.isPort p then some (.root p) else none
  | none => none

/-- The first field of a block that does not apply to the object, or a PARENT that breaks R285, R286 or R18. -/
def Eng.dealerChecks (e : Eng) (o : DObjId) (b : SetBlk) : List (Nat × Bool) :=
  let fits (i : Nat) : Bool := match o with
    | .leaf _ => decide (2 ≤ i)
    | .node _ => true
    | .root _ => decide (i = 1)
  let parent : Bool := match o with
    | .root _ => true
    | .leaf _ | .node _ => e.parentOk (e.dobj o).port (b.val 2 0) && (match dobjOf (b.val 2 0) with
      | some p => e.placeOk o p
      | none => false)
  b.flds.map (fun x => (x.off, fits x.idx && (x.idx != 2 || parent)))

/-- A function may write a block: F0, or the leaf's owner under a parent whose ATTACH allows it (R286). -/
def Eng.dealerMay (e : Eng) (f : Fn) (o : DObjId) (b : SetBlk) : Bool :=
  decide (f = 0) || match o with
    | .leaf _ => !b.has 2 || (match dobjOf (b.val 2 0) with
      | some p => (e.attachOf p).allows f
      | none => false)
    | .node _ | .root _ => false

/-- The blocks of DEALER_SET checked in turn, each against the engine with those before it applied (R61). -/
def Eng.dealerStage (f : Fn) : List SetBlk → Eng → Option Nat
  | [], _ => none
  | b :: t, e => match e.dealerObj f b.object with
    | none => some (detOff (32 + b.start))
    | some o => match firstBad (e.dealerChecks o b) with
      | some d => some d
      | none => Eng.dealerStage f t (e.dealerApply o b)

/-- DEALER_SET (R286, R519). -/
def Eng.dealerSet (e : Eng) (f : Fn) (cf : Commit) : Eng :=
  e.mbx f 0x0403 (fun e c =>
    match parseBlocks c (fun _ => dealerFlds) (fun v => (e.dealerObj f v).isSome) 64 with
    | .bad d => e.invalid f d
    | .good bs => match Eng.dealerStage f bs e with
      | some d => e.invalid f d
      | none =>
        let os := bs.filterMap (fun b => (e.dealerObj f b.object).map (fun o => (o, b)))
        if os.any (fun (o, b) => !e.dealerMay f o b) then e.answer f stNotPermitted 0
        else match os.findSome? (fun (o, b) => lockedChange dealerFlds b (fun i => nth (e.dealerCfg o) i []) (fun _ => true)) with
          | some l => e.lockedAt f c l.idx l.off
          | none =>
            let obj (u : Nat) : Option DObjId := (os[u - 0x8000]?).map (·.1)
            let portOf (u : Nat) : PortId := match obj u with
              | some (.root p) => p
              | some o => (e.dobj o).port
              | none => 0
            e.twoPhase f cf ((upTo os.length).map (fun i => 0x8000 + i)) (fun u => (28, (portOf u).val))
              (fun e u => e.setRoot (portOf u) { e.root (portOf u) with broken := true })
              (fun e => (foldEng os (fun e (o, b) => e.dealerApply o b) e).answer f stOK 0))

/-- The port of a node to be made: an undefined one where PORT, which has no reset value, is left out (R11; log entry 48). -/
def Eng.nodePort (e : Eng) (b : SetBlk) : PortId :=
  if b.has 0 then fin 16 (b.val 0 0) else nth e.portList (e.undef 0 % e.portList.length) 0

/-- DEALER_NODE_CREATE (R284, R286). -/
def Eng.nodeCreate (e : Eng) (f : Fn) : Eng :=
  e.mbxSet f 0x0401 (fun _ => dealerFlds) (fun _ v => v == objEngine)
    (fun e b =>
      let p := e.nodePort b
      [(b.off 0, e.isPort p),
       (b.off 2, !b.has 2 || (e.parentOk p (b.val 2 0) && (match dobjOf (b.val 2 0) with
         | some o => decide (e.level 10 o < 8)
         | none => false)))])
    (fun _ _ => decide (f = 0))
    (fun e _ b =>
      match pickFree 3 8192 ((e.dealer.nodes.rows.filter (fun r => r.2.live)).map (·.1)) with
      | none => e.answer f stNoResource 0
      | some n =>
        let x : DObj := { live := true, port := e.nodePort b }
        ((e.made b [0]).setNode (fin 8192 n) (x.set b)).respond f stOK 0 (slotBytes [n]))

/-- DEALER_NODE_DESTROY (R286): a node without children. -/
def Eng.nodeDestroy (e : Eng) (f : Fn) : Eng :=
  e.mbxArgs f 0x0402 1
    (fun e c => [(32, decide (c.slot 0 < 8192) && (e.node (fin 8192 (c.slot 0))).live && (e.kids (.node (fin 8192 (c.slot 0)))).isEmpty)])
    (f0Only f)
    (fun e c =>
      let n : Fin 8192 := fin 8192 (c.slot 0)
      ((e.leaveRounds (.node n)).setNode n {}).answer f stOK 0)

/-! ### DEALER_QUERY -/

/-- An answer that has cleared counters: they are added back where its response buffer fails (R518). -/
def Eng.respondClear (e : Eng) (f : Fn) (status detail : Nat) (result : List Byte) (u : Undo) : Eng :=
  (e.modFn f (fun x => { x with cmd := x.cmd.map (fun c => { c with undo := some u }) })).respond f status detail result

/-- A SET block of the fields of a list that are present, by index. -/
def setBlockOf (object : Nat) (l : List (Nat × Nat)) : List Byte :=
  bytesLE 4 object ++ zeros 4 ++ bytesLE 8 (l.foldl (fun m (i, _) => m + 2 ^ i) 0) ++ slotBytes (l.map (·.2))

/-- Fields in effect of an object as a SET block: those that apply to it, FORGIVE left out (R285, R529). -/
def Eng.effectBlock (e : Eng) (object : Nat) (o : DObjId) : List Byte :=
  let cfg := (upTo 9).map (fun i => (i, (nth (e.dealerCfg o) i []).headD 0))
  setBlockOf object (match o with
    | .leaf _ => cfg.drop 2
    | .node _ => cfg
    | .root _ => (cfg.drop 1).take 1)

/-- The shadows of an object as a SET block (R299, R310). -/
def Eng.shadowBlock (e : Eng) (object : Nat) (o : DObjId) : List Byte :=
  let x := e.dobj o
  let s : List (Nat × Nat) := match x.shadow with
    | some s => [(5, b2n s.en), (6, s.rate), (7, s.burst), (8, unsigned 64 s.lenAdj)]
    | none => []
  setBlockOf object (s ++ (if x.forgive then [(9, 1)] else []))

/-- What DEALER_QUERY returns of an object (R310, R529). -/
def Eng.queryBytes (e : Eng) (f : Fn) (object : Nat) (o : DObjId) : List Byte :=
  let x := e.dobj o
  let root : List Nat := match o with
    | .root p => let r := e.root p; [unsigned 64 r.pacing, r.window, r.decisions]
    | .leaf _ | .node _ => [0, 0, 0]
  let engine : List Nat := if f = 0 then [e.dealer.samplerDrops, e.dealer.shaperResets] else []
  slotBytes ([unsigned 64 (x.tokens / 125), unsigned 64 x.deficit, e.objCode o, e.classSet 10 o] ++ root ++ engine) ++
  e.effectBlock object o ++ e.shadowBlock object o ++ (e.kids o).flatMap (fun r => bytesLE 4 (dobjCode r.1))

/-- DEALER_QUERY (R310, R529). -/
def Eng.dealerQuery (e : Eng) (f : Fn) : Eng :=
  e.mbxArgs f 0x0404 2
    (fun e c => [(32, decide (c.slot 0 < 2 ^ 32) && (e.dealerObj f (c.slot 0)).isSome), (40, flagOk (c.slot 1))])
    (fun _ c => decide (f = 0) || decide (c.slot 0 < 32768))
    (fun e c =>
      match e.dealerObj f (c.slot 0) with
      | none => e.invalid f 32
      | some o =>
        let bs := e.queryBytes f (c.slot 0) o
        if !c.fits bs.length then e.invalid f 4
        else if c.slot 1 = 1 ∧ f = 0 then
          let u : Undo := { opcode := 0x0404, object := 0, counts := [e.dealer.samplerDrops, e.dealer.shaperResets] }
          ({ e with dealer := { e.dealer with samplerDrops := 0, shaperResets := 0 } }).respondClear f stOK 0 bs u
        else e.respond f stOK 0 bs)

/-! ### The sampler -/

/-- Fields of DEALER_SAMPLER_CONFIG (R305). -/
def samplerFlds : List Fld :=
  [.enum 2, .num 0 32767, .num 1 32768,
   { slots := 4, locked := true, ok := fun i v =>
      if i = 0 then decide (v < 2048) else if i = 1 then decide (v < 2 ^ 20) else if i = 2 then baseOk v else sizeOk v }]

/-- Present values of the sampler's fields. -/
def DealerSt.samplerCfg (d : DealerSt) : List (List Nat) :=
  [[b2n d.sampleEn], [d.sampleFirst], [d.sampleCount], [d.ring.fn.val, d.ring.pasid, d.ring.base, d.ring.size]]

/-- DEALER_SAMPLER_CONFIG (R305): a RING that changes starts empty. -/
def Eng.samplerConfig (e : Eng) (f : Fn) : Eng :=
  e.mbxSet f 0x0405 (fun _ => samplerFlds) (fun _ v => v == objEngine)
    (fun e b => [((if b.has 1 then b.off 1 else b.off 2), !(b.has 1 || b.has 2) ||
      decide (b.val 1 e.dealer.sampleFirst + b.val 2 e.dealer.sampleCount ≤ 32768))])
    (fun _ _ => decide (f = 0))
    (fun e c b =>
      let d := e.dealer
      match lockedChange samplerFlds b (fun i => nth d.samplerCfg i []) (fun _ => d.sampleEn) with
      | some l => e.lockedAt f c l.idx l.off
      | none =>
        let l := b.list 3 (nth d.samplerCfg 3 [])
        let ring : TeleRing := if l = nth d.samplerCfg 3 [] then d.ring
          else { fn := fin 2048 (nth l 0 0), pasid := nth l 1 0, base := nth l 2 0, size := nth l 3 64 }
        let first := b.val 1 d.sampleFirst
        let starts := b.bool 0 d.sampleEn && !d.sampleEn
        ({ e with dealer := { d with
          sampleEn := b.bool 0 d.sampleEn, sampleFirst := first, sampleCount := b.val 2 d.sampleCount, ring := ring
          sampleSeq := if starts then 0 else d.sampleSeq
          sampleNext := if starts then first else d.sampleNext } }).answer f stOK 0)

end Sys2Proof.Machine
end

