-- ==== Sys2Proof/Machine/CmdTime.lean ====
section
/-! DEFINITION. CmdTime.lean: the mailbox commands of the time and Deck group (R530, R531). -/
namespace Sys2Proof.Machine

/-! ### DECK_SET -/

/-- The gate control list a DECK_SET request holds (R339, R531). -/
def Cmd.gateList (c : Cmd) : GateList :=
  { tb := fin 4 (c.at_ 1 8)
    base := c.at_ 8 48 * 1000000000 + c.at_ 4 32
    cycle := c.at_ 16 32
    ext := c.at_ 20 32
    entries := (upTo (c.at_ 2 16)).map (fun i => (c.at_ (32 + 8 * i) 32, BitVec.ofNat 8 (c.at_ (36 + 8 * i) 8))) }

/-- The checks of DECK_SET (R133, R338, R339), lowest offset first. A cut more than 1,000 s away is charged to the base
time, a THIN_MODE of AUTO to the port. -/
def Eng.deckChecks (e : Eng) (c : Cmd) : List (Nat × Bool) :=
  let n := c.at_ 2 16
  let nOk := decide (1 ≤ n ∧ n ≤ 1024)
  let l := c.gateList
  let now := (e.tb l.tb).linear
  let cycleOk := decide (1000 ≤ l.cycle ∧ l.cycle ≤ 1000000000)
  let soon := !cycleOk || decide ((l.cutAfter now).2 ≤ now + 1000000000000)
  [(8, decide (32 ≤ c.reqLen) && (!nOk || c.reqLen == 32 + 8 * n)),
   (32, e.portArg (c.at_ 0 8)), (32, !(e.port (fin 16 (c.at_ 0 8))).thinAuto),
   (33, decide (c.at_ 1 8 < 4)), (34, nOk),
   (36, decide (c.at_ 4 32 < 1000000000)), (36, soon),
   (46, c.at_ 14 16 == 0), (48, cycleOk), (52, decide (l.ext ≤ 1000000000)), (56, c.at_ 24 64 == 0)] ++
  (upTo n).flatMap (fun i => [(detOff (64 + 8 * i), let v := c.at_ (32 + 8 * i) 32; decide (64 ≤ v ∧ v ≤ 1000000000)),
                              (detOff (69 + 8 * i), c.at_ (37 + 8 * i) 24 == 0)])

/-- A linear time as the slots SEC and NS. -/
def secNs (t : Nat) : List Nat := [t / 1000000000, t % 1000000000]

/-- The pending cut of a port: its time, N, and the outcome and r of R343; zero where none is pending. -/
def Eng.cutItems (e : Eng) (d : Deck) : List Nat :=
  if d.admin.isNone then [0, 0, 0, 0, 0]
  else
    let (x, t) := e.cutEffect d
    secNs d.cut ++ [d.cutN, if 0 < x then 1 else if 0 < t then 2 else 0, x + t]

/-- DECK_SET (R338, R342). -/
def Eng.deckSet (e : Eng) (f : Fn) : Eng :=
  e.mbx f 0x0501 (fun e c =>
    match firstBad (e.deckChecks c) with
    | some d => e.invalid f d
    | none =>
      if f ≠ 0 then e.answer f stNotPermitted 0
      else
        let p : PortId := fin 16 (c.at_ 0 8)
        let e := e.deckArm p c.gateList
        e.respond f stOK 0 (slotBytes (e.cutItems (e.port p).deck)))

/-- DECK_CLEAR (R344, R530). -/
def Eng.deckClearCmd (e : Eng) (f : Fn) : Eng :=
  e.mbxArgs f 0x0502 1 portFirst (f0Only f) (fun e c =>
    let e := e.deckClear c.port
    let d := (e.port c.port).deck
    e.respond f stOK 0 (slotBytes (if d.st = .clearing then secNs d.clearAt else [0, 0])))

/-! ### DECK_STATUS_GET -/

/-- A Deck's state by its place in R345. -/
def DeckSt.code : DeckSt → Nat
  | .none => 0 | .pending => 1 | .operational => 2 | .operPending => 3 | .clearing => 4

/-- A list's fields in order (R338, R357). -/
def GateList.items (l : GateList) : List Nat := [l.tb.val] ++ secNs l.base ++ [l.cycle, l.ext, l.entries.length]

/-- The entry in force and the nanoseconds left in it (R357): an extension's entry runs to the cut. -/
def Eng.forceItems (e : Eng) (p : PortId) : List Nat :=
  match (e.port p).deck.oper with
  | none => [0, 0]
  | some o =>
    let t : Int := (e.tb o.tb).linear
    let s := (e.sched p).1
    let stop (left : Nat) : Nat := match s.turn with
      | some k => if t < k then min left (k - t).toNat else left
      | none => left
    let held : Bool := match s.hold with
      | some h => decide (h ≤ t)
      | none => false
    if held then [o.eff.length - 1, match s.turn with
      | some k => (k - t).toNat
      | none => 0]
    else
      let (i, _, left) := o.inForce t
      [i, stop left]

/-- Entries of a list as R339 lays them out. -/
def gateBytes (l : Option GateList) : List Byte := match l with
  | none => []
  | some l => l.entries.flatMap (fun (v, g) => bytesLE 4 v ++ [g, 0, 0, 0])

/-- What DECK_STATUS_GET returns (R357, R530). -/
def Eng.deckBytes (e : Eng) (p : PortId) (ind : Bool) : List Byte :=
  let d := (e.port p).deck
  slotBytes ([d.st.code] ++ (match d.oper with
      | some o => o.items
      | none => [0, 0, 0, 0, 0, 0]) ++ e.forceItems p ++ e.cutItems d ++
    (if d.st = .clearing then secNs d.clearAt else [0, 0]) ++ d.counts) ++
  (if ind then gateBytes d.oper ++ gateBytes d.admin else [])

/-- DECK_STATUS_GET (R357). -/
def Eng.deckStatusGet (e : Eng) (f : Fn) : Eng :=
  e.mbxArgs f 0x0503 2 (fun e c => portFirst e c ++ [(40, flagOk (c.slot 1))]) (statMay f) (fun e c =>
    let bs := e.deckBytes c.port c.indRsp
    if !c.fits bs.length then e.invalid f 4
    else if c.slot 1 = 1 then
      let x := e.port c.port
      (e.setPort c.port { x with deck := x.deck.setCounts [] }).respondClear f stOK 0 bs
        { opcode := 0x0503, object := c.port.val, counts := x.deck.counts }
    else e.respond f stOK 0 bs)

/-! ### TS_QUEUE_READ -/

/-- A time-stamp entry as R332 lays it out. -/
def TsEnt.bytes (x : TsEnt) : List Byte :=
  bytesLE 16 (pack [(x.ns, 32), (x.sec, 48), (x.frac, 4), (x.tb.val, 2), (b2n x.degraded, 1), (0, 1), (x.port.val, 4), (0, 4),
    (x.tsId, 16), (x.fn.val, 11)])

/-- The first `n` values that pass, and the rest in order. -/
def takePass {α : Type} (p : α → Bool) : Nat → List α → List α × List α
  | _, [] => ([], [])
  | n, a :: t =>
    if p a && decide (0 < n) then let (x, y) := takePass p (n - 1) t; (a :: x, y)
    else let (x, y) := takePass p n t; (x, a :: y)

/-- TS_QUEUE_READ (R334, R530). -/
def Eng.tsQueueRead (e : Eng) (f : Fn) : Eng :=
  e.mbxArgs f 0x0504 3 (fun e c => portFirst e c ++ [(40, decide (1 ≤ c.slot 1 ∧ c.slot 1 ≤ 15)), (48, flagOk (c.slot 2))])
    (fun e c => decide (f = 0) || (e.txOwner f c.port && c.slot 2 == 0))
    (fun e c =>
      let q := e.time.tsq.get {} c.port.val
      let (got, rest) := takePass (fun (x : TsEnt) => decide (x.fn = f) || c.slot 2 == 1) (c.slot 1) q.ents
      let e := { e with time := { e.time with tsq := e.time.tsq.put {} c.port.val { q with ents := rest } } }
      e.respond f stOK (rest.filter (fun x => decide (x.fn = f))).length (got.flatMap TsEnt.bytes))

end Sys2Proof.Machine
end

