-- ==== Sys2Proof/Machine/CmdStats.lean ====
section
/-! DEFINITION. CmdStats.lean: the mailbox commands of the Tally and statistics, Carry and firmware groups (R533 to R535). -/
namespace Sys2Proof.Machine

/-! ### Statistics -/

/-- Edges for which the timer of a class has been above zero since the last read (R128). -/
def Eng.pausedEdges (e : Eng) (p : PortId) (c : Nat) : Nat :=
  let x := e.port p
  let t := match x.fcMode with
    | .pause => x.pauseP
    | .none | .pfc => nth x.pauseC c none
  let run : Int := match t with
    | some t => (e.now : Int) - t.since
    | none => 0
  (nth x.pausedFor c 0 + run).toNat

/-- Counter `i` of the statistics set of a port (R128). -/
def Eng.statNow (e : Eng) (p : PortId) (i : Nat) : Nat :=
  if 52 ≤ i ∧ i < 60 then edgesNs (e.pausedEdges p (i - 52)) else (e.port p).stats.get 0 i

/-- The statistics set of a port as STATS_READ returns it (R533). -/
def Eng.statBytes (e : Eng) (p : PortId) : List Byte :=
  slotBytes ((upTo 85).map (e.statNow p) ++ [b2n (e.port p).statsReset])

/-- The counts of a port's set as they are added back: the pause times in edges (R518). -/
def Eng.statCounts (e : Eng) (p : PortId) : List Nat :=
  (upTo 85).map (fun i => if 52 ≤ i ∧ i < 60 then e.pausedEdges p (i - 52) else (e.port p).stats.get 0 i)

/-- A port's statistics set cleared: the time of a timer still running goes on from here (R127). -/
def Eng.statClear (e : Eng) (p : PortId) : Eng :=
  e.modPort p (fun x => { x with
    stats := {}, statsReset := false
    pausedFor := (upTo 8).map (fun c => nth x.pausedFor c 0 - (e.pausedEdges p c : Int)) })

/-- STATS_READ (R127, R533). -/
def Eng.statsRead (e : Eng) (f : Fn) : Eng :=
  e.mbxArgs f 0x0901 1 (fun e c => portFirst e c) (statMay f) (fun e c =>
    let bs := e.statBytes c.port
    let u : Undo := { opcode := 0x0901, object := c.port.val, counts := e.statCounts c.port }
    (e.statClear c.port).respondClear f stOK 0 bs u)

/-- STATS_PEEK (R127, R533). -/
def Eng.statsPeek (e : Eng) (f : Fn) : Eng :=
  e.mbxArgs f 0x0902 1 (fun e c => portFirst e c) (f0Only f) (fun e c =>
    e.respond f stOK 0 (e.statBytes c.port))

/-- Offload counters in the order of R283. -/
def OffCnt.items (x : OffCnt) : List Nat :=
  [x.csumSkipped, x.lsoSends, x.lsoSegments, x.lsoPartial, x.tsInserted, x.badL3, x.badL4, x.badInL3, x.badInL4, x.stripped,
   x.trailerShort, x.reportDrops]

/-- OFFLOAD_STATS (R283). -/
def Eng.offloadStats (e : Eng) (f : Fn) : Eng :=
  e.mbxArgs f 0x0903 2 (fun e c => portFirst e c ++ [(40, flagOk (c.slot 1))]) (statMay f) (fun e c =>
    let x := e.port c.port
    let e := if c.slot 1 = 1 then e.setPort c.port { x with off := {} } else e
    e.respond f stOK 0 (slotBytes x.off.items))

/-- XLT_STATS (R219). -/
def Eng.xltStats (e : Eng) (f : Fn) : Eng :=
  e.mbxArgs f 0x0904 1 (fun _ c => [(32, flagOk (c.slot 0))]) (f0Only f) (fun e c =>
    let x := e.dma.cnt
    let e := if c.slot 0 = 1 then { e with dma := { e.dma with cnt := {} } } else e
    e.respond f stOK 0 (slotBytes
      [x.lookups, x.misses, x.faults, x.pageReqs, x.failures, x.invals, x.txStomps, x.parked, x.parkHigh]))

/-! ### Carry -/

/-- CARRY_FUNC_CONFIG (R359). -/
def Eng.carryFuncConfig (e : Eng) (f : Fn) : Eng :=
  e.mbxSet f 0x0A01 (fun _ => [.num 0 56]) (fun _ v => decide (v < 2048)) (fun _ _ => []) (fun _ _ => decide (f = 0)) (fun e _ b =>
    (e.modFn (fin 2048 b.object) (fun x => { x with chQuota := b.val 0 x.chQuota })).answer f stOK 0)

/-- The channels that a CARRY_CLAIM or CARRY_RELEASE names. -/
def Cmd.chans (c : Cmd) : List ChId := (upTo (c.slot 1)).map (fun i => fin 64 (c.slot 0 + i))

/-- CARRY_CLAIM or CARRY_RELEASE: all of its channels or none; BUSY unless each is IDLE (R359, R534). -/
def Eng.carryHand (e : Eng) (f : Fn) (op : Nat) (claim : Bool) : Eng :=
  e.mbxArgs f op 2
    (fun _ c => [(32, decide (8 ≤ c.slot 0 ∧ c.slot 0 < 64)), (40, decide (1 ≤ c.slot 1 ∧ c.slot 0 + c.slot 1 ≤ 64))])
    (f0Only f)
    (fun e c =>
      if c.chans.any (fun i => !decide ((e.chan i).state = .idle)) then e.answer f stBusy 0
      else
        (foldEng c.chans (fun e i => e.modChan i (fun x => { x with
          claimed := claim, owner := if claim then 0 else x.owner, submitted := !claim && x.submitted })) e).answer f stOK 0)

/-- CARRY_CLAIM. -/
def Eng.carryClaim (e : Eng) (f : Fn) : Eng := e.carryHand f 0x0A02 true
/-- CARRY_RELEASE. -/
def Eng.carryReleaseCmd (e : Eng) (f : Fn) : Eng := e.carryHand f 0x0A03 false

/-- A vector slot: a local vector or NONE. -/
def vecSlotOk (v : Nat) : Bool := v == vNone || decide (v < 4096)

/-- Channels that cannot take a request made by CARRY_SUBMIT. -/
def Eng.carryTaken (e : Eng) : List Nat :=
  (upTo 64).filter (fun i => decide (i < 8) || (e.chan (fin 64 i)).claimed || !decide ((e.chan (fin 64 i)).state = .idle))

/-- CARRY_SUBMIT: one request on a free unclaimed channel (R359); PRIO 0 is treated as 1 (R358). -/
def Eng.carrySubmit (e : Eng) (f : Fn) : Eng :=
  e.mbxArgs f 0x0A04 9
    (fun _ c => [(32, c.slot 0 % 64 == 0), (40, decide (c.slot 1 < 2 ^ 20)), (48, decide (c.slot 2 < 2 ^ 20)), (56, c.slot 3 % 16 == 0),
      (64, decide (c.slot 4 < 65536)), (72, decide (c.slot 5 < 4)), (80, flagOk (c.slot 6)), (88, vecSlotOk (c.slot 7)), (96, vecSlotOk (c.slot 8))])
    anyFn
    (fun e c =>
      if (e.fn f).chQuota ≤ e.carryHeld f then e.answer f stNoResource 0
      else match pickFree 6 64 e.carryTaken with
        | none => e.answer f stNoResource 0
        | some n =>
          let i : ChId := fin 64 n
          let e := e.modChan i (fun x => { x with
            enable := true, fence := c.slot 6 == 1, prio := max 1 (c.slot 5), owner := f, submitted := true
            list := c.slot 0, srcPasid := c.slot 1, dstPasid := c.slot 2, compl := c.slot 3, reqId := c.slot 4
            doneVec := slotOpt (c.slot 7), errVec := slotOpt (c.slot 8)
            doneIrq := !decide (c.slot 7 = vNone), errIrq := !decide (c.slot 8 = vNone) })
          (e.carryGo i).respond f stOK 0 (slotBytes [n, c.slot 4]))

/-- A channel's state by its code in CRY_CH_STATUS (R373). -/
def CState.code : CState → Nat
  | .idle => 0 | .wait => 1 | .validate => 2 | .active => 3 | .suspended => 4 | .fencing => 5 | .halted => 6

/-- DONE_BYTES of channel `c` at this moment: the run so far of a request that goes on (R367). -/
def Eng.chanDone (e : Eng) (c : ChId) : Nat :=
  let x := e.chan c
  match x.state with
  | .active | .suspended | .fencing => e.carryRun c
  | .idle | .wait | .validate | .halted => x.doneBytes

/-- ELEM_IDX of channel `c` at this moment: the element in progress (R374). -/
def Eng.chanElem (e : Eng) (c : ChId) : Nat :=
  let x := e.chan c
  match x.state with
  | .active | .suspended | .fencing => x.elemNow (e.carryRun c)
  | .idle | .wait | .validate | .halted => x.elemIdx

/-- The checks of CARRY_STATUS and CARRY_ABORT: a channel with a request of the issuer's of this REQ_ID (R534). -/
def Eng.carryNamed (f : Fn) (e : Eng) (c : Cmd) : List (Nat × Bool) :=
  let x := e.chan (fin 64 (c.slot 0))
  [(32, decide (c.slot 0 < 64)),
   (40, decide (x.grp ≠ 0 ∧ x.curReq = c.slot 1) && (decide (f = 0) || (decide (x.owner = f) && x.submitted)))]

/-- CARRY_STATUS (R359, R534): a late error of a submitted request is reported once to its owner (R368). -/
def Eng.carryStatus (e : Eng) (f : Fn) : Eng :=
  e.mbxArgs f 0x0A05 2 (Eng.carryNamed f) anyFn (fun e c =>
    let i : ChId := fin 64 (c.slot 0)
    let x := e.chan i
    let bs := slotBytes [x.state.code, e.chanElem i, e.chanDone i, x.result, b2n x.lateErr, x.lateAddr, x.errAddr]
    let e := if x.submitted ∧ x.owner = f then e.setChan i { x with lateErr := false } else e
    e.respond f stOK 0 bs)

/-- CARRY_ABORT (R359, R372): answered when the request has ended. -/
def Eng.carryAbortCmd (e : Eng) (f : Fn) : Eng :=
  e.mbxArgs f 0x0A06 2 (Eng.carryNamed f) anyFn (fun e c =>
    let i : ChId := fin 64 (c.slot 0)
    if (e.chan i).state = .idle then e.answer f stOK 0 else (e.working f).carryAbort i)

/-- CARRY_STATS (R375). -/
def Eng.carryStats (e : Eng) (f : Fn) : Eng :=
  e.mbxArgs f 0x0A07 1 (fun _ c => [(32, flagOk (c.slot 0))]) (f0Only f) (fun e c =>
    let l := e.carry.cnt
    let e := if c.slot 0 = 1 then { e with carry := { e.carry with cnt := [0, 0, 0, 0, 0, 0, 0] } } else e
    e.respond f stOK 0 (slotBytes l))

/-! ### Firmware -/

/-- Code of an image slot's state (R535). -/
def ImgState.code : ImgState → Nat
  | .empty => 0 | .active => 1 | .previous => 2 | .pending => 3 | .bad => 4

/-- FW_INFO_GET (R390, R535). -/
def Eng.fwInfoGet (e : Eng) (b : Boot) (f : Fn) : Eng :=
  e.mbxArgs f 0x0B01 0 (fun _ _ => []) anyFn (fun e _ =>
    e.respond f stOK 0 (slotBytes
      [b.a.state.code, b.a.version.toNat, b.a.secVersion.toNat, b.b.state.code, b.b.version.toNat, b.b.secVersion.toNat, b2n b.runB]))

/-- The checks of FW_UPDATE: the image of R535 as R388 accepts it. -/
def fwChecks (c : Cmd) (sigOk secOk : Bool) : List (Nat × Bool) :=
  [(4, c.indReq), (8, decide (512 ≤ c.reqLen)), (40, secOk), (44, decide (c.at_ 12 32 ≤ 2097152)), (288, sigOk)]

/-- The boot store after FW_UPDATE has written the slot that does not run (R389). -/
def Boot.update (b : Boot) (x : ImgSlot) : Boot := if b.runB then { b with a := x } else { b with b := x }

/-- FW_UPDATE (R389, R535): the verdicts on signature and security version, and whether the write and its read-back
succeed, come from outside. -/
def Eng.fwUpdate (e : Eng) (b : Boot) (f : Fn) (sigOk secOk writeOk : Bool) : Boot × Eng :=
  match e.mbxReady f 0x0B02 with
  | none => (b, e)
  | some c =>
    let go := (firstBad (fwChecks c sigOk secOk)).isNone && decide (f = 0)
    let x : ImgSlot := if writeOk then
        { state := .pending, version := BitVec.ofNat 32 (c.at_ 0 32), secVersion := BitVec.ofNat 32 (c.at_ 8 32) }
      else {}
    (if go then b.update x else b,
     e.mbx f 0x0B02 (fun e c =>
       match firstBad (fwChecks c sigOk secOk) with
       | some d => e.invalid f d
       | none => if f ≠ 0 then e.answer f stNotPermitted 0 else e.answer f (if writeOk then stOK else stFaulted) 0))

/-- FW_RESTART (R382, R535): answered with OK, then the LCP restarts. -/
def Eng.fwRestartCmd (e : Eng) (f : Fn) : Eng :=
  e.mbxArgs f 0x0B03 0 (fun _ _ => []) (f0Only f) (fun e _ => (e.answer f stOK 0).lcpRestart 5)

/-- FW_DEBUG_ENABLE (R386, R535). -/
def Eng.fwDebugEnable (e : Eng) (f : Fn) : Eng :=
  e.mbxArgs f 0x0B04 1 (fun _ c => [(32, flagOk (c.slot 0))]) (fun e _ => decide (f = 0) && e.lcp.policy) (fun e c =>
    (e.dbgEnable (c.slot 0 == 1)).answer f stOK 0)

end Sys2Proof.Machine
end

