-- ==== Sys2Proof/Machine/PairOps.lean ====
section
/-! DEFINITION. PairOps.lean: the pair link controller: the lease, heartbeats, formation, the journal's sending side,
handover, and the pair commands (17_pair.md R434 to R454). What a member applies from its partner is in
MirrorOps.lean. -/
namespace Sys2Proof.Machine

/-- The pair link controller changed. -/
def Eng.modPair (e : Eng) (g : PairSt → PairSt) : Eng := { e with pair := g e.pair }

/-- A PAIR event for F0 (R454). -/
def Eng.pairEvent (e : Eng) (code : Nat) : Eng := e.ctlEvent 0 9 code 0 e.pair.epoch.toNat

/-- A PAIR event for every enabled function (R454). -/
def Eng.pairEventAll (e : Eng) (code : Nat) : Eng := e.ctlEventAll 9 code 0 e.pair.epoch.toNat

/-- Source 42 with a cause of R453. -/
def Eng.linkFail (e : Eng) (cause : Nat) : Eng := e.fail 42 cause mPair
/-- Source 43 with a cause of R453. -/
def Eng.leaseFail (e : Eng) (cause : Nat) : Eng := e.fail 43 cause mPair

/-- A pair counter of R454 raised by `n`. -/
def Eng.pairCnt (e : Eng) (i n : Nat) : Eng := e.modPair (fun x => { x with cnt := addCnt x.cnt i n })

/-- The member holds the active role (R451). -/
def PairSt.isActive (x : PairSt) : Bool := decide (x.state = .active) || decide (x.state = .activeAlone)

/-! ### The lease word (R439) -/

/-- A lease word. -/
def leaseWord (epoch : BitVec 32) (count : BitVec 16) (holder : Nat) : BitVec 64 :=
  BitVec.ofNat 64 (pack [(epoch.toNat, 32), (count.toNat, 16), (holder, 8)])
/-- EPOCH of a lease word. -/
def wEpoch (w : BitVec 64) : BitVec 32 := BitVec.ofNat 32 w.toNat
/-- COUNT of a lease word. -/
def wCount (w : BitVec 64) : BitVec 16 := BitVec.ofNat 16 (w.toNat >>> 32)

/-- An access to the lease word as Tally counts it (R439, R457, R459): of firmware's, for F0; the chip's register has no
address here. -/
def PairSt.leaseEvent (x : PairSt) (code inc : Nat) : TEvent :=
  { code := code, inc := inc, fn := some 0, orig := some .firmware
    addr := match x.lease with
      | .chip => none
      | .host a _ => some a }

/-- A compare-and-swap of the lease word leaves, for an operation; one is outstanding at a time. -/
def Eng.leaseSend (e : Eng) (op : LeaseOp) (new : BitVec 64) : Eng :=
  ((e.modPair (fun x => { x with op := some op, opWord := new, opAt := e.now })).tal (e.pair.leaseEvent 0x204 8)).emit
    (.leaseCas e.pair.word new)

/-! ### Held writes (R443) -/

/-- Writes and interrupt messages that wait for records no later than `n` go out. -/
def Eng.releaseHeld (e : Eng) (n : BitVec 32) : Eng :=
  let due (m : BitVec 32) : Bool := decide ((n - m).toNat < 2147483648)
  let x := e.pair
  let e := e.modPair (fun x => { x with
    held := x.held.filter (fun h => !due h.n), heldIrq := x.heldIrq.filter (fun h => !due h.2.2) })
  let e := foldEng (x.held.filter (fun h => due h.n)) (fun e h => e.access h.acc) e
  foldEng (x.heldIrq.filter (fun h => due h.2.2)) (fun e h => e.sendIrq h.1 h.2.1) e

/-- Every held write goes out. -/
def Eng.releaseAll (e : Eng) : Eng :=
  let x := e.pair
  let e := e.modPair (fun x => { x with held := [], heldIrq := [] })
  let e := foldEng x.held (fun e h => e.access h.acc) e
  foldEng x.heldIrq (fun e h => e.sendIrq h.1 h.2.1) e

/-! ### Changes of state -/

/-- The active goes on without its standby (R443, R449): held writes are released and the journal stops. -/
def Eng.goAlone (e : Eng) : Eng :=
  ((e.modPair (fun x => { x with state := .activeAlone, formStep := 0, resync := false, changes := [], unacked := []
                                 handover := none })).releaseAll).pairEvent 4

/-- A command in flight of F0 that waits for the pair is answered. -/
def Eng.pairAnswer (e : Eng) (op status detail : Nat) : Eng :=
  match (e.fn 0).cmd with
  | some c => if c.opcode = op ∧ c.st = .working then e.answer 0 status detail else e
  | none => e

/-- The standby's mirror is no longer in step (R443, R449, R451). -/
def Eng.goStale (e : Eng) : Eng :=
  (e.modPair (fun x => { x with state := .standbyStale, formStep := 0, resync := false, buffered := [], copyAgain := false
                                op := none })).pairAnswer 0x0804 stNotPermitted 0

/-- The member is fenced (R440): no frame or host write starts, commands in flight end with FAULTED, whose DETAIL is a
free value, and writes that were held are given up: the partner's memory state stands (R445). -/
def Eng.fence (e : Eng) : Eng :=
  let e := e.modPair (fun x => { x with state := .fenced, held := [], heldIrq := [], changes := [], unacked := [], formStep := 0
                                        resync := false, handover := none, op := none })
  foldEng e.ctl.inflight (fun e f => let (v, e) := e.fresh; e.cmdEnd f stFaulted (v % 65536)) e

/-- The standby takes the active role at an epoch (R444 F3 and F4, R445): queues resume from the mirrored state. -/
def Eng.takeOver (e : Eng) (w : BitVec 64) : Eng :=
  let e := e.modPair (fun x => { x with
    state := .activeAlone, roleActive := true, word := w, epoch := wEpoch w, count := wCount w, op := none, renewed := e.now
    formStep := 0, resync := false, tries := 0, changes := [], unacked := [], sent := x.applied, acked := x.applied })
  let e := e.fetchAll.fastStartAll
  let e := foldEng e.txqList (fun e r => e.txEvent r.1) e
  foldEng e.rxqList (fun e r => e.rxEvent r.1 true) e

/-! ### Lease commands -/

/-- LEASE_RENEW: the active increments COUNT (R440). -/
def Eng.leaseRenew (e : Eng) : Eng :=
  let x := e.pair
  let holds := x.isActive || (decide (x.state = .forming) && x.roleActive && decide (4 ≤ x.formStep))
  if !holds ∨ x.op.isSome ∨ e.pwr.ctlOn = false then e
  else e.leaseSend .renew (leaseWord x.epoch (x.count + 1) e.off.engineId)

/-- Step 3 of formation: the lease word gets epoch 1, or the epoch after the one it holds (R437). -/
def Eng.leaseInit (e : Eng) : Eng :=
  (e.modPair (fun x => { x with formStep := 3 })).leaseSend .init (leaseWord (wEpoch e.pair.word + 1) 0 e.off.engineId)

/-- The copy of the banks starts (R437 steps 4 and 5, R449): the journal starts, its records numbered from 1, and RB4 goes
first. -/
def Eng.startCopy (e : Eng) : Eng :=
  (e.modPair (fun x => { x with formStep := 5, copyNext := 4, copyAcked := [], changes := [], unacked := []
                                sent := 0, acked := 0 })).emit (.pairCopy 4)

/-- A formation ends without success (R437, R451). -/
def Eng.formFail (e : Eng) (status detail : Nat) : Eng :=
  ((e.modPair (fun x => { x with state := .unpaired, formStep := 0, op := none, changes := [], unacked := [], buffered := []
                                 copyAgain := false })).pairAnswer 0x0802 status detail).fastStartAll

/-- The last step of a handover has swapped the lease: HANDOVER is sent and the member is fenced (R447). -/
def Eng.handedOver (e : Eng) (w : BitVec 64) : Eng :=
  let e := ((e.modPair (fun x => { x with word := w, epoch := wEpoch w, count := wCount w })).fastStartAll).emit (.pairHandover (wEpoch w))
  ((e.pairAnswer 0x0804 stOK 0).pairCnt 1 1).fence

/-- LEASE_CAS_DONE (R437, R439 to R441, R444, R447). -/
def Eng.leaseDone (e : Eng) (r : CasResult) : Eng :=
  let x := e.pair
  match x.op with
  | none => e
  | some op =>
    let e := e.modPair (fun x => { x with op := none })
    match r with
    | .error =>
      let e := e.leaseFail 5
      (match op with
      | .init => e.formFail stFaulted 0
      | .renew | .handover => e
      | .claim => if 4 ≤ x.tries then e.goStale else e.modPair (fun x => { x with tries := x.tries + 1 }))
    | .old w =>
      let won := decide (w = x.word)
      let keep (e : Eng) : Eng := e.modPair (fun y => { y with word := x.opWord, epoch := wEpoch x.opWord, count := wCount x.opWord })
      (match op with
      | .init =>
        if won then ((keep e).modPair (fun y => { y with renewed := e.now })).fastStartAll.startCopy
        else (e.modPair (fun y => { y with word := w })).leaseInit
      | .renew =>
        if won then
          let e := keep e
          if e.passed x.opAt 10000 then e else e.modPair (fun y => { y with renewed := e.now })
        else (e.leaseFail 2).fence
      | .claim =>
        if won then (((e.takeOver x.opWord).leaseFail 3).pairCnt 0 1).pairEventAll 2
        else (e.modPair (fun y => { y with word := w })).goStale
      | .handover => if won then e.handedOver x.opWord else (e.leaseFail 2).fence)

/-- LEASE_FENCE: 40 µs have passed since the last successful renewal (R440). -/
def Eng.leaseFence (e : Eng) : Eng := if e.pair.isActive then (e.leaseFail 1).fence else e

/-- Sixteen heartbeats have been missed: none has arrived for 16 µs (R441). -/
def Eng.heartsLost (e : Eng) : Bool := match e.pair.hbLast with
  | some (_, t) => e.passed t 16000
  | none => true

/-- LEASE_POLL: the standby reads the lease word, and claims it once the lease has expired and the heartbeats are
lost (R441, R444, R452). -/
def Eng.leasePoll (e : Eng) (w : BitVec 64) : Eng :=
  let x := e.pair
  if !e.standby ∨ e.pwr.ctlOn = false then e
  else
    let e := (e.tal (x.leaseEvent 0x208 1)).tal (x.leaseEvent 0x203 8)
    let same := x.seenAt.isSome && decide (wEpoch w = wEpoch x.word ∧ wCount w = wCount x.word)
    if !same then
      let e' := e.modPair (fun y => { y with word := w, epoch := wEpoch w, count := wCount w, seenAt := some e.now, staleTold := false, tries := 0 })
      if wEpoch w = x.epoch then e' else e'.fastStartAll
    else
      let expired := match x.seenAt with
        | some t => e.passed t 50000
        | none => false
      if !expired ∨ !e.heartsLost then e
      else if x.state = .standbyStale then
        if x.staleTold then e
        else ((e.modPair (fun y => { y with staleTold := true })).leaseFail 4).pairEvent 8
      else match e.pwr.step with
        | .none =>
          if x.op.isSome ∨ (0 < x.tries ∧ e.passed x.opAt 10000 = false) then e
          else e.leaseSend .claim (leaseWord (x.epoch + 1) 0 e.off.engineId)
        | .e1 | .e2 | .e3 | .e4 => e.wake 7 0 0
        | .e5 | .waking => e

/-! ### Heartbeats (R448, R449, R504) -/

/-- The pair link controller runs and sends heartbeats (R504). -/
def Eng.beats (e : Eng) : Bool := e.paired && !e.fenced && e.pwr.ctlOn

/-- HEARTBEAT_TIMER: a heartbeat leaves, with the sequence number of the partner's last one. -/
def Eng.heartbeat (e : Eng) : Eng :=
  if !e.beats then e
  else
    let n := e.pair.hbSeq + 1
    (e.modPair (fun x => { x with hbSeq := n })).emit (.pairHeartbeat n e.pair.epoch (e.pair.hbLast.map (·.1)))

/-- A base lands on the active's time with the measured delay added: the steering's own course is not stated (R448,
log entry 26). -/
def TimeBase.steer (t : TimeBase) (v : TimeVal) (delay : Nat) : TimeBase :=
  let u := { t with sec := v.sec, ns := v.ns, sub := v.sub }
  u.addUnits ((delay * 4294967296 : Nat) : Int)

/-- A resynchronisation begins on this member (R449): the active copies, the standby awaits the copy. -/
def Eng.startResync (e : Eng) : Eng :=
  let e := e.modPair (fun x => { x with resync := true, buffered := [], copyAgain := false })
  match e.pair.state with
  | .activeAlone => e.startCopy
  | .standbyStale => e.modPair (fun x => { x with formStep := 5, applied := 0 })
  | .unpaired | .forming | .active | .fenced | .standby => e

/-- RX_HEARTBEAT (R448, R449). The return of heartbeats resynchronises with AUTO_RESYNC, and whatever that says after the
standby's wake (R450): whether a partner not told to wake has been gated or only out of reach is not known to the active, a
free value (log entry 57). -/
def Eng.rxHeartbeat (e : Eng) (h : Heartbeat) : Eng :=
  if !e.beats then e
  else
    let x := e.pair
    let missed := match x.hbLast with
      | some (s, _) => ((h.seq - s).toNat - 1) % 2147483648
      | none => 0
    let off : Int := ((h.tb0.sec * 1000000000 + h.tb0.ns + h.delay : Nat) : Int) - (e.tb0 : Int)
    let back := x.lostLink && !x.resync
    let e := (e.modPair (fun y => { y with
      hbLast := some (h.seq, e.now), lostLink := false, partnerId := h.engineId.toNat, offset := off
      partnerGated := false, wakeSent := false, staleTold := false })).pairCnt 3 missed
    let e := if e.standby then
        foldEng [(0, h.tb0), (1, h.tb1), (2, h.tb2), (3, h.tb3)] (fun e (n, v) => e.modTb n (fun t => t.steer v h.delay)) e
      else e
    if !back ∨ (x.state ≠ .activeAlone ∧ x.state ≠ .standbyStale) then e
    else if x.autoResync ∨ x.wakeSent then e.startResync
    else if x.partnerGated then
      let (v, e) := e.fresh
      if v % 2 = 1 then e.startResync else e
    else e

/-- HEARTBEAT_LOSS: sixteen heartbeats are missed while the lease is renewed: the link has failed (R449). While the
copy of a formation runs, the copy fails (R437). -/
def Eng.heartbeatLoss (e : Eng) : Eng :=
  if !e.beats then e
  else
    let x := e.pair
    let lost (e : Eng) : Eng := ((e.modPair (fun y => { y with
      lostLink := true, hbLast := none, resync := false, formStep := if y.state = .forming then y.formStep else 0
      partnerGated := y.isActive })).pairCnt 3 16)
    match x.state with
    | .active => ((lost e).linkFail 1).goAlone
    | .activeAlone => lost e
    | .standby => ((lost e).linkFail 1).goStale
    | .standbyStale => lost e
    | .forming => if x.formStep = 5 then ((lost e).linkFail 4).formFail stFaulted 0 else e
    | .unpaired | .fenced => e

/-! ### Formation (R437) -/

/-- HELLO_TIMER: each member sends HELLO while it forms. -/
def Eng.helloTimer (e : Eng) : Eng :=
  if e.pair.state = .forming ∧ e.pair.formStep ≤ 2 ∧ e.pwr.ctlOn then
    let n := e.pair.helloSeq + 1
    (e.modPair (fun x => { x with helloSeq := n })).emit (.pairHello n)
  else e

/-- ENG_REV of revision B0 (R537). -/
def engRev : Nat := 0x000100B0

/-- The members agree: roles, revision, firmware version and port grouping, and their ENGINE_IDs differ (R437). -/
def Eng.agrees (e : Eng) (fw : BitVec 32) (h : Hello) : Bool :=
  decide (h.active ≠ e.pair.roleActive ∧ h.rev.toNat = engRev ∧ h.fwVersion = fw ∧ h.engineId.toNat ≠ e.off.engineId) &&
  decide (h.grouping.map BitVec.toNat = allSlots.map (fun s => (e.portOf s).val))

/-- RX_HELLO (R437, R451): a HELLO of another PAIR_ID is not the partner's. A member that is ACTIVE_ALONE answers a
partner that forms anew and copies to it; `fw` is the version of the firmware that runs. -/
def Eng.rxHello (e : Eng) (fw : BitVec 32) (h : Hello) : Eng :=
  let x := e.pair
  if h.pairId.toNat ≠ x.pairId ∨ e.pwr.ctlOn = false then e
  else match x.state with
    | .forming =>
      if 2 < x.formStep then e
      else if !e.agrees fw h then
        let (v, e) := e.fresh
        (e.linkFail 3).formFail stInvalid (v % 65536)
      else
        let e := e.modPair (fun y => { y with partnerId := h.engineId.toNat, formStep := 2 })
        if x.roleActive then e.leaseInit else e.modPair (fun y => { y with formStep := 5 })
    | .activeAlone =>
      if 0 < x.formStep then e
      else if h.active = false ∧ ({ e with pair := { x with roleActive := true } }).agrees fw h then
        let n := x.helloSeq + 1
        ((e.modPair (fun y => { y with helloSeq := n, partnerId := h.engineId.toNat, resync := false, lostLink := false })).emit
          (.pairHello n)).startCopy
      else e
    | .unpaired | .active | .fenced | .standby | .standbyStale => e

/-- PAIR_FORM_TIMEOUT: no HELLO of the partner within 10 s (R437). -/
def Eng.formTimeout (e : Eng) : Eng :=
  if e.pair.state = .forming ∧ e.pair.formStep ≤ 1 then e.formFail stTimeout 0 else e

/-- The pair is in sync (R437 step 7, R449): the member takes its state, and the command that asked for it is answered. -/
def Eng.synced (e : Eng) : Eng :=
  let r := e.pair.resync
  let e := e.modPair (fun x => { x with
    state := if x.isActive || (decide (x.state = .forming) && x.roleActive) then .active else .standby
    formStep := 0, resync := false, lostLink := false, seenAt := none, staleTold := false, buffered := [], copyAgain := false })
  let e := if r then (e.pairCnt 2 1).pairEvent 5 else e.pairEvent 1
  ((e.pairAnswer 0x0802 stOK 0).pairAnswer 0x0805 stOK 0).fastStartAll

/-- RX_COPY_ACK (R437): the next bank follows; after RB24 the standby has reported SYNCED. -/
def Eng.copyAck (e : Eng) (b : BankId) : Eng :=
  let x := e.pair
  if x.formStep ≠ 5 ∨ e.standby ∨ (x.state = .forming ∧ x.roleActive = false) ∨ b.val ≠ x.copyNext then e
  else if b.val = 24 then (e.modPair (fun y => { y with copyAcked := y.copyAcked ++ [b] })).synced
  else (e.modPair (fun y => { y with copyNext := b.val + 1, copyAcked := y.copyAcked ++ [b] })).emit (.pairCopy (fin 28 (b.val + 1)))

/-! ### The journal's sending side (R442, R443) -/

/-- JOURNAL_PERIOD: the changes of the period leave as one record, where there are any, or a write waits for it. -/
def Eng.journalPeriod (e : Eng) : Eng :=
  let x := e.pair
  let n := x.sent + 1
  if !e.journals ∨ (x.changes = [] ∧ x.held.all (fun h => !decide (h.n = n)) ∧ x.heldIrq.all (fun h => !decide (h.2.2 = n))) then e
  else (e.modPair (fun y => { y with sent := n, changes := [], unacked := y.unacked ++ [(n, e.now)] })).emit (.pairJournal n x.changes)

/-- RX_JOURNAL_ACK: what the record covers is released (R443). -/
def Eng.journalAck (e : Eng) (n : BitVec 32) : Eng :=
  if !e.journals ∨ !e.pair.unacked.any (fun r => decide (r.1 = n)) then e
  else
    (e.modPair (fun x => { x with
      acked := n, unacked := x.unacked.filter (fun r => !decide ((n - r.1).toNat < 2147483648)) })).releaseHeld n

/-- JOURNAL_ACK_TIMEOUT: a record is unacknowledged for 8 µs (R443). -/
def Eng.journalTimeout (e : Eng) : Eng :=
  if e.pair.state = .active ∧ e.pair.unacked ≠ [] then (e.linkFail 2).goAlone else e

/-- A change joins the present period, in place of an earlier one of the same object (R442). -/
def addChange (l : List JChange) (c : JChange) (same : JChange → Bool) : List JChange := l.filter (fun d => !same d) ++ [c]

/-- Index update of a transmit queue. -/
def Txq.change (q : TxqId) (x : Txq) : JChange := .txIdx q x.prod x.cons (BitVec.ofNat 16 x.cqCount) (fin 5 x.state.code)
/-- Index update of a receive ring. -/
def Rxq.change (q : RxqId) (x : Rxq) : JChange := .rxIdx q x.prod x.cons (BitVec.ofNat 16 x.cqCount) (fin 5 x.state.code)
/-- Index update of an event queue. -/
def Evq.change (q : EqId) (x : Evq) : JChange := .eqIdx q x.head x.tail

/-- The journal takes what a command has changed since `old` (R434, R442). -/
def Eng.journalDiff (old e : Eng) : Eng :=
  if !e.journals then e
  else
    let l := e.pair.changes
    let l := e.txqList.foldl (fun l (q, x) =>
      if (old.txq q).map (Txq.change q) = some (x.change q) then l
      else addChange l (x.change q) (fun d => match d with
        | .txIdx r _ _ _ _ => decide (r = q)
        | .rxIdx _ _ _ _ _ | .eqIdx _ _ _ | .dealer _ _ _ | .quench _ _ _ | .cmd _ _ _ | .reg _ => false)) l
    let l := e.rxqList.foldl (fun l (q, x) =>
      if (old.rxq q).map (Rxq.change q) = some (x.change q) then l
      else addChange l (x.change q) (fun d => match d with
        | .rxIdx r _ _ _ _ => decide (r = q)
        | .txIdx _ _ _ _ _ | .eqIdx _ _ _ | .dealer _ _ _ | .quench _ _ _ | .cmd _ _ _ | .reg _ => false)) l
    let l := e.eqList.foldl (fun l (q, x) =>
      if (old.eq_ q).map (Evq.change q) = some (x.change q) then l
      else addChange l (x.change q) (fun d => match d with
        | .eqIdx r _ _ => decide (r = q)
        | .txIdx _ _ _ _ _ | .rxIdx _ _ _ _ _ | .dealer _ _ _ | .quench _ _ _ | .cmd _ _ _ | .reg _ => false)) l
    let objs := e.dealer.leaves.rows.map (fun r => DObjId.leaf (fin 32768 r.1)) ++ e.dealer.nodes.rows.map (fun r => DObjId.node (fin 8192 r.1))
    let l := objs.foldl (fun l o =>
      let a := old.dobj o
      let b := e.dobj o
      if a.tokens = b.tokens ∧ a.deficit = b.deficit then l
      else addChange l (.dealer o b.tokens b.deficit) (fun d => match d with
        | .dealer r _ _ => decide (r = o)
        | .txIdx _ _ _ _ _ | .rxIdx _ _ _ _ _ | .eqIdx _ _ _ | .quench _ _ _ | .cmd _ _ _ | .reg _ => false)) l
    let l := e.fns.rows.foldl (fun l r =>
      let f : Fn := fin 2048 r.1
      let a := old.fn f
      let b := e.fn f
      if a.quench = b.quench ∧ a.admin = b.admin then l
      else addChange l (.quench f b.quench b.admin) (fun d => match d with
        | .quench g _ _ => decide (g = f)
        | .txIdx _ _ _ _ _ | .rxIdx _ _ _ _ _ | .eqIdx _ _ _ | .dealer _ _ _ | .cmd _ _ _ | .reg _ => false)) l
    { e with pair := { e.pair with changes := l } }

/-! ### Handover (R447) -/

/-- Lines of the packet buffer in use by frames sent or received. -/
def Eng.bufferEmpty (e : Eng) : Bool :=
  e.portList.all (fun p =>
    let x := e.port p
    x.wire.isEmpty && x.shared.all (· == 0) && x.kitty.all (· == 0)) &&
  e.start.parkedBytes == 0 && e.steer.rcircLines == 0

/-- A handover goes on: with the buffer empty, its last record sent and every record acknowledged, the lease passes to
the standby. -/
def Eng.handoverStep (e : Eng) : Eng :=
  if e.handing ∧ e.pair.state = .active ∧ e.pair.op.isNone ∧ e.pair.changes = [] ∧ e.pair.unacked = [] ∧ e.pair.held = [] ∧
      e.bufferEmpty then
    e.leaseSend .handover (leaseWord (e.pair.epoch + 1) 0 e.pair.partnerId)
  else e

/-- RX_HANDOVER: the standby becomes active at the new epoch (R447, R451). -/
def Eng.rxHandover (e : Eng) (epoch : BitVec 32) : Eng :=
  if e.pair.state = .standby then
    let e := (e.takeOver (leaseWord epoch 0 e.off.engineId)).pairCnt 1 1
    (e.pairEventAll 3).pairAnswer 0x0804 stOK 0
  else e

/-! ### Pair commands (R435, R437, R447 to R454, R532) -/

/-- Fields of PAIR_CONFIG: PAIR_ID, ROLE, LEASE_LOC as its kind, address and PASID, FAILOVER_PORTS, AUTO_RESYNC, WAKE_SEV. -/
def pairFlds : List Fld :=
  [.test (fun v => decide (v ≠ 0)) true, .enum 2 true,
   { slots := 3, locked := true, ok := fun i v => if i = 0 then decide (v < 2) else if i = 1 then v % 8 == 0 else decide (v < 2 ^ 20) },
   .num 0 65535, .enum 2, .test (fun v => [0, 2, 3, 4].contains v)]

/-- LEASE_LOC as slots. -/
def LeaseLoc.slots : LeaseLoc → List Nat
  | .chip => [0, 0, 0]
  | .host a p => [1, a, p]

/-- Present values of the pair fields. -/
def PairSt.cfg (x : PairSt) : List (List Nat) :=
  [[x.pairId], [b2n (!x.roleActive)], x.lease.slots, [x.failPorts.toNat], [b2n x.autoResync], [x.wakeSev]]

/-- PAIR_CONFIG (R435). -/
def Eng.pairConfig (e : Eng) (f : Fn) : Eng :=
  e.mbxSet f 0x0801 (fun _ => pairFlds) (fun _ v => v == objEngine) (fun _ _ => []) (fun _ _ => decide (f = 0)) (fun e c b =>
    match lockedChange pairFlds b (fun i => nth e.pair.cfg i []) (fun _ => e.paired) with
    | some l => e.lockedAt f c l.idx l.off
    | none =>
      (e.modPair (fun x =>
        let l := b.list 2 x.lease.slots
        { x with
          pairId := b.val 0 x.pairId
          roleActive := !b.bool 1 (!x.roleActive)
          lease := if nth l 0 0 = 1 then .host (nth l 1 0) (nth l 2 0) else .chip
          failPorts := BitVec.ofNat 16 (b.val 3 x.failPorts.toNat)
          autoResync := b.bool 4 x.autoResync
          wakeSev := b.val 5 x.wakeSev })).answer f stOK 0)

/-- PAIR_FORM (R437): BUSY on an engine already in a pair; answered when the pair is in sync. -/
def Eng.pairForm (e : Eng) (f : Fn) : Eng :=
  e.mbxArgs f 0x0802 0 (fun _ _ => []) (f0Only f) (fun e _ =>
    if e.paired then e.answer f stBusy 0
    else
      ((e.working f).modPair (fun x => { x with
        state := .forming, formStep := 1, resync := false, copyAgain := false, changes := [], unacked := [], held := [], heldIrq := []
        buffered := [], hbLast := none, lostLink := false, seenAt := none, sent := 0, acked := 0, applied := 0, tries := 0
        partnerGated := false, wakeSent := false, handover := none })).fastStartAll)

/-- The member leaves its pair (R428, R450, R451): journal and renewal stop; a standby keeps the mirror with every queue
stopped; a fenced member is reachable again. -/
def Eng.leavePair (e : Eng) : Eng :=
  let was := e.pair.state
  let e := e.modPair (fun x => { x with state := .unpaired, formStep := 0, resync := false, op := none, changes := [], unacked := []
                                        handover := none, buffered := [], partnerGated := false, wakeSent := false })
  let e := e.releaseAll
  let e := match was with
    | .standby | .standbyStale =>
      let e := foldEng e.txqList (fun e r => e.setTxq r.1 (some { r.2 with state := .stopped, cause := 0 })) e
      foldEng e.rxqList (fun e r => e.setRxq r.1 (some { r.2 with state := .stopped, cause := 0 })) e
    | .unpaired | .forming | .active | .activeAlone | .fenced => e
  let e := if was = .fenced then (foldEng e.dma.queue (fun e _ => e.issueNext) e).pairEvent 7 else e
  let e := e.fetchAll.pairEvent 6
  e.fastStartAll

/-- PAIR_LEAVE (R451). -/
def Eng.pairLeave (e : Eng) (f : Fn) : Eng :=
  e.mbxArgs f 0x0803 0 (fun _ _ => []) (f0Only f) (fun e _ => (if e.paired then e.leavePair else e).answer f stOK 0)

/-- PAIR_SWITCHOVER (R447, R452): answered when the handover is done. A standby's request reaches the active by a way
the spec does not state: its command waits for HANDOVER. -/
def Eng.pairSwitchover (e : Eng) (f : Fn) : Eng :=
  e.mbxArgs f 0x0804 0 (fun _ _ => []) (f0Only f) (fun e _ =>
    if e.handing ∨ e.pair.resync ∨ e.pair.state = .forming then e.answer f stBusy 0
    else match e.pair.state with
      | .active => (e.working f).beginHandover false
      | .standby => e.working f
      | .unpaired | .forming | .activeAlone | .fenced | .standbyStale => e.answer f stNotPermitted 0)

/-- PAIR_RESYNC (R449, R452, R532). -/
def Eng.pairResync (e : Eng) (f : Fn) : Eng :=
  e.mbxArgs f 0x0805 0 (fun _ _ => []) (f0Only f) (fun e _ =>
    match e.pair.state with
    | .activeAlone | .standbyStale =>
      if e.pair.resync ∨ 0 < e.pair.formStep then e.answer f stBusy 0
      else if e.heartsLost then e.answer f stFaulted 0
      else (e.working f).startResync
    | .forming => e.answer f stBusy 0
    | .unpaired | .active | .fenced | .standby => if e.handing then e.answer f stBusy 0 else e.answer f stOK 0)

/-- WAKE is sent to a gated standby (R450). -/
def Eng.sendWake (e : Eng) : Eng :=
  if e.pair.state = .activeAlone ∧ e.pair.partnerGated then (e.modPair (fun x => { x with wakeSent := true })).emit .pairWake else e

/-- PAIR_WAKE (R450, R532). -/
def Eng.pairWakeCmd (e : Eng) (f : Fn) : Eng :=
  e.mbxArgs f 0x0806 0 (fun _ _ => []) (f0Only f) (fun e _ => e.sendWake.answer f stOK 0)

/-- Place of a pair state among the states. -/
def PairState.place : PairState → Nat
  | .unpaired => 0 | .forming => 1 | .active => 2 | .activeAlone => 3 | .fenced => 4 | .standby => 5 | .standbyStale => 6

/-- Code of a pair state, which the spec does not state (log entry 27). -/
def PairState.code (x : PairState) : Nat := Config.pairStateCode x.place

/-- Journal lag in ns: the age of the oldest record not acknowledged (R454). -/
def Eng.journalLag (e : Eng) : Nat := match e.pair.unacked with
  | (_, t) :: _ => edgesNs (e.now - t)
  | [] => 0

/-- PAIR_STATUS_GET (R454, R532). -/
def Eng.pairStatusGet (e : Eng) (f : Fn) : Eng :=
  e.mbxArgs f 0x0807 1 (fun _ c => [(32, flagOk (c.slot 0))]) (fun _ c => decide (f = 0) || c.slot 0 == 0) (fun e c =>
    let x := e.pair
    let bs := slotBytes ([x.state.code, e.pairRole - 1, x.epoch.toNat, x.pairId, x.partnerId, e.journalLag, x.sent.toNat,
      x.acked.toNat, unsigned 64 x.offset] ++ (if f = 0 then x.cnt else []))
    let e := if f = 0 ∧ c.slot 0 = 1 then e.modPair (fun x => { x with cnt := [0, 0, 0, 0, 0, 0] }) else e
    e.respond f stOK 0 bs)

end Sys2Proof.Machine
end

