-- ==== Sys2Proof/Machine/StartOps.lean ====
section
/-! DEFINITION. StartOps.lean: what an engine reset and a start sequence do to the state (16_power.md R412, 19_startup.md
R473 to R484). -/
namespace Sys2Proof.Machine

/-- The start sequence has not ended S3, or an engine reset has not reached it: no fault event is graded (R475). -/
def Phase.early : Phase → Bool
  | .held | .s1 | .s2 | .s3 | .x2 => true
  | .s4 | .s6 | .s7 | .ready | .stopped => false

/-- The fault collector grades events (R407, R475). -/
def Eng.collecting (e : Eng) : Bool := e.pwr.ctlOn && !e.start.phase.early

/-- Reactions that reset the engine (R401). -/
def Reaction.resets : Reaction → Bool
  | .engineReset | .failover => true
  | .none | .interrupt | .portDown | .quiesce => false

/-- A source's statistics without its open window (R407). -/
def SrcStat.closed (x : SrcStat) : SrcStat := { x with win := none }

/-- The source statistics with every window closed. -/
def closeWins (t : Tab SrcStat) : Tab SrcStat :=
  ⟨t.rows.filterMap (fun r => if r.2.closed = {} then none else some (r.1, r.2.closed))⟩

/-- The fault collector's state in PD_AON (R407): a bank being retired has no line left. -/
def FltSt.aon (x : FltSt) : FltSt :=
  { factory := x.factory, status := x.status, multi := x.multi, lasting := x.lasting, first := x.first
    pbRetired := x.pbRetired ||| x.retiring, stat := closeWins x.stat, held := x.held, raised := x.raised
    shadows := x.shadows.filter (fun s => s.reaction.resets && s.released.isNone) }

/-- A base's time and rate, which holdover keeps (R321, R474). -/
def TimeBase.aon (t : TimeBase) : TimeBase := { sec := t.sec, ns := t.ns, sub := t.sub, freq := t.freq }

/-- The time unit's state in PD_AON. -/
def TimeSt.aon (x : TimeSt) : TimeSt :=
  { tbs := ⟨x.tbs.rows.filterMap (fun r => if r.2.aon = {} then none else some (r.1, r.2.aon))⟩
    phase := x.phase, clk := x.clk, holdover := x.holdover }

/-- A cage's presence and interrupt monitors and its output drivers (R13, R76, R483). -/
def CageSt.aon (x : CageSt) : CageSt := { rstN := x.rstN, lpm := x.lpm, prs := x.prs, seen := x.seen, irqSeen := x.irqSeen }

/-- The state outside PD_AON takes its reset values (R411, R412, R474, R478): PD_AON keeps its own, the port grouping
copy excepted, and the inputs and the model's own numbers stand. -/
def Eng.aonOnly (e : Eng) : Eng :=
  { flt := e.flt.aon
    dma := { nextGrp := e.dma.nextGrp }
    irqStall := e.irqStall
    txHold := e.txHold
    cages := ⟨e.cages.rows.filterMap (fun r => if r.2.aon = {} then none else some (r.1, r.2.aon))⟩
    time := e.time.aon
    lcp := { policy := e.lcp.policy }
    pwr := { e.pwr with step := .none, wakeStep := none, target := .run, pend := none, waiters := [], abort := none, runWaiters := []
                        late := none, recover := [], grouping := none, watchUp := false, wasUp := [], window := false
                        closed := false, begun := false }
    start := { phase := e.start.phase, cause := e.start.cause, started := e.start.started, ends := e.start.ends
               trial := e.start.trial, trying := e.start.trying, tests := e.start.tests }
    nextRx := e.nextRx
    free := e.free
    outs := e.outs }

/-- The step of a start sequence that ends is noted with its time (R480). -/
def Eng.stepEnd (e : Eng) (n : Nat) (next : Phase) : Eng :=
  { e with start := { e.start with phase := next, ends := setNth e.start.ends (n - 1) e.tb0 } }

/-- Requests of the chip power controller that a reset leaves unanswered get a status the spec does not state: a free
value. -/
def Eng.pwrDrop (e : Eng) : Eng :=
  foldEng e.pwr.tags (fun e t => let (v, e) := e.fresh; e.pwrAnswer (.pwrReq t) (v % 256) 0) e

/-- X1 of an engine reset (R478): frames on the wire are stomped, what waits is given up, page and translation requests
are abandoned and invalidations acknowledged; the time bases pass to holdover. Responses due are discarded in X2. -/
def Eng.engineReset (e : Eng) (cause : StartCause) : Eng :=
  let e := foldEng e.portList (fun e p => foldEng (e.port p).wire (fun e w => e.stomp p w) e) e
  let e := foldEng e.dma.invals (fun e v => e.emit (.invAck v.tag)) e
  let e := e.pwrDrop.holdBegin
  { e with
    ctl := { e.ctl with ready := false, restarting := false, inflight := [] }
    dma := { e.dma with
      queue := [], blocked := [], xreqs := [], groups := [], waits := [], invals := []
      outst := e.dma.outst.map (fun (o : Outst) => { o with acc := { o.acc with grp := 0 } }) }
    irqs := []
    pair := { e.pair with op := none, held := [], heldIrq := [], state := .unpaired, handover := none }
    pwr := { e.pwr with ctlOn := false, restOn := false, step := .none, wakeStep := none, pend := none, waiters := [], abort := none
                        runWaiters := [], late := none }
    start := { e.start with phase := .x2, cause := cause, started := e.tb0, ends := [0, 0, 0, 0, 0, 0, 0, 0]
                            trial := 0, trying := false, due := none } }

/-- RESET_DRAIN_DONE: X2 ends, and X3 resets every domain but PD_AON and starts the time unit (R322, R478). -/
def Eng.resetDrained (e : Eng) : Eng :=
  if e.start.phase ≠ .x2 then e
  else
    let e := { e with dma := { e.dma with outst := [] } }.aonOnly
    ({ e with
      pwr := { e.pwr with state := .run, ctlOn := true, restOn := true, retOn := true, pll := true }
      start := { e.start with phase := .s3 } }).holdEnd

/-- RESET_ASSERT (R484): every domain is reset, PD_AON included; the inputs and the model's own numbers stand. -/
def Eng.assertReset (e : Eng) : Eng :=
  { flt := { factory := e.flt.factory }
    dma := { nextGrp := e.dma.nextGrp }
    irqStall := e.irqStall
    txHold := e.txHold
    lcp := { policy := e.lcp.policy }
    start := { phase := .held }
    nextRx := e.nextRx
    free := e.free
    outs := e.outs }

/-- RESET_RELEASE: the start sequence begins (R473). -/
def Eng.releaseReset (e : Eng) : Eng :=
  if e.start.phase = .held then { e with start := { e.start with phase := .s1 } } else e

end Sys2Proof.Machine
end

