-- ==== Sys2Proof/Machine/TallyOps.lean ====
section
/-! DEFINITION. TallyOps.lean: performance counters, slot accounting and bandwidth windows (18_tally.md). -/
namespace Sys2Proof.Machine

/-- Counter `k` (R471). -/
def Eng.tcnt (e : Eng) (k : Nat) : TCnt := e.tally.cnts.get {} k

/-- The engine with counter `k` set. -/
def Eng.setTcnt (e : Eng) (k : Nat) (v : TCnt) : Eng := { e with tally := { e.tally with cnts := e.tally.cnts.put {} k v } }

/-- An attribute passes a filter: an open filter passes every event, another only an attribute that fits (R458). -/
def attrOk {α : Type} (isOpen : Bool) (a : Option α) (fits : α → Bool) : Bool :=
  isOpen || (match a with
    | some v => fits v
    | none => false)

/-- Code of a direction filter. -/
def TDir.code : TDir → Nat
  | .rx => 1
  | .tx => 2

/-- Code of an origin filter. -/
def TOrig.code : TOrig → Nat
  | .host => 1
  | .firmware => 2

/-- An event passes every filter of a counter but EVENT (R458). -/
def TCnt.passes (c : TCnt) (t : TEvent) : Bool :=
  attrOk (c.portMask == 0xFFFF) t.port (fun p => bitAt c.portMask.toNat p.val) &&
  attrOk (c.tcMask == 0xFF) t.tc (fun k => bitAt c.tcMask.toNat k.val) &&
  attrOk (c.dir == 0) t.dir (fun d => d.code == c.dir) &&
  attrOk (!c.funcEn) t.fn (fun f => decide (c.funcLo ≤ f.val ∧ f.val ≤ c.funcHi)) &&
  attrOk (c.origin == 0) t.orig (fun o => o.code == c.origin) &&
  attrOk (!c.addrEn) t.addr (fun a => decide (c.addrLo ≤ a ∧ a ≤ c.addrHi))

/-- What an event adds to a counter: ANY counts 1 for every event of its class (R457). -/
def TCnt.inc (c : TCnt) (t : TEvent) : Nat :=
  if !c.passes t then 0
  else if c.event = t.code then t.inc
  else if c.event % 256 = 0 ∧ c.event / 256 = t.code / 256 then 1
  else 0

/-- A counter's increments from the events of an edge (R456). -/
def TCnt.incs (c : TCnt) (ts : List TEvent) : Nat := ts.foldl (fun s t => s + c.inc t) 0

/-- A counter takes increments: its wraps set its OVF bit and may raise the vector (R456); an even counter whose partner
is chained passes them on instead (R460). -/
def Eng.tcntAdd (e : Eng) (k n : Nat) (chained : Bool) : Eng × Nat :=
  let c := e.tcnt k
  if !c.enable ∨ n = 0 then (e, 0)
  else
    let v := c.value.toNat + n
    let w := v / 2 ^ 48
    let e := e.setTcnt k { c with value := BitVec.ofNat 48 v }
    if w = 0 then (e, 0)
    else if chained then (e, w)
    else
      let e := { e with tally := { e.tally with ovf := e.tally.ovf ||| BitVec.ofNat 256 (2 ^ k) } }
      (if c.ovfIrq && e.tally.ovfIrqEn then e.irq 0 e.tally.vector else e, 0)

/-- Counters 2k and 2k + 1 take the events of an edge; counter `skip` is being written and takes none, and a carry into
it is lost (R460, R462). -/
def Eng.tcntPair (e : Eng) (k : Nat) (ts : List TEvent) (skip : Option Nat) : Eng :=
  let lo := e.tcnt (2 * k)
  let hi := e.tcnt (2 * k + 1)
  let (e, w) := if skip = some (2 * k) then (e, 0) else e.tcntAdd (2 * k) (lo.incs ts) hi.chain
  if skip = some (2 * k + 1) then e
  else (e.tcntAdd (2 * k + 1) (if hi.chain then w else hi.incs ts) false).1

/-- Pairs of counters some of which are set up: a counter at its reset values counts nothing. -/
def Eng.tcntPairs (e : Eng) : List Nat := (e.tally.cnts.rows.map (fun r => r.1 / 2)).eraseDups

/-- The events of an edge are counted, unless frozen (R456, R461). -/
def Eng.countEvents (e : Eng) (extra : List TEvent) (skip : Option Nat) : Eng :=
  let ts := e.tally.queue ++ extra
  let e := { e with tally := { e.tally with queue := [] } }
  if e.tally.freeze then e else foldEng e.tcntPairs (fun e k => e.tcntPair k ts skip) e

/-! ### Slot accounting -/

/-- A granted frame of a class at the head of its list is held by a pause timer, or its leaf would be eligible but for
one (R464). -/
def Eng.txPaused (e : Eng) (p : PortId) : Bool :=
  let x := e.port p
  (upTo 8).any (fun c => x.paused (fin 8 c) && !(nth x.lists c []).isEmpty) ||
  e.txqList.any (fun r => decide (r.2.port = p) && e.leafCause r.1 == 6)

/-- A start-list head of an open class waits because it fails the fit test (R350, R464). -/
def Eng.txUnfit (e : Eng) (p : PortId) : Bool :=
  let x := e.port p
  let (s, b) := e.sched p
  let t := (e.tb b).instant
  (upTo 8).any (fun c => match (nth x.lists c []).head? with
    | none => false
    | some g => g.waited.isSome && !x.paused (fin 8 c) && (s.at c (t / 16 : Nat)).1 && !s.fits c t g.len x.width)

/-- A queue of the port has descriptors up to its accepted producer index and no ready head, or a granted frame is below
its cut-through threshold (R106, R464). -/
def Eng.txStarved (e : Eng) (p : PortId) : Bool :=
  let x := e.port p
  e.txqList.any (fun r => decide (r.2.port = p) && e.leafCause r.1 == 5 && r.2.cons != r.2.prod) ||
  (upTo 8).any (fun c => match (nth x.lists c []).head? with
    | none => false
    | some g => match (e.txq g.q).bind (fun y => y.frame? g.frame) with
      | some f => !g.enough f.wholeFirst x.ctNow
      | none => false)

/-- Class of transmit byte-times in which nothing is sent (R464). -/
def Eng.txQuiet (e : Eng) (p : PortId) : Nat :=
  if e.txUnfit p then clWasted
  else if e.txPaused p ∨ (e.held p ∧ ((e.port p).lists.any (fun l => !l.isEmpty) ∨ (e.port p).nextTrump.isSome)) then clStarvedBack
  else if e.txStarved p then clStarvedFront
  else clIdle

/-- Class of receive byte-times with no frame (R465). -/
def Eng.rxQuiet (e : Eng) (p : PortId) : Nat := if (e.port p).xoffSt ≠ 0 then clStarvedBack else clIdle

/-- One CLK_CTL edge of a port and direction (R463): 32 byte-times of each of its lanes. What a frame was classed for
ahead of the clock goes first (log entry 20). -/
def Eng.slotEdge (e : Eng) (p : PortId) (d : TDir) : Eng :=
  let x := e.port p
  let full := 32 * x.width
  if x.state ≠ .up then e.slotTime p d clIdle full
  else if x.gap.isSome then e.slotTime p d clWasted full
  else
    let n := match d with
      | .tx => x.txLanes
      | .rx => x.rxLanes
    let e := e.slotTime p d clIdle (full - 32 * n)
    let a := e.tally.slots.get {} (slotIdx p d)
    let used := min (32 * n) a.ahead.toNat
    let e := { e with tally := { e.tally with slots := e.tally.slots.put {} (slotIdx p d) { a with ahead := a.ahead - used } } }
    e.slotTime p d (match d with
      | .tx => e.txQuiet p
      | .rx => e.rxQuiet p) (32 * n - used)

/-- TALLY_COUNT: one CLK_CTL edge (R456, R457, R463). -/
def Eng.tallyCount (e : Eng) : Eng :=
  if !e.pwr.ctlOn then e
  else
    let held := e.portList.filter (fun p => decide ((e.port p).state = .up) && e.elig 10 (.root p) && !e.pacingOk p)
    let extra : List TEvent := { code := 0xF01 } :: held.map (fun p => { code := 0x105, port := some p })
    let e := e.countEvents extra none
    let e := foldEng e.portList (fun e p => (e.slotEdge p .tx).slotEdge p .rx) e
    if e.tally.bwEn then
      foldEng e.portList (fun e p =>
        if (e.port p).state ≠ .up ∧ bitAt e.tally.bwMaskNow.toNat p.val then
          { e with tally := { e.tally with bw := e.tally.bw.put {} p.val { e.tally.bw.get {} p.val with notUp := true } } }
        else e) e
    else e

/-! ### Control -/

/-- TALLY_FREEZE (R461): the events of the edge are not counted. -/
def Eng.tallyFreeze (e : Eng) (on : Bool) : Eng :=
  if on then
    if e.tally.freeze then e
    else { e with tally := { e.tally with freeze := true, byFault := false, freezeTime := e.tb0, queue := [] } }
  else { e with tally := { e.tally with freeze := false } }

/-- A fault event of effective severity FREEZE_SEV or higher freezes Tally (R461). -/
def Eng.faultFreeze (e : Eng) (src sev : Nat) : Eng :=
  if e.tally.freezeSev ≠ 0 ∧ e.tally.freezeSev ≤ sev ∧ e.tally.freeze = false then
    { e with tally := { e.tally with freeze := true, byFault := true, faultSrc := src, freezeTime := e.tb0, queue := [] } }
  else e

/-- TALLY_SNAP (R461). -/
def Eng.tallySnap (e : Eng) : Eng :=
  let t := e.tally
  let e := { e with tally := { t with snapCount := t.snapCount + 1, snapTime := e.tb0 } }
  let e := foldEng (t.cnts.rows.map (·.1)) (fun e k => e.setTcnt k { e.tcnt k with shadow := (e.tcnt k).value }) e
  foldEng (t.slots.rows.map (·.1)) (fun e i =>
    let a := e.tally.slots.get {} i
    { e with tally := { e.tally with slots := e.tally.slots.put {} i { a with shadows := a.times } } }) e

/-- TALLY_CLEAR_ALL (R462): shadows stand, and the events of the edge are discarded. -/
def Eng.tallyClear (e : Eng) : Eng :=
  let e := { e with tally := { e.tally with ovf := 0, queue := [] } }
  foldEng (e.tally.cnts.rows.map (·.1)) (fun e k => e.setTcnt k { e.tcnt k with value := 0 }) e

/-- SLOT_CLEAR (R466). -/
def Eng.slotClear (e : Eng) : Eng :=
  foldEng (e.tally.slots.rows.map (·.1)) (fun e i =>
    let a := e.tally.slots.get {} i
    { e with tally := { e.tally with slots := e.tally.slots.put {} i { a with times := [0, 0, 0, 0, 0] } } }) e

/-- TALLY_COUNTER_WRITE (R462): the counter's events of the edge, and a carry into it, are lost. -/
def Eng.tallyWrite (e : Eng) (k : Nat) (v : BitVec 48) : Eng :=
  let e := e.countEvents [] (some k)
  e.setTcnt k { e.tcnt k with value := v }

/-! ### Bandwidth windows -/

/-- BW_WINDOWS_ENABLE: EN goes from 0 to 1 (R467). -/
def Eng.bwStart (e : Eng) : Eng :=
  let t := e.tally
  if t.bwEn ∨ e.pwr.ctlOn = false then e
  else { e with tally := { t with bwEn := true, bwMaskNow := t.bwMask, bwWindowNow := t.bwWindow, bwSeq := 0
                                  bwCount := 0, bw := {} } }

/-- A share in units of 0.01 percent, truncated (R468). -/
def bwShare (times : List Nat) (c : Nat) : Nat :=
  let s := times.foldl (· + ·) 0
  if s = 0 then 0 else nth times c 0 * 10000 / s

/-- A bandwidth record (R468). -/
def Eng.bwBytes (e : Eng) (p : PortId) (b : BwPort) (phase : Nat) : List Byte :=
  let x := e.port p
  bytesLE 1 phase ++ bytesLE 1 (p.val + 16 * x.txLanes) ++ bytesLE 1 x.rxLanes ++ bytesLE 1 (b2n b.thin + 2 * b2n b.notUp) ++
  bytesLE 4 e.tally.bwSeq.toNat ++ bytesLE 8 e.tb0 ++ bytesLE 8 b.tx.octets ++ bytesLE 8 b.rx.octets ++ bytesLE 4 b.tx.frames ++
  bytesLE 4 b.rx.frames ++ (upTo 5).flatMap (fun c => bytesLE 2 (bwShare b.tx.times c)) ++
  (upTo 5).flatMap (fun c => bytesLE 2 (bwShare b.rx.times c)) ++ zeros 4

/-- The record of a port (R467 to R469). -/
def Eng.bwRecord (e : Eng) (p : PortId) : Eng :=
  let t := e.tally
  let n := 2 ^ t.bwSize
  let b := e.bwBytes p (t.bw.get {} p.val) (phaseBit t.bwCount n)
  let e := { e with tally := { t with bwCount := t.bwCount + 1, bwSeq := t.bwSeq + 1 } }
  (e.writeRecord .bandwidth t.bwFn t.bwPasid (t.bwBase + 64 * (t.bwCount % n)) b).2

/-- BW_WINDOW_BOUNDARY: a window ends and the next begins (R467). -/
def Eng.bwBoundary (e : Eng) : Eng :=
  if e.tally.bwEn = false ∨ e.pwr.ctlOn = false then e
  else
    let e := foldEng (e.portList.filter (fun p => bitAt e.tally.bwMaskNow.toNat p.val)) (fun e p => e.bwRecord p) e
    { e with tally := { e.tally with bw := {}, bwMaskNow := e.tally.bwMask, bwWindowNow := e.tally.bwWindow } }

end Sys2Proof.Machine
end

