-- ==== Sys2Proof/Machine/Flags.lean ====
section
/-! DEFINITION. Flags.lean: the fault collector's flags: grading of the events a command has driven, windows, the
first-error capture, reactions and their shadows (15_faults.md R392 to R407), and what ends every command. -/
namespace Sys2Proof.Machine

/-! ### Sources -/

/-- A source's events name a port (R392). -/
def portCtx (s : Nat) : Bool := (decide (8 ≤ s) && decide (s ≤ 23)) || s == 28 || s == 33 || s == 46 || s == 47

/-- A source's events name a function (R392). -/
def fnCtx (s : Nat) : Bool := (decide (24 ≤ s) && decide (s ≤ 27)) || s == 34 || s == 35 || s == 48

/-- FLT_SRC_CFG and FLT_SRC_WIN of source `s` at reset (R392, R400, R409). -/
def SrcCfg.reset (s : Nat) : SrcCfg :=
  { sevFail := if s = 4 ∨ s = 41 then 4 else if (8 ≤ s ∧ s ≤ 23) ∨ s = 28 ∨ s = 46 then 3 else 2
    react := [.none, .none, .interrupt, if portCtx s then .portDown else .interrupt, .engineReset]
    winEn := decide (s < 4), winN := if s < 4 then 64 else 16, winW := 1000000 }

/-- Configuration of source `s` (R409). -/
def Eng.srcCfg (e : Eng) (s : Nat) : SrcCfg := e.flt.cfg.get (SrcCfg.reset s) s
/-- Statistics of source `s` (R409). -/
def Eng.srcStat (e : Eng) (s : Nat) : SrcStat := e.flt.stat.get {} s
/-- The engine with the collector changed. -/
def Eng.modFlt (e : Eng) (g : FltSt → FltSt) : Eng := { e with flt := g e.flt }
/-- The engine with the statistics of source `s` changed. -/
def Eng.modStat (e : Eng) (s : Nat) (g : SrcStat → SrcStat) : Eng :=
  e.modFlt (fun x => { x with stat := x.stat.put {} s (g (x.stat.get {} s)) })

/-- Bit `n` of a 50-bit mask of sources. -/
def srcBit (n : Nat) : BitVec 50 := BitVec.ofNat 50 (2 ^ n)

/-- Class codes (R408). -/
def clsCode : EvClass → Nat
  | .info => 0 | .corrected => 1 | .failure => 2

/-- Reaction codes (R400). -/
def Reaction.code : Reaction → Nat
  | .none => 0 | .interrupt => 1 | .portDown => 2 | .quiesce => 3 | .engineReset => 4 | .failover => 5

/-! ### Shadows -/

/-- An event lies in the scope of a shadow (R403). -/
def Eng.inScope (e : Eng) (s : Shadow) (v : FaultEv) : Bool :=
  let n := v.src.val
  let d := v.detail.toNat % 16
  match s.reaction, s.target with
  | .portDown, .port p =>
    (decide (8 ≤ n ∧ n ≤ 23) && decide (e.portOf (fin 16 (n - 8)) = p)) ||
    ((n == 28 || n == 33 || n == 46 || n == 47) && d == p.val) || (n == 44 && d == (e.port p).cage.val)
  | .quiesce, .fn f => fnCtx n && v.master.toNat == f.val
  | .engineReset, _ | .failover, _ => !(n == 4 || n == 39 || n == 40 || n == 41 || n == 49)
  | _, _ => false

/-- A consequential event: counted and logged, and nothing else (R403, R404). -/
def Eng.conseq (e : Eng) (s : Shadow) (v : FaultEv) (time : Nat) : Eng :=
  let x : ConseqEntry :=
    { src := v.src.val, cls := clsCode v.cls, master := v.master.toNat, access := v.access.toNat, reaction := s.reaction.code
      bySrc := s.src, detail := v.detail.toNat % 2 ^ 28, time := time }
  e.modFlt (fun t => { t with
    conseqStatus := t.conseqStatus ||| srcBit v.src.val, conseqCount := sat64 (t.conseqCount + 1)
    log := t.log.put {} t.conseqPtr.val x, conseqPtr := t.conseqPtr + 1 })

/-! ### Windows -/

/-- A window after one more event (R395). -/
def Window.next (c : SrcCfg) (now : Nat) : Option Window → Window
  | some x => { x with count := min (x.count + 1) 65535 }
  | none => { opened := now, count := 1, n := max 1 c.winN, w := c.winW }

/-- The event brings the window's count to its threshold (R395). -/
def Window.hit (old : Option Window) (x : Window) : Bool :=
  x.count == x.n && (match old with
    | some y => decide (y.count < x.n)
    | none => true)

/-- An event counted in the window that counts it: whether it brings the count to WIN_N (R395, R396). -/
def Eng.windowed (e : Eng) (v : FaultEv) : Bool × Eng :=
  let s := v.src.val
  let c := e.srcCfg s
  if !c.winEn then (false, e)
  else if s < 4 ∧ v.cls = .corrected then
    let b := v.detail.toNat % 32
    let old := e.flt.bankWin.get none b
    let x := Window.next c e.now old
    (Window.hit old x, e.modFlt (fun t => { t with bankWin := t.bankWin.put none b (some x) }))
  else
    let old := (e.srcStat s).win
    let x := Window.next c e.now old
    (Window.hit old x, e.modStat s (fun y => { y with win := some x }))

/-- Bytes of the shared frame area with one bank less than are in service or staying in it (R22, R396). -/
def Eng.areaLess (e : Eng) : Nat :=
  (31 - popCount 32 (e.flt.pbRetired.toNat ||| e.flt.retiring.toNat)) * 1048576 - e.start.kittySize - e.dma.parkSize

/-- A bank is out of service or on its way out. -/
def Eng.bankGone (e : Eng) (b : Nat) : Bool := bitAt (e.flt.pbRetired.toNat ||| e.flt.retiring.toNat) b

/-- A bank's count has reached its threshold: whether the event is ENGINE_FATAL, and the bank on its way out of service
otherwise (R22, R394, R396). -/
def Eng.bankOut (e : Eng) (b : Nat) : Bool × Eng :=
  if e.bankGone b then (false, e)
  else if e.areaLess < 4194304 then (true, e)
  else (false, e.modFlt (fun t => { t with retiring := t.retiring ||| BitVec.ofNat 32 (2 ^ b) }))

/-! ### Grading -/

/-- A graded event (R394, R397). -/
structure Graded where
  ev : FaultEv
  sev : Nat
  lasting : Bool
  reaction : Reaction
  sec : Nat
  ns : Nat
  deriving DecidableEq, Repr

/-- The severity of a class (R394). -/
def SrcCfg.grade (c : SrcCfg) : EvClass → Nat
  | .info => 0
  | .corrected => 1
  | .failure => c.sevFail

/-- A reaction after the fallbacks of R401, and of R447 where the standby is not in STANDBY. -/
def Eng.applied (e : Eng) (r : Reaction) (v : FaultEv) : Reaction :=
  match r with
  | .quiesce => if bitAt v.master.toNat 15 ∨ v.master.toNat % 2048 = 0 then .interrupt else .quiesce
  | .failover => if e.pair.state = .active then .failover else .engineReset
  | .none => .none
  | .interrupt => .interrupt
  | .portDown => .portDown
  | .engineReset => .engineReset

/-- One event at a grading edge (R393 to R396, R403). `seen` are the sources graded at this edge already. -/
def Eng.gradeOne (e : Eng) (seen : List Nat) (v : FaultEv) (sec ns : Nat) : Eng × Option Graded :=
  let s := v.src.val
  if 50 ≤ s then (e, none)
  else
    let e := e.modStat s (fun x => { x with count := min (x.count + 1) 0xFFFFFFFF })
    if seen.contains s then (e, none)
    else match e.flt.shadows.find? (fun h => e.inScope h v) with
      | some h => (e.conseq h v (sec * 1000000000 + ns), none)
      | none =>
        let (hit, e) := e.windowed v
        let e := if hit then e.modFlt (fun t => { t with lasting := t.lasting ||| srcBit s }) else e
        let lasting := bitAt e.flt.lasting.toNat s
        let (fatal, e) := if hit && decide (s < 4) && decide (v.cls = .corrected) then e.bankOut (v.detail.toNat % 32) else (false, e)
        let sev := if fatal then 4 else min 4 ((e.srcCfg s).grade v.cls + b2n lasting)
        let e := (e.modFlt (fun t => { t with status := t.status ||| srcBit s })).modStat s
          (fun x => { x with highSev := max x.highSev sev })
        (e, some { ev := v, sev := sev, lasting := lasting
                   reaction := e.applied (nth (e.srcCfg s).react sev .none) v, sec := sec, ns := ns })

/-- The events of one edge, in order. -/
def Eng.gradeAll : List (FaultEv × Nat × Nat) → List Nat → Eng → List Graded → Eng × List Graded
  | [], _, e, gs => (e, gs.reverse)
  | (v, sec, ns) :: t, seen, e, gs =>
    match e.gradeOne seen v sec ns with
    | (e, some g) => Eng.gradeAll t (v.src.val :: seen) e (g :: gs)
    | (e, none) => Eng.gradeAll t (v.src.val :: seen) e gs

/-- The stronger of two events for the capture: higher severity, then lower source (R398). -/
def Graded.outranks (a b : Graded) : Bool :=
  decide (b.sev < a.sev) || (a.sev == b.sev && decide (a.ev.src.val < b.ev.src.val))

/-- The strongest event of an edge. -/
def strongest : List Graded → Option Graded
  | [] => none
  | a :: t => match strongest t with
    | some b => some (if b.outranks a then b else a)
    | none => some a

/-- A graded event as the first-error capture holds it (R397). -/
def Graded.capture (g : Graded) : Capture :=
  { valid := true, src := g.ev.src.val, sev := g.sev, cls := clsCode g.ev.cls, lasting := g.lasting
    forced := g.ev.master.toNat == mForce, reaction := g.reaction.code
    addr := if g.ev.access = 0 then 0 else g.ev.addr.toNat, master := g.ev.master.toNat, access := g.ev.access.toNat
    detail := g.ev.detail.toNat, ns := g.ns, sec := g.sec }

/-- The capture and FLT_MULTI after an edge (R398). -/
def FltSt.take (x : FltSt) (gs : List Graded) : FltSt :=
  if x.first.valid then { x with multi := x.multi || !gs.isEmpty }
  else match strongest gs with
    | none => x
    | some g => { x with first := g.capture, multi := x.multi || decide (1 < gs.length) }

/-! ### Reactions -/

/-- A shadow of the same reaction on the same target is in progress. -/
def Eng.reacting (e : Eng) (r : Reaction) (t : Target) : Bool :=
  e.flt.shadows.any (fun s => decide (s.reaction = r ∧ s.target = t) && s.released.isNone)

/-- A shadow opens (R403). -/
def Eng.openShadow (e : Eng) (r : Reaction) (src : Nat) (t : Target) : Eng :=
  e.modFlt (fun x => { x with shadows := x.shadows ++ [{ reaction := r, src := src, target := t }] })

/-- The PORT_DOWN reaction of an event (R401, R402). -/
def Eng.reactPort (e : Eng) (g : Graded) : Eng :=
  let p : PortId := e.portOf (fin 16 (g.ev.detail.toNat % 16))
  match (e.port p).state with
  | .adminDown | .portFault => e
  | .noModule | .moduleInit | .moduleFault | .training | .up =>
    if e.reacting .portDown (.port p) then e else (e.openShadow .portDown g.ev.src.val (.port p)).portDown p

/-- The QUIESCE_FUNCTION reaction of an event (R401, R402). -/
def Eng.reactFn (e : Eng) (g : Graded) : Eng :=
  let f : Fn := fin 2048 g.ev.master.toNat
  let x := e.fn f
  if e.reacting .quiesce (.fn f) ∨ (x.admin ∧ e.txStopped f ∧ e.rxStopped f) then e
  else (e.openShadow .quiesce g.ev.src.val (.fn f)).quenchTo f x.quench true

/-- An ENGINE_RESET or FAILOVER reaction: weaker ones in progress are abandoned (R402). -/
def Eng.reactReset (e : Eng) (g : Graded) (r : Reaction) : Eng :=
  let s := g.ev.src.val
  let e := e.modFlt (fun x => { x with shadows := x.shadows.filter (fun h => h.reaction.resets || h.released.isSome) })
  if r = .failover then
    let e := (e.openShadow .failover s .engine).beginHandover true
    { e with start := { e.start with due := some (.failover s) } }
  else (e.openShadow .engineReset s .engine).engineReset (.fault s)

/-- A reaction of this strength is in progress. -/
def Eng.resetting (e : Eng) (r : Reaction) : Bool :=
  e.flt.shadows.any (fun s => s.released.isNone && (decide (s.reaction = .failover) || decide (s.reaction = r)))

/-- The reactions due at an edge, combined (R401, R402). -/
def Eng.react (e : Eng) (gs : List Graded) : Eng :=
  let e := if gs.any (fun g => decide (g.reaction ≠ .none)) && e.flt.irqEn then e.irq 0 e.flt.vector else e
  let of (r : Reaction) : List Graded := gs.filter (fun g => decide (g.reaction = r))
  match strongest (of .failover), strongest (of .engineReset) with
  | some g, _ => if e.resetting .failover then e else e.reactReset g .failover
  | none, some g => if e.resetting .engineReset then e else e.reactReset g .engineReset
  | none, none =>
    if e.resetting .engineReset then e
    else foldEng (of .quiesce) (fun e g => e.reactFn g) (foldEng (of .portDown) (fun e g => e.reactPort g) e)

/-- Graded events also freeze Tally and wake a gated standby (R450, R461). -/
def Eng.graded (e : Eng) (g : Graded) : Eng :=
  let e := e.faultFreeze g.ev.src.val g.sev
  if e.pair.wakeSev ≠ 0 ∧ e.pair.wakeSev ≤ g.sev then e.sendWake else e

/-- One grading edge (R393, R398, R407). -/
def Eng.gradeEdge (e : Eng) (vs : List (FaultEv × Nat × Nat)) : Eng :=
  let (e, gs) := Eng.gradeAll vs [] e []
  let e := e.modFlt (fun x => x.take gs)
  (foldEng gs (fun e g => e.graded g) e).react gs

/-- Events of sources 39 to 41 are held while PD_CTL is gated, one per source, in order of source (R407). -/
def holdEvs (held : List (FaultEv × Nat × Nat)) (vs : List FaultEv) (sec ns : Nat) : List (FaultEv × Nat × Nat) :=
  let all := vs.foldl (fun (l : List (FaultEv × Nat × Nat)) v =>
    if 39 ≤ v.src.val ∧ v.src.val ≤ 41 ∧ l.any (fun h => decide (h.1.src = v.src)) = false then l ++ [(v, sec, ns)] else l) held
  [39, 40, 41].flatMap (fun n => all.filter (fun h => h.1.src.val == n))

/-- The events driven by a command are graded, and then those that its reactions have driven (R393). Where the collector
does not grade, sources 39 to 41 are held (R407, R475) and other events are lost. -/
def Eng.settle : Nat → Eng → Eng
  | 0, e => e
  | n + 1, e =>
    let vs := e.flt.raised
    let t := e.tb 0
    if !e.collecting then
      if vs = [] then e else e.modFlt (fun x => { x with raised := [], held := holdEvs x.held vs t.sec t.ns })
    else if vs = [] ∧ (e.flt.held = [] ∨ e.pwr.wakeStep.isSome) then e
    else
      let h := if e.pwr.wakeStep.isSome then [] else e.flt.held
      let l := h ++ vs.map (fun v => (v, t.sec, t.ns))
      Eng.settle n ((e.modFlt (fun x => { x with raised := [], held := if h = [] then x.held else [] })).gradeEdge l)

/-! ### Commands of the collector -/

/-- REACTION_RELEASED: a shadow's reaction has reached its end state (R401, R403): of PORT_DOWN also ADMIN_DOWN, which R402
names as one. -/
def Eng.reactionReleased (e : Eng) (i : Nat) : Eng :=
  match e.flt.shadows[i]? with
  | none => e
  | some s =>
    let ok : Bool := s.released.isNone && (match s.reaction, s.target with
      | .portDown, .port p => decide ((e.port p).state = .portFault ∨ (e.port p).state = .adminDown) && (e.port p).wire.isEmpty
      | .quiesce, .fn f => e.txStopped f && e.rxStopped f
      | _, _ => false)
    if ok then e.modFlt (fun x => { x with shadows := setNth x.shadows i { s with released := some e.now } }) else e

/-- The reset reactions are released at the end of S3 (R478). -/
def Eng.resetReleased (e : Eng) : Eng :=
  e.modFlt (fun x => { x with shadows := x.shadows.map (fun s =>
    if s.reaction.resets && s.released.isNone then { s with released := some e.now } else s) })

/-- SHADOW_EXPIRY: 16 µs after its release a shadow closes (R403). -/
def Eng.shadowExpiry (e : Eng) (i : Nat) : Eng :=
  match e.flt.shadows[i]? with
  | none => e
  | some s => if s.released.isSome then e.modFlt (fun x => { x with shadows := x.shadows.eraseIdx i }) else e

/-- FAULT_WINDOW_EXPIRY: WIN_W after it opened a window closes and its count is discarded (R395, R396). -/
def Eng.windowExpiry (e : Eng) (w : FaultWin) : Eng :=
  match w with
  | .src s => e.modStat s.val (fun x => { x with win := none })
  | .bank b => e.modFlt (fun x => { x with bankWin := x.bankWin.put none b.val none })

/-- PB_BANK_RETIRED: a bank's last line is free (R396). -/
def Eng.bankRetired (e : Eng) (b : Fin 32) : Eng :=
  if bitAt e.flt.retiring.toNat b.val then
    let m : BitVec 32 := BitVec.ofNat 32 (2 ^ b.val)
    e.modFlt (fun x => { x with retiring := x.retiring &&& ~~~m, pbRetired := x.pbRetired ||| m })
  else e

/-- FLT_FORCE_CLASS as it acts: 3 is treated as 2 (R408). -/
def FltSt.forced (x : FltSt) : EvClass := if x.forceClass = 0 then .info else if x.forceClass = 1 then .corrected else .failure

/-- FAULT_FORCE: a write to FLT_FORCE (R405). Bits 4, 6, 39 and 41 act only in factory test mode. -/
def Eng.faultForce (e : Eng) (m : Nat) : Eng :=
  let locked (n : Nat) : Bool := (n == 4 || n == 6 || n == 39 || n == 41) && !e.flt.factory
  let e := foldEng ((upTo 50).filter (fun n => bitAt m n && !locked n))
    (fun e n => e.raiseEv (mkEv (fin 64 n) e.flt.forced 0 mForce 0 0)) e
  if (upTo 50).any (fun n => bitAt m n && locked n) then e.badAccess 0 0x10020 else e

/-- FIRST_ERROR_RELEASE (R399). -/
def Eng.firstRelease (e : Eng) : Eng := e.modFlt (fun x => { x with first := { x.first with valid := false } })

/-- FLT_OUT (R406). -/
def Eng.fltOut (e : Eng) : Nat :=
  (upTo 50).foldl (fun m n => if bitAt e.flt.status.toNat n then max m (e.srcStat n).highSev else m) 0

/-- FLT_STATUS bits cleared by F0: their HIGH_SEV goes to zero (R408, R409). -/
def Eng.clearStatus (e : Eng) (m : BitVec 50) : Eng :=
  let e := e.modFlt (fun x => { x with status := x.status &&& ~~~m })
  foldEng ((upTo 50).filter (fun n => bitAt m.toNat n)) (fun e n => e.modStat n (fun x => { x with highSev := 0 })) e

/-- IRQ_STALL: an episode of IRQ_MSG_RDY held low raises source 48 once (R500). Which message it holds up is known only
where one waits already. -/
def Eng.stallIrqs (e : Eng) : Eng :=
  if e.irqStall then e
  else
    let (v, e) := e.fresh
    let (w, e) := e.fresh
    ({ e with irqStall := true }).raiseEv (mkEv 48 .failure (v % 4096) (w % 2048) 0 0)

/-- While an episode lasts, a free value tells as each command ends whether IRQ_MSG_RDY is back: the messages queued
then leave (R500). -/
def Eng.irqStep (e : Eng) : Eng :=
  if !e.irqStall then e
  else
    let (v, e) := e.fresh
    if v % 2 = 0 then e
    else foldEng e.irqs (fun e m => e.sendIrq m.1 m.2) { e with irqStall := false, irqs := [] }

/-! ### The end of a command -/

/-- The engine reset that ends a FAILOVER reaction, once its handover is over (R401). -/
def Eng.failoverStep (e : Eng) : Eng :=
  match e.start.due with
  | some (.failover s) => if e.handing then e else e.engineReset (.fault s)
  | some .graceful | none => e

/-- What ends every command: thinning triggers act (R136, R137), fault events are graded, a FUNC_RESET and a handover go on, the journal takes what
changed since `old`, and the Dealer's round lists follow (R291). -/
def Eng.finish (old e : Eng) : Eng :=
  ((Eng.journalDiff old (Eng.settle 8 e.thinWatchAll).resetStep).handoverStep.failoverStep).syncAll.irqStep

/-- What a command's meaning answers. -/
abbrev Result := Host.Outcome State Fault Refusal

/-- A command's effect on the engine. -/
def State.run (s : State) (f : Eng → Eng) : State :=
  { s with eng := Eng.finish s.eng (f { s.eng with outs := [] }) }

/-- A command whose effect is on the engine alone. -/
def State.does (s : State) (f : Eng → Eng) : Result := .next (s.run f)

end Sys2Proof.Machine
end

