-- ==== Sys2Proof/Machine/PowerOps.lean ====
section
/-! DEFINITION. PowerOps.lean: power requests, entries, rollbacks, wakes and retention (16_power.md R411 to R433). `credits`
is the cycle budget's count (R430). -/
namespace Sys2Proof.Machine

/-- The engine with the power controller changed. -/
def Eng.modPwr (e : Eng) (g : PwrSt → PwrSt) : Eng := { e with pwr := g e.pwr }

/-! ### Requests -/

/-- A queue is PAUSED or FAULTED (R218). -/
def Eng.anyPaused (e : Eng) : Bool :=
  e.txqList.any (fun r => decide (r.2.state = .paused)) || e.rxqList.any (fun r => decide (r.2.state = .paused))

/-- A channel of CH8 to CH63 is not IDLE (R373). -/
def Eng.carryBusy (e : Eng) : Bool := allChans.any (fun c => decide (8 ≤ c.val) && decide ((e.chan c).state ≠ .idle))

/-- CH0 to CH7 are IDLE (R418). -/
def Eng.firmwareIdle (e : Eng) : Bool := allChans.all (fun c => decide (8 ≤ c.val) || decide ((e.chan c).state = .idle))

/-- The status with which a request to leave RUN for a state is refused, if it is (R415). -/
def Eng.entryRefused (e : Eng) (t : PwrState) (credits : Nat) : Option Nat :=
  let member := decide (e.pair.state ≠ .unpaired)
  let standby := decide (e.pair.state = .standby) || decide (e.pair.state = .standbyStale)
  if member && (!standby || decide (t = .off)) then some stNotPermitted
  else if (e.anyPaused && decide (t ≠ .off)) || e.carryBusy then some stBusy
  else if credits = 0 then some stBudget
  else none

/-- An entry starts (R416, R417): a WAKE_AT already passed wakes at once (R421). -/
def Eng.startEntry (e : Eng) (t : PwrState) (s : PwrSrc) : Eng :=
  let e := e.modPwr (fun x => { x with step := .e1, target := t, waiters := [s], abort := none, runWaiters := [], begun := false })
  if e.pwr.wakeAt ≠ 0 ∧ e.pwr.wakeAt ≤ e.tb0 ∧ e.armed 6 then (e.modPwr (fun x => { x with wakeAt := 0 })).wake 6 0 0 else e

/-- A request enters the pending slot (R416). -/
def Eng.pwrQueue (e : Eng) (t : PwrState) (s : PwrSrc) : Eng := e.supersede.modPwr (fun x => { x with pend := some (t, s) })

/-- A power request of POWER_SET or PWR_REQ (R415, R416). -/
def Eng.pwrAsk (e : Eng) (t : PwrState) (s : PwrSrc) (credits : Nat) : Eng :=
  let idle := decide (e.pwr.step = .none)
  if idle && decide (e.pwr.state = t) then e.pwrAnswer s stOK 0
  else match (if t = .run then none else e.entryRefused t credits) with
    | some st => e.pwrAnswer s st 0
    | none =>
      match e.pwr.step with
      | .none =>
        if t = .run then (e.beginWake 0 0 0).modPwr (fun x => { x with waiters := [s] })
        else if e.pwr.state = .run ∨ e.pwr.state = .doze then e.startEntry t s
        else (e.beginWake 0 0 0).modPwr (fun x => { x with waiters := [], pend := some (t, s) })
      | .waking => if t = .run then e.modPwr (fun x => { x with waiters := x.waiters ++ [s] }) else e.pwrQueue t s
      | .e5 => if t = e.pwr.target then e.modPwr (fun x => { x with waiters := x.waiters ++ [s] }) else e.pwrQueue t s
      | .e1 | .e2 | .e3 | .e4 =>
        if t = e.pwr.target then e.modPwr (fun x => { x with waiters := x.waiters ++ [s] })
        else if t = .run then
          e.supersede.modPwr (fun x => { x with runWaiters := x.runWaiters ++ [s], abort := some (x.abort.getD { cause := 1 }) })
        else e.pwrQueue t s

/-- The request in the pending slot starts as if it had just arrived (R416). -/
def Eng.pwrNext (e : Eng) (credits : Nat) : Eng :=
  match e.pwr.pend with
  | none => e
  | some (t, s) => (e.modPwr (fun x => { x with pend := none })).pwrAsk t s credits

/-- POWER_SET (R414, R532). -/
def Eng.powerSet (e : Eng) (credits : Nat) (f : Fn) : Eng :=
  e.mbxArgs f 0x0601 1 (fun _ c => [(32, decide (c.slot 0 < 4))]) (f0Only f)
    (fun e c => (e.working f).pwrAsk (.ofCode (c.slot 0)) .powerSet credits)

/-- PWR_REQ: answered with BUSY before S8 (R475, R506). A tag unanswered already, or a seventeenth request, breaks R506. -/
def Eng.pwrReq (e : Eng) (t : Nat) (tag : Fin 16) (credits : Nat) : Eng :=
  if e.pwr.tags.contains tag then e
  else
    let e := e.modPwr (fun x => { x with tags := x.tags ++ [tag] })
    match e.start.phase with
    | .ready => e.pwrAsk (.ofCode t) (.pwrReq tag) credits
    | .held | .s1 | .s2 | .s3 | .s4 | .s6 | .s7 | .stopped | .x2 => e.pwrAnswer (.pwrReq tag) stBusy 0

/-! ### Entry -/

/-- POWER_ENTRY_START: E1 (R237, R417, R425). -/
def Eng.entryStart (e : Eng) : Eng :=
  if e.pwr.step ≠ .e1 ∨ e.pwr.begun then e
  else
    let w := e.portOf e.pwr.watchPort
    let up := decide (e.pwr.target = .watch) && decide ((e.port w).state = .up)
    let e := e.forceRetire.modPwr (fun x => { x with begun := true, watchUp := up })
    { e with steer := { e.steer with rcircOff := true, rcircCredit := 0 } }

/-- Admission, fetching and grants stop: frames granted and not started go back to their queue heads (R418). -/
def Eng.drainBegin (e : Eng) : Eng :=
  let e := foldEng e.portList (fun e p => e.ungrant p (fun _ => true)) e
  e.modPwr (fun x => { x with closed := true })

/-- ENTRY_PREPARE_DONE: E1 ends and E2 begins (R150, R417). -/
def Eng.entryPrepared (e : Eng) : Eng :=
  if e.pwr.step = .e1 ∧ e.pwr.begun ∧ e.steer.retiring.isNone ∧ e.portList.all (fun p => (e.port p).hs.isNone) then
    e.drainBegin.modPwr (fun x => { x with step := .e2 })
  else e

/-- Admission, fetching, grants and the SP_RCIRC credit are open again; flow control resumes (R116, R419). -/
def Eng.reopen (e : Eng) : Eng :=
  let e := e.modPwr (fun x => { x with closed := false, begun := false })
  let e := ({ e with steer := { e.steer with rcircOff := false } }).rcircTopUp.fetchAll
  foldEng e.portList (fun e p => if (e.port p).xoffSt ≠ 0 ∨ (e.port p).released ≠ 0 then e.fcReady p else e) e

/-- The entry is rolled back at abort point `n` (R419): from DOZE the engine is in DOZE again, and a wake goes on. -/
def Eng.rollback (e : Eng) (n : Nat) (a : Abort) (credits : Nat) : Eng :=
  let x := e.pwr
  let e := (e.modPwr (fun x => { x with step := .none, target := .run, waiters := [], runWaiters := [], abort := none })).pwrCnt 1 1
  let e := if x.state = .doze then e.modPwr (fun x => { x with begun := false }) else e.reopen
  let e := e.pwrAnswerAll x.waiters stRolledBack (n + 4 * a.cause + 16 * a.code)
  if x.state = .doze ∧ a.cause = 1 then
    let last := e.pwr.last
    (e.beginWake a.code last.pattern last.port).modPwr (fun y => { y with waiters := x.runWaiters })
  else (e.pwrAnswerAll x.runWaiters stOK 0).pwrNext credits

/-- Every frame in progress is over (R418). -/
def Eng.drained (e : Eng) : Bool :=
  e.portList.all (fun p => (e.port p).wire.isEmpty) && e.firmwareIdle &&
  e.ctl.inflight.all (fun f => match (e.fn f).cmd with
    | some c => decide (c.opcode = 0x0601) && decide (c.st = .working)
    | none => true)

/-- Open batches are written (R170, R418). -/
def Eng.flushBatches (e : Eng) : Eng := foldEng e.txqList (fun e r => e.txBatchOut r.1) e

/-- RING_DRAIN_DONE: E2 ends at A1 (R417 to R419), or the first part of a GRACEFUL reset's drain does (R477). -/
def Eng.ringDrained (e : Eng) (credits : Nat) : Eng :=
  if !e.drained then e
  else if e.start.due = some .graceful then e.flushBatches
  else if e.pwr.step ≠ .e2 then e
  else
    let e := e.flushBatches
    match e.pwr.abort with
    | some a => e.rollback 1 a credits
    | none => e.modPwr (fun x => { x with step := .e3 })

/-- RING_DRAIN_TIMEOUT: E2 is not done within 10 ms (R419), or a GRACEFUL reset's drain has had its time (R477). -/
def Eng.drainTimeout (e : Eng) (credits : Nat) : Eng :=
  if e.start.due = some .graceful then e.engineReset .command
  else if e.pwr.step ≠ .e2 then e
  else
    let e := e.fail 39 e.pwr.target.code mPower
    e.rollback 1 (e.pwr.abort.getD { cause := 3 }) credits

/-- Every access due has been made and answered (R418): one that waits on a translation fault is not, and the entry is rolled
back for it, or leaves it behind on its way to OFF (R415, R419). -/
def Eng.dmaQuiet (e : Eng) : Bool :=
  e.dma.outst.isEmpty && e.dma.queue.isEmpty &&
  e.dma.blocked.all (fun b => e.dma.waits.any (fun w => (e.unitOf w.obj).contains b))

/-- BUFFER_FLUSH_DONE: E3 ends at A2 (R418, R419); E4 copies the wake patterns and keeps the watch lane trained (R413,
R425, R489). -/
def Eng.bufferFlushed (e : Eng) (credits : Nat) : Eng :=
  if !e.bufferEmpty ∨ !e.dmaQuiet then e
  else if e.start.due = some .graceful then e.engineReset .command
  else if e.pwr.step ≠ .e3 then e
  else
    let e := foldEng e.portList (fun e p => e.modPort p (fun x => { x with trump := [], trumpWait := [] })) e
    match e.pwr.abort with
    | some a => e.rollback 2 a credits
    | none =>
      let w := e.portOf e.pwr.watchPort
      let pats := (upTo 32).map (fun i => e.steer.wakePats.get {} (32 * w.val + i))
      let e := e.modPwr (fun x => { x with step := .e4, patterns := pats })
      if e.pwr.watchUp then e.mi w .watchKeep 0 else e

/-- Banks signed at entry to a state (R411, R417). -/
def signedBanks (now target : PwrState) : List Nat :=
  match target with
  | .doze => (upTo 19).map (· + 4)
  | .watch => if now = .doze then upTo 4 ++ (upTo 5).map (· + 23) else upTo 28
  | .off | .run => []

/-- Signatures of the banks signed, on the way to WATCH beside those that a DOZE before has left (R411, R427, R432). -/
def Eng.storeSigs (e : Eng) (sigs : List (BitVec 32)) : Eng :=
  let old : Tab (Option (BitVec 32)) := if e.pwr.state = .doze ∧ e.pwr.target = .watch then e.pwr.sigs else {}
  let new := (signedBanks e.pwr.state e.pwr.target).foldl (fun (t : Tab (Option (BitVec 32))) b => t.put none b (some (nth sigs b 0))) old
  e.modPwr (fun x => { x with sigs := new })

/-- SIGNING_DONE: E4 ends at A3, and A4 follows (R416, R417, R427, R450). Whether a credit is taken shows in the step. -/
def Eng.signDone (e : Eng) (sigs : List (BitVec 32)) (credits : Nat) : Eng :=
  if e.pwr.step ≠ .e4 then e
  else match e.pwr.abort with
    | some a => e.rollback 3 a credits
    | none =>
      let e := (e.storeSigs sigs).pwrCnt 0 1
      let e := if e.pair.state = .standby then e.goStale else e
      let e := e.modPwr (fun x => { x with step := .e5 })
      if e.pwr.target = .doze then e
      else (e.modPwr (fun x => { x with waiters := [] })).pwrAnswerAll e.pwr.waiters stOK 0

/-! ### What a gated domain loses (R412) -/

/-- A port's state that gating PD_MAC, PD_PIPE and PD_BUF0 to PD_BUF3 resets: its state, its statistics and what the agent
in PD_CTL keeps stay (R21, R129, R413). -/
def Port.gated (x : Port) : Port :=
  { x with
    partner := { x.partner with st := if x.partner.st = .present then .stale else x.partner.st }
    ct := .bytes x.ctFloor, ctFrames := 0, pauseP := none, pauseC := [none, none, none, none, none, none, none, none], drain := 0
    restoreAt := [none, none, none, none, none, none, none, none], lists := [[], [], [], [], [], [], [], []], wire := []
    trump := [], trumpWait := [], shared := [0, 0, 0, 0, 0, 0, 0, 0], kitty := [0, 0, 0, 0, 0, 0, 0, 0], xoffSt := 0, released := 0
    fcSent := [0, 0, 0, 0, 0, 0, 0, 0], load := 0, lowCount := [0, 0, 0], spoiled := false, gap := none, lastSwitch := 0
    thinSeq := 0, hs := none, lastAnswer := none, noNarrow := 0, noPropose := 0, rewiden := none, widenDue := none, trailerSeq := 0
    nextOrder := 0, freeAt := 0, thin := {}, off := {}, steer := {} }

/-- A Deck's counters lie in the time unit, in PD_CTL (R13, R357, R412). -/
def Deck.gated (x : Deck) : Deck :=
  { x with neverFits := 0, fitWaits := 0, lateDropped := 0, lateSent := 0, cuts := 0, extensions := 0, truncations := 0 }


/-- A channel's status fields reset (R374, R412). -/
def Chan.gated (x : Chan) : Chan :=
  { enable := x.enable, fence := x.fence, doneIrq := x.doneIrq, errIrq := x.errIrq, prio := x.prio, list := x.list
    srcPasid := x.srcPasid, dstPasid := x.dstPasid, reqId := x.reqId, compl := x.compl, doneVec := x.doneVec, errVec := x.errVec }

/-- PD_DMA, PD_PIPE, PD_MAC, PD_SCH and PD_BUF0 to PD_BUF3 are gated (R24, R254, R308, R412). -/
def Eng.gateData (e : Eng) : Eng :=
  let e := foldEng (e.ports.rows.map (fun r => fin 16 r.1)) (fun e p => (e.clearPause p).modPort p Port.gated) e
  let e := foldEng (e.carry.chans.rows.map (fun r => fin 64 r.1)) (fun e c => e.modChan c Chan.gated) e
  let e := foldEng (e.steer.policers.rows.map (fun r => fin 4096 r.1)) (fun e i =>
    let x := e.policer i
    e.setPolicer i { rate := x.rate, burst := x.burst, lenAdj := x.lenAdj, tokens := x.burst * 6250, last := x.last }) e
  let e := foldEng (e.steer.groups.rows.map (·.1)) (fun e g =>
    { e with steer := { e.steer with groups := e.steer.groups.put {} g { members := (e.steer.groups.get {} g).members } } }) e
  let e := foldEng allSlots (fun e p => e.setRoot p { e.root p with decisions := 0 }) e
  { e with
    dma := { nextGrp := e.dma.nextGrp, parkSize := e.dma.parkSize, parkRing := e.dma.parkRing, faultTimeout := e.dma.faultTimeout }
    carry := { chans := e.carry.chans, autoResume := e.carry.autoResume }
    steer := { e.steer with forced := 0, swaps := 0, swapAt := none, credits := {}, rcircLines := 0, rcircCredit := 0 }
    dealer := { e.dealer with samplerDrops := 0, shaperResets := 0 }
    start := { e.start with txLines := 0, parkedBytes := 0 }
    pwr := { e.pwr with restOn := false } }

/-- A counter of Tally keeps its settings (R412, R455). -/
def TCnt.gated (x : TCnt) : TCnt := { x with value := 0, shadow := 0 }

/-- A function's mailbox fields reset; its configuration stays (R412). -/
def FnState.gated (x : FnState) : FnState :=
  { x with ftHi := 0, req := 0, rsp := 0, done := false, progress := false, overrun := false, fwRestart := false, cls := 0
           lastTag := 0, cmd := none, resetting := none }

/-- PD_CTL is gated (R24, R321, R407, R412). -/
def Eng.gateCtl (e : Eng) : Eng :=
  let e := e.holdBegin
  let e := foldEng (e.fns.rows.map (fun r => fin 2048 r.1)) (fun e f => e.modFn f FnState.gated) e
  let e := foldEng (e.ports.rows.map (fun r => fin 16 r.1)) (fun e p => e.modPort p (fun x => { x with deck := x.deck.gated })) e
  let e := foldEng (e.tally.cnts.rows.map (·.1)) (fun e k => e.setTcnt k (e.tcnt k).gated) e
  let e := foldEng allTbs (fun e n => e.modTb n (fun t => { t with stepCount := 0, snapNs := 0, snapSub := 0, snapSec := 0 })) e
  let e := foldEng ((upTo 8).map (fin 8)) (fun e k =>
    (e.setPpo k { e.ppo k with missed := false, active := false }).setCap k { e.cap k with queue := [], hi := 0, drops := 0 }) e
  let t := e.tally
  let f := e.flt
  { e with
    ctl := { e.ctl with ready := false, restarting := false, inflight := [], rejects := [] }
    flt := { f with bankWin := {}, stat := closeWins f.stat, shadows := [], log := {}, conseqStatus := 0, conseqCount := 0
                    conseqPtr := 0 }
    irqs := []
    time := { e.time with tsq := {}, ppsCount := 0, ppsAt := {}, ppsHi := {} }
    lcp := { policy := e.lcp.policy, enable := e.lcp.enable, banks := e.lcp.banks, spare := e.lcp.spare }
    pair := { e.pair with hbLast := none, unacked := [], changes := [], held := [], heldIrq := [], op := none, seenAt := none
                          partnerId := 0, offset := 0, cnt := [0, 0, 0, 0, 0, 0] }
    tally := { freeze := t.freeze, ovfIrqEn := t.ovfIrqEn, freezeSev := t.freezeSev, vector := t.vector, cnts := t.cnts
               bwEn := t.bwEn, bwMask := t.bwMask, bwWindow := t.bwWindow, bwMaskNow := t.bwMask, bwWindowNow := t.bwWindow
               bwBase := t.bwBase, bwFn := t.bwFn, bwPasid := t.bwPasid, bwSize := t.bwSize }
    pwr := { e.pwr with ctlOn := false, pll := false } }

/-- The ports in UP, and the port of each slot as PD_AON keeps it (R413, R428). -/
def Eng.noteSleep (e : Eng) : Eng :=
  let up := e.portList.filter (fun p => decide ((e.port p).state = .up))
  let g := allSlots.map (fun s => (e.portOf s).val)
  e.modPwr (fun x => { x with wasUp := up, grouping := some g })

/-- OFF: everything but PD_AON is lost, and MOD_LPM is high (R411 to R413). -/
def Eng.gateAll (e : Eng) : Eng :=
  let e := e.holdBegin
  let late := e.pwr.late
  let pend := e.pwr.pend
  let e := e.aonOnly
  let e := foldEng (e.cages.rows.map (fun r => fin 16 r.1)) (fun e c => e.modCage c (fun k => { k with lpm := true })) e
  e.modPwr (fun x => { x with state := .off, ctlOn := false, restOn := false, retOn := false, pll := false, late := late, pend := pend })

/-- POWER_SWITCH_DONE: E5 ends in the state entered (R416, R417, R420). -/
def Eng.switchDone (e : Eng) (credits : Nat) : Eng :=
  if e.pwr.step ≠ .e5 then e
  else
    let ws := e.pwr.waiters
    let t := e.pwr.target
    let fromDoze := decide (e.pwr.state = .doze)
    let e := match t with
      | .doze => e.noteSleep.gateData
      | .watch => ((if fromDoze then e else e.noteSleep.gateData)).gateCtl
      | .off => e.gateAll
      | .run => e
    let e := e.modPwr (fun x => { x with state := t, step := .none, target := .run, waiters := [], begun := false })
    let e := e.pwrAnswerAll ws stOK 0
    match e.pwr.late with
    | some (c, n, p) => (e.modPwr (fun x => { x with late := none })).beginWake c n p
    | none => e.pwrNext credits

/-- DOMAIN_SWITCH_TIMEOUT: a domain has not reported its switch within 50 µs (R420). -/
def Eng.switchTimeout (e : Eng) : Eng :=
  if e.pwr.step = .e5 then e.fail 39 e.pwr.target.code mPower
  else if e.pwr.step = .waking then e.fail 39 0 mPower
  else e

/-! ### Wakes -/

/-- WAKE_TIMER (R421): PWR_TIMER clears as it fires. -/
def Eng.wakeTimer (e : Eng) : Eng :=
  if e.pwr.wakeAt ≠ 0 ∧ e.armed 6 then (e.modPwr (fun x => { x with wakeAt := 0 })).wake 6 0 0 else e

/-- WATCH_WINDOW_OPEN (R425): the sampler runs while the watch lane is kept up. -/
def Eng.windowOpen (e : Eng) : Eng :=
  if e.pwr.state = .watch ∧ e.pwr.step = .none ∧ e.pwr.watchUp then
    e.modPwr (fun x => { x with window := true, windowAt := e.now })
  else e

/-- WATCH_WINDOW_CLOSE (R425): a window as long as the period stays open. -/
def Eng.windowClose (e : Eng) : Eng :=
  if e.pwr.windowUs = e.pwr.periodMs * 1000 then e else e.modPwr (fun x => { x with window := false })

/-- The bytes a pattern includes, in ascending order. -/
def WakePat.picked (x : WakePat) (bs : List Byte) : List Byte :=
  ((bs.take 256).zip (upTo 256)).filterMap (fun (b, i) => if bitAt x.mask i then some b else none)

/-- A pattern matches a frame whose FCS is good (R251). -/
def WakePat.hits (x : WakePat) (bs : List Byte) : Bool :=
  x.enable && x.mask != 0 && (upTo 256).all (fun i => !bitAt x.mask i || decide (i + 4 < bs.length)) &&
  crc32c (x.picked bs) == x.check

/-- WATCH_FRAME: a frame on the watch lane within a window (R426, R490). -/
def Eng.watchFrame (e : Eng) (bs : List Byte) (err : Bool) : Eng :=
  if !e.pwr.window ∨ err ∨ bs.length < 64 ∨ fcsBytes (bs.take (bs.length - 4)) ≠ bs.drop (bs.length - 4) then e
  else match (upTo 32).find? (fun i => (nth e.pwr.patterns i {}).hits bs) with
    | none => e
    | some n =>
      if e.armed 3 then
        let p := e.portOf e.pwr.watchPort
        (e.wakeEvent 3 n p.val).stat p 0 1
      else e

/-- LINK_ACTIVITY: a frame or signal-detect on a lane kept up (R421). -/
def Eng.linkActivity (e : Eng) (s : PortId) : Eng :=
  if e.laneKept s then e.wakeEvent 2 0 (e.portOf s).val else e

/-- PLL_LOCKED: W2, or S1, ends (R423, R473). -/
def Eng.pllLocked (e : Eng) : Eng :=
  if e.start.phase = .s1 then (e.stepEnd 1 .s2).modPwr (fun x => { x with pll := true })
  else if e.pwr.wakeStep = some .pll then e.modPwr (fun x => { x with pll := true, wakeStep := some .power })
  else e

/-- WAKE_POWER_DONE: W3, or S2, ends (R423, R473): in a start sequence the time unit starts (R321, R322). -/
def Eng.powerDone (e : Eng) : Eng :=
  let on (x : PwrSt) : PwrSt := { x with ctlOn := true, restOn := true, retOn := true }
  if e.start.phase = .s2 then ((e.stepEnd 2 .s3).modPwr on).holdEnd
  else if e.pwr.wakeStep = some .power then
    let doze := decide (e.pwr.state = .doze)
    let e := e.modPwr (fun x => { on x with lost := 0, restored := 0, recover := [], wakeStep := some (if doze then .check else .control) })
    e.dealerWake
  else e

/-- Banks found LOST (R427). -/
def Eng.markLost (e : Eng) (bs : List Nat) : Eng :=
  foldEng bs (fun e b =>
    let e := e.modPwr (fun x => { x with lost := x.lost ||| BitVec.ofNat 28 (2 ^ b), recover := x.recover ++ [fin 28 b] })
    (e.pwrCnt 4 1).fail 40 b mPower) e

/-- Of some banks, those whose signature differs from the one stored. -/
def Eng.badSigs (e : Eng) (bs : List Nat) (sig : Nat → BitVec 32) : List Nat :=
  bs.filter (fun b => match e.pwr.sigs.get none b with
    | some v => decide (v ≠ sig b)
    | none => false)

/-- CONTROL_STATE_RESTORED: W4 ends (R322, R423, R428); the signatures recomputed are RB23's and RB24's. -/
def Eng.controlRestored (e : Eng) (sigs : List (BitVec 32)) : Eng :=
  if e.pwr.wakeStep ≠ some .control then e
  else
    let e := e.markLost (e.badSigs [23, 24] (fun b => nth sigs (b - 23) 0))
    (e.modPwr (fun x => { x with wakeStep := some .check })).holdEnd

/-- RETENTION_CHECK_DONE: W5's check ends (R423, R427); bank b's signature is the b-th. -/
def Eng.retentionChecked (e : Eng) (sigs : List (BitVec 32)) (ecc : List BankId) : Eng :=
  if e.pwr.wakeStep ≠ some .check then e
  else
    let bs := (signedBanks .run (if e.pwr.state = .doze then .doze else .watch)).filter (fun b => b ≠ 23 ∧ b ≠ 24)
    let bad := e.badSigs bs (fun b => nth sigs b 0)
    let more := (ecc.map (·.val)).filter (fun b => !bad.contains b && !bitAt e.pwr.lost.toNat b && (e.pwr.sigs.get none b).isSome)
    let l := (upTo 28).filter (fun b => bad.contains b || more.contains b)
    (e.markLost l).modPwr (fun x => { x with wakeStep := some .start })

/-! ### Loss of a bank (R428, R429) -/

/-- Objects lost, with owner and local number, reported to their owners (R429). -/
def Eng.lostEvents (e : Eng) (code : Nat) (l : List (Fn × Nat)) : Eng :=
  foldEng (l.map (·.1)).eraseDups (fun e f =>
    let own := (l.filter (fun r => decide (r.1 = f))).map (·.2)
    let low := own.foldl min 65535
    let e := e.modFn f (fun x => { x with lost := addCnt x.lost (code - 1) own.length })
    e.ctlEvent f 5 code low own.length) e

/-- A loss that is F0's: objects without a local number. -/
def Eng.lostF0 (e : Eng) (code n : Nat) : Eng := e.lostEvents code (List.replicate n (0, 0))

/-- Objects of a bank by number: `per` in each, counted from the bank's place. -/
def inBank (per k n : Nat) : Bool := decide (per * k ≤ n) && decide (n < per * (k + 1))

/-- RB4 to RB7: transmit queues (R428). -/
def Eng.loseTxqs (e : Eng) (k : Nat) : Eng :=
  let l := e.txqList.filter (fun r => inBank 8192 k r.1.val)
  let e := foldEng l (fun e r => (e.leaveRounds (.leaf r.1)).objDestroy (.txq r.1)) e
  e.lostEvents 1 (l.map (fun r => (r.2.fn, r.2.loc)))

/-- RB8 to RB11: receive rings (R428). -/
def Eng.loseRxqs (e : Eng) (k : Nat) : Eng :=
  let l := e.rxqList.filter (fun r => inBank 8192 k r.1.val)
  let e := foldEng l (fun e r => e.objDestroy (.rxq r.1)) e
  e.lostEvents 2 (l.map (fun r => (r.2.fn, r.2.loc)))

/-- RB12 to RB15: leaves go back under their port's root with their fields at reset (R428). -/
def Eng.loseLeaves (e : Eng) (k : Nat) : Eng :=
  let l := e.txqList.filter (fun r => inBank 8192 k r.1.val)
  let e := foldEng l (fun e r => (e.leaveRounds (.leaf r.1)).setLeaf r.1 { live := true, port := r.2.port }) e
  e.lostEvents 4 (l.map (fun r => (r.2.fn, r.2.loc)))

/-- An object whose parent is among lost nodes moves to its port's root in band 0. -/
def DObj.orphaned (x : DObj) (per k : Nat) : DObj :=
  match x.parent with
  | some n => if inBank per k n.val then { x with parent := none, band := 0, deficit := 0, turn := false } else x
  | none => x

/-- RB16 and RB17: nodes return to the pool (R428). -/
def Eng.loseNodes (e : Eng) (k : Nat) : Eng :=
  let nodes := e.dealer.nodes.rows.map (fun r => fin 8192 r.1)
  let l := nodes.filter (fun n => inBank 4096 k n.val && (e.node n).live)
  let e := foldEng l (fun e n => (e.leaveRounds (.node n)).setNode n {}) e
  let e := foldEng nodes (fun e n => e.setNode n ((e.node n).orphaned 4096 k)) e
  let e := foldEng e.txqList (fun e r => e.setLeaf r.1 ((e.leaf r.1).orphaned 4096 k)) e
  if l = [] then e else e.lostF0 5 l.length

/-- RB18 to RB22: the entries of which a byte lies in the bank become invalid in both generations (R23, R428). -/
def Eng.loseRules (e : Eng) (k : Nat) : Eng :=
  let l := (e.steer.tcam.rows.filter (fun r => decide (524288 * k < 160 * (r.1 + 1)) && decide (160 * r.1 < 524288 * (k + 1)) &&
    (r.2.validA || r.2.validB))).map (·.1)
  let e := foldEng l (fun e i =>
    { e with steer := { e.steer with tcam := e.steer.tcam.put {} i { e.tcam i with validA := false, validB := false } } }) e
  if l = [] then e else e.lostF0 6 l.length

/-- RB23: port, time, Deck and module configuration, and the PD_CTL fields saved with it (R129, R412, R427, R428): the
grouping is kept. -/
def Eng.loseConfig (e : Eng) : Eng :=
  let n := e.portList.length
  let e := match e.pwr.grouping with
    | some g => foldEng allSlots (fun e s => e.setSlot s { e.slot s with port := fin 16 (nth g s.val s.val) }) e
    | none => e
  let e := foldEng allSlots (fun e p =>
    let w := (e.slotsOf p).length
    e.setPort p { Port.reset p.val with width := w, txLanes := w, rxLanes := w, lanes := List.replicate w .inService
                                        statsReset := true }) e
  let e := foldEng (e.cages.rows.map (fun r => fin 16 r.1)) (fun e c => e.modCage c (fun k => { k with speed := 1 })) e
  let e := foldEng allTbs (fun e n => e.modTb n (fun t => { t.aon with degraded := t.degraded, left := t.left })) e
  let e := foldEng (e.fns.rows.map (fun r => fin 2048 r.1)) (fun e f =>
    e.modFn f (fun x => { x with irqVec := 0, irqDone := false, irqProgress := false, irqRestart := false })) e
  let e := { e with
    flt := { e.flt with vector := 0, irqEn := false, forceClass := 2, cfg := {} }
    steer := { e.steer with wakePats := {} }
    time := { e.time with ppo := {}, cap := {}, ppsEn := false, ppsEvent := false }
    tally := {}
    pwr := { e.pwr with wasUp := [] } }
  e.lostF0 7 n

/-- A steering action that names a spreading table or a stream group acts as DROP (R428). -/
def Action.unspread (a : Action) : Action := if a.ty = 2 ∨ a.ty = 3 ∨ a.ty = 4 then {} else a

/-- A generation whose items have taken their reset values (R232, R428): its serial and its count are no items. -/
def Generation.itemsReset (g : Generation) : Generation := { serial := g.serial, count := g.count }

/-- RB24: event queues, vectors and firmware tables (R428). -/
def Eng.loseTables (e : Eng) : Eng :=
  let eqs := e.eqList
  let tx := e.txqList
  let rx := e.rxqList
  let e := foldEng tx (fun e r => (e.leaveRounds (.leaf r.1)).objDestroy (.txq r.1)) e
  let e := foldEng rx (fun e r => e.objDestroy (.rxq r.1)) e
  let e := foldEng eqs (fun e r => e.objDestroy (.eq r.1)) e
  let e := foldEng (upTo 4096) (fun e v => e.setVec v { e.vec v with mask := true }) e
  let e := foldEng (e.steer.tcam.rows.map (·.1)) (fun e i =>
    { e with steer := { e.steer with tcam := e.steer.tcam.put {} i { e.tcam i with action := (e.tcam i).action.unspread } } }) e
  let e := { e with
    steer := { e.steer with genA := e.steer.genA.itemsReset, genB := e.steer.genB.itemsReset, spreads := {}, groups := {}, policers := {}, rcircLimit := 262144
                            streamKey := List.replicate 40 0, streamIp4t := true, streamInner := true }
    off := { e.off with profiles := {} } }
  let e := e.lostEvents 1 (tx.map (fun r => (r.2.fn, r.2.loc)))
  let e := e.lostEvents 2 (rx.map (fun r => (r.2.fn, r.2.loc)))
  (e.lostEvents 3 (eqs.map (fun r => (r.2.fn, r.2.loc)))).lostF0 8 1

/-- The state of a bank is lost (R428). -/
def Eng.loseBank (e : Eng) (b : Nat) : Eng :=
  if b < 4 then e
  else if b < 8 then e.loseTxqs (b - 4)
  else if b < 12 then e.loseRxqs (b - 8)
  else if b < 16 then e.loseLeaves (b - 12)
  else if b < 18 then e.loseNodes (b - 16)
  else if b < 23 then e.loseRules (b - 18)
  else if b = 23 then e.loseConfig
  else if b = 24 then e.loseTables
  else if b < 27 then (if e.paired then e.leavePair else e)
  else { e with lcp := { e.lcp with spare := 0 } }

/-- The way a LOST bank is recovered is one R428 gives for it. -/
def Eng.recoverOk (e : Eng) (b : Nat) : Recovery → Bool
  | .partner => decide (4 ≤ b) && decide (b ≤ 24) && e.paired
  | .bootStore => decide (b < 4)
  | .loss => decide (4 ≤ b)

/-- RB23 was found LOST: every port's statistics set restarts from zero, and STATS_RESET is set (R129). -/
def Eng.statsLost (e : Eng) : Eng :=
  foldEng allSlots (fun e p => e.modPort p (fun x => { x with
    stats := {}, pausedFor := [0, 0, 0, 0, 0, 0, 0, 0], statsReset := true })) e

/-- BANK_RECOVERED (R428). -/
def Eng.bankRecovered (e : Eng) (b : BankId) (r : Recovery) : Eng :=
  if e.pwr.recover.contains b = false ∨ e.recoverOk b.val r = false then e
  else
    let e := e.modPwr (fun x => { x with recover := x.recover.filter (fun c => !decide (c = b)) })
    let back (e : Eng) : Eng := (e.modPwr (fun x => { x with restored := x.restored ||| BitVec.ofNat 28 (2 ^ b.val) })).pwrCnt 5 1
    match r with
    | .partner => back (if b.val = 23 then e.statsLost else e)
    | .bootStore =>
      let (v, e) := e.fresh
      foldEng e.enabledFns (fun e f => e.ctlEvent f 6 0 0 0) (back { e with lcp := { e.lcp with banks := setNth e.lcp.banks b.val v } })
    | .loss => e.loseBank b.val

/-- A port resumes after WATCH (R413): one that was in UP retrains, but for a watch port of width 1 whose lane stayed up. -/
def Eng.resumePort (e : Eng) (p : PortId) : Eng :=
  if p = e.portOf e.pwr.watchPort ∧ (e.port p).width = 1 ∧ (e.port p).linkUp ∧ e.pwr.watchUp then e
  else e.linkLost p cLinkFault

/-- What the monitors in PD_AON have seen of a cage while PD_CTL was gated is handled (R78): a module confirmed present
anew has been removed before; where the cage's state was lost, as in OFF, a module present is an insertion; then the
interrupt. -/
def Eng.lateCage (e : Eng) (c : Cage) : Eng :=
  let k := e.cage c
  let e := e.modCage c (fun k => { k with seen := none, irqSeen := none })
  let e := match k.seen with
    | some b => (e.presence c false).presence c b
    | none => if k.prs then e.presence c true else e
  match k.irqSeen with
  | some (flags, laneFlags, st) => e.modIrq c flags laneFlags st
  | none => e

/-- The monitors of every cage are handled, after a wake or a start (R78). -/
def Eng.lateCages (e : Eng) : Eng := foldEng ((upTo 16).map (fin 16)) (fun e c => e.lateCage c) e

/-- PRESENCE_CONFIRMED: a wake source (R421), and handled at once where PD_CTL is powered (R77, R78). -/
def Eng.presenceSeen (e : Eng) (c : Cage) (present : Bool) : Eng :=
  let e := (e.modCage c (fun k => { k with prs := present })).wakeEvent 5 0 c.val
  if e.pwr.ctlOn then e.presence c present else e.modCage c (fun k => { k with seen := some present })

/-- MODULE_INTERRUPT: a wake source (R421); the flags are read where PD_CTL is powered, else after the wake (R78, R83). -/
def Eng.moduleIrq (e : Eng) (c : Cage) (flags : BitVec 64) (laneFlags : BitVec 512) (st : ModState) : Eng :=
  let e := e.wakeEvent 5 0 c.val
  if e.pwr.ctlOn then e.modIrq c flags laneFlags st
  else e.modCage c (fun k => { k with irqSeen := some (flags, laneFlags, st) })

/-- WAKE_START_DONE: W6 ends, and the engine is in RUN (R423); a standby resynchronises once heartbeats return (R450). -/
def Eng.wakeStarted (e : Eng) (credits : Nat) : Eng :=
  if e.pwr.wakeStep ≠ some .start ∨ e.pwr.recover ≠ [] then e
  else
    let watch := decide (e.pwr.state = .watch)
    let ws := e.pwr.waiters
    let e := if watch then { e with lcp := { e.lcp with threads := {}, chnls := {}, notices := [] } } else e
    let e := e.modPwr (fun x => { x with state := .run, step := .none, wakeStep := none, waiters := [], window := false })
    let e := if watch then e.releaseThreads else e
    let e := { e with ctl := { e.ctl with ready := true }, lcp := { e.lcp with readyAt := e.now } }
    let e := if watch then foldEng e.pwr.wasUp (fun e p => e.resumePort p) e else e
    let e := e.lateCages.lateTtls.fastStartAll.reopen
    let e := e.modPwr (fun x => { x with wasUp := [], watchUp := false })
    let e := if e.pair.state = .standbyStale then e.modPair (fun x => { x with lostLink := true, wakeSent := true }) else e
    (e.pwrAnswerAll ws stOK 0).pwrNext credits

/-! ### Registers and status -/

/-- PWR_STATUS (R432). -/
def PwrSt.statusReg (x : PwrSt) : Nat :=
  pack [(x.state.code, 2), (x.step.code, 3), (x.target.code, 2), (b2n x.pend.isSome, 1),
    ((x.pend.map (·.1.code)).getD 0, 2), ((x.pend.map (·.2.code)).getD 0, 2)]

/-- PWR_BUDGET (R432). -/
def Budget.reg (b : Budget) (now : Nat) : Nat :=
  pack [(b.credits, 14), (0, 2), (6000 - min 6000 (edgesNs (now - b.since) / 1000000), 13)]

/-- PWR_LAST_WAKE (R432). -/
def LastWake.reg (x : LastWake) : Nat :=
  pack [(x.source, 3), (x.from_, 2), (x.pattern, 5), (x.port, 4), (x.abort, 2), (b2n x.holdover, 1)]

/-- PWR_RET_STATUS (R432). -/
def PwrSt.retReg (x : PwrSt) : Nat := pack [(x.lost.toNat, 28), (0, 4), (x.restored.toNat, 28)]

/-- BUDGET_CREDIT: a credit every 6 s, up to the cap (R430). -/
def Budget.gain (b : Budget) (now : Nat) : Budget := { credits := min 10000 (b.credits + 1), since := now }

/-- A passage of A4 takes one credit (R430). -/
def Budget.take (b : Budget) (old e : Eng) : Budget :=
  if old.pwr.step = .e4 ∧ e.pwr.step = .e5 then { b with credits := b.credits - 1 } else b

/-- POWER_STATUS_GET (R433, R532). -/
def Eng.powerStatusGet (e : Eng) (b : Budget) (f : Fn) : Eng :=
  e.mbxArgs f 0x0602 1 (fun _ c => [(32, flagOk (c.slot 0))]) (fun _ c => decide (f = 0) || c.slot 0 == 0) (fun e c =>
    let x := e.pwr
    let bs := slotBytes ([x.statusReg, b.reg e.now, x.last.reg, x.last.time] ++ (e.fn f).lost ++
      (if f = 0 then x.retReg :: x.cnt else []))
    let e := e.modFn f (fun y => { y with lost := [0, 0, 0, 0, 0, 0, 0, 0] })
    let e := if f = 0 ∧ c.slot 0 = 1 then e.modPwr (fun x => { x with cnt := [0, 0, 0, 0, 0, 0] }) else e
    e.respond f stOK 0 bs)

end Sys2Proof.Machine
end

