-- ==== Sys2Proof/Machine/BootOps.lean ====
section
/-! DEFINITION. BootOps.lean: the boot store's part in a start sequence, the self-test, READY, and the commands of
resets (14_lcp.md R388 to R390, 19_startup.md R473 to R480, 20_edge_signals.md R484). -/
namespace Sys2Proof.Machine

/-! ### The boot store (R388 to R390) -/

/-- The slot to be booted, B where true, and whether it is a trial: PENDING before ACTIVE (R390, R473). -/
def Boot.pick (b : Boot) : Option (Bool × Bool) :=
  if b.a.state = .pending then some (false, true)
  else if b.b.state = .pending then some (true, true)
  else if b.a.state = .active then some (false, false)
  else if b.b.state = .active then some (true, false)
  else none

/-- The slot being booted or running changed, and the other one. -/
def Boot.map2 (b : Boot) (cur other : ImgSlot → ImgSlot) : Boot :=
  if b.runB then { b with a := other b.a, b := cur b.b } else { b with a := cur b.a, b := other b.b }

/-- A failed trial: the slot is BAD, and the other one is booted (R390, R473). -/
def Boot.failTrial (b : Boot) : Boot :=
  { b.map2 (fun x => { x with state := .bad }) (fun x => x) with runB := !b.runB }

/-- A trial that has reached READY: its slot is ACTIVE, the other PREVIOUS (R390). -/
def Boot.passTrial (b : Boot) : Boot := b.map2 (fun x => { x with state := .active }) (fun x => { x with state := .previous })

/-- The image read is one that R388 accepts. -/
def imageOk (i : ImageInfo) : Bool := i.sigOk && i.secOk && decide (i.codeLen.toNat ≤ 2097152)

/-- Start-up stops before S8 (R473, R476). -/
def Eng.startStop (e : Eng) : Eng := { e with start := { e.start with phase := .stopped } }

/-- No slot passes: source 36 with cause NO_IMAGE (R473). -/
def Eng.noImage (e : Eng) : Eng := e.startStop.fail 36 0xF0 (mThread 0)

/-- A failed trial returns to S4 (R473, R480). -/
def Eng.trialFailed (e : Eng) : Eng :=
  { e with start := { e.start with phase := .s4, trial := 2, trying := false } }

/-- MEMORY_INIT_DONE: S3 ends (R473, R475, R478). -/
def State.memoryInit (s : State) : State :=
  if s.eng.start.phase ≠ .s3 then s.run (fun e => e)
  else match s.boot.pick with
    | some (b, trial) =>
      { s.run (fun e =>
          let e := (e.stepEnd 3 .s4).resetReleased
          { e with start := { e.start with trying := trial } }) with
        boot := { s.boot with runB := b } }
    | none => s.run (fun e => ((e.stepEnd 3 .s4).resetReleased).noImage)

/-- RB0 to RB3 hold the image just loaded, of which the spec states no byte: free values (R23, R388). -/
def Eng.loadImage (e : Eng) : Eng :=
  { e with lcp := { e.lcp with banks := (upTo 4).map e.undef } }.spend 4

/-- IMAGE_LOAD_DONE: S4 and S5 end (R388, R390, R473). -/
def State.imageLoaded (s : State) (i : ImageInfo) : State :=
  if s.eng.start.phase ≠ .s4 then s.run (fun e => e)
  else
    let b := s.boot.map2 (fun x => { x with version := i.version, secVersion := i.secVersion }) (fun x => x)
    if imageOk i then { s.run (fun e => ((e.stepEnd 4 .s4).stepEnd 5 .s6).loadImage) with boot := b }
    else if s.eng.start.trying then { s.run (fun e => e.trialFailed) with boot := b.failTrial }
    else { s.run (fun e => e.noImage) with boot := b }

/-- TRIAL_TIMEOUT: the trial slot has not reached S8 within the start-up bound (R390, R473). -/
def State.trialTimeout (s : State) : State :=
  match s.eng.start.phase with
  | .s4 | .s6 | .s7 | .stopped =>
    if s.eng.start.trying then { s.run (fun e => e.trialFailed) with boot := s.boot.failTrial } else s.run (fun e => e)
  | .held | .s1 | .s2 | .s3 | .x2 | .ready => s.run (fun e => e)

/-! ### Self-test (R476) -/

/-- A test that has failed, with a DETAIL of which the spec gives part: the rest is a free value below `n`. -/
def Eng.testFail (e : Eng) (bad : Bool) (src : Fin 64) (base n master : Nat) : Eng :=
  if bad then
    let (v, e) := e.fresh
    e.fail src (base + v % n) master
  else e

/-- A packet buffer bank that has failed: retired, or start-up stops. -/
def Eng.testBank (e : Eng) (b : Nat) : Eng :=
  let e := e.fail (fin 64 (b / 8)) (b + 32) mBuffer
  if e.bankGone b then e else let (stop, e) := e.bankOut b
    if stop then e.startStop else e

/-- A slot MAC that has failed. -/
def Eng.testSlot (e : Eng) (n : Nat) : Eng :=
  let p : PortId := fin 16 n
  let e := e.setSlot p { e.slot p with failed := true }
  e.fail (fin 64 (8 + n)) (e.portOf p).val (mSlot n)

/-- Results that stop start-up by themselves: all but the packet buffer's and the slots'. -/
def testStops (r : SelfTest) : Bool := r.retBanks != 0 || r.tcam != 0 || r.mems != 0 || r.vectors != 0

/-- The bits of a mask that are 1. -/
def bitList (n m : Nat) : List Nat := (upTo n).filter (bitAt m)

/-- SELF_TEST_DONE: S6 ends (R476). -/
def Eng.selfTested (e : Eng) (r : SelfTest) : Eng :=
  if e.start.phase ≠ .s6 then e
  else
    let e := { e.stepEnd 6 .s7 with start := { (e.stepEnd 6 .s7).start with tests := r } }
    let e := foldEng (bitList 32 r.pbBanks.toNat) (fun e b => e.testBank b) e
    let e := foldEng (bitList 28 r.retBanks.toNat) (fun e b => e.fail 4 b mNone) e
    let e := foldEng (bitList 4 r.tcam.toNat) (fun e k => e.testFail true 5 (16384 * k) 16384 mPipe) e
    let e := e.testFail (bitAt r.mems.toNat 0) 7 0 16384 mXlt
    let e := e.testFail (bitAt r.mems.toNat 1) 28 0 16 mDealer
    let e := e.testFail (bitAt r.mems.toNat 2) 29 0 32768 mPipe
    let e := e.testFail (bitAt r.mems.toNat 3) 32 0 64 mTime
    let e := foldEng (bitList 16 r.slots.toNat) (fun e n => e.testSlot n) e
    let e := if r.vectors = 0 then e else (e.testFail true 30 0 131072 mPipe).testFail true 31 0 256 mOff
    if testStops r then e.startStop else e

/-! ### READY -/

/-- S7 and S8 (R377, R473): READY rises, the first credits of SP_RCIRC are granted, and a wake from OFF ends. -/
def Eng.startDone (e : Eng) (credits : Nat) : Eng :=
  let e := ((e.stepEnd 7 .s7).stepEnd 8 .ready).releaseThreads
  let e := { e with
    ctl := { e.ctl with ready := true }
    lcp := { e.lcp with readyAt := e.now }
    start := { e.start with trial := if e.start.trying then 1 else e.start.trial, trying := false } }
  let ws := e.pwr.waiters
  let e := e.rcircTopUp.lateCages.modPwr (fun x => { x with state := .run, step := .none, waiters := [] })
  (e.pwrAnswerAll ws stOK 0).pwrNext credits

/-- START_READY (R390, R473). -/
def State.startReady (s : State) : State :=
  if s.eng.start.phase ≠ .s7 then s.run (fun e => e)
  else
    { s.run (fun e => e.startDone s.budget.credits) with
      boot := if s.eng.start.trying then s.boot.passTrial else s.boot }

/-! ### Commands of resets -/

/-- The drain of a GRACEFUL reset begins: every function is quenched (R42, R418, R477). -/
def Eng.graceful (e : Eng) : Eng :=
  let e := foldEng ((upTo 2047).map (fun n => fin 2048 (n + 1))) (fun e f => e.quenchTo f (e.fn f).quench true) e
  let e := e.drainBegin
  { e with start := { e.start with due := some .graceful } }

/-- ENG_RESET (R477). -/
def Eng.engReset (e : Eng) (f : Fn) : Eng :=
  e.mbxArgs f 0x0006 1 (fun _ c => [(32, decide (c.slot 0 < 2))]) (f0Only f) (fun e c =>
    if e.pair.state = .active then e.answer f stNotPermitted 0
    else
      let e := e.answer f stOK 0
      if c.slot 0 = 1 then e.engineReset .command else e.graceful)

/-- CAUSE of RESET_INFO_GET (R522). -/
def StartCause.code : StartCause → Nat
  | .powerOn => 0 | .wakeOff => 1 | .command => 2 | .fault _ => 3
/-- SOURCE of RESET_INFO_GET (R522). -/
def StartCause.source : StartCause → Nat
  | .powerOn => 0 | .wakeOff => 0 | .command => 0 | .fault s => s

/-- The slots of RESET_INFO_GET (R522). -/
def StartSt.info (x : StartSt) : List Nat :=
  [x.cause.code, x.cause.source, x.started] ++ x.ends ++
  [x.trial, x.tests.pbBanks.toNat, x.tests.retBanks.toNat, x.tests.tcam.toNat, x.tests.mems.toNat, x.tests.slots.toNat,
    x.tests.vectors.toNat]

/-- RESET_INFO_GET (R480, R522). -/
def Eng.resetInfo (e : Eng) (f : Fn) : Eng :=
  e.mbxArgs f 0x0007 0 (fun _ _ => []) (f0Only f) (fun e _ => e.respond f stOK 0 (slotBytes e.start.info))

/-! ### Clocks (R484, R539) -/

/-- REF_CLK_LOSS: the monitor is in PD_AON, which BLK_RST_N holds in reset. -/
def Eng.refClkLost (e : Eng) : Eng := if e.start.phase = .held then e else e.fail 41 0 mNone

/-- PLL_LOCK_LOSS: the root PLL has lost lock, or has failed to lock in S1 or W2 (R473, R539). -/
def Eng.pllLost (e : Eng) : Eng :=
  if e.pwr.pll ∨ e.start.phase = .s1 ∨ e.pwr.wakeStep = some .pll then e.fail 41 1 mNone else e

/-! ### Resets -/

/-- RESET_ASSERT (R484): the cycle budget in PD_AON is reset too. -/
def State.assertReset (s : State) : State := { s.run Eng.assertReset with budget := {} }

end Sys2Proof.Machine
end

