-- ==== Sys2Proof/Machine/RegRead.lean ====
section
/-! DEFINITION. RegRead.lean: what each register reads, by block of the windows (02_control.md R27 to R41,
11_time.md R314 to R335, 13_carry.md R374, 14_lcp.md R391, 15_faults.md R408 to R410, 16_power.md R432, 18_tally.md R470
to R472). Offsets are within the block; none is a reserved offset. -/
namespace Sys2Proof.Machine

/-! ### Function windows (R27, R30 to R39) -/

/-- MBX_STATUS (R46). -/
def Eng.mbxStatus (e : Eng) (f : Fn) : Nat :=
  let x := e.fn f
  pack [(b2n (e.ctl.ready && x.enabled), 1), (b2n x.cmd.isSome, 1), (b2n x.done, 1), (b2n x.progress, 1), (b2n x.overrun, 1),
    (b2n x.fwRestart, 1), (0, 2), (x.cls.toNat, 2), (0, 6), (x.lastTag.toNat, 16)]

/-- MBX_IRQ (R46). -/
def FnState.mbxIrq (x : FnState) : Nat :=
  pack [(x.irqVec.toNat, 12), (b2n x.irqDone, 1), (b2n x.irqProgress, 1), (b2n x.irqRestart, 1)]

/-- QCH_FUNC_STATUS (R38). -/
def Eng.funcStatus (e : Eng) (f : Fn) : Nat :=
  let x := e.fn f
  pack [(b2n x.quenched, 1), (b2n x.admin, 1), (b2n (e.txStopped f), 1), (b2n (e.rxStopped f), 1), (b2n x.enabled, 1)]

/-- A read of TSU_FT_LO: the time of the function's base, with the other word latched (R39). -/
def Eng.fastTime (e : Eng) (f : Fn) : Nat × Eng :=
  match (e.fn f).timeBase with
  | none => (0, e)
  | some n =>
    let t := e.tb n
    let hi := pack [(t.sec / 2 ^ 32, 32), (n.val, 2), (b2n t.degraded, 1)]
    (pack [(t.ns, 32), (t.sec, 32)], e.modFn f (fun x => { x with ftHi := BitVec.ofNat 64 hi }))

/-- A register of an enabled function's window. -/
def Eng.fnRead (e : Eng) (f : Fn) (o : Nat) : Option (Nat × Eng) :=
  let x := e.fn f
  if o < 0x8000 then some ((((e.txqOf f (o / 8)).bind e.txq).map (fun q => q.prod.toNat)).getD 0, e)
  else if o < 0x10000 then some ((((e.rxqOf f ((o - 0x8000) / 8)).bind e.rxq).map (fun q => q.prod.toNat)).getD 0, e)
  else if o < 0x11000 then some ((((e.eqOf f ((o - 0x10000) / 8)).bind e.eq_).map (fun q => q.head.toNat)).getD 0, e)
  else if o < 0x11100 then some (fld x.req.toNat (8 * (o - 0x11000)) 64, e)
  else if o < 0x11200 then some (fld x.rsp.toNat (8 * (o - 0x11100)) 64, e)
  else if o = 0x11200 then some (0, e)
  else if o = 0x11208 then some (e.mbxStatus f, e)
  else if o = 0x11210 then some (x.mbxIrq, e)
  else if o = 0x11400 then some (b2n x.quench, e)
  else if o = 0x11408 then some (e.funcStatus f, e)
  else if o = 0x12000 then some (e.fastTime f)
  else if o = 0x12008 then some (if x.timeBase.isSome then x.ftHi.toNat else 0, e)
  else none

/-- A register of a function's window: one that is not enabled reads zero but for MBX_STATUS and QCH_FUNC_STATUS (R30). -/
def Eng.windowRead (e : Eng) (f : Fn) (o : Nat) : Option (Nat × Eng) :=
  if (e.fn f).enabled ∨ o = 0x11208 ∨ o = 0x11408 then e.fnRead f o else some (0, e)

/-! ### ENG_ (R41, R537, R538) -/

/-- ENG_STATUS (R41). -/
def CtlSt.status (x : CtlSt) : Nat := pack [(b2n x.ready, 1), (b2n x.restarting, 1), (0, 6), (x.inflight.length, 7)]

/-- A register of the ENG_ block. -/
def Eng.engRead (e : Eng) (o : Nat) : Option Nat :=
  if o = 0 then some engId else if o = 8 then some engRev else if o = 0x10 then some e.ctl.status else none

/-! ### FLT_ (R408 to R410) -/

/-- FLT_SHADOW (R408). -/
def FltSt.shadowReg (x : FltSt) : Nat :=
  pack [(x.shadows.length, 6), (0, 2), (x.shadows.foldl (fun m s => max m s.reaction.code) 0, 3)]

/-- FLT_PB_WIN[i] (R408). -/
def FltSt.pbWin (x : FltSt) (i : Nat) : Nat :=
  pack ((upTo 4).map (fun j => (min 65535 (((x.bankWin.get none (4 * i + j)).map (·.count)).getD 0), 16)))

/-- The six FLT_FIRST_ registers (R408). -/
def Capture.regs (x : Capture) : List Nat :=
  [pack [(x.src, 6), (x.sev, 3), (x.cls, 2), (b2n x.lasting, 1), (b2n x.forced, 1), (x.reaction, 3), (b2n x.valid, 1)],
   x.addr, pack [(x.master, 16), (x.access, 3)], x.detail, x.ns, x.sec]

/-- FLT_SRC_CFG (R409). -/
def SrcCfg.reg (c : SrcCfg) : Nat :=
  pack ([(c.sevFail, 3)] ++ (upTo 5).map (fun i => ((nth c.react i .none).code, 3)) ++ [(b2n c.winEn, 1), (0, 13), (c.winN, 16)])

/-- FLT_SRC_STAT (R409). -/
def SrcStat.reg (x : SrcStat) : Nat :=
  pack [(x.count, 32), (x.highSev, 3), (0, 13), (min 65535 ((x.win.map (·.count)).getD 0), 16)]

/-- FLT_CONSEQ_LOG_A (R410). -/
def ConseqEntry.reg (x : ConseqEntry) : Nat :=
  pack [(x.src, 6), (x.cls, 2), (x.master, 16), (x.access, 3), (x.reaction, 3), (x.bySrc, 6), (x.detail, 28)]

/-- A register of the FLT_ block; `lo`: the access covers bits [31:0], where FLT_SRC_STAT's COUNT lies. -/
def Eng.fltRead (e : Eng) (o : Nat) (lo : Bool) : Option (Nat × Eng) :=
  let x := e.flt
  let v (n : Nat) : Option (Nat × Eng) := some (n, e)
  if o = 0x0000 then v (pack [(x.vector, 12), (b2n x.irqEn, 1), (b2n x.factory, 1)])
  else if o = 0x0008 then v x.status.toNat
  else if o = 0x0010 then v (b2n x.multi)
  else if o = 0x0018 then v x.lasting.toNat
  else if o = 0x0020 then v 0
  else if o = 0x0028 then v x.forceClass
  else if o = 0x0030 then v x.pbRetired.toNat
  else if o = 0x0038 then v x.shadowReg
  else if o = 0x0040 then v x.conseqStatus.toNat
  else if o = 0x0048 then some (x.conseqCount, e.modFlt (fun x => { x with conseqCount := 0 }))
  else if o = 0x0050 then v x.conseqPtr.val
  else if 0x0060 ≤ o ∧ o < 0x00A0 then v (x.pbWin ((o - 0x60) / 8))
  else if 0x0100 ≤ o ∧ o < 0x0130 then v (nth x.first.regs ((o - 0x100) / 8) 0)
  else if 0x1000 ≤ o ∧ o < 0x1000 + 0x20 * 50 then
    let s := (o - 0x1000) / 0x20
    let r := (o - 0x1000) % 0x20
    if r = 0 then v (e.srcCfg s).reg
    else if r = 8 then v (e.srcCfg s).winW
    else if r = 0x10 then some ((e.srcStat s).reg, if lo then e.modStat s (fun x => { x with count := 0 }) else e)
    else none
  else if 0x2000 ≤ o ∧ o < 0x2400 then
    let l := x.log.get {} ((o - 0x2000) / 0x10)
    if o % 0x10 = 0 then v l.reg else v l.time
  else none

/-! ### PWR_ (R432) -/

/-- A register of the PWR_ block. -/
def Eng.pwrRead (e : Eng) (b : Budget) (o : Nat) : Option Nat :=
  let x := e.pwr
  if o = 0x00 then some x.statusReg
  else if o = 0x08 then some (b.reg e.now)
  else if o = 0x10 then some x.wakeEn.toNat
  else if o = 0x18 then some (pack [(x.watchPort.val, 4), (0, 12), (x.periodMs, 16), (x.windowUs, 26)])
  else if o = 0x20 then some x.wakeAt
  else if o = 0x28 then some x.last.reg
  else if o = 0x30 then some x.last.time
  else if o = 0x38 then some x.retReg
  else if 0x100 ≤ o ∧ o < 0x100 + 8 * 28 then
    match x.sigs.get none ((o - 0x100) / 8) with
    | some s => some (s.toNat + 2 ^ 32)
    | none => some 0
  else none

/-! ### TSU_ (R314, R315, R323, R325, R326, R335) -/

/-- A register of a time base block (R315); LEFT is given in whole ns, towards zero. -/
def TimeBase.reg (t : TimeBase) (o : Nat) : Option Nat :=
  if o = 0x00 then some 0
  else if o = 0x08 then some (pack [(b2n t.degraded, 1), (b2n t.slewing, 1), (0, 14), (t.stepCount.toNat, 16)])
  else if o = 0x10 then some (pack [(t.snapNs, 32), (t.snapSub, 32)])
  else if o = 0x18 then some t.snapSec
  else if o = 0x20 then some t.setNs
  else if o = 0x28 then some t.setSec
  else if o = 0x30 then some (unsigned 64 t.offset)
  else if o = 0x38 then some (unsigned 32 t.freq)
  else if o = 0x40 then some (pack [(unsigned 32 t.amount, 32), (t.ppm, 10)])
  else if o = 0x48 then some (unsigned 32 (t.left.tdiv 4294967296))
  else none

/-- A register of a pulse output's block (R323). -/
def Ppo.reg (x : Ppo) (o : Nat) : Option Nat :=
  if o = 0x00 then
    some (pack [(x.mode, 2), (x.tb.val, 2), (b2n x.polarity, 1), (0, 3), (b2n x.missed, 1), (b2n x.active, 1)])
  else if o = 0x08 then some x.startNs
  else if o = 0x10 then some x.startSec
  else if o = 0x18 then some x.period
  else if o = 0x20 then some x.width
  else none

/-- A register of a capture input's block (R325). -/
def Eng.capReg (e : Eng) (k : Fin 8) (o : Nat) : Option (Nat × Eng) :=
  let x := e.cap k
  if o = 0x00 then some (pack [(b2n x.rise, 1), (b2n x.fall, 1), (x.tb.val, 2), (b2n x.eventEn, 1)], e)
  else if o = 0x08 then some (e.capRead k)
  else if o = 0x10 then some (x.hi, e)
  else if o = 0x18 then some (x.drops, e.setCap k { x with drops := 0 })
  else none

/-- A register of the 1PPS block (R326). -/
def Eng.ppsReg (e : Eng) (o : Nat) : Option (Nat × Eng) :=
  if o = 0 then some (pack [(b2n e.time.ppsEn, 1), (b2n e.time.ppsEvent, 1), (0, 30), (e.time.ppsCount.toNat, 16)], e)
  else if 8 ≤ o ∧ o < 0x48 then
    let n : TbId := fin 4 ((o - 8) / 16)
    if o % 16 = 8 then some (e.ppsRead n) else some (e.time.ppsHi.get 0 n.val, e)
  else none

/-- A register of a port's time-stamping block (R335): zero for a slot that is not its port's lowest. -/
def Eng.tsqReg (e : Eng) (p : PortId) (o : Nat) : Option (Nat × Eng) :=
  let x := e.port p
  let q := e.time.tsq.get {} p.val
  let put (e : Eng) (q : TsQueue) : Eng := { e with time := { e.time with tsq := e.time.tsq.put {} p.val q } }
  if 0x20 ≤ o then none
  else if !e.isPort p then some (0, e)
  else if o = 0x00 then some (pack [(unsigned 16 x.adjIn, 16), (unsigned 16 x.adjOut, 16)], e)
  else if o = 0x08 then some (q.ents.length, e)
  else if o = 0x10 then some (q.ovf, put e { q with ovf := 0 })
  else some (q.exp, put e { q with exp := 0 })

/-- A register of the TSU_ block. -/
def Eng.tsuRead (e : Eng) (o : Nat) : Option (Nat × Eng) :=
  if o < 0x400 then ((e.tb (fin 4 (o / 0x100))).reg (o % 0x100)).map (fun v => (v, e))
  else if 0x1000 ≤ o ∧ o < 0x1200 then ((e.ppo (fin 8 ((o - 0x1000) / 0x40))).reg (o % 0x40)).map (fun v => (v, e))
  else if 0x2000 ≤ o ∧ o < 0x2200 then e.capReg (fin 8 ((o - 0x2000) / 0x40)) (o % 0x40)
  else if 0x2200 ≤ o ∧ o < 0x2300 then e.ppsReg (o - 0x2200)
  else if 0x3000 ≤ o ∧ o < 0x3400 then e.tsqReg (fin 16 ((o - 0x3000) / 0x40)) (o % 0x40)
  else none

/-! ### TLY_ (R470 to R472) -/

/-- TLY_CFG (R471). -/
def TCnt.cfgReg (c : TCnt) : Nat :=
  pack [(c.event, 12), (b2n c.enable, 1), (b2n c.chain, 1), (b2n c.ovfIrq, 1), (0, 1), (c.dir, 2), (c.origin, 2), (0, 4),
    (c.tcMask.toNat, 8), (c.portMask.toNat, 16)]

/-- TLY_FUNC (R471). -/
def TCnt.fnReg (c : TCnt) : Nat :=
  pack [(c.funcLo, 11), (0, 5), (c.funcHi, 11), (0, 4), (b2n c.funcEn, 1), (b2n c.addrEn, 1)]

/-- A register of a counter (R471). -/
def TCnt.reg (c : TCnt) (o : Nat) : Option Nat :=
  if o = 0x00 then some c.value.toNat
  else if o = 0x08 then some c.shadow.toNat
  else if o = 0x10 then some c.cfgReg
  else if o = 0x18 then some c.fnReg
  else if o = 0x20 then some c.addrLo
  else if o = 0x28 then some c.addrHi
  else none

/-- A slot accounting register (R466, R472). -/
def Eng.slotReg (e : Eng) (p : PortId) (o : Nat) : Option Nat :=
  let c := o % 0x40 / 8
  if 5 ≤ c then none
  else if !e.isPort p then some 0
  else
    let a := e.tally.slots.get {} (2 * p.val + (if o % 0x80 < 0x40 then 0 else 1))
    some (nth (if o < 0x80 then a.times else a.shadows) c 0)

/-- A register of the bandwidth windows (R472). -/
def Eng.bwReg (e : Eng) (o : Nat) : Option (Nat × Eng) :=
  let t := e.tally
  if o = 0x00 then some (pack [(b2n t.bwEn, 1), (0, 15), (t.bwMask.toNat, 16), (t.bwWindow, 20)], e)
  else if o = 0x08 then some (t.bwBase, e)
  else if o = 0x10 then some (pack [(t.bwFn.val, 11), (0, 5), (t.bwPasid, 20), (t.bwSize, 5)], e)
  else if o = 0x18 then some (t.bwDrops, { e with tally := { t with bwDrops := 0 } })
  else if o = 0x20 then some (t.bwSeq.toNat, e)
  else none

/-- A register of the TLY_ block. -/
def Eng.tlyRead (e : Eng) (o : Nat) : Option (Nat × Eng) :=
  let t := e.tally
  if o = 0x00 then some (pack [(b2n t.freeze, 1), (0, 3), (b2n t.ovfIrqEn, 1), (t.freezeSev, 3), (t.vector, 12)], e)
  else if o = 0x08 then
    some (pack [(b2n t.freeze, 1), (b2n t.byFault, 1), (t.faultSrc, 6), (0, 8), (t.snapCount.toNat, 32)], e)
  else if o = 0x10 then some (t.snapTime, e)
  else if o = 0x18 then some (t.freezeTime, e)
  else if 0x20 ≤ o ∧ o < 0x40 then some (fld t.ovf.toNat (64 * ((o - 0x20) / 8)) 64, e)
  else if 0x1000 ≤ o ∧ o < 0x5000 then ((e.tcnt ((o - 0x1000) / 0x40)).reg (o % 0x40)).map (fun v => (v, e))
  else if 0x8000 ≤ o ∧ o < 0x9000 then (e.slotReg (fin 16 ((o - 0x8000) / 0x100)) (o % 0x100)).map (fun v => (v, e))
  else if 0x9000 ≤ o then e.bwReg (o - 0x9000)
  else none

/-! ### CRY_ (R374) -/

/-- CRY_GLOBAL (R374). -/
def CarrySt.globalReg (x : CarrySt) : Nat :=
  pack [(b2n x.stopped, 1), (b2n x.autoResume, 1), (0, 14), (x.stopCount.toNat, 16)]

/-- A register of a channel (R374). -/
def Eng.chanReg (e : Eng) (c : ChId) (o : Nat) : Option Nat :=
  let x := e.chan c
  if o = 0x00 then some (pack [(b2n x.enable, 1), (0, 1), (b2n x.fence, 1), (b2n x.doneIrq, 1), (b2n x.errIrq, 1), (0, 1), (x.prio, 2)])
  else if o = 0x08 then
    some (pack [(x.state.code, 3), (b2n x.lateErr, 1), (b2n x.done, 1), (0, 3), (x.result, 8), (x.curReq, 16), (x.owner.val, 11),
      (b2n x.claimed, 1)])
  else if o = 0x10 then some x.list
  else if o = 0x18 then some (pack [(x.srcPasid, 20), (0, 12), (x.dstPasid, 20)])
  else if o = 0x20 then some x.reqId
  else if o = 0x28 then some x.compl
  else if o = 0x30 then some (pack [(x.doneVec.getD 0, 12), (0, 4), (x.errVec.getD 0, 12)])
  else if o = 0x38 then some (e.chanElem c)
  else if o = 0x40 then some (e.chanDone c)
  else if o = 0x48 then some x.errAddr
  else if o = 0x50 then some x.lateAddr
  else if o = 0x58 then some x.lateReq
  else none

/-- A register of the CRY_ block. -/
def Eng.cryRead (e : Eng) (o : Nat) : Option Nat :=
  if o = 0x800 then some e.carry.globalReg else e.chanReg (fin 64 (o / 0x1000)) (o % 0x1000)

/-! ### DBG_ (R391) -/

/-- A register of the DBG_ block; `slotB`: the image running is slot B's. -/
def Eng.dbgRead (e : Eng) (slotB : Bool) (o : Nat) : Option Nat :=
  let x := e.lcp
  if o = 0x00 then some (b2n x.enable)
  else if o = 0x08 then
    some (pack [(x.lastCause, 3), (b2n slotB, 1), (0, 4), (x.restarts.toNat, 8), (x.threadRestarts.toNat, 16)])
  else if o = 0x10 then some x.lastRestart
  else if 0x100 ≤ o ∧ o < 0x300 then
    if o % 0x40 = 0 then some (e.threadStatus (fin 8 ((o - 0x100) / 0x40))) else if o % 0x40 = 8 then some 0 else none
  else if 0x1000 ≤ o ∧ o < 0x1200 then
    if o % 0x10 = 0 then some (e.chnStatus (fin 32 ((o - 0x1000) / 0x10))) else none
  else none

/-! ### The engine window (R40) -/

/-- A register of the engine window, by its offset in the window. -/
def Eng.engineRead (e : Eng) (slotB : Bool) (b : Budget) (o : Nat) (lo : Bool) : Option (Nat × Eng) :=
  let v (n : Option Nat) : Option (Nat × Eng) := n.map (fun n => (n, e))
  if o < 0x1000 then v (e.engRead o)
  else if 0x10000 ≤ o ∧ o < 0x20000 then e.fltRead (o - 0x10000) lo
  else if 0x20000 ≤ o ∧ o < 0x30000 then v (e.pwrRead b (o - 0x20000))
  else if 0x40000 ≤ o ∧ o < 0x80000 then e.tsuRead (o - 0x40000)
  else if 0x80000 ≤ o ∧ o < 0x100000 then e.tlyRead (o - 0x80000)
  else if 0x100000 ≤ o ∧ o < 0x104000 then
    if o = 0x100000 then none else some (b2n (e.fn (fin 2048 ((o - 0x100000) / 8))).admin, e)
  else if 0x140000 ≤ o ∧ o < 0x180000 then v (e.cryRead (o - 0x140000))
  else if 0x200000 ≤ o then v (e.dbgRead slotB (o - 0x200000))
  else none

end Sys2Proof.Machine
end

