-- ==== Sys2Proof/Machine/MbxOps.lean ====
section
/-! DEFINITION. MbxOps.lean: the mailbox itself, and the general and fault groups' commands that read (02_control.md R43
to R60, 21_twizu_reference.md R520, R521, R532, R536). -/
namespace Sys2Proof.Machine

/-! ### GO (R46 to R49, R54) -/

/-- Commands of F1 to F2047 in flight. -/
def Eng.sharedPlaces (e : Eng) : Nat := (e.ctl.inflight.filter (fun g => decide (g ≠ 0))).length

/-- OVERRUN of a function's MBX_STATUS, and source 34 while BUSY is 1 (R47). -/
def Eng.overrun (e : Eng) (f : Fn) (off : Nat) : Eng :=
  let busy := (e.fn f).cmd.isSome
  let e := e.modFn f (fun x => { x with overrun := true })
  if busy then e.badMailbox f off else e

/-- The accepted producer indices of a function's transmit queues. -/
def Eng.prodsOf (e : Eng) (f : Fn) : List (TxqId × BitVec 16) :=
  (e.txqList.filter (fun r => decide (r.2.fn = f))).map (fun r => (r.1, r.2.prod))

/-- The request of MBX_REQ becomes function `f`'s command in flight, on a thread the spec does not state. A GO whose opcode
is no command of the set has no class, and what CLASS then shows is not stated (R46, R50): it keeps its value (log entry 30,
DESIGN CHOICE). -/
def Eng.mbxAdmit (e : Eng) (f : Fn) : Eng :=
  let (t, e) := e.fresh
  let c := reqCmd (e.fn f).req.toNat e.now
  let e := e.modFn f (fun x => { x with
    cmd := some { c with thread := some (fin 8 t), prods := if c.opcode = 0x0206 then e.prodsOf f else [] }
    cls := match opClass c.opcode with
      | some k => BitVec.ofNat 2 k
      | none => x.cls })
  { e with ctl := { e.ctl with inflight := e.ctl.inflight ++ [f] } }

/-- The first checks of an admitted request, and the read of an indirect request buffer (R43, R45, R54, R510). -/
def Eng.takeUp (e : Eng) (f : Fn) : Eng :=
  match (e.fn f).cmd with
  | none => e
  | some c =>
    if e.standby ∧ standbyServes f c.opcode = false then e.answer f stNotPermitted 0
    else if (opClass c.opcode).isNone then e.answer f stUnsupported 0
    else match headerFault (e.fn f).req.toNat with
      | some d => e.invalid f d
      | none =>
        if c.indReq then
          let (g, e) := e.newGrp
          (e.modFn f (fun x => { x with cmd := some { c with st := .fetching } })).readRange (.mbxReq f) f 0 g c.reqAddr c.reqLen 0
        else e

/-- MBX_GO: a write of 1 to MBX_DOORBELL.GO of an enabled function. One refused for want of a place is answered with BUSY
before its request is read (R54); that its response still carries the request's OPCODE and TAG, and that CLASS follows its
opcode, is the model's choice (log entry 30, DESIGN CHOICE). -/
def Eng.mbxGo (e : Eng) (f : Fn) : Eng :=
  if (e.fn f).cmd.isSome ∨ e.ctl.ready = false then e.overrun f 0x11200
  else if f ≠ 0 ∧ 63 ≤ e.sharedPlaces then ((e.mbxAdmit f).tal { code := 0x702, fn := some f }).answer f stBusy 0
  else ((e.mbxAdmit f).tal { code := 0x701, fn := some f }).takeUp f

/-! ### Time limits and progress (R51, R52, R387, R536) -/

/-- Requests of POWER_SET that a transition still has to answer are dropped. -/
def PwrSt.dropSet (x : PwrSt) : PwrSt :=
  { x with
    waiters := x.waiters.filter (fun s => decide (s ≠ .powerSet)), runWaiters := x.runWaiters.filter (fun s => decide (s ≠ .powerSet))
    pend := x.pend.filter (fun r => decide (r.2 ≠ .powerSet)) }

/-- A POWER_SET is taken back at its limit (R52): an entry that no other request asks for is rolled back at its next abort
point (log entry 30, DEDUCED). -/
def PwrSt.takeBack (x : PwrSt) : PwrSt :=
  let y := x.dropSet
  match x.step with
  | .e1 | .e2 | .e3 | .e4 => if x.waiters = [.powerSet] then { y with abort := some (y.abort.getD { cause := 3 }) } else y
  | .none | .e5 | .waking => y

/-- A handover that PAIR_SWITCHOVER began is given up at its limit (R52): frame starts and grants go on. One whose lease
write is sent stands or falls with the write (log entry 30, DEDUCED). -/
def Eng.handoverQuit (e : Eng) : Eng :=
  if e.pair.handover = some false ∧ e.pair.state = .active ∧ e.pair.op.isNone then
    (e.modPair (fun x => { x with handover := none })).fetchAll
  else e

/-- Function `f`'s command `c` ends with a status, and every field it changed is put back (R52, R380). A queue's stop, a
steering swap and a wake have no way back, and stand (log entry 30, DEDUCED). -/
def Eng.cmdLapse (e : Eng) (f : Fn) (c : Cmd) (st : Nat) : Eng :=
  let e := match c.undo with
    | some u => e.undo u
    | none => e
  if c.st = .working ∧ c.opcode = 0x0802 then e.formFail st 0
  else
    let e := if c.opcode = 0x0601 then e.modPwr PwrSt.takeBack
      else if c.opcode = 0x0804 ∧ c.st = .working then e.handoverQuit
      else if c.opcode = 0x0805 ∧ c.st = .working then
        e.modPair (fun x => { x with resync := false, formStep := 0, changes := [], unacked := [], buffered := [] })
      else e
    e.cmdEnd f st 0

/-- COMMAND_TIMEOUT: function `f`'s command reaches its class limit. One that waits on a fault of an indirect buffer is
FAULTED (R45); a queue's stop and a steering swap go on as PENDING (R188, R234); another ends with TIMEOUT, or with
BUSY_DEBUG where a halted thread holds its path. -/
def Eng.cmdTimeout (e : Eng) (f : Fn) : Eng :=
  match (e.fn f).cmd with
  | none => e
  | some c =>
    if e.ctl.ready = false then e
    else if (e.waitOf (.mbx f)).isSome then e.mbxFault f
    else
      let st := if e.heldByDebug f then stBusyDebug else stTimeout
      if c.st = .working ∧ st = stTimeout ∧ c.opcode = 0x0304 then e.swapAnswer stPending
      else if c.st = .working ∧ st = stTimeout ∧ c.opcode = 0x0206 then e.answer f stPending 0
      else e.cmdLapse f c st

/-- THREAD_RESTART: T0 restarts a faulted thread, whose commands end with TIMEOUT and are taken back (R380), or releases one
held in RESET (R377). -/
def Eng.threadRestart (e : Eng) (t : ThreadId) : Eng :=
  let y := e.thread t
  if t = 0 ∨ e.pwr.ctlOn = false then e
  else match y.state with
    | .faulted =>
      let e := (e.dropPart t).setThread t { state := .running }
      let e := { e with lcp := { e.lcp with threadRestarts := e.lcp.threadRestarts + 1
                                            notices := e.lcp.notices.filter (fun u => !decide (u = t)) } }
      foldEng e.ctl.inflight (fun e f => match (e.fn f).cmd with
        | some c => if c.thread = some t then e.cmdLapse f c stTimeout else e
        | none => e) e
    | .reset => e.setThread t { state := .running }
    | .running | .waitChannel | .waitEvent | .haltedDebug => e

/-- PROGRESS_REPORT of a LONG command, with the work done of the part it measures (R51, R536). The parts of FW_UPDATE
that no measure is stated for are free values within their bounds. -/
def Eng.progress (e : Eng) (f : Fn) (done total : Nat) : Eng :=
  match (e.fn f).cmd with
  | none => e
  | some c =>
    let share (n : Nat) : Nat := if total = 0 then 0 else min n (n * done / total)
    if e.ctl.ready = false ∨ (c.st ≠ .working ∧ c.st ≠ .ready) then e
    else if c.opcode = 0x0601 then
      let s := e.pwr.step.code
      e.progressMbx f (if s = 6 then 0 else 200 * (s - 1)) s
    else if c.opcode = 0x0802 then
      let s := e.pair.formStep
      e.progressMbx f (100 * (s - 1) + (if s = 5 then share 400 else if 5 < s then 400 else 0)) s
    else if c.opcode = 0x0B02 then
      if 0 < done ∧ done < total then e.progressMbx f (100 + share 800) 2
      else
        let (v, e) := e.fresh
        if done = 0 then e.progressMbx f (v % 101) 1 else e.progressMbx f (900 + v % 101) 3
    else e

/-! ### CONFIG_GET (R516, R520) -/

/-- Opcodes of the SET commands of R516. -/
def setOps : List Nat :=
  [0x0001, 0x0102, 0x0105, 0x010B, 0x010C, 0x010E, 0x0201, 0x0202, 0x0203, 0x0204, 0x020C, 0x020D, 0x020E, 0x0301, 0x0306,
   0x030B, 0x030C, 0x0401, 0x0403, 0x0405, 0x0801, 0x0A01]

/-- Present values of a local object's fields. -/
def Eng.ownCfg (e : Eng) (o : Option FObj) : Option (List (List Nat)) := o.map e.objCfg

/-- Present values of the fields of a SET command's OBJECT for function `f`, none where the OBJECT is none of its. -/
def Eng.configOf (e : Eng) (f : Fn) (op v : Nat) : Option (List (List Nat)) :=
  let eng (l : List (List Nat)) : Option (List (List Nat)) := if v = objEngine then some l else none
  let fnr (l : FnState → List (List Nat)) : Option (List (List Nat)) := if v < 2048 then some (l (e.fn (fin 2048 v))) else none
  let port (l : Port → List (List Nat)) : Option (List (List Nat)) := if e.portArg v then some (l (e.port (fin 16 v))) else none
  if op = 0x0001 then fnr FnState.cfg
  else if op = 0x0102 then port Port.cfg
  else if op = 0x0105 then if v < 16 then some [[(e.cage (fin 16 v)).speed]] else none
  else if op = 0x010B then port (fun x => x.fcCfg e.start.oversub)
  else if op = 0x010C then eng [[e.start.kittySize], [b2n e.start.oversub]]
  else if op = 0x010E then if v = objEngine ∨ e.portArg v then some (e.trailerCfg v) else none
  else if op = 0x0201 then e.ownCfg ((e.txqOf f v).map FObj.txq)
  else if op = 0x0202 then e.ownCfg ((e.rxqOf f v).map FObj.rxq)
  else if op = 0x0203 then e.ownCfg ((e.eqOf f v).map FObj.eq)
  else if op = 0x0204 then e.ownCfg (e.objOf f v)
  else if op = 0x020C then fnr (fun x => [[b2n (!x.translated)]])
  else if op = 0x020D then eng [[e.dma.parkSize], [e.dma.parkRing], [e.dma.faultTimeout]]
  else if op = 0x020E then if 1 ≤ v ∧ v < 256 then some (e.profile v).cfg else none
  else if op = 0x0301 then port (fun x => [[x.malAction], [excSlot x.excRing]])
  else if op = 0x0306 then
    eng [[e.steer.rcircLimit], keySlots e.steer.streamKey, [b2n e.steer.streamIp4t], [b2n e.steer.streamInner]]
  else if op = 0x030B then
    if v < 4096 then (let x := e.policer (fin 4096 v); some [[x.rate], [x.burst], [unsigned 64 x.lenAdj]]) else none
  else if op = 0x030C then
    if e.wakeObj v then
      let x := e.steer.wakePats.get {} (wakeIdx v)
      some [[b2n x.enable], (upTo 4).map (fun k => fld x.mask (64 * k) 64), [x.check]]
    else none
  else if op = 0x0401 ∨ op = 0x0403 then (e.dealerObj f v).map e.dealerCfg
  else if op = 0x0405 then eng e.dealer.samplerCfg
  else if op = 0x0801 then eng e.pair.cfg
  else if op = 0x0A01 then fnr (fun x => [[x.chQuota]])
  else none

/-- Function `f` may issue the SET command named, or asks for its own FUNC_CONFIG (R520). -/
def configMay (f : Fn) (op v : Nat) : Bool :=
  decide (f = 0) || decide (0x0201 ≤ op ∧ op ≤ 0x0204) || (op == 0x0403 && decide (v < 65536)) || (op == 0x0001 && v == f.val)

/-- CONFIG_GET (R520): the fields in effect. -/
def Eng.configGet (e : Eng) (f : Fn) : Eng :=
  e.mbxArgs f 0x0003 2
    (fun e c => [(32, setOps.contains (c.slot 0)), (40, (e.configOf f (c.slot 0) (c.slot 1)).isSome)])
    (fun _ c => configMay f (c.slot 0) (c.slot 1))
    (fun e c =>
      let bs := setBytes (c.slot 1) ((e.configOf f (c.slot 0) (c.slot 1)).getD [])
      if c.fits bs.length then e.respond f stOK 0 bs else e.invalid f 4)

/-! ### The reject log, COMMIT and FAULT_INFO_GET -/

/-- An entry of the reject log in 32 bytes (R521). -/
def RejectEntry.bytes (x : RejectEntry) : List Byte :=
  bytesLE 8 x.time ++ bytesLE 2 x.fn.val ++ zeros 2 ++ bytesLE 4 (x.what % 2 ^ 31 + 2 ^ 31 * b2n x.isReg) ++ bytesLE 2 x.field ++
  bytesLE 1 x.status ++ zeros 13

/-- REJECT_LOG_GET (R60, R520): 7 entries inline, 64 in an indirect response buffer that holds them. -/
def Eng.rejectLogGet (e : Eng) (f : Fn) : Eng :=
  e.mbxArgs f 0x0004 0 (fun _ _ => []) (f0Only f) (fun e c =>
    let bs := (e.ctl.rejects.take (if c.indRsp then 64 else 7)).flatMap RejectEntry.bytes
    if c.fits bs.length then e.respond f stOK 0 bs else e.invalid f 4)

/-- COMMIT: no field of revision B0 has it as its boundary (R520). -/
def Eng.commitCmd (e : Eng) (f : Fn) : Eng := e.mbxArgs f 0x0005 0 (fun _ _ => []) (f0Only f) (fun e _ => e.answer f stOK 0)

/-- FAULT_INFO_GET: all registers at one edge (R532). -/
def Eng.faultInfoGet (e : Eng) (f : Fn) : Eng :=
  e.mbxArgs f 0x0701 0 (fun _ _ => []) (f0Only f) (fun e _ =>
    let x := e.flt
    e.respond f stOK 0 (slotBytes ([x.status.toNat, b2n x.multi, x.lasting.toNat, x.pbRetired.toNat, x.shadowReg,
      x.conseqStatus.toNat] ++ x.first.regs)))

end Sys2Proof.Machine
end

