-- ==== Sys2Proof/Machine/RegOps.lean ====
section
/-! DEFINITION. RegOps.lean: accesses on CSR_T: sizes and alignment, gated domains, what a write to each register does
(02_control.md R27 to R47, 16_power.md R422, R424, 19_startup.md R475, 20_edge_signals.md R499, R507), and the blocks' write
rules (R315, R323, R325, R326, R335, R374, R391, R408, R409, R432, R470 to R472). -/
namespace Sys2Proof.Machine

/-! ### One access (R28) -/

/-- The access is of 32 or 64 bits, aligned (R28). -/
def csrOk (a : Csr) : Bool :=
  (a.size == 4 && decide (a.off.toNat % 4 = 0)) || (a.size == 8 && decide (a.off.toNat % 8 = 0))

/-- Offset of the register accessed. -/
def csrReg (a : Csr) : Nat := a.off.toNat / 8 * 8

/-- The access is of the upper half of a register alone. -/
def csrHigh (a : Csr) : Bool := a.size == 4 && decide (a.off.toNat % 8 = 4)

/-- Bits of the register that the access covers. -/
def csrMask (a : Csr) : BitVec 64 :=
  if a.size = 8 then 0xFFFFFFFFFFFFFFFF else if csrHigh a then 0xFFFFFFFF00000000 else 0xFFFFFFFF

/-- The value written, in its place in the register and zero elsewhere. -/
def csrVal (a : Csr) : BitVec 64 := (if csrHigh a then a.data <<< 32 else a.data) &&& csrMask a

/-- The register's value as the access returns it. -/
def csrPart (a : Csr) (v : Nat) : Word :=
  BitVec.ofNat 64 (if a.size = 8 then v else if csrHigh a then v / 2 ^ 32 % 2 ^ 32 else v % 2 ^ 32)

/-- A register's present value with the bits of a write in place of those it covers (R28). -/
def mix (cur : Nat) (w m : BitVec 64) : Nat := ((BitVec.ofNat 64 cur &&& ~~~m) ||| w).toNat

/-- A change of LOCKED fields by register, by their lowest bits: logged, and source 35 (R59, R60). -/
def Eng.lockedReg (e : Eng) (off : Nat) (bits : List Nat) : Eng :=
  if bits = [] then e else (foldEng bits (fun e b => e.reject 0 off true b) e).badAccess 0 off

/-! ### FLT_ (R408, R409) -/

/-- The reaction of a code, none for a code without meaning (R400). -/
def Reaction.ofCode : Nat → Option Reaction
  | 0 => some .none | 1 => some .interrupt | 2 => some .portDown | 3 => some .quiesce | 4 => some .engineReset
  | 5 => some .failover | _ => Option.none

/-- The reaction of a code that source `s` may have (R400). -/
def reactFor (s c : Nat) : Option Reaction :=
  if c = 2 ∧ portCtx s = false then none else if c = 3 ∧ fnCtx s = false then none else Reaction.ofCode c

/-- A write of FLT_SRC_CFG, FLT_SRC_WIN or FLT_SRC_STAT of source `s` (R400, R409, R410). -/
def Eng.srcWrite (e : Eng) (s r off : Nat) (w m : BitVec 64) : Eng :=
  let c := e.srcCfg s
  let set (c : SrcCfg) : Eng := e.modFlt (fun x => { x with cfg := x.cfg.put (SrcCfg.reset s) s c })
  if r = 0 then
    let v := mix c.reg w m
    let rs := (upTo 5).filterMap (fun i => reactFor s (fld v (3 + 3 * i) 3))
    if fld v 0 3 < 2 ∨ 4 < fld v 0 3 ∨ rs.length ≠ 5 then e.badAccess 0 off
    else set { c with sevFail := fld v 0 3, react := rs, winEn := bitAt v 18, winN := fld v 32 16 }
  else if r = 8 then
    let v := fld (mix c.winW w m) 0 26
    if v = 0 ∨ 60000000 < v then e.badAccess 0 off else set { c with winW := v }
  else if r = 0x10 then e
  else e.badAccess 0 off

/-- A write in the FLT_ block. -/
def Eng.fltWrite (e : Eng) (o : Nat) (w m : BitVec 64) : Eng :=
  let x := e.flt
  let off := 0x10000 + o
  if o = 0x0000 then
    let v := mix (pack [(x.vector, 12), (b2n x.irqEn, 1)]) w m
    e.modFlt (fun x => { x with vector := fld v 0 12, irqEn := bitAt v 12 })
  else if o = 0x0008 then e.clearStatus (BitVec.ofNat 50 w.toNat)
  else if o = 0x0010 then e.modFlt (fun x => { x with multi := x.multi && !bitAt w.toNat 0 })
  else if o = 0x0018 then e.modFlt (fun x => { x with lasting := x.lasting &&& ~~~BitVec.ofNat 50 w.toNat })
  else if o = 0x0020 then e.faultForce w.toNat
  else if o = 0x0028 then e.modFlt (fun x => { x with forceClass := fld (mix x.forceClass w m) 0 2 })
  else if o = 0x0040 then e.modFlt (fun x => { x with conseqStatus := x.conseqStatus &&& ~~~BitVec.ofNat 50 w.toNat })
  else if o = 0x0100 then if bitAt w.toNat 16 then e.firstRelease else e
  else if 0x1000 ≤ o ∧ o < 0x1000 + 0x20 * 50 then e.srcWrite ((o - 0x1000) / 0x20) ((o - 0x1000) % 0x20) off w m
  else if (e.fltRead o false).isSome then e
  else e.badAccess 0 off

/-! ### PWR_ (R432) -/

/-- A write in the PWR_ block. -/
def Eng.pwrWrite (e : Eng) (b : Budget) (o : Nat) (w m : BitVec 64) : Eng :=
  let cur := (e.pwrRead b o).getD 0
  if o = 0x10 then e.modPwr (fun x => { x with wakeEn := BitVec.ofNat 6 (mix cur w m) })
  else if o = 0x18 then
    let v := mix cur w m
    let period := fld v 16 16
    let window := fld v 32 26
    if period = 0 ∨ 60000 < period ∨ window < 100 ∨ period * 1000 < window then e.badAccess 0 (0x20000 + o)
    else e.modPwr (fun x => { x with watchPort := fin 16 (fld v 0 4), periodMs := period, windowUs := window })
  else if o = 0x20 then e.modPwr (fun x => { x with wakeAt := mix cur w m })
  else if (e.pwrRead b o).isSome then e
  else e.badAccess 0 (0x20000 + o)

/-! ### TSU_ (R315, R323, R325, R326, R335) -/

/-- A write in a time base's block (R315, R438). -/
def Eng.tbWrite (e : Eng) (n : TbId) (o : Nat) (w m : BitVec 64) : Eng :=
  let t := e.tb n
  let off := tbOff n + o
  let v := mix ((t.reg o).getD 0) w m
  let small (k : Nat) (lim : Int) : Bool := decide (-lim ≤ signed 32 k ∧ signed 32 k ≤ lim)
  if o = 0x00 then
    if e.standby ∧ (bitAt w.toNat 1 ∨ bitAt w.toNat 2 ∨ bitAt w.toNat 3) then (e.tbCtrl n (w &&& 0b10001).toNat).badAccess 0 off
    else e.tbCtrl n w.toNat
  else if o = 0x08 then if bitAt w.toNat 0 then e.modTb n (fun t => { t with degraded := false }) else e
  else if o = 0x20 then if 1000000000 ≤ fld v 0 32 then e.badAccess 0 off else e.modTb n (fun t => { t with setNs := fld v 0 32 })
  else if o = 0x28 then e.modTb n (fun t => { t with setSec := v })
  else if o = 0x30 then e.modTb n (fun t => { t with offset := signed 64 v })
  else if o = 0x38 then
    if e.standby ∨ small v 10995116 = false then e.badAccess 0 off else e.modTb n (fun t => { t with freq := signed 32 v })
  else if o = 0x40 then
    let p := fld v 32 10
    if e.standby ∨ small v 999999999 = false ∨ p = 0 ∨ 1000 < p then e.badAccess 0 off
    else e.modTb n (fun t => { t with amount := signed 32 v, ppm := p })
  else if (t.reg o).isSome then e
  else e.badAccess 0 off

/-- A write of TSU_PPO_CTRL (R323, R324): MISSED, then the LOCKED fields, then MODE where it changes. A write that changes
a LOCKED field of an output that runs is ignored whole (R59). -/
def Eng.ppoCtrl (e : Eng) (k : Fin 8) (w m : BitVec 64) : Eng :=
  let x := e.ppo k
  let v := mix ((x.reg 0).getD 0) w m
  let x := if bitAt w.toNat 8 then { x with missed := false } else x
  let tb : TbId := fin 4 (fld v 2 2)
  let pol := bitAt v 4
  let bad := (if x.tb = tb then [] else [2]) ++ (if x.polarity = pol then [] else [4])
  if x.mode ≠ 0 ∧ bad ≠ [] then e.lockedReg (ppoOff k) bad
  else
    let e := e.setPpo k { x with tb := tb, polarity := pol }
    if fld v 0 2 = x.mode then e else e.ppoMode k (fld v 0 2)

/-- A write in a pulse output's block (R323). -/
def Eng.ppoWrite (e : Eng) (k : Fin 8) (o : Nat) (w m : BitVec 64) : Eng :=
  let x := e.ppo k
  let off := ppoOff k + o
  let v := mix ((x.reg o).getD 0) w m
  let put (now new : Nat) (y : Ppo) : Eng :=
    if now = new then e else if x.mode = 0 then e.setPpo k y else e.lockedReg off [0]
  if o = 0x00 then e.ppoCtrl k w m
  else if o = 0x08 then put x.startNs (fld v 0 32) { x with startNs := fld v 0 32 }
  else if o = 0x10 then put x.startSec (fld v 0 48) { x with startSec := fld v 0 48 }
  else if o = 0x18 then put x.period (fld v 0 40) { x with period := fld v 0 40 }
  else if o = 0x20 then put x.width (fld v 0 40) { x with width := fld v 0 40 }
  else e.badAccess 0 off

/-- A write in the TSU_ block. -/
def Eng.tsuWrite (e : Eng) (o : Nat) (w m : BitVec 64) : Eng :=
  let off := 0x40000 + o
  if o < 0x400 then e.tbWrite (fin 4 (o / 0x100)) (o % 0x100) w m
  else if 0x1000 ≤ o ∧ o < 0x1200 then e.ppoWrite (fin 8 ((o - 0x1000) / 0x40)) (o % 0x40) w m
  else if 0x2000 ≤ o ∧ o < 0x2200 ∧ o % 0x40 = 0 then
    let k : Fin 8 := fin 8 ((o - 0x2000) / 0x40)
    let x := e.cap k
    let v := mix (((e.capReg k 0).map (·.1)).getD 0) w m
    e.setCap k { x with rise := bitAt v 0, fall := bitAt v 1, tb := fin 4 (fld v 2 2), eventEn := bitAt v 4 }
  else if o = 0x2200 then
    let v := mix (pack [(b2n e.time.ppsEn, 1), (b2n e.time.ppsEvent, 1)]) w m
    { e with time := { e.time with ppsEn := bitAt v 0, ppsEvent := bitAt v 1 } }
  else if 0x3000 ≤ o ∧ o < 0x3400 ∧ o % 0x40 = 0 then
    let p : PortId := fin 16 ((o - 0x3000) / 0x40)
    let x := e.port p
    let v := mix (pack [(unsigned 16 x.adjIn, 16), (unsigned 16 x.adjOut, 16)]) w m
    if e.isPort p then e.setPort p { x with adjIn := signed 16 (fld v 0 16), adjOut := signed 16 (fld v 16 16) } else e
  else if (e.tsuRead o).isSome then e
  else e.badAccess 0 off

/-! ### TLY_ (R470 to R472) -/

/-- A write of TLY_CTRL (R461, R462, R466): a freeze first, then a snapshot, then the clears. -/
def Eng.tlyCtrl (e : Eng) (w m : BitVec 64) : Eng :=
  let t := e.tally
  let v := mix (((e.tlyRead 0).map (·.1)).getD 0) w m
  let sev := fld v 5 3
  if sev = 1 ∨ 4 < sev then e.badAccess 0 0x80000
  else
    let e := if bitAt v 0 = t.freeze then e else e.tallyFreeze (bitAt v 0)
    let e := if bitAt w.toNat 1 then e.tallySnap else e
    let e := if bitAt w.toNat 2 then e.tallyClear else e
    let e := if bitAt w.toNat 3 then e.slotClear else e
    { e with tally := { e.tally with ovfIrqEn := bitAt v 4, freezeSev := sev, vector := fld v 8 12 } }

/-- A write in a counter's block (R471): events so far are counted under the old settings (R462). -/
def Eng.cntWrite (e : Eng) (k o off : Nat) (w m : BitVec 64) : Eng :=
  let c := e.tcnt k
  let v := mix ((c.reg o).getD 0) w m
  let set (g : TCnt → TCnt) : Eng := let e := e.countEvents [] none; e.setTcnt k (g (e.tcnt k))
  if o = 0x00 then e.tallyWrite k (BitVec.ofNat 48 v)
  else if o = 0x10 then
    if fld v 16 2 = 3 ∨ fld v 18 2 = 3 then e.badAccess 0 off
    else set (fun c => { c with
      event := fld v 0 12, enable := bitAt v 12, chain := bitAt v 13 && k % 2 == 1, ovfIrq := bitAt v 14, dir := fld v 16 2
      origin := fld v 18 2, tcMask := BitVec.ofNat 8 (fld v 24 8), portMask := BitVec.ofNat 16 (fld v 32 16) })
  else if o = 0x18 then
    set (fun c => { c with funcLo := fld v 0 11, funcHi := fld v 16 11, funcEn := bitAt v 31, addrEn := bitAt v 32 })
  else if o = 0x20 then set (fun c => { c with addrLo := v })
  else if o = 0x28 then set (fun c => { c with addrHi := v })
  else if (c.reg o).isSome then e
  else e.badAccess 0 off

/-- A write of the bandwidth registers (R467, R472). -/
def Eng.bwWrite (e : Eng) (o : Nat) (w m : BitVec 64) : Eng :=
  let t := e.tally
  let off := 0x89000 + o
  let v := mix (((e.bwReg o).map (·.1)).getD 0) w m
  if o = 0x00 then
    let us := fld v 32 20
    if us = 0 ∨ 1000000 < us then e.badAccess 0 off
    else
      let e := { e with tally := { t with bwMask := BitVec.ofNat 16 (fld v 16 16), bwWindow := us } }
      if bitAt v 0 then e.bwStart else { e with tally := { e.tally with bwEn := false } }
  else if o = 0x08 then
    if v % 4096 ≠ 0 then e.badAccess 0 off
    else if v = t.bwBase then e
    else if t.bwEn then e.lockedReg off [0]
    else { e with tally := { t with bwBase := v } }
  else if o = 0x10 then
    let n := fld v 36 5
    if n < 6 ∨ 16 < n then e.badAccess 0 off
    else if t.bwEn then
      e.lockedReg off ((if fld v 0 11 = t.bwFn.val then [] else [0]) ++ (if fld v 16 20 = t.bwPasid then [] else [16]) ++
        (if n = t.bwSize then [] else [36]))
    else { e with tally := { t with bwFn := fin 2048 (fld v 0 11), bwPasid := fld v 16 20, bwSize := n } }
  else if (e.bwReg o).isSome then e
  else e.badAccess 0 off

/-- A write in the TLY_ block. -/
def Eng.tlyWrite (e : Eng) (o : Nat) (w m : BitVec 64) : Eng :=
  if o = 0x00 then e.tlyCtrl w m
  else if 0x20 ≤ o ∧ o < 0x40 then
    { e with tally := { e.tally with ovf := e.tally.ovf &&& ~~~(BitVec.ofNat 256 (w.toNat * 2 ^ (8 * (o - 0x20)))) } }
  else if 0x1000 ≤ o ∧ o < 0x5000 then e.cntWrite ((o - 0x1000) / 0x40) (o % 0x40) (0x80000 + o) w m
  else if 0x9000 ≤ o then e.bwWrite (o - 0x9000) w m
  else if (e.tlyRead o).isSome then e
  else e.badAccess 0 (0x80000 + o)

/-! ### CRY_ (R358, R374) -/

/-- A write of CRY_CH_CTRL of a claimed channel: its fields, then GO (R364, R372, R373). A write that changes FENCE of a
channel that is not idle is ignored whole (R59). -/
def Eng.chanCtrl (e : Eng) (c : ChId) (off : Nat) (w m : BitVec 64) : Eng :=
  let x := e.chan c
  let v := mix ((e.chanReg c 0).getD 0) w m
  let idle := decide (x.state = .idle)
  if !idle ∧ bitAt v 2 ≠ x.fence then e.lockedReg off [2]
  else
    let e := e.setChan c { x with fence := bitAt v 2, doneIrq := bitAt v 3, errIrq := bitAt v 4, prio := max 1 (fld v 6 2) }
    let e := if bitAt v 0 then e.modChan c (fun x => { x with enable := true }) else if x.enable then e.carryDisable c else e
    if bitAt w.toNat 1 then
      if !idle then e.badAccess 0 off else if (e.chan c).enable then e.carryGo c else e
    else e

/-- A write in a channel's block (R374): one that F0 has not claimed takes none. -/
def Eng.chanWrite (e : Eng) (c : ChId) (o off : Nat) (w m : BitVec 64) : Eng :=
  let x := e.chan c
  let v := mix ((e.chanReg c o).getD 0) w m
  let idle := decide (x.state = .idle)
  let lock (l : List (Nat × Nat × Nat)) (y : Chan) : Eng :=
    if idle then e.setChan c y else e.lockedReg off (l.filterMap (fun (a, b, i) => if a = b then none else some i))
  if (e.chanReg c o).isNone ∨ x.claimed = false then e.badAccess 0 off
  else if o = 0x00 then e.chanCtrl c off w m
  else if o = 0x08 then e.setChan c { x with lateErr := x.lateErr && !bitAt w.toNat 3, done := x.done && !bitAt w.toNat 4 }
  else if o = 0x10 then lock [(x.list, v, 0)] { x with list := v }
  else if o = 0x18 then
    lock [(x.srcPasid, fld v 0 20, 0), (x.dstPasid, fld v 32 20, 32)] { x with srcPasid := fld v 0 20, dstPasid := fld v 32 20 }
  else if o = 0x20 then lock [(x.reqId, fld v 0 16, 0)] { x with reqId := fld v 0 16 }
  else if o = 0x28 then lock [(x.compl, v, 0)] { x with compl := v }
  else if o = 0x30 then e.setChan c { x with doneVec := some (fld v 0 12), errVec := some (fld v 16 12) }
  else e

/-- A write in the CRY_ block. -/
def Eng.cryWrite (e : Eng) (o : Nat) (w m : BitVec 64) : Eng :=
  if o = 0x800 then
    let v := mix e.carry.globalReg w m
    let e := { e with carry := { e.carry with autoResume := bitAt v 1 } }
    if bitAt w.toNat 2 then e.carryResume else e
  else e.chanWrite (fin 64 (o / 0x1000)) (o % 0x1000) (0x140000 + o) w m

/-! ### DBG_ (R391) -/

/-- A write in the DBG_ block. -/
def Eng.dbgWrite (e : Eng) (o : Nat) (w : BitVec 64) : Eng :=
  if 0x100 ≤ o ∧ o < 0x300 ∧ o % 0x40 = 8 then e.dbgCtrl (fin 8 ((o - 0x100) / 0x40)) w.toNat
  else if (e.dbgRead false o).isSome then e
  else e.badAccess 0 (0x200000 + o)

/-! ### The windows -/

/-- Bits of the mailbox's status that a write clears (R46). -/
def FnState.mbxClear (x : FnState) (w : BitVec 64) : FnState :=
  { x with
    done := x.done && !bitAt w.toNat 2, progress := x.progress && !bitAt w.toNat 3, overrun := x.overrun && !bitAt w.toNat 4
    fwRestart := x.fwRestart && !bitAt w.toNat 5 }

/-- A write in the window of an enabled function (R31 to R47); `lo`: it covers bits [31:0]. -/
def Eng.fnWrite (e : Eng) (f : Fn) (o : Nat) (w m : BitVec 64) (lo : Bool) : Eng :=
  let x := e.fn f
  let v := w.toNat
  if o < 0x8000 then if lo then e.txBell f (o / 8) (BitVec.ofNat 16 v) else e
  else if o < 0x10000 then if lo then e.rxBell f ((o - 0x8000) / 8) (BitVec.ofNat 16 v) else e
  else if o < 0x11000 then if lo then e.eqWrite f ((o - 0x10000) / 8) (BitVec.ofNat 16 v) (bitAt v 16) else e
  else if o < 0x11100 then
    if x.cmd.isSome then e.overrun f o
    else
      let i := 8 * (o - 0x11000)
      let new := mix (fld x.req.toNat i 64) w m
      e.setFn f { x with req := (x.req &&& ~~~(BitVec.ofNat 2048 (0xFFFFFFFFFFFFFFFF * 2 ^ i))) ||| BitVec.ofNat 2048 (new * 2 ^ i) }
  else if o < 0x11200 then e
  else if o = 0x11200 then if bitAt v 0 then e.mbxGo f else e
  else if o = 0x11208 then e.setFn f (x.mbxClear w)
  else if o = 0x11210 then
    let n := mix x.mbxIrq w m
    e.setFn f { x with irqVec := BitVec.ofNat 12 n, irqDone := bitAt n 12, irqProgress := bitAt n 13, irqRestart := bitAt n 14 }
  else if o = 0x11400 then if lo then e.quenchTo f (bitAt v 0) x.admin else e
  else if (e.fnRead f o).isSome then e
  else e.badAccess f o

/-- A write in the engine window (R40, R475): from S4 to S7 only the FLT_ and PWR_ blocks take any. -/
def Eng.engineWrite (e : Eng) (b : Budget) (o : Nat) (w m : BitVec 64) (lo : Bool) : Eng :=
  if 0x20000 ≤ o ∧ o < 0x30000 then e.pwrWrite b (o - 0x20000) w m
  else if 0x10000 ≤ o ∧ o < 0x20000 then e.fltWrite (o - 0x10000) w m
  else if e.start.phase ≠ .ready then e.badAccess 0 o
  else if 0x40000 ≤ o ∧ o < 0x80000 then e.tsuWrite (o - 0x40000) w m
  else if 0x80000 ≤ o ∧ o < 0x100000 then e.tlyWrite (o - 0x80000) w m
  else if 0x100000 < o ∧ o < 0x104000 then
    let f : Fn := fin 2048 ((o - 0x100000) / 8)
    if lo then e.quenchTo f (e.fn f).quench (bitAt w.toNat 0) else e
  else if 0x140000 ≤ o ∧ o < 0x180000 then e.cryWrite (o - 0x140000) w m
  else if 0x200000 ≤ o then e.dbgWrite (o - 0x200000) w
  else if o < 0x1000 ∧ (e.engRead o).isSome then e
  else e.badAccess 0 o

/-- A write on CSR_T as its register takes it. -/
def Eng.regWrite (e : Eng) (b : Budget) (a : Csr) : Eng :=
  let o := csrReg a
  if a.win then e.engineWrite b o (csrVal a) (csrMask a) (!csrHigh a)
  else if (e.fn a.fn).enabled = false then e.badAccess a.fn o
  else e.fnWrite a.fn o (csrVal a) (csrMask a) (!csrHigh a)

/-- The value that a read on CSR_T finds, and the engine after it: zero where no register lies (R9). -/
def Eng.regRead (e : Eng) (slotB : Bool) (b : Budget) (a : Csr) : Nat × Eng :=
  let o := csrReg a
  ((if a.win then e.engineRead slotB b o (!csrHigh a) else e.windowRead a.fn o)).getD (0, e)

/-! ### Mirrored registers (R434, R438, R442) -/

/-- A register of the engine's configuration that a pair mirrors: MBX_IRQ, the time unit's pulse, capture, 1PPS and port
fields, and CRY_GLOBAL (R434). The fault, power, Tally and debug blocks, the bases' steering and the Carry channels are
the member's own. -/
def mirroredReg (a : Csr) : Bool :=
  let o := csrReg a
  if a.win then
    decide (0x41000 ≤ o ∧ o < 0x41200) || decide (0x42000 ≤ o ∧ o ≤ 0x42200) || decide (0x43000 ≤ o ∧ o < 0x43400) || o == 0x140800
  else o == 0x11210

/-- A doorbell, head-update or quench register (R34). -/
def hardReg (a : Csr) : Bool :=
  let o := csrReg a
  if a.win then decide (0x100000 < o ∧ o < 0x104000) else decide (o < 0x11000) || o == 0x11400

/-- A 64-bit write of F0 to the engine window. -/
def f0Write (o v : Nat) : Csr := { fn := 0, win := true, off := BitVec.ofNat 22 o, size := 8, data := BitVec.ofNat 64 v }

/-- What the journal carries of a register write: a mirrored register's, and a step or add of a base with the values it
takes (R442, R448). -/
def Eng.regChanges (e : Eng) (a : Csr) : List JChange :=
  let o := csrReg a
  if mirroredReg a then [.reg a]
  else if a.win ∧ 0x40000 ≤ o ∧ o < 0x40400 ∧ o % 0x100 = 0 ∧ (bitAt (csrVal a).toNat 1 ∨ bitAt (csrVal a).toNat 2) then
    let t := e.tb (fin 4 ((o - 0x40000) / 0x100))
    [.reg (f0Write (o + 0x20) t.setNs), .reg (f0Write (o + 0x28) t.setSec), .reg (f0Write (o + 0x30) (unsigned 64 t.offset)), .reg a]
  else []

/-- A write with what a pair makes of it: on a standby a function's doorbells, head updates and quench writes are
counted and ignored, and a mirrored field does not change (R438); an active member's journal takes it (R442). -/
def Eng.pairWrite (e : Eng) (b : Budget) (a : Csr) : Eng :=
  if e.standby ∧ hardReg a ∧ a.win = false ∧ a.fn ≠ 0 then e.pairCnt 5 1
  else
    let new := e.regWrite b a
    if e.standby ∧ (mirroredReg a ∨ hardReg a) then
      if (new.regRead false b a).1 = (e.regRead false b a).1 then e else e.badAccess a.fn (csrReg a)
    else if e.journals ∧ e.regChanges a ≠ [] then
      { new with pair := { new.pair with changes := new.pair.changes ++ e.regChanges a } }
    else new

/-! ### The register target -/

/-- An access that the register target has accepted and no domain holds up (R9, R27, R28). -/
def Eng.csrRun (e : Eng) (slotB : Bool) (b : Budget) (write : Bool) (a : Csr) : Eng :=
  if csrOk a = false ∨ (a.win = true ∧ a.fn ≠ 0 ∧ write = true) then
    let e := e.badAccess a.fn a.off.toNat
    if write then e else e.emit (.csr a.fn 0)
  else if write then e.pairWrite b a
  else if a.win ∧ a.fn ≠ 0 then e.emit (.csr a.fn 0)
  else
    let (v, e) := e.regRead slotB b a
    e.emit (.csr a.fn (csrPart a v))

/-- How an access is taken: at once, with zero and no effect, or stalled (R29, R422, R424, R475). -/
inductive Gate where
  | pass | zero | stall
  deriving DecidableEq, Repr

/-- The power state whose rules an access meets: the one an E5 enters, and RUN once a wake has restored PD_CTL and
powered every domain (R420, R422). -/
def Eng.csrState (e : Eng) : PwrState :=
  match e.pwr.step, e.pwr.wakeStep with
  | .e5, _ => e.pwr.target
  | .waking, some .check | .waking, some .start | .waking, none => .run
  | .waking, some .pll | .waking, some .power | .waking, some .control => e.pwr.state
  | .none, _ | .e1, _ | .e2, _ | .e3, _ | .e4, _ => e.pwr.state

/-- An access to the PWR_ block, which PD_AON answers (R499). -/
def pwrReg (a : Csr) : Bool := a.win && decide (a.fn = 0 ∧ 0x20000 ≤ csrReg a ∧ csrReg a < 0x30000)

/-- How an access is taken, and whether it is a HOST wake. -/
def Eng.csrGate (e : Eng) (write : Bool) (a : Csr) : Gate × Bool :=
  let o := csrReg a
  if pwrReg a then (.pass, false)
  else match e.start.phase with
    | .held | .s1 | .s2 | .x2 => (.zero, false)
    | .s3 => (.stall, false)
    | .s4 | .s6 | .s7 | .stopped => (.pass, false)
    | .ready => match e.csrState with
      | .run => (.pass, false)
      | .doze => if write ∨ (a.win ∧ 0x140000 ≤ o ∧ o < 0x180000) then (.stall, true) else (.pass, false)
      | .watch => (.stall, true)
      | .off => (.zero, true)

/-- An access behind one of the same function that is still stalled keeps its place: responses of one function return in
acceptance order (R499). A doorbell, head update or quench write waits only for one of its own kind, as such writes of one
function act in the order of their acceptance (R34); the PWR_ block answers at once (R499). -/
def Eng.heldBehind (e : Eng) (write : Bool) (a : Csr) : Bool :=
  if pwrReg a then false
  else if write && hardReg a then e.ctl.stalled.any (fun s => s.1 && hardReg s.2 && decide (s.2.fn = a.fn))
  else e.ctl.stalled.any (fun s => decide (s.2.fn = a.fn))

/-- An access on CSR_T. -/
def Eng.csr (e : Eng) (slotB : Bool) (b : Budget) (write : Bool) (a : Csr) : Eng :=
  if e.start.phase = .held then e
  else
    let (g, host) := e.csrGate write a
    let e := e.tal { code := 0x703, fn := some a.fn }
    let e := if host then e.wake 1 0 0 else e
    match (if g = .pass ∧ e.heldBehind write a = true then Gate.stall else g) with
    | .pass => e.csrRun slotB b write a
    | .zero => if write then e else e.emit (.csr a.fn 0)
    | .stall => { e with ctl := { e.ctl with stalled := e.ctl.stalled ++ [(write, a)] } }

/-- STALLED_ACCESS_COMPLETE: the oldest stalled access, once its domain is awake (R29, R422). -/
def Eng.stalledDone (e : Eng) (slotB : Bool) (b : Budget) : Eng :=
  match e.ctl.stalled with
  | [] => e
  | (write, a) :: t =>
    let next := { e with ctl := { e.ctl with stalled := t } }
    match (e.csrGate write a).1 with
    | .pass => next.csrRun slotB b write a
    | .zero => if write then next else next.emit (.csr a.fn 0)
    | .stall => e

/-- DBG_PORT_ACCESS (R386, R507): an access of F0's to offset `o` of the DBG_ block. -/
def Eng.dbgPort (e : Eng) (slotB : Bool) (b : Budget) (o : Nat) (write : Bool) (v : Nat) : Eng :=
  let a := f0Write (0x200000 + o % 0x200000) v
  if e.pwr.ctlOn = false ∨ e.start.phase.early then e.emit (.dbg 2 0)
  else if write then
    if e.lcp.enable = false then e.emit (.dbg 1 0)
    else ((if csrOk a then e.regWrite b a else e.badAccess 0 a.off.toNat)).emit (.dbg 0 0)
  else if csrOk a then e.emit (.dbg 0 (csrPart a (e.regRead slotB b a).1)) else (e.badAccess 0 a.off.toNat).emit (.dbg 0 0)

/-! ### Single registers -/

/-- A 64-bit access to a function's window. -/
def fnAcc (f : Fn) (o v : Nat) : Csr := { fn := f, win := false, off := BitVec.ofNat 22 o, size := 8, data := BitVec.ofNat 64 v }

end Sys2Proof.Machine
end

