-- ==== Sys2Proof/Machine/MirrorOps.lean ====
section
/-! DEFINITION. MirrorOps.lean: what a member applies of its partner's state: journal records and copied banks
(17_pair.md R434, R437, R442, R443, R449). -/
namespace Sys2Proof.Machine

/-! ### One change -/

/-- The queue state of a code. -/
def QState.ofCode (n : Nat) : QState :=
  if n = 0 then .stopped else if n = 1 then .running else if n = 2 then .paused else if n = 3 then .error else .stopping

/-- A count of ring entries brought up to one whose low 16 bits are given. -/
def countTo (count : Nat) (low : BitVec 16) : Nat := count + (low - BitVec.ofNat 16 count).toNat

/-- Indices and state of a transmit queue (R442): its owner fetches from the consumer index on (R445). -/
def Txq.mirror (x : Txq) (prod cons compl : BitVec 16) (state : Nat) : Txq :=
  let n := countTo x.cqCount compl
  { x with prod := prod, cons := cons, fetched := cons, cqCount := n, state := QState.ofCode state
           uncovered := x.uncovered || decide (n ≠ x.cqCount) }

/-- Indices and state of a receive ring (R442, R445). -/
def Rxq.mirror (x : Rxq) (prod cons compl : BitVec 16) (state now : Nat) : Rxq :=
  let n := countTo x.cqCount compl
  let new := n - x.cqCount
  { x with prod := prod, cons := cons, fetched := cons, cqCount := n, state := QState.ofCode state
           acted := if x.state = .running then prod else x.acted, uncovered := x.uncovered + new, uncovSince := if 0 < new ∧ x.uncovSince.isNone then some now else x.uncovSince }

/-- Rings bound to an event queue whose partner has written an event: their entries are covered (R183). -/
def Eng.covered (e : Eng) (f : Fn) (n : Nat) : Eng :=
  let e := foldEng (e.txqList.filter (fun r => decide (r.2.fn = f ∧ r.2.eq = n))) (fun e r => e.modTxq r.1 (fun x => { x with uncovered := false })) e
  foldEng (e.rxqList.filter (fun r => decide (r.2.fn = f ∧ r.2.eq = n)))
    (fun e r => e.modRxq r.1 (fun x => { x with uncovered := 0, uncovSince := none, uncovClose := false })) e

/-- HEAD and tail of an event queue. -/
def Eng.mirrorEq (e : Eng) (i : EqId) (head tail : BitVec 16) : Eng :=
  match e.eq_ i with
  | none => e
  | some q =>
    let n := countTo q.count tail
    let e := e.setEq i (some { q with head := head, count := n })
    if n = q.count then e else e.covered q.fn q.loc

/-! ### A command -/

/-- The command of function `f` with an opcode, of the functions' and ports' groups. -/
def Eng.runLow (e : Eng) (f : Fn) (op : Nat) : Eng :=
  let ok : Commit := { fail := none, rollback := none }
  if op = 0x0001 then e.funcConfig f
  else if op = 0x0002 then e.funcReset f
  else if op = 0x0101 then e.portGroup f ok
  else if op = 0x0102 then e.portConfig f ok
  else if op = 0x0104 then e.portSubscribe f
  else if op = 0x0105 then e.moduleConfig f
  else if op = 0x0109 then e.lldpConfig f
  else if op = 0x010B then e.fcConfig f ok
  else if op = 0x010C then e.kittyConfig f
  else if op = 0x010E then e.trailerConfig f
  else if op = 0x010F then e.trailerRingCreate f
  else if op = 0x0110 then e.trailerRingDestroy f
  else e

/-- The command of function `f` with an opcode, of the queues' group. -/
def Eng.runQueue (e : Eng) (f : Fn) (op : Nat) : Eng :=
  let ok : Commit := { fail := none, rollback := none }
  if op = 0x0201 then e.txqCreate f ok
  else if op = 0x0202 then e.rxqCreate f
  else if op = 0x0203 then e.eqCreate f
  else if op = 0x0204 then e.queueModify f
  else if op = 0x0205 then e.queueStart f
  else if op = 0x0206 then e.queueStop f
  else if op = 0x0207 then e.queueReset f
  else if op = 0x0208 then e.queueDestroy f ok
  else if op = 0x020B then e.vectorMask f
  else if op = 0x020C then e.xltFuncConfig f
  else if op = 0x020D then e.xltConfig f
  else if op = 0x020E then e.offloadProfileSet f
  else e

/-- The command of function `f` with an opcode, of the groups from steering on. -/
def Eng.runHigh (e : Eng) (f : Fn) (op : Nat) : Eng :=
  let ok : Commit := { fail := none, rollback := none }
  if op = 0x0301 then e.steerPortConfig f
  else if op = 0x0302 then e.steerGenSet f
  else if op = 0x0303 then e.steerRuleBatch f ok
  else if op = 0x0304 then e.steerSwap f
  else if op = 0x0306 then e.steerConfig f
  else if op = 0x0307 then e.streamGroupSet f
  else if op = 0x0308 then e.spreadCreate f
  else if op = 0x0309 then e.spreadDestroy f
  else if op = 0x030A then e.spreadSet f
  else if op = 0x030B then e.policerSet f
  else if op = 0x030C then e.wakePatternSet f
  else if op = 0x0401 then e.nodeCreate f
  else if op = 0x0402 then e.nodeDestroy f
  else if op = 0x0403 then e.dealerSet f ok
  else if op = 0x0405 then e.samplerConfig f
  else if op = 0x0501 then e.deckSet f
  else if op = 0x0502 then e.deckClearCmd f
  else if op = 0x0A01 then e.carryFuncConfig f
  else if op = 0x0A02 then e.carryClaim f
  else if op = 0x0A03 then e.carryReleaseCmd f
  else e

/-- A command that the partner has committed is applied whole (R442); the member's own mailbox of that function keeps its
content. -/
def Eng.mirrorCmd (e : Eng) (f : Fn) (op : Nat) (params : List Byte) : Eng :=
  let m := e.fn f
  let ready := e.ctl.ready
  let inflight := e.ctl.inflight
  let c : Cmd := { reqCmd 0 e.now with opcode := op, reqLen := params.length, params := ofLE params }
  let e := e.modFn f (fun x => { x with cmd := some c, irqDone := false })
  let e := { e with ctl := { e.ctl with ready := true } }
  let e := if op < 0x0200 then e.runLow f op else if op < 0x0300 then e.runQueue f op else e.runHigh f op
  let e := e.resetStep
  let e := { e with ctl := { e.ctl with ready := ready, inflight := inflight } }
  e.modFn f (fun x => { x with
    cmd := m.cmd, rsp := m.rsp, done := m.done, progress := m.progress, lastTag := m.lastTag, irqDone := m.irqDone })

/-- One change (R442). -/
def Eng.applyOne (e : Eng) (b : Budget) (c : JChange) : Eng :=
  match c with
  | .txIdx q prod cons compl state => e.modTxq q (fun x => x.mirror prod cons compl state.val)
  | .rxIdx q prod cons compl state => e.modRxq q (fun x => x.mirror prod cons compl state.val e.now)
  | .eqIdx i head tail => e.mirrorEq i head tail
  | .dealer o tokens deficit => e.modDobj o (fun d => { d with tokens := tokens, deficit := deficit })
  | .quench f own admin => e.modFn f (fun x => { x with quench := own, admin := admin })
  | .cmd f op params => e.mirrorCmd f op.toNat params
  | .reg a => e.regWrite b a

/-- The changes of a record or of a copied bank, in order. -/
def Eng.applyAll (e : Eng) (b : Budget) (l : List JChange) : Eng :=
  let e := e.modPair (fun x => { x with applying := true })
  (foldEng l (fun e c => e.applyOne b c) e).modPair (fun x => { x with applying := false })

/-! ### Journal records -/

/-- A record applied and acknowledged (R442). -/
def Eng.applyRecord (e : Eng) (b : Budget) (n : BitVec 32) (l : List JChange) : Eng :=
  ((e.applyAll b l).modPair (fun x => { x with applied := n })).emit (.pairJournalAck n)

/-- The member awaits a copy: a forming standby, or a stale one that is brought up again (R437, R449). -/
def Eng.copying (e : Eng) : Bool :=
  match e.pair.state with
  | .forming => !e.pair.roleActive && decide (e.pair.formStep = 5)
  | .standbyStale => decide (e.pair.formStep = 5)
  | .unpaired | .active | .activeAlone | .fenced | .standby => false

/-- The journal buffer of a copy overflows or a record is missing: the copy restarts once, and a second time the
formation fails (R437 step 6). -/
def Eng.copyOverflow (e : Eng) (n : BitVec 32) : Eng :=
  let e := e.linkFail 2
  if !e.pair.copyAgain then e.modPair (fun x => { x with copyAgain := true, buffered := [], applied := n })
  else if e.pair.state = .forming then e.formFail stFaulted 0
  else (e.goStale).pairAnswer 0x0805 stFaulted 0

/-- RX_JOURNAL (R437, R442, R443): a standby applies the record next in sequence and drops one it has applied; a gap makes
it STANDBY_STALE; during a copy records are buffered. -/
def Eng.rxJournal (e : Eng) (b : Budget) (n : BitVec 32) (l : List JChange) : Eng :=
  let x := e.pair
  let last := match x.buffered.reverse with
    | (m, _) :: _ => m
    | [] => x.applied
  let d := (n - last).toNat
  if e.pwr.ctlOn = false ∨ d = 0 ∨ 2147483648 ≤ d then e
  else if e.copying then
    if d ≠ 1 ∨ Config.journalRoom ≤ x.buffered.length then e.copyOverflow n
    else e.modPair (fun x => { x with buffered := x.buffered ++ [(n, l)] })
  else if x.state = .standby then
    if d = 1 then e.applyRecord b n l else e.goStale
  else e

/-- RX_COPY (R437, R449): the content of a bank; after the last one, RB24, the records buffered are applied in order over
it, and the member is in sync. -/
def Eng.rxCopy (e : Eng) (b : Budget) (k : BankId) (l : List JChange) (last : Bool) : Eng :=
  if e.pwr.ctlOn = false ∨ e.copying = false ∨ k.val < 4 ∨ 24 < k.val then e
  else
    let e := e.applyAll b l
    if !last then e
    else if k.val ≠ 24 then e.emit (.pairCopyAck k)
    else
      let e := foldEng e.pair.buffered (fun e r => e.applyRecord b r.1 r.2) e
      (e.emit (.pairCopyAck k)).synced

end Sys2Proof.Machine
end

