-- ==== Sys2Proof/Machine/ScrubOps.lean ====
section
/-! DEFINITION. ScrubOps.lean: the scrubber: what it reads and what an error it finds does (22_figures.md R543, R544,
08_receive_steering.md R253, 09_offloads.md R282, 10_dealer.md R309, 11_time.md R337, 12_deck_launch.md R356, 15_faults.md R396). -/
namespace Sys2Proof.Machine

/-- The scrubber reads a memory in the present power state (R544): in DOZE only the retention banks that are powered, RB0
to RB3 and RB23 to RB27. A packet buffer bank out of service has no line in service (R543). -/
def Eng.scrubs (e : Eng) (m : ScrubMem) : Bool :=
  decide (e.start.phase = .ready) && e.pwr.ctlOn &&
  match m with
  | .retention b => e.dataOn || decide (b.val < 4) || decide (23 ≤ b.val)
  | .packetBuffer b => e.dataOn && !bitAt (e.flt.pbRetired.toNat ||| e.start.tests.pbBanks.toNat) b.val
  | .tcam _ _ | .slotConfig _ | .dealerTree _ | .tokens _ | .policer _ | .offloadProfile _ | .gateList _ => e.dataOn

/-- Source, DETAIL and master of an error in a memory (R392, R397, R543). -/
def Eng.scrubSource (e : Eng) (m : ScrubMem) (bad : Bool) : Nat × Nat × Nat :=
  match m with
  | .packetBuffer b => (b.val / 8, b.val + (if bad then 32 else 0), mBuffer)
  | .retention b => (4, b.val, mNone)
  | .tcam n r => (5, n.val + 16384 * r.val, mPipe)
  | .slotConfig s => (8 + s.val, (e.portOf s).val, mSlot s.val)
  | .dealerTree p => (28, p.val, mDealer)
  | .tokens (.leaf q) => (29, q.val, mDealer)
  | .tokens (.node n) => (29, n.val, mDealer)
  | .tokens (.root p) => (29, p.val, mDealer)
  | .policer p => (29, p.val, mPipe)
  | .offloadProfile i => (31, i.val, mOff)
  | .gateList p => (32, 4 * p.val, mTime)

/-- Granted and committed frames of a port: queue, frame and data read. -/
def Port.txFrames (x : Port) : List GFrame := x.lists.flatMap (fun l => l) ++ x.wire.map (·.g)

/-- Which of `n` frames an error has struck, if any: not stated, a free value. -/
def Eng.struck (e : Eng) (n : Nat) : Option Nat × Eng :=
  let (v, e) := e.fresh
  let k := v % (n + 1)
  (if k = 0 then none else some (k - 1), e)

/-- A frame of a list, if any, is in doubt: stomped where committed and discarded otherwise, it completes with BUS_ERROR
(R282, R396, R543). -/
def Eng.txDoubt (e : Eng) (l : List GFrame) : Eng :=
  match e.struck l.length with
  | (none, e) => e
  | (some k, e) => match l[k]? with
    | some g => e.txDataError g.q g.frame g.grp
    | none => e

/-- Received frames in the packet buffer: those that wait for their ring, and those being placed. -/
def Eng.rxWaiting (e : Eng) : List (RxqId × RxRec) :=
  e.rxqList.flatMap (fun r => (r.2.waiting ++ r.2.parked ++ (r.2.placed.filter (fun (p : RxPlaced) => !p.dataDone)).map (·.fr)).map (fun f => (r.1, f)))

/-- A received frame of a ring is discarded. -/
def Eng.rxDiscard (e : Eng) (q : RxqId) (f : RxRec) : Eng :=
  let e := match e.rxq q with
    | none => e
    | some x => match x.placed.find? (fun (r : RxPlaced) => r.fr.id == f.id) with
      | some r => e.rxUnplace q r
      | none => e
  (e.modRxq q (fun x => { x with
    waiting := x.waiting.filter (fun g => g.id != f.id), parked := x.parked.filter (fun g => g.id != f.id) })).rxFree f

/-- An uncorrectable line of the packet buffer: a received frame containing it is discarded and counted in rx_phy_errors,
a transmit frame completes with BUS_ERROR (R396). -/
def Eng.lineLost (e : Eng) : Eng :=
  let tx := e.portList.flatMap (fun p => (e.port p).txFrames)
  let rx := e.rxWaiting
  match e.struck (rx.length + tx.length) with
  | (none, e) => e
  | (some k, e) => match rx[k]? with
    | some (q, f) => (((e.rxDiscard q f).stat f.port 63 1).rxDrainNext q).rxPlaceNext q
    | none => match tx[k - rx.length]? with
      | some g => e.txDataError g.q g.frame g.grp
      | none => e

/-- Every frame granted or committed with an offload profile in doubt ends: stomped where committed and discarded
otherwise, with BUS_ERROR, or PARTIAL under R270 (R282). -/
def Eng.profileLost (e : Eng) (i : Nat) : Eng :=
  let mine (g : GFrame) : Bool := ((e.txq g.q).bind (fun x => x.frame? g.frame)).any (fun f => f.profIdx == i)
  let l := e.portList.flatMap (fun p =>
    (e.port p).lists.flatMap (fun l => l.filter mine) ++ ((e.port p).wire.filter (fun w => w.f.profIdx == i)).map (·.g))
  foldEng l (fun e g => e.txDataError g.q g.frame g.grp) e

/-- The tokens and deficit of a leaf or node are lost: both become 0, counted in shaper_resets (R309). -/
def Eng.tokensLost (e : Eng) (o : DObjId) : Eng :=
  let e := e.modDobj o (fun d => { d with tokens := 0, deficit := 0 })
  { e with dealer := { e.dealer with shaperResets := sat64 (e.dealer.shaperResets + 1) } }

/-- A policer's state is lost: its tokens are not stated, a free value (R253; log entry 1). -/
def Eng.policerLost (e : Eng) (p : Fin 4096) : Eng :=
  let (v, e) := e.fresh
  e.setPolicer p { e.policer p with tokens := v }

/-- An error that cannot be corrected in RB0 to RB3: where it lies in the code ranges, which are not stated, so by a free
value, the LCP restarts with cause MEMORY and its code is loaded anew (R382, R388). -/
def Eng.codeLost (e : Eng) : Eng :=
  let (v, e) := e.fresh
  if v % 2 = 0 then e.loadImage.lcpRestart 4 else e

/-- What an error that cannot be corrected does besides its event (R543). -/
def Eng.scrubLoss (e : Eng) (m : ScrubMem) : Eng :=
  match m with
  | .packetBuffer _ => e.lineLost
  | .retention b => if b.val < 4 then e.codeLost else e
  | .tcam _ _ | .gateList _ => e
  | .slotConfig s => e.txDoubt ((e.port (e.portOf s)).wire.map (·.g))
  | .dealerTree p => e.setRoot p { e.root p with broken := true }
  | .tokens (.root _) => e
  | .tokens (.leaf q) => e.tokensLost (.leaf q)
  | .tokens (.node n) => e.tokensLost (.node n)
  | .policer p => e.policerLost p
  | .offloadProfile i => e.profileLost i.val

/-- A Dealer tree whose memory the scrubber finds good has been rebuilt (R309). -/
def Eng.scrubGood (e : Eng) (m : ScrubMem) : Eng :=
  match m with
  | .dealerTree p => if (e.root p).broken then e.setRoot p { e.root p with broken := false } else e
  | .packetBuffer _ | .retention _ | .tcam _ _ | .slotConfig _ | .tokens _ | .policer _ | .offloadProfile _ | .gateList _ => e

/-- SCRUB (R544). -/
def Eng.scrub (e : Eng) (m : ScrubMem) (r : ScrubResult) : Eng :=
  if !e.scrubs m then e
  else match r with
    | .clean => e.scrubGood m
    | .corrected =>
      let (s, d, u) := e.scrubSource m false
      (e.scrubGood m).raiseEv (mkEv (fin 64 s) .corrected d u 0 0)
    | .uncorrectable =>
      let (s, d, u) := e.scrubSource m true
      (e.scrubLoss m).raiseEv (mkEv (fin 64 s) .failure d u 0 0)

/-! ### What a unit's event does (R392, R393) -/

/-- A base's state is lost: it is loaded from its holdover copy, which lies less than one CLK_AON cycle of 102.4 ns behind
the running time, by a free value; DEGRADED is set (R313, R321, R337). -/
def Eng.baseLost (e : Eng) (n : TbId) : Eng :=
  let (v, e) := e.fresh
  let t := e.tb n
  let now := (t.sec * 1000000000 + t.ns) * 4294967296 + t.sub
  let u := now - v % 439804651111
  e.setTb n { t with sec := u / 4294967296 / 1000000000, ns := u / 4294967296 % 1000000000, sub := u % 4294967296, degraded := true }

/-- An entry of a port's time-stamp queue is lost, which one a free value: it is discarded and counted in OVF, and its
frame's completion carries TS_LOST where it is not yet written (R337). -/
def Eng.stampLost (e : Eng) (p : PortId) : Eng :=
  let (v, e) := e.fresh
  let q := e.time.tsq.get {} p.val
  match q.ents[v % max 1 q.ents.length]? with
  | none => e
  | some t =>
    let rest := q.ents.eraseIdx (v % max 1 q.ents.length)
    let e := { e with time := { e.time with tsq := e.time.tsq.put {} p.val { q with ents := rest, ovf := sat64 (q.ovf + 1) } } }
    e.modTxq t.frame.1 (fun x => x.modFrame t.frame.2 (fun f => match f.st with
      | .done d => { f with st := .done { d with tsLost := true } }
      | .lookup | .offered | .granted => f))

/-- Which of the time unit's memories has failed is not stated: a free value tells whether it is a base's state, a port's
time-stamp queue, or a gate list, which is rewritten (R337, R356, R392). -/
def Eng.timeLost (e : Eng) (detail : Nat) : Eng :=
  let (v, e) := e.fresh
  match v % 3 with
  | 0 => e.baseLost (fin 4 detail)
  | 1 => e.stampLost (fin 16 (detail / 4))
  | _ => e

/-- An entry of the translation cache found in error, which one a free value, is no longer there (R200). -/
def Eng.entryLost (e : Eng) : Eng :=
  let (v, e) := e.fresh
  { e with dma := { e.dma with cache := e.dma.cache.eraseIdx (v % max 1 e.dma.cache.length) } }

/-- An error in token, deficit or policer memory: a policer where the pipeline reports it, else the leaf or node of that
number, which of the two a free value (R253, R309, R392). -/
def Eng.shaperLost (e : Eng) (master detail : Nat) : Eng :=
  if master = mPipe then e.policerLost (fin 4096 detail)
  else
    let (v, e) := e.fresh
    e.tokensLost (if v % 2 = 0 then .leaf (fin 32768 detail) else .node (fin 8192 detail))

/-- What has happened in the unit that drives an event, beside the event itself (R543). -/
def Eng.unitFault (e : Eng) (v : FaultEv) : Eng :=
  let s := v.src.val
  let d := v.detail.toNat
  if s = 7 ∧ v.cls ≠ .info then e.entryLost
  else if v.cls ≠ .failure then e
  else if s < 4 then e.lineLost
  else if s = 4 then (if d % 32 < 4 then e.codeLost else e)
  else if s = 6 then e.codeLost
  else if 8 ≤ s ∧ s < 24 then e.txDoubt ((e.port (fin 16 d)).txFrames)
  else if s = 27 then (if bitAt d 6 then e else e.carryBufferLost (fin 64 d))
  else if s = 28 then e.setRoot (fin 16 d) { e.root (fin 16 d) with broken := true }
  else if s = 29 then e.shaperLost v.master.toNat (d % 32768)
  else if s = 31 then e.profileLost (d % 256)
  else if s = 32 then e.timeLost d
  else e

end Sys2Proof.Machine
end

