-- ==== Sys2Proof/Machine/Bridge.lean ====
section
/-! DEFINITION. Bridge.lean: translation, DMA responses and retirement of generations (07_translation.md, 20_edge_signals.md R491 to R496, 08_receive_steering.md R236). -/
namespace Sys2Proof.Machine

/-- TRANSLATION_RESPONSE (R203): a TRANSLATION. -/
def execTranslationResponse (tag : Fin 512) (r : XltResult) (s : State) : Result := s.does (fun e => e.translation tag r)

/-- PAGE_RESPONSE (R203): a PAGE_RSP. -/
def execPageResponse (group : Fin 512) (ok : Bool) (s : State) : Result := s.does (fun e => e.pageRsp group ok)

/-- INVALIDATE (R201): an INVALIDATE. -/
def execInvalidate (tag : Fin 32) (scope : InvScope) (s : State) : Result := s.does (fun e => e.invalidate tag scope)

/-- INVALIDATION_ACK (R201): an INV_ACK leaves. -/
def execInvalidationAck (tag : Fin 32) (s : State) : Result := s.does (fun e => e.invAck tag)

/-- XLT_REQUEST_TIMEOUT (R198): a TRANSLATE is unanswered. -/
def execXltRequestTimeout (tag : Fin 512) (s : State) : Result := s.does (fun e => e.xltTimeout tag)

/-- FAULT_TIMEOUT_EXPIRY (R211): a fault wait reaches FAULT_TIMEOUT. -/
def execFaultTimeoutExpiry (o : FObj) (s : State) : Result := s.does (fun e => e.faultExpiry o)

/-- DMA_WRITE_DONE (R493): a WRITE_DONE. -/
def execDmaWriteDone (m : Fin 4) (tag : Fin 1024) (s : State) : Result := s.does (fun e => e.writeDone m tag)

/-- DMA_READ_DATA (R491): read data. -/
def execDmaReadData (m : Fin 4) (tag : Fin 1024) (bytes : List Byte) (s : State) : Result :=
  s.does (fun e => e.readData m tag bytes)

/-- DMA_ERROR_RESPONSE (R191): an ERROR response. -/
def execDmaErrorResponse (m : Fin 4) (tag : Fin 1024) (s : State) : Result := s.does (fun e => e.dmaError m tag)

/-- DMA_COMPLETION_TIMEOUT (R492): a request is unanswered. -/
def execDmaCompletionTimeout (m : Fin 4) (tag : Fin 1024) (s : State) : Result := s.does (fun e => e.dmaTimeout m tag)

/-- FORCED_RETIREMENT (R236): a generation is retired by force. -/
def execForcedRetirement (s : State) : Result := s.does (fun e => e.forceRetire)

end Sys2Proof.Machine
end

