-- ==== Sys2Proof/Machine/Commands.lean ====
section
/-! DEFINITION. Commands.lean: the mailbox's own timers and the commands of the general, port, power, fault, pair and firmware groups (21_twizu_reference.md R509). -/
namespace Sys2Proof.Machine

/-- COMMAND_TIMEOUT (R52): the function's command reaches its class limit. -/
def execCommandTimeout (fn : Fn) (s : State) : Result := s.does (fun e => e.cmdTimeout fn)

/-- PROGRESS_REPORT (R51): a progress report of a LONG command. -/
def execProgressReport (fn : Fn) (done total : BitVec 32) (s : State) : Result :=
  s.does (fun e => e.progress fn done.toNat total.toNat)

/-- FUNC_CONFIG (R153): fields of a function. -/
def execFuncConfig (fn : Fn) (s : State) : Result := s.does (fun e => e.funcConfig fn)

/-- FUNC_RESET (R194): a function is reset. -/
def execFuncReset (fn : Fn) (s : State) : Result := s.does (fun e => e.funcReset fn)

/-- CONFIG_GET (R520): the fields of an object. -/
def execConfigGet (fn : Fn) (s : State) : Result := s.does (fun e => e.configGet fn)

/-- REJECT_LOG_GET (R521): the reject log. -/
def execRejectLogGet (fn : Fn) (s : State) : Result := s.does (fun e => e.rejectLogGet fn)

/-- COMMIT (R520): no field has COMMIT as its boundary. -/
def execCommit (fn : Fn) (s : State) : Result := s.does (fun e => e.commitCmd fn)

/-- ENG_RESET (R477): an engine reset. -/
def execEngReset (fn : Fn) (s : State) : Result := s.does (fun e => e.engReset fn)

/-- RESET_INFO_GET (R480): the start-up record. -/
def execResetInfoGet (fn : Fn) (s : State) : Result := s.does (fun e => e.resetInfo fn)

/-- PORT_GROUP (R67): slots are grouped into ports. -/
def execPortGroup (fn : Fn) (cf : Commit) (s : State) : Result := s.does (fun e => e.portGroup fn cf)

/-- PORT_CONFIG (R68): fields of a port. -/
def execPortConfig (fn : Fn) (cf : Commit) (s : State) : Result := s.does (fun e => e.portConfig fn cf)

/-- PORT_STATE_GET (R75): a port's state. -/
def execPortStateGet (fn : Fn) (s : State) : Result := s.does (fun e => e.portStateGet fn)

/-- PORT_EVENT_SUBSCRIBE (R75): a subscription to port events. -/
def execPortEventSubscribe (fn : Fn) (s : State) : Result := s.does (fun e => e.portSubscribe fn)

/-- MODULE_CONFIG (R79): fields of a cage. -/
def execModuleConfig (fn : Fn) (s : State) : Result := s.does (fun e => e.moduleConfig fn)

/-- MODULE_RESET (R78): a cage goes through reset. -/
def execModuleReset (fn : Fn) (s : State) : Result := s.does (fun e => e.moduleReset fn)

/-- MODULE_INFO_GET (R525): a cage's state and identity. -/
def execModuleInfoGet (fn : Fn) (s : State) : Result := s.does (fun e => e.moduleInfoGet fn)

/-- MODULE_ACCESS (R84): a module's registers; `bus` is how the bus transaction goes. -/
def execModuleAccess (fn : Fn) (bus : ModBus) (s : State) : Result := s.does (fun e => e.moduleAccess fn bus)

/-- LLDP_CONFIG (R85): a port's extra TLVs. -/
def execLldpConfig (fn : Fn) (s : State) : Result := s.does (fun e => e.lldpConfig fn)

/-- LLDP_PARTNER_GET (R89): a port's partner record. -/
def execLldpPartnerGet (fn : Fn) (s : State) : Result := s.does (fun e => e.lldpPartnerGet fn)

/-- FC_CONFIG (R92): a port's flow-control fields. -/
def execFcConfig (fn : Fn) (cf : Commit) (s : State) : Result := s.does (fun e => e.fcConfig fn cf)

/-- KITTY_CONFIG (R120): the size of the kitty. -/
def execKittyConfig (fn : Fn) (s : State) : Result := s.does (fun e => e.kittyConfig fn)

/-- THIN_STATUS_GET (R151): a port's thinning state. -/
def execThinStatusGet (fn : Fn) (s : State) : Result := s.does (fun e => e.thinStatusGet fn)

/-- TRAILER_CONFIG (R275): trailer fields. -/
def execTrailerConfig (fn : Fn) (s : State) : Result := s.does (fun e => e.trailerConfig fn)

/-- TRAILER_RING_CREATE (R281): a trailer report ring is created. -/
def execTrailerRingCreate (fn : Fn) (s : State) : Result := s.does (fun e => e.trailerRingCreate fn)

/-- TRAILER_RING_DESTROY (R281): a trailer report ring is destroyed. -/
def execTrailerRingDestroy (fn : Fn) (s : State) : Result := s.does (fun e => e.trailerRingDestroy fn)

/-- POWER_SET (R414): a request for a power state. -/
def execPowerSet (fn : Fn) (s : State) : Result := s.does (fun e => e.powerSet s.budget.credits fn)

/-- POWER_STATUS_GET (R433): the power status. -/
def execPowerStatusGet (fn : Fn) (s : State) : Result := s.does (fun e => e.powerStatusGet s.budget fn)

/-- FAULT_INFO_GET (R532): the fault registers at one edge. -/
def execFaultInfoGet (fn : Fn) (s : State) : Result := s.does (fun e => e.faultInfoGet fn)

/-- PAIR_CONFIG (R435): the member's pair fields. -/
def execPairConfig (fn : Fn) (s : State) : Result := s.does (fun e => e.pairConfig fn)

/-- PAIR_FORM (R437): the pair forms. -/
def execPairForm (fn : Fn) (s : State) : Result := s.does (fun e => e.pairForm fn)

/-- PAIR_LEAVE (R451): the member leaves its pair. -/
def execPairLeave (fn : Fn) (s : State) : Result := s.does (fun e => e.pairLeave fn)

/-- PAIR_SWITCHOVER (R447): the active role passes to the standby. -/
def execPairSwitchover (fn : Fn) (s : State) : Result := s.does (fun e => e.pairSwitchover fn)

/-- PAIR_RESYNC (R449): the pair is brought in sync again. -/
def execPairResync (fn : Fn) (s : State) : Result := s.does (fun e => e.pairResync fn)

/-- PAIR_WAKE (R450): WAKE is sent. -/
def execPairWake (fn : Fn) (s : State) : Result := s.does (fun e => e.pairWakeCmd fn)

/-- PAIR_STATUS_GET (R454): the pair status. -/
def execPairStatusGet (fn : Fn) (s : State) : Result := s.does (fun e => e.pairStatusGet fn)

/-- STATS_READ (R127): a port's statistics, cleared. -/
def execStatsRead (fn : Fn) (s : State) : Result := s.does (fun e => e.statsRead fn)

/-- STATS_PEEK (R127): a port's statistics. -/
def execStatsPeek (fn : Fn) (s : State) : Result := s.does (fun e => e.statsPeek fn)

/-- FW_INFO_GET (R390): the image slots. -/
def execFwInfoGet (fn : Fn) (s : State) : Result := s.does (fun e => e.fwInfoGet s.boot fn)

/-- FW_UPDATE (R389): an image is written to the slot that does not run; its verdicts come from outside. -/
def execFwUpdate (fn : Fn) (sigOk secOk writeOk : Bool) (s : State) : Result :=
  .next { s.run (fun e => (e.fwUpdate s.boot fn sigOk secOk writeOk).2) with
    boot := (s.eng.fwUpdate s.boot fn sigOk secOk writeOk).1 }

/-- FW_RESTART (R382): the LCP restarts. -/
def execFwRestart (fn : Fn) (s : State) : Result := s.does (fun e => e.fwRestartCmd fn)

/-- FW_DEBUG_ENABLE (R386): DBG_CTRL.ENABLE. -/
def execFwDebugEnable (fn : Fn) (s : State) : Result := s.does (fun e => e.fwDebugEnable fn)

end Sys2Proof.Machine
end

