-- ==== Sys2Proof/Machine/CommandsData.lean ====
section
/-! DEFINITION. CommandsData.lean: the commands of the queue, steering, Dealer, Deck and Carry groups (21_twizu_reference.md R509). -/
namespace Sys2Proof.Machine

/-- TXQ_CREATE (R161): a transmit queue is created. -/
def execTxqCreate (fn : Fn) (cf : Commit) (s : State) : Result := s.does (fun e => e.txqCreate fn cf)

/-- RXQ_CREATE (R172): a receive ring is created. -/
def execRxqCreate (fn : Fn) (s : State) : Result := s.does (fun e => e.rxqCreate fn)

/-- EQ_CREATE (R181): an event queue is created. -/
def execEqCreate (fn : Fn) (s : State) : Result := s.does (fun e => e.eqCreate fn)

/-- QUEUE_MODIFY (R161): fields of a queue, ring or event queue. -/
def execQueueModify (fn : Fn) (s : State) : Result := s.does (fun e => e.queueModify fn)

/-- QUEUE_START (R187): a queue or ring goes to RUNNING. -/
def execQueueStart (fn : Fn) (s : State) : Result := s.does (fun e => e.queueStart fn)

/-- QUEUE_STOP (R188): a queue or ring begins to stop. -/
def execQueueStop (fn : Fn) (s : State) : Result := s.does (fun e => e.queueStop fn)

/-- QUEUE_STOPPED (R188): a stopping queue or ring with nothing in progress is STOPPED. -/
def execQueueStopped (o : FObj) (s : State) : Result := s.does (fun e => e.queueStopped o)

/-- QUEUE_RESET (R189): a queue, ring or event queue is reset. -/
def execQueueReset (fn : Fn) (s : State) : Result := s.does (fun e => e.queueReset fn)

/-- QUEUE_DESTROY (R190): a queue, ring or event queue is destroyed. -/
def execQueueDestroy (fn : Fn) (cf : Commit) (s : State) : Result := s.does (fun e => e.queueDestroy fn cf)

/-- QUEUE_QUERY (R219): a queue's state and indices. -/
def execQueueQuery (fn : Fn) (s : State) : Result := s.does (fun e => e.queueQuery fn)

/-- QUEUE_STATS (R192): a queue's counters. -/
def execQueueStats (fn : Fn) (s : State) : Result := s.does (fun e => e.queueStats fn)

/-- VECTOR_MASK (R186): masks of a range of vectors. -/
def execVectorMask (fn : Fn) (s : State) : Result := s.does (fun e => e.vectorMask fn)

/-- XLT_FUNC_CONFIG (R196): a function's translation mode. -/
def execXltFuncConfig (fn : Fn) (s : State) : Result := s.does (fun e => e.xltFuncConfig fn)

/-- XLT_CONFIG (R205): parking and fault timeout. -/
def execXltConfig (fn : Fn) (s : State) : Result := s.does (fun e => e.xltConfig fn)

/-- OFFLOAD_PROFILE_SET (R256): an offload profile. -/
def execOffloadProfileSet (fn : Fn) (s : State) : Result := s.does (fun e => e.offloadProfileSet fn)

/-- STEER_PORT_CONFIG (R227): a port's malformed action and exception ring. -/
def execSteerPortConfig (fn : Fn) (s : State) : Result := s.does (fun e => e.steerPortConfig fn)

/-- STEER_GEN_SET (R528): an item of the inactive generation. -/
def execSteerGenSet (fn : Fn) (s : State) : Result := s.does (fun e => e.steerGenSet fn)

/-- STEER_RULE_BATCH (R233): entries of the inactive generation. -/
def execSteerRuleBatch (fn : Fn) (cf : Commit) (s : State) : Result := s.does (fun e => e.steerRuleBatch fn cf)

/-- STEER_SWAP (R234): the inactive generation becomes active. -/
def execSteerSwap (fn : Fn) (s : State) : Result := s.does (fun e => e.steerSwap fn)

/-- STEER_STATUS_GET (R255): the generations. -/
def execSteerStatusGet (fn : Fn) (s : State) : Result := s.does (fun e => e.steerStatusGet fn)

/-- STEER_CONFIG (R243): the recirculation limit and the stream hash. -/
def execSteerConfig (fn : Fn) (s : State) : Result := s.does (fun e => e.steerConfig fn)

/-- STREAM_GROUP_SET (R238): members of a stream group. -/
def execStreamGroupSet (fn : Fn) (s : State) : Result := s.does (fun e => e.streamGroupSet fn)

/-- SPREAD_CREATE (R245): a spreading table is created. -/
def execSpreadCreate (fn : Fn) (s : State) : Result := s.does (fun e => e.spreadCreate fn)

/-- SPREAD_DESTROY (R245): a spreading table is destroyed. -/
def execSpreadDestroy (fn : Fn) (s : State) : Result := s.does (fun e => e.spreadDestroy fn)

/-- SPREAD_SET (R245): a spreading table is written. -/
def execSpreadSet (fn : Fn) (s : State) : Result := s.does (fun e => e.spreadSet fn)

/-- POLICER_SET (R249): policers are set. -/
def execPolicerSet (fn : Fn) (s : State) : Result := s.does (fun e => e.policerSet fn)

/-- WAKE_PATTERN_SET (R251): wake patterns are set. -/
def execWakePatternSet (fn : Fn) (s : State) : Result := s.does (fun e => e.wakePatternSet fn)

/-- POLICER_STATS (R250): a policer's counters. -/
def execPolicerStats (fn : Fn) (s : State) : Result := s.does (fun e => e.policerStats fn)

/-- STEER_STATS (R255): a port's steering counters. -/
def execSteerStats (fn : Fn) (s : State) : Result := s.does (fun e => e.steerStats fn)

/-- DEALER_NODE_CREATE (R286): a node is taken from the pool. -/
def execDealerNodeCreate (fn : Fn) (s : State) : Result := s.does (fun e => e.nodeCreate fn)

/-- DEALER_NODE_DESTROY (R286): a node goes back to the pool. -/
def execDealerNodeDestroy (fn : Fn) (s : State) : Result := s.does (fun e => e.nodeDestroy fn)

/-- DEALER_SET (R286): fields of Dealer objects. -/
def execDealerSet (fn : Fn) (cf : Commit) (s : State) : Result := s.does (fun e => e.dealerSet fn cf)

/-- DEALER_QUERY (R310): a Dealer object. -/
def execDealerQuery (fn : Fn) (s : State) : Result := s.does (fun e => e.dealerQuery fn)

/-- DEALER_SAMPLER_CONFIG (R305): the sampler. -/
def execDealerSamplerConfig (fn : Fn) (s : State) : Result := s.does (fun e => e.samplerConfig fn)

/-- DECK_SET (R338): a port's admin list is armed. -/
def execDeckSet (fn : Fn) (s : State) : Result := s.does (fun e => e.deckSet fn)

/-- DECK_CLEAR (R344): a port's Deck is cleared. -/
def execDeckClear (fn : Fn) (s : State) : Result := s.does (fun e => e.deckClearCmd fn)

/-- DECK_STATUS_GET (R357): a port's Deck. -/
def execDeckStatusGet (fn : Fn) (s : State) : Result := s.does (fun e => e.deckStatusGet fn)

/-- TS_QUEUE_READ (R334): transmit time-stamps. -/
def execTsQueueRead (fn : Fn) (s : State) : Result := s.does (fun e => e.tsQueueRead fn)

/-- OFFLOAD_STATS (R283): a port's offload counters. -/
def execOffloadStats (fn : Fn) (s : State) : Result := s.does (fun e => e.offloadStats fn)

/-- XLT_STATS (R219): the translation counters. -/
def execXltStats (fn : Fn) (s : State) : Result := s.does (fun e => e.xltStats fn)

/-- CARRY_FUNC_CONFIG (R359): a function's channel quota. -/
def execCarryFuncConfig (fn : Fn) (s : State) : Result := s.does (fun e => e.carryFuncConfig fn)

/-- CARRY_CLAIM (R359): channels are claimed for the registers. -/
def execCarryClaim (fn : Fn) (s : State) : Result := s.does (fun e => e.carryClaim fn)

/-- CARRY_RELEASE (R359): claimed channels are released. -/
def execCarryRelease (fn : Fn) (s : State) : Result := s.does (fun e => e.carryReleaseCmd fn)

/-- CARRY_SUBMIT (R359): a Carry request is submitted. -/
def execCarrySubmit (fn : Fn) (s : State) : Result := s.does (fun e => e.carrySubmit fn)

/-- CARRY_STATUS (R359): a Carry request's state. -/
def execCarryStatus (fn : Fn) (s : State) : Result := s.does (fun e => e.carryStatus fn)

/-- CARRY_ABORT (R372): a Carry request is aborted. -/
def execCarryAbort (fn : Fn) (s : State) : Result := s.does (fun e => e.carryAbortCmd fn)

/-- CARRY_STATS (R375): the Carry counters. -/
def execCarryStats (fn : Fn) (s : State) : Result := s.does (fun e => e.carryStats fn)

end Sys2Proof.Machine
end

