-- ==== Sys2Proof/Machine/Frames.lean ====
section
/-! DEFINITION. Frames.lean: frames received and sent, descriptors and the Dealer (04_wire.md, 06_rings.md, 08_receive_steering.md, 10_dealer.md). -/
namespace Sys2Proof.Machine

/-- A queue that stops with FLUSH is flushed again (R188). -/
def Eng.flushAgain (e : Eng) (q : TxqId) : Eng :=
  match e.txq q with
  | some x => if x.state = .stopping ∧ x.stopMode = .flush then e.txFlush q else e
  | none => e

/-- RX_FRAME (R220): a frame on the media interface. -/
def execRxFrame (r : RxFrame) (s : State) : Result := s.does (fun e => e.rxFrame r)

/-- RX_PAUSE (R110): a good PAUSE frame. -/
def execRxPause (p : PortId) (quanta : BitVec 16) (s : State) : Result := s.does (fun e => e.rxPause p quanta.toNat)

/-- RX_PFC (R111): a good PFC frame. -/
def execRxPfc (p : PortId) (en : BitVec 8) (times : List (BitVec 16)) (s : State) : Result :=
  s.does (fun e => e.rxPfc p en.toNat (times.map BitVec.toNat))

/-- RX_LLDPDU (R89): a good LLDP frame. -/
def execRxLldpdu (p : PortId) (r : RxFrame) (s : State) : Result := s.does (fun e => e.rxLldpdu p r)

/-- RX_PROPOSE (R141): a PROPOSE, TYPE 1. -/
def execRxPropose (p : PortId) (m : ThinMsg) (s : State) : Result := s.does (fun e => e.rxThin p 1 m)

/-- RX_ACCEPT (R140): an ACCEPT, TYPE 2. -/
def execRxAccept (p : PortId) (m : ThinMsg) (s : State) : Result := s.does (fun e => e.rxThin p 2 m)

/-- RX_REJECT (R148): a REJECT, TYPE 3. -/
def execRxReject (p : PortId) (m : ThinMsg) (s : State) : Result := s.does (fun e => e.rxThin p 3 m)

/-- RX_READY (R140): a READY, TYPE 4. -/
def execRxReady (p : PortId) (m : ThinMsg) (s : State) : Result := s.does (fun e => e.rxThin p 4 m)

/-- RX_MARK (R140): a MARK, TYPE 5. -/
def execRxMark (p : PortId) (m : ThinMsg) (s : State) : Result := s.does (fun e => e.rxThin p 5 m)

/-- RCIRC_RETURN (R240): a unit on SP_RCIRC. -/
def execRcircReturn (u : RcUnit) (s : State) : Result := s.does (fun e => e.rcircReturn u)

/-- RCIRC_DISCARD_NOTICE (R240): a discard notice on SP_RCIRC. -/
def execRcircDiscardNotice (port : PortId) (serial : BitVec 16) (s : State) : Result :=
  s.does (fun e => e.rcircNotice port serial)

/-- SP_CREDIT_RETURN (R498): credits of a stream port. -/
def execSpCreditReturn (sp : Fin 2) (dest : Fin 8) (count : BitVec 10) (s : State) : Result :=
  s.does (fun e => e.spCredit sp dest count.toNat)

/-- TX_DESCRIPTORS_READ (R97): descriptors come back; a queue that stops with FLUSH gives up what they bring (R188). -/
def execTxDescriptorsRead (q : TxqId) (descs : List (BitVec 128)) (hdrs : List (List Byte)) (s : State) : Result :=
  s.does (fun e => (e.txDescs q descs hdrs).flushAgain q)

/-- RX_POST_ENTRIES_READ (R173): post entries come back. -/
def execRxPostEntriesRead (q : RxqId) (ents : List (BitVec 64)) (s : State) : Result := s.does (fun e => e.rxPosts q ents)

/-- DEALER_DECISION (R290): a decision of a port. -/
def execDealerDecision (p : PortId) (s : State) : Result := s.does (fun e => e.decide_ p)

/-- SHAPER_REFILL (R299): a refill of a bucket. -/
def execShaperRefill (o : DObjId) (s : State) : Result := s.does (fun e => e.shaperRefill o)

/-- PACING_REFILL (R303): a refill of a root's pacing. -/
def execPacingRefill (p : PortId) (s : State) : Result := s.does (fun e => e.pacingRefill p)

/-- SAMPLER_SAMPLE (R305): a sample record. -/
def execSamplerSample (s : State) : Result := s.does (fun e => e.sample)

/-- TX_FRAME_START (R350): a frame start on a port, at the beat's CLK_DP cycle and segment. -/
def execTxFrameStart (p : PortId) (dp : Fin 4) (seg : Fin 16) (s : State) : Result :=
  s.does (fun e => e.startAt p dp.val seg.val)

/-- TX_FRAME_END (R166): the frame on the wire ends; a failed frame behind it is stomped as it comes to the front (R191). -/
def execTxFrameEnd (p : PortId) (s : State) : Result := s.does (fun e => (e.frameEnd p).stompAll p)

/-- TX_UNDERRUN (R107): the frame on the wire runs dry. -/
def execTxUnderrun (p : PortId) (s : State) : Result := s.does (fun e => (e.underrun p).stompAll p)

/-- TRUMP_FRAME_START (R118): a control frame starts. -/
def execTrumpFrameStart (p : PortId) (s : State) : Result := s.does (fun e => e.trumpStart p)

/-- TX_HOLD (R487): MI_TX_HOLD of a slot. -/
def execTxHold (slot : PortId) (on : Bool) (s : State) : Result := s.does (fun e => e.setHold slot on)

/-- CT_THRESHOLD_LOWER (R108): the cut-through threshold goes down one level. -/
def execCtThresholdLower (p : PortId) (s : State) : Result := s.does (fun e => e.ctLower p)

/-- TX_BATCH_TIMEOUT (R170): an open batch is written. -/
def execTxBatchTimeout (q : TxqId) (s : State) : Result := s.does (fun e => e.txBatchOut q)

/-- RX_COAL_TIMEOUT (R183): an RX_COMPL event is due. -/
def execRxCoalTimeout (q : RxqId) (s : State) : Result := s.does (fun e => e.rxEvent q true)

/-- PACK_TIMEOUT (R175): the open buffer is closed. -/
def execPackTimeout (q : RxqId) (s : State) : Result := s.does (fun e => e.packClose q)

/-- EQ_MOD_TIME (R185): the oldest event is MOD_TIME old. -/
def execEqModTime (e : EqId) (s : State) : Result := s.does (fun x => x.modRaise e)

/-- ANCHOR_TIMER (R178): an ANCHOR is due. -/
def execAnchorTimer (q : RxqId) (s : State) : Result := s.does (fun e => e.anchorTimer q)

end Sys2Proof.Machine
end

