-- ==== Sys2Proof/Machine/Links.lean ====
section
/-! DEFINITION. Links.lean: flow control timers, LLDP timers, links, modules and thinning (03_ports_partners.md, 04_wire.md, 05_thinning.md, 20_edge_signals.md R487 to R489). -/
namespace Sys2Proof.Machine

/-- PAUSE_TIMER_EXPIRY (R110): a pause timer reaches zero. -/
def execPauseTimerExpiry (p : PortId) (c : Option Tc) (s : State) : Result := s.does (fun e => e.pauseExpiry p c)

/-- FC_REFRESH (R116): a refreshing frame is made ready. -/
def execFcRefresh (p : PortId) (c : Tc) (s : State) : Result := s.does (fun e => e.fcRefresh p c)

/-- PFC_WATCHDOG_EXPIRY (R125): a class enters DRAIN. -/
def execPfcWatchdogExpiry (p : PortId) (c : Tc) (s : State) : Result := s.does (fun e => e.pfcWatchdog p c)

/-- DRAIN_RESTORE (R126): a class leaves DRAIN. -/
def execDrainRestore (p : PortId) (c : Tc) (s : State) : Result := s.does (fun e => e.drainRestore p c)

/-- LLDP_TX_TIMER (R85): an LLDPDU enters the trump store. -/
def execLldpTxTimer (p : PortId) (s : State) : Result := s.does (fun e => e.lldpTimer p)

/-- PARTNER_TTL_EXPIRY (R89): the partner record expires. -/
def execPartnerTtlExpiry (p : PortId) (s : State) : Result := s.does (fun e => e.partnerExpiry p)

/-- LINK_UP (R488): a link comes up. -/
def execLinkUp (p : PortId) (s : State) : Result := s.does (fun e => e.linkUp p)

/-- LINK_FAULT (R73): a link fault, or loss of signal-detect, of a slot. -/
def execLinkFault (slot : PortId) (sigdet : Bool) (s : State) : Result := s.does (fun e => e.linkFault slot sigdet)

/-- UP_DEBOUNCE_EXPIRY (R73): the port enters UP. -/
def execUpDebounceExpiry (p : PortId) (s : State) : Result := s.does (fun e => e.debounced p)

/-- TRAIN_TIMEOUT (R73): training is restarted. -/
def execTrainTimeout (p : PortId) (s : State) : Result := s.does (fun e => e.trainTimeout p)

/-- PRESENCE_CONFIRMED (R77): presence of a module. -/
def execPresenceConfirmed (cage : Cage) (present : Bool) (s : State) : Result := s.does (fun e => e.presenceSeen cage present)

/-- MODULE_INTERRUPT (R83): MOD_INT_N low. -/
def execModuleInterrupt (cage : Cage) (flags : BitVec 64) (laneFlags : BitVec 512) (st : ModState) (s : State) : Result :=
  s.does (fun e => e.moduleIrq cage flags laneFlags st)

/-- MODULE_POLL (R82): the module state is read. -/
def execModulePoll (cage : Cage) (st : ModState) (dpActive : BitVec 8) (s : State) : Result :=
  s.does (fun e => e.modRead cage st dpActive)

/-- MODULE_BUS_TRANSACTION_DONE (R79): a transaction has come back. -/
def execModuleBusTransactionDone (cage : Cage) (d : ModData) (s : State) : Result := s.does (fun e => e.busDone cage d)

/-- MODULE_BUS_RETRY (R79): a failed transaction is tried again. -/
def execModuleBusRetry (cage : Cage) (s : State) : Result := s.does (fun e => e.busRetry cage)

/-- MGMT_INIT_TIMEOUT (R78): no answer of the lower page. -/
def execMgmtInitTimeout (cage : Cage) (s : State) : Result := s.does (fun e => e.mgmtTimeout cage)

/-- MODULE_STATE_TIMEOUT (R82): a state change takes too long. -/
def execModuleStateTimeout (cage : Cage) (s : State) : Result := s.does (fun e => e.moduleTimeout cage)

/-- THIN_INTERVAL (R135): a load interval closes. -/
def execThinInterval (p : PortId) (s : State) : Result := s.does (fun e => e.thinInterval p)

/-- PROPOSE_RETRY (R143): a PROPOSE is unanswered. -/
def execProposeRetry (p : PortId) (s : State) : Result := s.does (fun e => e.proposeRetry p)

/-- HANDSHAKE_TIMEOUT (R148): no MARK. -/
def execHandshakeTimeout (p : PortId) (s : State) : Result := s.does (fun e => e.handshakeTimeout p)

/-- READY_TIMEOUT (R148): READYs are not exchanged. -/
def execReadyTimeout (p : PortId) (s : State) : Result := s.does (fun e => e.readyTimeout p)

/-- THIN_GAP_END (R144): the transmit gap ends. -/
def execThinGapEnd (p : PortId) (s : State) : Result := s.does (fun e => e.gapEnd p)

/-- WARM_LANE_EXPIRY (R147): a warm lane goes cold. -/
def execWarmLaneExpiry (p : PortId) (lane : Fin 8) (s : State) : Result := s.does (fun e => e.laneCold p lane.val)

/-- MI_CTL_ACK (R489): the line block answers. -/
def execMiCtlAck (p : PortId) (failed : Bool) (s : State) : Result := s.does (fun e => e.miAck p failed)

/-- MI_CTL_TIMEOUT (R489): the line block has not answered. -/
def execMiCtlTimeout (p : PortId) (s : State) : Result := s.does (fun e => e.miTimeout p)

end Sys2Proof.Machine
end

