-- ==== Sys2Proof/Machine/Pair.lean ====
section
/-! DEFINITION. Pair.lean: the pair link and the lease (17_pair.md, 20_edge_signals.md R503, R504). -/
namespace Sys2Proof.Machine

/-- HEARTBEAT_TIMER (R504): a HEARTBEAT leaves. -/
def execHeartbeatTimer (s : State) : Result := s.does (fun e => e.heartbeat)

/-- RX_HEARTBEAT (R448): a HEARTBEAT. -/
def execRxHeartbeat (h : Heartbeat) (s : State) : Result := s.does (fun e => e.rxHeartbeat h)

/-- HEARTBEAT_LOSS (R449): sixteen heartbeats are missed. -/
def execHeartbeatLoss (s : State) : Result := s.does (fun e => e.heartbeatLoss)

/-- RX_HELLO (R437): a HELLO; the firmware version is that of the slot that runs. -/
def execRxHello (h : Hello) (s : State) : Result :=
  s.does (fun e => e.rxHello (if s.boot.runB then s.boot.b else s.boot.a).version h)

/-- HELLO_TIMER (R437): a HELLO leaves. -/
def execHelloTimer (s : State) : Result := s.does (fun e => e.helloTimer)

/-- PAIR_FORM_TIMEOUT (R437): no HELLO of the partner's. -/
def execPairFormTimeout (s : State) : Result := s.does (fun e => e.formTimeout)

/-- JOURNAL_PERIOD (R442): a journal record leaves. -/
def execJournalPeriod (s : State) : Result := s.does (fun e => e.journalPeriod)

/-- RX_JOURNAL (R442): a journal record; no rule has its epoch checked. -/
def execRxJournal (n : BitVec 32) (_epoch : BitVec 32) (chg : List JChange) (s : State) : Result :=
  s.does (fun e => e.rxJournal s.budget n chg)

/-- RX_JOURNAL_ACK (R443): a record is acknowledged. -/
def execRxJournalAck (n : BitVec 32) (s : State) : Result := s.does (fun e => e.journalAck n)

/-- JOURNAL_ACK_TIMEOUT (R443): a record is unacknowledged. -/
def execJournalAckTimeout (s : State) : Result := s.does (fun e => e.journalTimeout)

/-- RX_COPY (R437): content of a bank. -/
def execRxCopy (bank : BankId) (chg : List JChange) (last : Bool) (s : State) : Result :=
  s.does (fun e => e.rxCopy s.budget bank chg last)

/-- RX_COPY_ACK (R437): a bank is acknowledged. -/
def execRxCopyAck (bank : BankId) (s : State) : Result := s.does (fun e => e.copyAck bank)

/-- RX_HANDOVER (R447): HANDOVER. -/
def execRxHandover (epoch : BitVec 32) (s : State) : Result := s.does (fun e => e.rxHandover epoch)

/-- RX_PAIR_WAKE_MSG (R503): a WAKE message raises PAIR_RX_WAKE. -/
def execRxPairWakeMsg (s : State) : Result := s.does (fun e => (e.wakeEvent 7 0 0))

/-- LEASE_RENEW (R440): the active renews its lease. -/
def execLeaseRenew (s : State) : Result := s.does (fun e => e.leaseRenew)

/-- LEASE_CAS_DONE (R439): a compare-and-swap has come back. -/
def execLeaseCasDone (r : CasResult) (s : State) : Result := s.does (fun e => e.leaseDone r)

/-- LEASE_FENCE (R440): no renewal has succeeded. -/
def execLeaseFence (s : State) : Result := s.does (fun e => e.leaseFence)

/-- LEASE_POLL (R441): the standby reads the lease word. -/
def execLeasePoll (word : BitVec 64) (s : State) : Result := s.does (fun e => e.leasePoll word)

end Sys2Proof.Machine
end

