-- ==== Sys2Proof/Machine/Registers.lean ====
section
/-! DEFINITION. Registers.lean: the commands that are accesses on CSR_T or on the debug port (02_control.md R27 to R47, 20_edge_signals.md R499, R507). -/
namespace Sys2Proof.Machine

/-- An access on CSR_T (R499). -/
def State.access (s : State) (write : Bool) (a : Csr) : Result := s.does (fun e => e.csr s.boot.runB s.budget write a)

/-- F0's 64-bit write of a register of the engine window with the bits of `clear` cleared and those of `set` set, its
other bits as it reads. -/
def Eng.keep (e : Eng) (b : Budget) (off clear set : Nat) : Csr :=
  let v := BitVec.ofNat 64 (e.regRead false b (f0Write off 0)).1
  f0Write off ((v &&& ~~~BitVec.ofNat 64 clear) ||| BitVec.ofNat 64 set).toNat

/-- TX_DOORBELL (R158): a write of a producer index to DBL_TXQ[n]. -/
def execTxDoorbell (fn : Fn) (n : Fin 4096) (idx : BitVec 16) (s : State) : Result :=
  s.access true (fnAcc fn (8 * n.val) idx.toNat)

/-- RX_DOORBELL (R158): a write of a post producer index to DBL_RXQ[n]. -/
def execRxDoorbell (fn : Fn) (n : Fin 4096) (idx : BitVec 16) (s : State) : Result :=
  s.access true (fnAcc fn (0x8000 + 8 * n.val) idx.toNat)

/-- EQ_HEAD_UPDATE (R183): a write of HEAD to DBL_EQ[n], with ARM 0. -/
def execEqHeadUpdate (fn : Fn) (n : Fin 512) (head : BitVec 16) (s : State) : Result :=
  s.access true (fnAcc fn (0x10000 + 8 * n.val) head.toNat)

/-- EQ_ARM (R185): a write of HEAD to DBL_EQ[n], with ARM 1. -/
def execEqArm (fn : Fn) (n : Fin 512) (head : BitVec 16) (s : State) : Result :=
  s.access true (fnAcc fn (0x10000 + 8 * n.val) (head.toNat + 65536))

/-- QUENCH (R35): a write of QCH_QUENCH.QUENCH. -/
def execQuench (fn : Fn) (on : Bool) (s : State) : Result := s.access true (fnAcc fn 0x11400 (b2n on))

/-- ADMIN_QUENCH (R42): F0's write of QCH_ADMIN[f].QUENCH. -/
def execAdminQuench (f : Fn) (on : Bool) (s : State) : Result := s.access true (f0Write (0x100000 + 8 * f.val) (b2n on))

/-- FAST_TIME_READ (R39): a 64-bit read of TSU_FT_LO, which latches TSU_FT_HI. -/
def execFastTimeRead (fn : Fn) (s : State) : Result := s.access false (fnAcc fn 0x12000 0)

/-- MBX_GO (R49): a write of 1 to MBX_DOORBELL.GO. -/
def execMbxGo (fn : Fn) (s : State) : Result := s.access true (fnAcc fn 0x11200 1)

/-- MBX_REQ_WRITE (R47): a write of request bytes to MBX_REQ. -/
def execMbxReqWrite (fn : Fn) (off : Fin 256) (size : Nat) (data : BitVec 64) (s : State) : Result :=
  s.access true { fn := fn, win := false, off := BitVec.ofNat 22 (0x11000 + off.val), size := size, data := data }

/-- REGISTER_WRITE (R10): a write access of any register. -/
def execRegisterWrite (a : Csr) (s : State) : Result := s.access true a

/-- REGISTER_READ (R10): a read access of any register. -/
def execRegisterRead (a : Csr) (s : State) : Result := s.access false a

/-- STALLED_ACCESS_COMPLETE (R29): the oldest stalled access completes. -/
def execStalledAccessComplete (s : State) : Result := s.does (fun e => e.stalledDone s.boot.runB s.budget)

/-- TB_SNAP (R316): a write of TSU_TB_CTRL.SNAP of base n. -/
def execTbSnap (n : TbId) (s : State) : Result := s.access true (f0Write (0x40000 + 0x100 * n.val) 1)

/-- TB_STEP (R316): a write of TSU_TB_CTRL.STEP of base n. -/
def execTbStep (n : TbId) (s : State) : Result := s.access true (f0Write (0x40000 + 0x100 * n.val) 2)

/-- TB_ADD (R316): a write of TSU_TB_CTRL.ADD of base n. -/
def execTbAdd (n : TbId) (s : State) : Result := s.access true (f0Write (0x40000 + 0x100 * n.val) 4)

/-- SLEW_GO (R318): a write of TSU_TB_CTRL.SLEW_GO of base n. -/
def execSlewGo (n : TbId) (s : State) : Result := s.access true (f0Write (0x40000 + 0x100 * n.val) 8)

/-- SLEW_STOP (R318): a write of TSU_TB_CTRL.SLEW_STOP of base n. -/
def execSlewStop (n : TbId) (s : State) : Result := s.access true (f0Write (0x40000 + 0x100 * n.val) 16)

/-- PPO_MODE_SET (R324): a write of TSU_PPO_CTRL.MODE of output k, its other fields as they are, MISSED not cleared. -/
def execPpoModeSet (k : Fin 8) (mode : Fin 4) (s : State) : Result :=
  s.access true (s.eng.keep s.budget (0x41000 + 0x40 * k.val) 0x103 mode.val)

/-- CAPTURE_READ (R325): a 64-bit read of TSU_CAP_LO of input k. -/
def execCaptureRead (k : Fin 8) (s : State) : Result := s.access false (f0Write (0x42008 + 0x40 * k.val) 0)

/-- PPS_READ (R326): a 64-bit read of TSU_PPS_LO[n]. -/
def execPpsRead (n : TbId) (s : State) : Result := s.access false (f0Write (0x42208 + 0x10 * n.val) 0)

/-- CARRY_GO (R373): a write of CRY_CH_CTRL of channel ch with GO, its other fields as they are. -/
def execCarryGo (ch : ChId) (s : State) : Result := s.access true (s.eng.keep s.budget (0x140000 + 0x1000 * ch.val) 0 2)

/-- CARRY_DISABLE (R372): a write of CRY_CH_CTRL of channel ch with ENABLE 0, its other fields as they are. -/
def execCarryDisable (ch : ChId) (s : State) : Result := s.access true (s.eng.keep s.budget (0x140000 + 0x1000 * ch.val) 1 0)

/-- CARRY_RESUME (R370): a write of CRY_GLOBAL.RESUME, AUTO_RESUME as it is. -/
def execCarryResume (s : State) : Result := s.access true (s.eng.keep s.budget 0x140800 0 4)

/-- DEBUG_HALT (R386): a write of DBG_THREAD_CTRL.HALT of thread t. -/
def execDebugHalt (t : ThreadId) (s : State) : Result := s.access true (f0Write (0x200108 + 0x40 * t.val) 1)

/-- DEBUG_RESUME (R386): a write of DBG_THREAD_CTRL.RESUME of thread t. -/
def execDebugResume (t : ThreadId) (s : State) : Result := s.access true (f0Write (0x200108 + 0x40 * t.val) 2)

/-- DEBUG_STEP (R386): a write of DBG_THREAD_CTRL.STEP of thread t. -/
def execDebugStep (t : ThreadId) (s : State) : Result := s.access true (f0Write (0x200108 + 0x40 * t.val) 4)

/-- DBG_PORT_ACCESS (R507): an access on the debug port. -/
def execDbgPortAccess (off : BitVec 22) (write : Bool) (data : BitVec 64) (s : State) : Result :=
  s.does (fun e => e.dbgPort s.boot.runB s.budget off.toNat write data.toNat)

/-- FAULT_FORCE (R405): a write of FLT_FORCE. -/
def execFaultForce (mask : BitVec 64) (s : State) : Result := s.access true (f0Write 0x10020 mask.toNat)

/-- FIRST_ERROR_RELEASE (R399): a write of 1 to FLT_FIRST_SRC.VALID. -/
def execFirstErrorRelease (s : State) : Result := s.access true (f0Write 0x10100 65536)

/-- TALLY_FREEZE (R461): a write of TLY_CTRL.FREEZE, its other fields as they are. -/
def execTallyFreeze (on : Bool) (s : State) : Result := s.access true (s.eng.keep s.budget 0x80000 1 (b2n on))

/-- TALLY_SNAP (R461): a write of TLY_CTRL.SNAP, its other fields as they are. -/
def execTallySnap (s : State) : Result := s.access true (s.eng.keep s.budget 0x80000 0 2)

/-- TALLY_CLEAR_ALL (R462): a write of TLY_CTRL.CLEAR_ALL, its other fields as they are. -/
def execTallyClearAll (s : State) : Result := s.access true (s.eng.keep s.budget 0x80000 0 4)

/-- SLOT_CLEAR (R466): a write of TLY_CTRL.SLOT_CLEAR, its other fields as they are. -/
def execSlotClear (s : State) : Result := s.access true (s.eng.keep s.budget 0x80000 0 8)

/-- TALLY_COUNTER_WRITE (R462): a write of TLY_CNT[k]. -/
def execTallyCounterWrite (k : Fin 256) (v : BitVec 48) (s : State) : Result :=
  s.access true (f0Write (0x81000 + 0x40 * k.val) v.toNat)

/-- BW_WINDOWS_ENABLE (R467): a write of TLY_BW_CTRL.EN, its other fields as they are. -/
def execBwWindowsEnable (s : State) : Result := s.access true (s.eng.keep s.budget 0x89000 0 1)

end Sys2Proof.Machine
end

