-- ==== Sys2Proof/Machine/System.lean ====
section
/-! DEFINITION. System.lean: the control processor, faults, power, start-up and Tally (14_lcp.md, 15_faults.md, 16_power.md, 18_tally.md, 19_startup.md). -/
namespace Sys2Proof.Machine

/-- LCP_WATCHDOG_EXPIRY (R378): the LCP restarts. -/
def execLcpWatchdogExpiry (s : State) : Result := s.does (fun e => e.lcpWatchdog)

/-- THREAD_FAULT (R379): a thread faults. -/
def execThreadFault (t : ThreadId) (cause : BitVec 8) (s : State) : Result := s.does (fun e => e.threadFault t cause.toNat)

/-- THREAD_RESTART (R380): a faulted thread restarts. -/
def execThreadRestart (t : ThreadId) (s : State) : Result := s.does (fun e => e.threadRestart t)

/-- CHANNEL_HOLD_EXPIRY (R385): a channel is held too long. -/
def execChannelHoldExpiry (c : ChnId) (s : State) : Result := s.does (fun e => e.holdExpiry c)

/-- CHANNEL_WRITE (R381): a word of a message. -/
def execChannelWrite (t : ThreadId) (c : ChnId) (w : BitVec 64) (last : Bool) (s : State) : Result :=
  s.does (fun e => e.chnWrite t c w last)

/-- CHANNEL_READ (R381): a message is read. -/
def execChannelRead (t : ThreadId) (c : ChnId) (s : State) : Result := s.does (fun e => e.chnRead t c)

/-- DEADLOCK_DETECTED (R383): the LCP restarts. -/
def execDeadlockDetected (s : State) : Result := s.does (fun e => e.deadlocked)

/-- LCP_RESTART_READY (R382): READY comes back. -/
def execLcpRestartReady (s : State) : Result := s.does (fun e => e.lcpReady)

/-- FAULT_EVENT (R394): events of one edge, with what has happened in the units that drive them. -/
def execFaultEvent (evs : List FaultEv) (s : State) : Result := s.does (fun e => foldEng evs (fun e v => (e.unitFault v).raiseEv v) e)

/-- REACTION_RELEASED (R401): the k-th shadow is released. -/
def execReactionReleased (k : Nat) (s : State) : Result := s.does (fun e => e.reactionReleased k)

/-- SHADOW_EXPIRY (R403): the k-th shadow closes. -/
def execShadowExpiry (k : Nat) (s : State) : Result := s.does (fun e => e.shadowExpiry k)

/-- FAULT_WINDOW_EXPIRY (R395): a window closes. -/
def execFaultWindowExpiry (w : FaultWin) (s : State) : Result := s.does (fun e => e.windowExpiry w)

/-- PB_BANK_RETIRED (R396): a bank is out of service. -/
def execPbBankRetired (b : Fin 32) (s : State) : Result := s.does (fun e => e.bankRetired b)

/-- IRQ_STALL (R500): IRQ_MSG_RDY is held low. -/
def execIrqStall (s : State) : Result := s.does (fun e => e.stallIrqs)

/-- SCRUB (R544): the scrubber reads a memory. -/
def execScrub (mem : ScrubMem) (res : ScrubResult) (s : State) : Result := s.does (fun e => e.scrub mem res)

/-- PWR_REQ (R414): a request on PWR_REQ. -/
def execPwrReq (target : Fin 4) (tag : Fin 16) (s : State) : Result :=
  s.does (fun e => e.pwrReq target.val tag s.budget.credits)

/-- POWER_ENTRY_START (R417): E1 begins. -/
def execPowerEntryStart (s : State) : Result := s.does (fun e => e.entryStart)

/-- ENTRY_PREPARE_DONE (R417): E1 ends. -/
def execEntryPrepareDone (s : State) : Result := s.does (fun e => e.entryPrepared)

/-- RING_DRAIN_DONE (R418): E2 ends. -/
def execRingDrainDone (s : State) : Result := s.does (fun e => e.ringDrained s.budget.credits)

/-- RING_DRAIN_TIMEOUT (R419): E2 takes too long. -/
def execRingDrainTimeout (s : State) : Result := s.does (fun e => e.drainTimeout s.budget.credits)

/-- BUFFER_FLUSH_DONE (R418): E3 ends. -/
def execBufferFlushDone (s : State) : Result := s.does (fun e => e.bufferFlushed s.budget.credits)

/-- SIGNING_DONE (R427): E4 ends; the passage of A4 takes a credit (R430). -/
def execSigningDone (sigs : List (BitVec 32)) (s : State) : Result :=
  let t := s.run (fun e => e.signDone sigs s.budget.credits)
  .next { t with budget := s.budget.take s.eng t.eng }

/-- POWER_SWITCH_DONE (R417): E5 ends. -/
def execPowerSwitchDone (s : State) : Result := s.does (fun e => e.switchDone s.budget.credits)

/-- DOMAIN_SWITCH_TIMEOUT (R420): a domain has not switched. -/
def execDomainSwitchTimeout (s : State) : Result := s.does (fun e => e.switchTimeout)

/-- WAKE_TIMER (R421): WAKE_AT is reached. -/
def execWakeTimer (s : State) : Result := s.does (fun e => e.wakeTimer)

/-- WATCH_WINDOW_OPEN (R425): the watch window opens. -/
def execWatchWindowOpen (s : State) : Result := s.does (fun e => e.windowOpen)

/-- WATCH_WINDOW_CLOSE (R425): the watch window closes. -/
def execWatchWindowClose (s : State) : Result := s.does (fun e => e.windowClose)

/-- WATCH_FRAME (R426): a frame on the watch lane. -/
def execWatchFrame (bytes : List Byte) (err : Bool) (s : State) : Result := s.does (fun e => e.watchFrame bytes err)

/-- LINK_ACTIVITY (R421): activity on a lane. -/
def execLinkActivity (slot : PortId) (s : State) : Result := s.does (fun e => e.linkActivity slot)

/-- PAIR_WAKE_SIGNAL (R421): PAIR_RX_WAKE. -/
def execPairWakeSignal (s : State) : Result := s.does (fun e => e.wakeEvent 7 0 0)

/-- PLL_LOCKED (R423): W2 ends. -/
def execPllLocked (s : State) : Result := s.does (fun e => e.pllLocked)

/-- WAKE_POWER_DONE (R423): W3 ends. -/
def execWakePowerDone (s : State) : Result := s.does (fun e => e.powerDone)

/-- CONTROL_STATE_RESTORED (R423): W4 ends. -/
def execControlStateRestored (sigs : List (BitVec 32)) (s : State) : Result := s.does (fun e => e.controlRestored sigs)

/-- RETENTION_CHECK_DONE (R427): the check of W5 ends. -/
def execRetentionCheckDone (sigs : List (BitVec 32)) (ecc : List BankId) (s : State) : Result :=
  s.does (fun e => e.retentionChecked sigs ecc)

/-- BANK_RECOVERED (R428): a LOST bank is recovered. -/
def execBankRecovered (b : BankId) (src : Recovery) (s : State) : Result := s.does (fun e => e.bankRecovered b src)

/-- WAKE_START_DONE (R423): W6 ends. -/
def execWakeStartDone (s : State) : Result := s.does (fun e => e.wakeStarted s.budget.credits)

/-- BUDGET_CREDIT (R430): a credit is gained. -/
def execBudgetCredit (s : State) : Result := .next { s.run (fun e => e) with budget := s.budget.gain s.eng.now }

/-- RESET_ASSERT (R484): BLK_RST_N goes low. -/
def execResetAssert (s : State) : Result := .next s.assertReset

/-- RESET_RELEASE (R473): BLK_RST_N goes high. -/
def execResetRelease (s : State) : Result := s.does (fun e => e.releaseReset)

/-- REF_CLK_LOSS (R484): REF_CLK is missing. -/
def execRefClkLoss (s : State) : Result := s.does (fun e => e.refClkLost)

/-- PLL_LOCK_LOSS (R539): the root PLL is out of lock. -/
def execPllLockLoss (s : State) : Result := s.does (fun e => e.pllLost)

/-- MEMORY_INIT_DONE (R473): S3 ends. -/
def execMemoryInitDone (s : State) : Result := .next s.memoryInit

/-- IMAGE_LOAD_DONE (R388): S4 and S5 end. -/
def execImageLoadDone (img : ImageInfo) (s : State) : Result := .next (s.imageLoaded img)

/-- SELF_TEST_DONE (R476): S6 ends. -/
def execSelfTestDone (r : SelfTest) (s : State) : Result := s.does (fun e => e.selfTested r)

/-- START_READY (R473): S7 ends. -/
def execStartReady (s : State) : Result := .next s.startReady

/-- TRIAL_TIMEOUT (R473): a trial slot has not reached READY. -/
def execTrialTimeout (s : State) : Result := .next s.trialTimeout

/-- RESET_DRAIN_DONE (R478): X2 ends. -/
def execResetDrainDone (s : State) : Result := s.does (fun e => e.resetDrained)

/-- TALLY_COUNT (R456): one CLK_CTL edge. -/
def execTallyCount (s : State) : Result := s.does (fun e => e.tallyCount)

/-- BW_WINDOW_BOUNDARY (R467): a bandwidth window ends. -/
def execBwWindowBoundary (s : State) : Result := s.does (fun e => e.bwBoundary)

end Sys2Proof.Machine
end

