-- ==== Sys2Proof/Machine/Times.lean ====
section
/-! DEFINITION. Times.lean: the time unit, Decks and Carry (11_time.md, 12_deck_launch.md, 13_carry.md). -/
namespace Sys2Proof.Machine

/-- TIME_BASE_INCREMENT (R312): one CLK_TS edge. -/
def execTimeBaseIncrement (s : State) : Result := s.does (fun e => e.timeTick)

/-- HOLDOVER_INCREMENT (R321): one CLK_AON edge in holdover. -/
def execHoldoverIncrement (s : State) : Result := s.does (fun e => e.holdTick)

/-- PULSE_EDGE (R324): a due edge of a pulse output. -/
def execPulseEdge (k : Fin 8) (s : State) : Result := s.does (fun e => e.pulseEdge k)

/-- CAPTURE_EDGE (R325): an edge of a capture input. -/
def execCaptureEdge (k : Fin 8) (rise : Bool) (s : State) : Result := s.does (fun e => e.capture k rise)

/-- PPS_EDGE (R326): an edge of TS_1PPS_IN. -/
def execPpsEdge (s : State) : Result := s.does (fun e => e.ppsEdge)

/-- TSQ_ENTRY_EXPIRY (R333): a time-stamp is unread for 1 s. -/
def execTsqEntryExpiry (p : PortId) (s : State) : Result := s.does (fun e => e.tsqExpire p)

/-- GATE_ENTRY_CHANGE (R340): the gates follow their list. -/
def execGateEntryChange (p : PortId) (s : State) : Result := s.does (fun e => e.gateUpdate p)

/-- DECK_CUT (R342): the admin list becomes operational. -/
def execDeckCut (p : PortId) (s : State) : Result := s.does (fun e => e.deckCut p false)

/-- DECK_CLEAR_POINT (R344): every gate opens. -/
def execDeckClearPoint (p : PortId) (s : State) : Result := s.does (fun e => e.deckClearPoint p)

/-- CARRY_AUTO_RESUME (R370): Carry resumes by itself. -/
def execCarryAutoResume (s : State) : Result := s.does (fun e => if e.carry.autoResume then e.carryResume else e)

/-- CARRY_VALIDATE_DONE (R361): the first pass ends. -/
def execCarryValidateDone (ch : ChId) (els : List (BitVec 256)) (s : State) : Result := s.does (fun e => e.carryChecked ch els)

/-- CARRY_REQUEST_COMPLETE (R364): a request has run its course. -/
def execCarryRequestComplete (ch : ChId) (s : State) : Result := s.does (fun e => e.carryComplete ch)

/-- CARRY_SLOT_OFFER (R363): a slot is offered. -/
def execCarrySlotOffer (write : Bool) (s : State) : Result := s.does (fun e => e.carrySlot write)

end Sys2Proof.Machine
end

