-- ==== Sys2Proof/Machine/Dispatch.lean ====
section
/-! DEFINITION. Dispatch.lean: one arm per command. -/
namespace Sys2Proof.Machine

/-- The effect of a command on everything but the queue. -/
def exec (i : Instr) (s : State) : Host.Outcome State Fault Refusal :=
  match i with
  | .txDoorbell fn n idx => Sys2Proof.Machine.execTxDoorbell fn n idx s
  | .rxDoorbell fn n idx => Sys2Proof.Machine.execRxDoorbell fn n idx s
  | .eqHeadUpdate fn n head => Sys2Proof.Machine.execEqHeadUpdate fn n head s
  | .eqArm fn n head => Sys2Proof.Machine.execEqArm fn n head s
  | .quench fn on => Sys2Proof.Machine.execQuench fn on s
  | .adminQuench f on => Sys2Proof.Machine.execAdminQuench f on s
  | .fastTimeRead fn => Sys2Proof.Machine.execFastTimeRead fn s
  | .mbxGo fn => Sys2Proof.Machine.execMbxGo fn s
  | .mbxReqWrite fn off size data => Sys2Proof.Machine.execMbxReqWrite fn off size data s
  | .registerWrite a => Sys2Proof.Machine.execRegisterWrite a s
  | .commandTimeout fn => Sys2Proof.Machine.execCommandTimeout fn s
  | .progressReport fn done total => Sys2Proof.Machine.execProgressReport fn done total s
  | .funcConfig fn => Sys2Proof.Machine.execFuncConfig fn s
  | .funcReset fn => Sys2Proof.Machine.execFuncReset fn s
  | .configGet fn => Sys2Proof.Machine.execConfigGet fn s
  | .rejectLogGet fn => Sys2Proof.Machine.execRejectLogGet fn s
  | .commit fn => Sys2Proof.Machine.execCommit fn s
  | .engReset fn => Sys2Proof.Machine.execEngReset fn s
  | .resetInfoGet fn => Sys2Proof.Machine.execResetInfoGet fn s
  | .portGroup fn cf => Sys2Proof.Machine.execPortGroup fn cf s
  | .portConfig fn cf => Sys2Proof.Machine.execPortConfig fn cf s
  | .portStateGet fn => Sys2Proof.Machine.execPortStateGet fn s
  | .portEventSubscribe fn => Sys2Proof.Machine.execPortEventSubscribe fn s
  | .moduleConfig fn => Sys2Proof.Machine.execModuleConfig fn s
  | .moduleReset fn => Sys2Proof.Machine.execModuleReset fn s
  | .moduleInfoGet fn => Sys2Proof.Machine.execModuleInfoGet fn s
  | .moduleAccess fn bus => Sys2Proof.Machine.execModuleAccess fn bus s
  | .lldpConfig fn => Sys2Proof.Machine.execLldpConfig fn s
  | .lldpPartnerGet fn => Sys2Proof.Machine.execLldpPartnerGet fn s
  | .fcConfig fn cf => Sys2Proof.Machine.execFcConfig fn cf s
  | .kittyConfig fn => Sys2Proof.Machine.execKittyConfig fn s
  | .thinStatusGet fn => Sys2Proof.Machine.execThinStatusGet fn s
  | .trailerConfig fn => Sys2Proof.Machine.execTrailerConfig fn s
  | .trailerRingCreate fn => Sys2Proof.Machine.execTrailerRingCreate fn s
  | .trailerRingDestroy fn => Sys2Proof.Machine.execTrailerRingDestroy fn s
  | .txqCreate fn cf => Sys2Proof.Machine.execTxqCreate fn cf s
  | .rxqCreate fn => Sys2Proof.Machine.execRxqCreate fn s
  | .eqCreate fn => Sys2Proof.Machine.execEqCreate fn s
  | .queueModify fn => Sys2Proof.Machine.execQueueModify fn s
  | .queueStart fn => Sys2Proof.Machine.execQueueStart fn s
  | .queueStop fn => Sys2Proof.Machine.execQueueStop fn s
  | .queueStopped o => Sys2Proof.Machine.execQueueStopped o s
  | .queueReset fn => Sys2Proof.Machine.execQueueReset fn s
  | .queueDestroy fn cf => Sys2Proof.Machine.execQueueDestroy fn cf s
  | .queueQuery fn => Sys2Proof.Machine.execQueueQuery fn s
  | .queueStats fn => Sys2Proof.Machine.execQueueStats fn s
  | .vectorMask fn => Sys2Proof.Machine.execVectorMask fn s
  | .xltFuncConfig fn => Sys2Proof.Machine.execXltFuncConfig fn s
  | .xltConfig fn => Sys2Proof.Machine.execXltConfig fn s
  | .offloadProfileSet fn => Sys2Proof.Machine.execOffloadProfileSet fn s
  | .steerPortConfig fn => Sys2Proof.Machine.execSteerPortConfig fn s
  | .steerGenSet fn => Sys2Proof.Machine.execSteerGenSet fn s
  | .steerRuleBatch fn cf => Sys2Proof.Machine.execSteerRuleBatch fn cf s
  | .steerSwap fn => Sys2Proof.Machine.execSteerSwap fn s
  | .steerStatusGet fn => Sys2Proof.Machine.execSteerStatusGet fn s
  | .steerConfig fn => Sys2Proof.Machine.execSteerConfig fn s
  | .streamGroupSet fn => Sys2Proof.Machine.execStreamGroupSet fn s
  | .spreadCreate fn => Sys2Proof.Machine.execSpreadCreate fn s
  | .spreadDestroy fn => Sys2Proof.Machine.execSpreadDestroy fn s
  | .spreadSet fn => Sys2Proof.Machine.execSpreadSet fn s
  | .policerSet fn => Sys2Proof.Machine.execPolicerSet fn s
  | .wakePatternSet fn => Sys2Proof.Machine.execWakePatternSet fn s
  | .policerStats fn => Sys2Proof.Machine.execPolicerStats fn s
  | .steerStats fn => Sys2Proof.Machine.execSteerStats fn s
  | .dealerNodeCreate fn => Sys2Proof.Machine.execDealerNodeCreate fn s
  | .dealerNodeDestroy fn => Sys2Proof.Machine.execDealerNodeDestroy fn s
  | .dealerSet fn cf => Sys2Proof.Machine.execDealerSet fn cf s
  | .dealerQuery fn => Sys2Proof.Machine.execDealerQuery fn s
  | .dealerSamplerConfig fn => Sys2Proof.Machine.execDealerSamplerConfig fn s
  | .deckSet fn => Sys2Proof.Machine.execDeckSet fn s
  | .deckClear fn => Sys2Proof.Machine.execDeckClear fn s
  | .deckStatusGet fn => Sys2Proof.Machine.execDeckStatusGet fn s
  | .tsQueueRead fn => Sys2Proof.Machine.execTsQueueRead fn s
  | .powerSet fn => Sys2Proof.Machine.execPowerSet fn s
  | .powerStatusGet fn => Sys2Proof.Machine.execPowerStatusGet fn s
  | .faultInfoGet fn => Sys2Proof.Machine.execFaultInfoGet fn s
  | .pairConfig fn => Sys2Proof.Machine.execPairConfig fn s
  | .pairForm fn => Sys2Proof.Machine.execPairForm fn s
  | .pairLeave fn => Sys2Proof.Machine.execPairLeave fn s
  | .pairSwitchover fn => Sys2Proof.Machine.execPairSwitchover fn s
  | .pairResync fn => Sys2Proof.Machine.execPairResync fn s
  | .pairWake fn => Sys2Proof.Machine.execPairWake fn s
  | .pairStatusGet fn => Sys2Proof.Machine.execPairStatusGet fn s
  | .statsRead fn => Sys2Proof.Machine.execStatsRead fn s
  | .statsPeek fn => Sys2Proof.Machine.execStatsPeek fn s
  | .offloadStats fn => Sys2Proof.Machine.execOffloadStats fn s
  | .xltStats fn => Sys2Proof.Machine.execXltStats fn s
  | .carryFuncConfig fn => Sys2Proof.Machine.execCarryFuncConfig fn s
  | .carryClaim fn => Sys2Proof.Machine.execCarryClaim fn s
  | .carryRelease fn => Sys2Proof.Machine.execCarryRelease fn s
  | .carrySubmit fn => Sys2Proof.Machine.execCarrySubmit fn s
  | .carryStatus fn => Sys2Proof.Machine.execCarryStatus fn s
  | .carryAbort fn => Sys2Proof.Machine.execCarryAbort fn s
  | .carryStats fn => Sys2Proof.Machine.execCarryStats fn s
  | .fwInfoGet fn => Sys2Proof.Machine.execFwInfoGet fn s
  | .fwUpdate fn sigOk secOk writeOk => Sys2Proof.Machine.execFwUpdate fn sigOk secOk writeOk s
  | .fwRestart fn => Sys2Proof.Machine.execFwRestart fn s
  | .fwDebugEnable fn => Sys2Proof.Machine.execFwDebugEnable fn s
  | .rxFrame r => Sys2Proof.Machine.execRxFrame r s
  | .rxPause p quanta => Sys2Proof.Machine.execRxPause p quanta s
  | .rxPfc p en times => Sys2Proof.Machine.execRxPfc p en times s
  | .rxLldpdu p r => Sys2Proof.Machine.execRxLldpdu p r s
  | .rxPropose p m => Sys2Proof.Machine.execRxPropose p m s
  | .rxAccept p m => Sys2Proof.Machine.execRxAccept p m s
  | .rxReject p m => Sys2Proof.Machine.execRxReject p m s
  | .rxReady p m => Sys2Proof.Machine.execRxReady p m s
  | .rxMark p m => Sys2Proof.Machine.execRxMark p m s
  | .rcircReturn u => Sys2Proof.Machine.execRcircReturn u s
  | .rcircDiscardNotice port serial => Sys2Proof.Machine.execRcircDiscardNotice port serial s
  | .spCreditReturn sp dest count => Sys2Proof.Machine.execSpCreditReturn sp dest count s
  | .txDescriptorsRead q descs hdrs => Sys2Proof.Machine.execTxDescriptorsRead q descs hdrs s
  | .rxPostEntriesRead q ents => Sys2Proof.Machine.execRxPostEntriesRead q ents s
  | .dealerDecision p => Sys2Proof.Machine.execDealerDecision p s
  | .shaperRefill o => Sys2Proof.Machine.execShaperRefill o s
  | .pacingRefill p => Sys2Proof.Machine.execPacingRefill p s
  | .txFrameStart p dp seg => Sys2Proof.Machine.execTxFrameStart p dp seg s
  | .txFrameEnd p => Sys2Proof.Machine.execTxFrameEnd p s
  | .txUnderrun p => Sys2Proof.Machine.execTxUnderrun p s
  | .trumpFrameStart p => Sys2Proof.Machine.execTrumpFrameStart p s
  | .txHold slot on => Sys2Proof.Machine.execTxHold slot on s
  | .txBatchTimeout q => Sys2Proof.Machine.execTxBatchTimeout q s
  | .rxCoalTimeout q => Sys2Proof.Machine.execRxCoalTimeout q s
  | .packTimeout q => Sys2Proof.Machine.execPackTimeout q s
  | .eqModTime e => Sys2Proof.Machine.execEqModTime e s
  | .anchorTimer q => Sys2Proof.Machine.execAnchorTimer q s
  | .pauseTimerExpiry p c => Sys2Proof.Machine.execPauseTimerExpiry p c s
  | .fcRefresh p c => Sys2Proof.Machine.execFcRefresh p c s
  | .pfcWatchdogExpiry p c => Sys2Proof.Machine.execPfcWatchdogExpiry p c s
  | .drainRestore p c => Sys2Proof.Machine.execDrainRestore p c s
  | .ctThresholdLower p => Sys2Proof.Machine.execCtThresholdLower p s
  | .lldpTxTimer p => Sys2Proof.Machine.execLldpTxTimer p s
  | .partnerTtlExpiry p => Sys2Proof.Machine.execPartnerTtlExpiry p s
  | .linkUp p => Sys2Proof.Machine.execLinkUp p s
  | .linkFault slot sigdet => Sys2Proof.Machine.execLinkFault slot sigdet s
  | .upDebounceExpiry p => Sys2Proof.Machine.execUpDebounceExpiry p s
  | .trainTimeout p => Sys2Proof.Machine.execTrainTimeout p s
  | .presenceConfirmed cage present => Sys2Proof.Machine.execPresenceConfirmed cage present s
  | .moduleInterrupt cage flags laneFlags st => Sys2Proof.Machine.execModuleInterrupt cage flags laneFlags st s
  | .modulePoll cage st dpActive => Sys2Proof.Machine.execModulePoll cage st dpActive s
  | .moduleBusTransactionDone cage d => Sys2Proof.Machine.execModuleBusTransactionDone cage d s
  | .moduleBusRetry cage => Sys2Proof.Machine.execModuleBusRetry cage s
  | .mgmtInitTimeout cage => Sys2Proof.Machine.execMgmtInitTimeout cage s
  | .moduleStateTimeout cage => Sys2Proof.Machine.execModuleStateTimeout cage s
  | .thinInterval p => Sys2Proof.Machine.execThinInterval p s
  | .proposeRetry p => Sys2Proof.Machine.execProposeRetry p s
  | .handshakeTimeout p => Sys2Proof.Machine.execHandshakeTimeout p s
  | .readyTimeout p => Sys2Proof.Machine.execReadyTimeout p s
  | .thinGapEnd p => Sys2Proof.Machine.execThinGapEnd p s
  | .warmLaneExpiry p lane => Sys2Proof.Machine.execWarmLaneExpiry p lane s
  | .miCtlAck p failed => Sys2Proof.Machine.execMiCtlAck p failed s
  | .miCtlTimeout p => Sys2Proof.Machine.execMiCtlTimeout p s
  | .translationResponse tag r => Sys2Proof.Machine.execTranslationResponse tag r s
  | .pageResponse group ok => Sys2Proof.Machine.execPageResponse group ok s
  | .invalidate tag scope => Sys2Proof.Machine.execInvalidate tag scope s
  | .invalidationAck tag => Sys2Proof.Machine.execInvalidationAck tag s
  | .xltRequestTimeout tag => Sys2Proof.Machine.execXltRequestTimeout tag s
  | .faultTimeoutExpiry o => Sys2Proof.Machine.execFaultTimeoutExpiry o s
  | .dmaWriteDone m tag => Sys2Proof.Machine.execDmaWriteDone m tag s
  | .dmaErrorResponse m tag => Sys2Proof.Machine.execDmaErrorResponse m tag s
  | .dmaCompletionTimeout m tag => Sys2Proof.Machine.execDmaCompletionTimeout m tag s
  | .tbSnap n => Sys2Proof.Machine.execTbSnap n s
  | .tbStep n => Sys2Proof.Machine.execTbStep n s
  | .tbAdd n => Sys2Proof.Machine.execTbAdd n s
  | .slewGo n => Sys2Proof.Machine.execSlewGo n s
  | .slewStop n => Sys2Proof.Machine.execSlewStop n s
  | .ppoModeSet k mode => Sys2Proof.Machine.execPpoModeSet k mode s
  | .pulseEdge k => Sys2Proof.Machine.execPulseEdge k s
  | .captureEdge k rise => Sys2Proof.Machine.execCaptureEdge k rise s
  | .captureRead k => Sys2Proof.Machine.execCaptureRead k s
  | .ppsRead n => Sys2Proof.Machine.execPpsRead n s
  | .tsqEntryExpiry p => Sys2Proof.Machine.execTsqEntryExpiry p s
  | .gateEntryChange p => Sys2Proof.Machine.execGateEntryChange p s
  | .deckCut p => Sys2Proof.Machine.execDeckCut p s
  | .deckClearPoint p => Sys2Proof.Machine.execDeckClearPoint p s
  | .carryGo ch => Sys2Proof.Machine.execCarryGo ch s
  | .carryDisable ch => Sys2Proof.Machine.execCarryDisable ch s
  | .carryValidateDone ch els => Sys2Proof.Machine.execCarryValidateDone ch els s
  | .carryRequestComplete ch => Sys2Proof.Machine.execCarryRequestComplete ch s
  | .threadFault t cause => Sys2Proof.Machine.execThreadFault t cause s
  | .threadRestart t => Sys2Proof.Machine.execThreadRestart t s
  | .channelHoldExpiry c => Sys2Proof.Machine.execChannelHoldExpiry c s
  | .channelWrite t c w last => Sys2Proof.Machine.execChannelWrite t c w last s
  | .channelRead t c => Sys2Proof.Machine.execChannelRead t c s
  | .debugHalt t => Sys2Proof.Machine.execDebugHalt t s
  | .debugResume t => Sys2Proof.Machine.execDebugResume t s
  | .debugStep t => Sys2Proof.Machine.execDebugStep t s
  | .dbgPortAccess off write data => Sys2Proof.Machine.execDbgPortAccess off write data s
  | .faultEvent evs => Sys2Proof.Machine.execFaultEvent evs s
  | .reactionReleased k => Sys2Proof.Machine.execReactionReleased k s
  | .shadowExpiry k => Sys2Proof.Machine.execShadowExpiry k s
  | .faultWindowExpiry w => Sys2Proof.Machine.execFaultWindowExpiry w s
  | .pbBankRetired b => Sys2Proof.Machine.execPbBankRetired b s
  | .faultForce mask => Sys2Proof.Machine.execFaultForce mask s
  | .pwrReq target tag => Sys2Proof.Machine.execPwrReq target tag s
  | .signingDone sigs => Sys2Proof.Machine.execSigningDone sigs s
  | .watchFrame bytes err => Sys2Proof.Machine.execWatchFrame bytes err s
  | .linkActivity slot => Sys2Proof.Machine.execLinkActivity slot s
  | .controlStateRestored sigs => Sys2Proof.Machine.execControlStateRestored sigs s
  | .retentionCheckDone sigs ecc => Sys2Proof.Machine.execRetentionCheckDone sigs ecc s
  | .bankRecovered b src => Sys2Proof.Machine.execBankRecovered b src s
  | .imageLoadDone img => Sys2Proof.Machine.execImageLoadDone img s
  | .selfTestDone r => Sys2Proof.Machine.execSelfTestDone r s
  | .rxHeartbeat h => Sys2Proof.Machine.execRxHeartbeat h s
  | .rxHello h => Sys2Proof.Machine.execRxHello h s
  | .rxJournal n epoch chg => Sys2Proof.Machine.execRxJournal n epoch chg s
  | .rxJournalAck n => Sys2Proof.Machine.execRxJournalAck n s
  | .rxCopy bank chg last => Sys2Proof.Machine.execRxCopy bank chg last s
  | .rxCopyAck bank => Sys2Proof.Machine.execRxCopyAck bank s
  | .rxHandover epoch => Sys2Proof.Machine.execRxHandover epoch s
  | .leaseCasDone r => Sys2Proof.Machine.execLeaseCasDone r s
  | .leasePoll word => Sys2Proof.Machine.execLeasePoll word s
  | .tallyFreeze on => Sys2Proof.Machine.execTallyFreeze on s
  | .tallyCounterWrite k v => Sys2Proof.Machine.execTallyCounterWrite k v s
  | .registerRead a => Sys2Proof.Machine.execRegisterRead a s
  | .dmaReadData m tag bytes => Sys2Proof.Machine.execDmaReadData m tag bytes s
  | .carrySlotOffer write => Sys2Proof.Machine.execCarrySlotOffer write s
  | .scrub mem res => Sys2Proof.Machine.execScrub mem res s
  | .stalledAccessComplete => Sys2Proof.Machine.execStalledAccessComplete s
  | .samplerSample => Sys2Proof.Machine.execSamplerSample s
  | .forcedRetirement => Sys2Proof.Machine.execForcedRetirement s
  | .timeBaseIncrement => Sys2Proof.Machine.execTimeBaseIncrement s
  | .holdoverIncrement => Sys2Proof.Machine.execHoldoverIncrement s
  | .ppsEdge => Sys2Proof.Machine.execPpsEdge s
  | .carryResume => Sys2Proof.Machine.execCarryResume s
  | .carryAutoResume => Sys2Proof.Machine.execCarryAutoResume s
  | .lcpWatchdogExpiry => Sys2Proof.Machine.execLcpWatchdogExpiry s
  | .deadlockDetected => Sys2Proof.Machine.execDeadlockDetected s
  | .firstErrorRelease => Sys2Proof.Machine.execFirstErrorRelease s
  | .irqStall => Sys2Proof.Machine.execIrqStall s
  | .powerEntryStart => Sys2Proof.Machine.execPowerEntryStart s
  | .ringDrainDone => Sys2Proof.Machine.execRingDrainDone s
  | .ringDrainTimeout => Sys2Proof.Machine.execRingDrainTimeout s
  | .bufferFlushDone => Sys2Proof.Machine.execBufferFlushDone s
  | .powerSwitchDone => Sys2Proof.Machine.execPowerSwitchDone s
  | .domainSwitchTimeout => Sys2Proof.Machine.execDomainSwitchTimeout s
  | .wakeTimer => Sys2Proof.Machine.execWakeTimer s
  | .watchWindowOpen => Sys2Proof.Machine.execWatchWindowOpen s
  | .watchWindowClose => Sys2Proof.Machine.execWatchWindowClose s
  | .pairWakeSignal => Sys2Proof.Machine.execPairWakeSignal s
  | .pllLocked => Sys2Proof.Machine.execPllLocked s
  | .wakePowerDone => Sys2Proof.Machine.execWakePowerDone s
  | .wakeStartDone => Sys2Proof.Machine.execWakeStartDone s
  | .budgetCredit => Sys2Proof.Machine.execBudgetCredit s
  | .resetAssert => Sys2Proof.Machine.execResetAssert s
  | .resetRelease => Sys2Proof.Machine.execResetRelease s
  | .refClkLoss => Sys2Proof.Machine.execRefClkLoss s
  | .pllLockLoss => Sys2Proof.Machine.execPllLockLoss s
  | .memoryInitDone => Sys2Proof.Machine.execMemoryInitDone s
  | .startReady => Sys2Proof.Machine.execStartReady s
  | .trialTimeout => Sys2Proof.Machine.execTrialTimeout s
  | .resetDrainDone => Sys2Proof.Machine.execResetDrainDone s
  | .heartbeatTimer => Sys2Proof.Machine.execHeartbeatTimer s
  | .heartbeatLoss => Sys2Proof.Machine.execHeartbeatLoss s
  | .helloTimer => Sys2Proof.Machine.execHelloTimer s
  | .pairFormTimeout => Sys2Proof.Machine.execPairFormTimeout s
  | .journalPeriod => Sys2Proof.Machine.execJournalPeriod s
  | .journalAckTimeout => Sys2Proof.Machine.execJournalAckTimeout s
  | .rxPairWakeMsg => Sys2Proof.Machine.execRxPairWakeMsg s
  | .leaseRenew => Sys2Proof.Machine.execLeaseRenew s
  | .leaseFence => Sys2Proof.Machine.execLeaseFence s
  | .tallySnap => Sys2Proof.Machine.execTallySnap s
  | .tallyClearAll => Sys2Proof.Machine.execTallyClearAll s
  | .slotClear => Sys2Proof.Machine.execSlotClear s
  | .tallyCount => Sys2Proof.Machine.execTallyCount s
  | .bwWindowsEnable => Sys2Proof.Machine.execBwWindowsEnable s
  | .bwWindowBoundary => Sys2Proof.Machine.execBwWindowBoundary s
  | .entryPrepareDone => Sys2Proof.Machine.execEntryPrepareDone s
  | .lcpRestartReady => Sys2Proof.Machine.execLcpRestartReady s

end Sys2Proof.Machine
end

