-- ==== Sys2Proof/Safety.lean ====
section
/-! DEFINITION. Safety.lean: what counts as a safe run and a quiet engine, in the terms statements use. -/
namespace Sys2Proof.Machine

/-- An outcome is a next state: neither a fault nor a refusal. -/
def Completes (o : Host.Outcome State Fault Refusal) : Prop := ∃ t, o = .next t

/-- Nothing of the engine goes on by itself as a command ends: no fault event waits to be graded (R393, R407), no port thins
(R136, R137), no FUNC_RESET (R194) and no QUEUE_RESET (R189) waits, no journal is kept (R442), no handover (R447), no engine
reset is due (R401) and IRQ_MSG_RDY is not held low (R500). -/
structure Eng.Calm (e : Eng) : Prop where
  raised : e.flt.raised = []
  held : e.flt.held = []
  thin : ∀ p, (e.port p).settled = true
  resets : ∀ f, (e.fn f).resetting = none
  answered : ∀ f c, (e.fn f).cmd = some c → ¬ (c.opcode = 0x0207 ∧ c.st = .working)
  journals : e.journals = false
  handing : e.handing = false
  due : e.start.due = none
  stall : e.irqStall = false

/-- `s` with its engine `e`, the Dealer's round lists brought up to date (R291). -/
def State.to (s : State) (e : Eng) : State := { s with eng := e.syncAll }

/-- `s` as a command leaves it whose own effect makes the engine `e`: then comes what ends every command, fault events
graded first (R393). In a calm engine that is `s.to e`. -/
def State.after (s : State) (e : Eng) : State := { s with eng := Eng.finish s.eng e }

/-- The engine with no message of an earlier command in `outs` (log entry 5). -/
def Eng.clear (e : Eng) : Eng := { e with outs := [] }

/-- The engine is READY, in RUN, and in no power transition (R411, R473). -/
structure Eng.Up (e : Eng) : Prop where
  ready : e.start.phase = .ready
  run : e.pwr.state = .run
  step : e.pwr.step = .none
  ctlOn : e.pwr.ctlOn = true
  restOn : e.pwr.restOn = true

/-- So it is, and no access of function `f` is stalled behind which another keeps its place (R34, R499). -/
structure Eng.Open (e : Eng) (f : Fn) : Prop extends e.Up where
  stalled : ∀ x, x ∈ e.ctl.stalled → x.2.fn ≠ f

/-- The engine as an access of function `f` on CSR_T begins: Tally's event 0x703 (R457). -/
def Eng.touch (e : Eng) (f : Fn) : Eng := e.clear.tal { code := 0x703, fn := some f }

/-- `c` is function `f`'s mailbox command of opcode `op`, its parameters in, firmware ready to handle it and its turn come,
on a member that is no standby (R43, R47, R49, R438). -/
structure Eng.Has (e : Eng) (f : Fn) (op : Nat) (c : Cmd) : Prop where
  cmd : (e.fn f).cmd = some c
  opcode : c.opcode = op
  ready : c.st = .ready
  runs : e.ctl.ready = true
  turn : e.taken f = true
  alone : e.standby = false

/-- `c` is such a command of `n` parameter slots, with the statistics buffer its opcode may need (R510, R517). -/
structure Eng.Asks (e : Eng) (f : Fn) (op n : Nat) (c : Cmd) : Prop extends e.Has f op c where
  len : c.reqLen = 8 * n
  buffer : c.statBuf op = true

/-- `c` is such a command whose parameters are one SET block `b` of the fields `specs`, on an OBJECT that `obj` admits
(R513, R515). -/
structure Eng.Sets (e : Eng) (f : Fn) (op : Nat) (specs : Nat → List Fld) (obj : Nat → Bool) (c : Cmd) (b : SetBlk) : Prop
    extends e.Has f op c where
  block : c.set specs obj = .good b

/-- `s` as function `f`'s mailbox command `c` leaves it whose own effect makes the engine `e`: where a journal is kept it
takes the command in (R442), and then comes what ends every command. -/
def State.done (s : State) (f : Fn) (c : Cmd) (e : Eng) : State := s.after (e.journalCmd f c)

/-- The engine but for what interrupt messages, requests on the DMA ports and events change. -/
def Eng.core (e : Eng) : Eng := { e with dma := {}, outs := [], tally := {}, vecs := {}, irqs := [], eqs := {} }

/-- The credit count is in the range R430 gives. -/
def Budget.wf (b : Budget) : Prop := b.credits ≤ 10000

/-- At most one image slot is ACTIVE (R388). -/
def Boot.wf (b : Boot) : Prop := ¬ (b.a.state = .active ∧ b.b.state = .active)

end Sys2Proof.Machine
end

