-- ==== Sys2Proof/Certificates/Slice0/Obligations.lean ====
section
/-! DEFINITION. Obligations.lean: what is claimed of the model, for the provers. -/
open Sys2Proof Sys2Proof.Machine

/-! ### The queue, reset and what every command does -/

/-- A step takes the command at the front of the queue and runs it on the state with the queue's rest; on an empty queue
the block idles (the model's choice, log entry 6). -/
def Obligations.StepRunsTheFrontCommand : Prop :=
  (∀ (c : Instr) (rest : List Instr) (s : State),
    step { s with pending := c :: rest } = exec c { s with pending := rest }) ∧
  (∀ s : State, s.pending = [] → step s = .next s)

/-- What release of BLK_RST_N leaves: nothing waits, start-up has begun, READY is 0, the budget is full, no object exists,
every slot is a port of its own in ADMIN_DOWN, and the fields hold their reset values (R67, R68, R92, R120, R153, R205,
R243, R359, R430, R435, R473). -/
def Obligations.ResetState : Prop :=
  let e := State.reset.eng
  State.reset.pending = [] ∧ e.start.phase = .s1 ∧ e.ctl.ready = false ∧ State.reset.budget.credits = 10000 ∧
  e.txqList = [] ∧ e.rxqList = [] ∧ e.eqList = [] ∧ e.flt.status = 0 ∧ e.start.kittySize = 0 ∧
  e.dma.parkSize = 2097152 ∧ e.dma.parkRing = 65536 ∧ e.dma.faultTimeout = 10 ∧
  e.steer.rcircLimit = 262144 ∧ e.steer.streamIp4t = true ∧ e.steer.streamInner = true ∧
  e.dealer.sampleEn = false ∧ e.dealer.sampleFirst = 0 ∧ e.dealer.sampleCount = 32768 ∧
  e.pair.state = .unpaired ∧ e.pair.pairId = 0 ∧ e.pair.lease = .chip ∧ e.pair.autoResync = true ∧ e.pair.wakeSev = 3 ∧
  (∀ p, e.portOf p = p ∧ (e.port p).state = .adminDown ∧ (e.port p).admin = false ∧ (e.port p).cage.val = p.val ∧
    (e.port p).laneBase = 0 ∧ (e.port p).debounce = 10 ∧ (e.port p).lldpAgent = true ∧ (e.port p).lldpInterval = 30 ∧
    (e.port p).maxFrame = 9600 ∧ (e.port p).padEn = true ∧ (e.port p).fcsStrip = true ∧ (e.port p).badFcsDeliver = false ∧
    (e.port p).ctSaf = false ∧ (e.port p).ctFloor = 512 ∧ (e.port p).fcMode = .none ∧ (e.port p).lossless = 0 ∧
    (e.port p).pauseQuanta = 65535 ∧ (e.port p).cableDelay = 100 ∧ (e.port p).partnerResp = 1000 ∧ (e.port p).statsOwner = 0) ∧
  (∀ f, (e.fn f).enabled = decide (f = 0) ∧ (e.fn f).txqQuota = (if f = 0 then 4096 else 0) ∧
    (e.fn f).rxqQuota = (if f = 0 then 4096 else 0) ∧ (e.fn f).eqQuota = (if f = 0 then 512 else 0) ∧ (e.fn f).vecBase = 0 ∧
    (e.fn f).vecCount = (if f = 0 then 64 else 0) ∧ (e.fn f).timeBase = (if f = 0 then some 0 else none) ∧
    (e.fn f).portMask = (if f = 0 then 0xFFFF else 0) ∧ (e.fn f).chQuota = (if f = 0 then 56 else 0))

/-- Reset meets the invariant that every step keeps: at most 10,000 credits (R430), at most one image slot ACTIVE (R388). -/
def Obligations.InvariantAtReset : Prop :=
 State.reset.budget.wf ∧ State.reset.boot.wf

/-- Every step keeps the credit count within 10,000 (R430) and at most one image slot ACTIVE (R388, R390), whatever command
is taken and whatever the engine holds. -/
def Obligations.InvariantKeptByEveryStep : Prop :=
  ∀ s t : State, s.budget.wf → s.boot.wf → step s = .next t → t.budget.wf ∧ t.boot.wf

/-- Every command completes, whatever the state, and takes nothing from the queue. Only SIGNING_DONE, BUDGET_CREDIT and
RESET_ASSERT change the cycle budget (R430), and only FW_UPDATE, MEMORY_INIT_DONE, IMAGE_LOAD_DONE, START_READY and
TRIAL_TIMEOUT the boot store (R388, R389, R390). -/
def Obligations.BudgetAndBootStoreChanges : Prop :=
  ∀ (c : Instr) (s : State),
    let budgeted : Bool := match c with
      | .signingDone _ | .budgetCredit | .resetAssert => true
      | _ => false
    let booted : Bool := match c with
      | .fwUpdate .. | .memoryInitDone | .imageLoadDone _ | .startReady | .trialTimeout => true
      | _ => false
    ∃ t, exec c s = .next t ∧ t.pending = s.pending ∧ (budgeted = false → t.budget = s.budget) ∧ (booted = false → t.boot = s.boot)

/-! ### The mailbox -/

/-- The opcodes of the command reference are the whole command set (R509): a request in RUN with any other opcode, its
header whatever it is, completes with UNSUPPORTED as it is admitted. -/
def Obligations.UnknownOpcodesAreUnsupported : Prop :=
  (∀ op : Nat, (opClass op).isSome = true ↔
    ∃ n, [7, 16, 14, 14, 5, 4, 2, 1, 7, 4, 7, 4][op / 256]? = some n ∧ 1 ≤ op % 256 ∧ op % 256 ≤ n) ∧
  ∀ (s : State) (f : Fn), s.eng.Open f → (s.eng.fn f).enabled = true → s.eng.standby = false → s.eng.ctl.ready = true →
    (s.eng.fn f).cmd = none → (f = 0 ∨ (s.eng.ctl.inflight.filter (fun g => decide (g ≠ 0))).length < 63) →
    opClass ((s.eng.fn f).req.toNat % 65536) = none →
    exec (.mbxGo f) s = .next (s.after ((((s.eng.touch f).mbxAdmit f).tal { code := 0x701, fn := some f }).answer f 0x0C 0))

/-- The first check that a command fails decides its status (R53, R54, R438, R510, R515): on a standby that does not serve
it NOT_PERMITTED, before anything is read; then a wrong length, INVALID with DETAIL 8; then the first parameter that fails,
INVALID with its offset; then an issuer that may not, NOT_PERMITTED. It shows on PORT_STATE_GET, and on FC_CONFIG for a SET
block. -/
def Obligations.ChecksInOrder : Prop :=
  ∀ (s : State) (f : Fn) (c : Cmd),
    let e := s.eng.clear
    (e.mbxReady f 0x0103 = some c → e.standby = true → e.pair.applying = false → f ≠ 0 →
      exec (.portStateGet f) s = .next (s.after (e.answer f 0x05 0))) ∧
    (e.Has f 0x0103 c →
      (c.reqLen ≠ 8 → exec (.portStateGet f) s = .next (s.done f c (e.answer f 0x03 8))) ∧
      (c.reqLen = 8 → e.portArg (c.slot 0) = false → exec (.portStateGet f) s = .next (s.done f c (e.answer f 0x03 32))) ∧
      (c.reqLen = 8 → e.portArg (c.slot 0) = true → f ≠ 0 → e.ownsOn f c.port = false →
        exec (.portStateGet f) s = .next (s.done f c (e.answer f 0x05 0)))) ∧
    (∀ cf, e.Has f 0x010B c →
      (∀ d, c.set (fun _ => fcFlds) e.portArg = .bad d → exec (.fcConfig f cf) s = .next (s.done f c (e.answer f 0x03 d))) ∧
      (∀ b d, c.set (fun _ => fcFlds) e.portArg = .good b → firstBad (e.fcChecks b) = some d →
        exec (.fcConfig f cf) s = .next (s.done f c (e.answer f 0x03 d))) ∧
      (∀ b, c.set (fun _ => fcFlds) e.portArg = .good b → firstBad (e.fcChecks b) = none → f ≠ 0 →
        exec (.fcConfig f cf) s = .next (s.done f c (e.answer f 0x05 0))) ∧
      (∀ b l, c.set (fun _ => fcFlds) e.portArg = .good b → firstBad (e.fcChecks b) = none → f = 0 →
        let x := e.port (fin 16 b.object)
        lockedChange fcFlds b (fun i => nth (x.fcCfg e.start.oversub) i []) (fun _ => !decide (x.state = .adminDown)) = some l →
        exec (.fcConfig f cf) s = .next (s.done f c ((e.reject f 0x010B false l.idx).answer f 0x02 l.off))))

/-- A SET block that passes (R513, R515): its OBJECT is one the command admits and its reserved half is zero, MASK names no
field beyond the last, the request ends with the last field present, and the fields present are those of MASK in order,
each with its values, all of them in range, from its place on. -/
def Obligations.SetBlocksParse : Prop :=
  ∀ (c : Cmd) (specs : List Fld) (obj : Nat → Bool) (b : SetBlk), c.set (fun _ => specs) obj = .good b →
    let mask := c.at_ 8 64
    b.object = c.at_ 0 32 ∧ obj b.object = true ∧ c.at_ 4 32 = 0 ∧ mask < 2 ^ specs.length ∧
    c.reqLen = 16 + 8 * maskSlots mask specs 0 ∧
    b.flds.map (·.idx) = (upTo specs.length).filter (fun i => bitAt mask i) ∧
    (∀ x, x ∈ b.flds → ∃ sp, specs[x.idx]? = some sp ∧
      (let k := maskSlots mask (specs.take x.idx) 0
       x.off = detOff (48 + 8 * k) ∧ x.vals = (upTo sp.slots).map (fun j => c.at_ (16 + 8 * (k + j)) 64) ∧
       ∀ j, j < sp.slots → sp.ok j (c.at_ (16 + 8 * (k + j)) 64) = true))

/-- The first-error capture (R398, R399). FIRST_ERROR_RELEASE clears VALID and nothing else; the next event is then
captured. That holds of every source, of the classes at which its unit does no more than drive the event. Of the events of
one edge a free capture takes the strongest, of equal ones that of the lowest source, and FLT_MULTI is set if there are
more; one that is held stays, whatever comes. -/
def Obligations.FirstErrorCapture : Prop :=
  (∀ s : State, s.eng.Open 0 → s.eng.standby = false → exec .firstErrorRelease s = .next (s.after
    (let d := s.eng.touch 0; { d with flt := { d.flt with first := { d.flt.first with valid := false } } }))) ∧
  (∀ (s : State) (v : FaultEv), s.eng.Calm → s.eng.collecting = true → v.src.val < 50 → s.eng.flt.shadows = [] →
    (v.cls = .info ∨ v.cls = .corrected ∧ v.src.val ≠ 7 ∨ 32 < v.src.val) →
    (s.eng.srcCfg v.src.val).winEn = false → s.eng.tally.freezeSev = 0 → s.eng.pair.wakeSev = 0 → s.eng.flt.irqEn = false →
    (∀ k, nth (s.eng.srcCfg v.src.val).react k .none = .none ∨ nth (s.eng.srcCfg v.src.val).react k .none = .interrupt) →
    s.eng.flt.first.valid = false →
    ∃ t, exec (.faultEvent [v]) s = .next t ∧ t.eng.flt.first.valid = true ∧ t.eng.flt.first.src = v.src.val ∧
      t.eng.flt.first.detail = v.detail.toNat ∧ t.eng.flt.multi = s.eng.flt.multi) ∧
  (∀ (x : FltSt) (gs : List Graded),
    (x.first.valid = true → (x.take gs).first = x.first ∧ (x.take gs).multi = (x.multi || !gs.isEmpty)) ∧
    (x.first.valid = false → gs ≠ [] → (x.take gs).multi = (x.multi || decide (1 < gs.length)) ∧
      ∃ g, g ∈ gs ∧ (x.take gs).first = g.capture ∧ ∀ h, h ∈ gs → h.sev < g.sev ∨ h.sev = g.sev ∧ g.ev.src ≤ h.ev.src))

/-! ### Doorbells, head updates and quench -/

/-- TX_DOORBELL and RX_DOORBELL in RUN (R31, R158). A producer index at most size − 1 ahead of the consumer index and no
nearer to it than the one accepted before is accepted: the queue holds it, and a descriptor or post entry read starts where
one is due. The index accepted before changes nothing. Any other index is counted as rejected, and source 35 gets an INFO
event with the register's offset; so does a doorbell of a queue that does not exist. -/
def Obligations.DoorbellsAcceptAnIndexInRange : Prop :=
  ∀ (s : State) (f : Fn) (n : Fin 4096) (p : BitVec 16), s.eng.Open f → (s.eng.fn f).enabled = true → s.eng.standby = false →
  (∀ q x, s.eng.txqOf f n.val = some q → s.eng.txq q = some x →
    (let near := (p - x.cons).toNat ≤ x.size - 1 ∧ (x.prod - x.cons).toNat ≤ (p - x.cons).toNat
     let e := (s.eng.touch f).tal { code := 0x201, dir := some .tx, fn := some f, orig := some .host }
     (near → p ≠ x.prod → exec (.txDoorbell f n p) s =
       .next (s.after ((e.setTxq q (some { x with prod := p, bells := x.bells ++ [(p, s.eng.now)] })).txFetch q))) ∧
     (near → p = x.prod → exec (.txDoorbell f n p) s = .next (s.after e)) ∧
     (¬ near → exec (.txDoorbell f n p) s =
       .next (s.after (((s.eng.touch f).setTxq q (some { x with rejects := sat64 (x.rejects + 1) })).badAccess f (8 * n.val)))))) ∧
  (s.eng.txqOf f n.val = none → exec (.txDoorbell f n p) s = .next (s.after ((s.eng.touch f).badAccess f (8 * n.val)))) ∧
  (∀ q x, s.eng.rxqOf f n.val = some q → s.eng.rxq q = some x →
    (let near := (p - x.cons).toNat ≤ x.size - 1 ∧ (x.prod - x.cons).toNat ≤ (p - x.cons).toNat
     let e := (s.eng.touch f).tal { code := 0x201, dir := some .rx, fn := some f, orig := some .host }
     (near → p ≠ x.prod → exec (.rxDoorbell f n p) s = .next (s.after ((e.setRxq q (some { x with prod := p })).rxFetch q))) ∧
     (near → p = x.prod → exec (.rxDoorbell f n p) s = .next (s.after e)) ∧
     (¬ near → exec (.rxDoorbell f n p) s =
       .next (s.after (((s.eng.touch f).setRxq q (some { x with rejects := sat64 (x.rejects + 1) })).badAccess f
         (0x8000 + 8 * n.val)))))) ∧
  (s.eng.rxqOf f n.val = none → exec (.rxDoorbell f n p) s = .next (s.after ((s.eng.touch f).badAccess f (0x8000 + 8 * n.val))))

/-- EQ_HEAD_UPDATE and EQ_ARM in RUN (R33, R157, R183, R184, R185). A head between the old head and the tail is accepted:
the queue's head is it, and the events up to it are consumed; for each that was a ring's or queue's completion event the
next one is written where entries wait for it, or OVERFLOW ends. With ARM 1 the queue is then armed. Any other head changes
nothing, and source 35 gets an INFO event. -/
def Obligations.HeadUpdatesConsumeAndArm : Prop :=
  ∀ (s : State) (f : Fn) (n : Fin 512) (h : BitVec 16) (i : EqId) (q : Evq), s.eng.Open f → (s.eng.fn f).enabled = true →
  s.eng.standby = false → s.eng.eqOf f n.val = some i → s.eng.eq_ i = some q →
    (let k := (h - q.head).toNat
     let e := (s.eng.touch f).setEq i (some { q with head := h, evs := q.evs.filter (fun v => decide (k ≤ (v.pos - q.head).toNat)) })
     let d := if 0 < k then (if q.overflow = true ∧ e.waitOf (.eq i) = none then e.leaveOverflow i
         else foldEng (q.evs.filter (fun v => !decide (k ≤ (v.pos - q.head).toNat))) (fun e v => e.headPast v) e) else e
     (k ≤ (q.tail - q.head).toNat → exec (.eqHeadUpdate f n h) s = .next (s.after d) ∧
       exec (.eqArm f n h) s = .next (s.after (d.armEq i)) ∧
       (h = q.head → q.armed = none → exec (.eqArm f n h) s =
         .next (s.after (((s.eng.touch f).setEq i (some { q with armed := some s.eng.now })).evRaise i)))) ∧
     ((q.tail - q.head).toNat < k →
       exec (.eqHeadUpdate f n h) s = .next (s.after ((s.eng.touch f).badAccess f (0x10000 + 8 * n.val))) ∧
       exec (.eqArm f n h) s = .next (s.after ((s.eng.touch f).badAccess f (0x10000 + 8 * n.val)))))

/-- QUENCH and ADMIN_QUENCH in RUN (R35, R36, R37, R42): the bit takes the value written. A function is quenched while
either bit is 1: the bit that makes it so stops its work, and the last bit cleared lets its work go on. -/
def Obligations.QuenchBits : Prop :=
  ∀ (s : State) (f : Fn) (on : Bool), s.eng.standby = false →
    (let e := s.eng.touch f
     let x := s.eng.fn f
     s.eng.Open f → (s.eng.fn f).enabled = true → exec (.quench f on) s = .next (s.after (
       let d := e.setFn f { x with quench := on }
       if (on || x.admin) && !(x.quench || x.admin) then d.quenchOn f
       else if (x.quench || x.admin) && !(on || x.admin) then d.quenchOff f else d))) ∧
    (let e := s.eng.touch 0
     let x := s.eng.fn f
     s.eng.Open 0 → f ≠ 0 → exec (.adminQuench f on) s = .next (s.after (
       let d := e.setFn f { x with admin := on }
       if (x.quench || on) && !(x.quench || x.admin) then d.quenchOn f
       else if (x.quench || x.admin) && !(x.quench || on) then d.quenchOff f else d)))

/-! ### The mailbox's registers -/

/-- MBX_REQ_WRITE in RUN (R47): while no command is in flight the aligned 32 or 64 bits written take their place in MBX_REQ
and its other bits stay; while one is, the write is ignored with OVERRUN and source 34.
MBX_GO in RUN (R47, R49, R54). With READY 1 and no command in flight the request becomes the function's command: it is
taken up, or answered with BUSY where the 63 places that F1 to F2047 share are taken. With a command in flight GO sets
OVERRUN and raises source 34; with READY 0 it sets OVERRUN alone. A write to MBX_RSP changes nothing. -/
def Obligations.MailboxRequests : Prop :=
  (
    ∀ (s : State) (f : Fn) (off : Fin 256) (size : Nat) (data : BitVec 64), s.eng.Open f → (s.eng.fn f).enabled = true →
    s.eng.standby = false → (size = 8 ∧ off.val % 8 = 0 ∨ size = 4 ∧ off.val % 4 = 0) →
      (let x := s.eng.fn f
       let m : BitVec 64 := if size = 8 then -1 else 0xFFFFFFFF
       let at_ (v : BitVec 64) : BitVec 2048 := v.setWidth 2048 <<< (8 * off.val)
       (x.cmd = none → exec (.mbxReqWrite f off size data) s =
         .next (s.after ((s.eng.touch f).setFn f { x with req := (x.req &&& ~~~ at_ m) ||| at_ (data &&& m) }))) ∧
       (∀ c, x.cmd = some c → exec (.mbxReqWrite f off size data) s =
         .next (s.after (((s.eng.touch f).setFn f { x with overrun := true }).badMailbox f (0x11000 + off.val / 8 * 8)))))) ∧
  (
    ∀ (s : State) (f : Fn), s.eng.Open f → (s.eng.fn f).enabled = true → s.eng.standby = false →
      (let e := s.eng.touch f
       let x := s.eng.fn f
       (x.cmd = none → s.eng.ctl.ready = true → (f = 0 ∨ (s.eng.ctl.inflight.filter (fun g => decide (g ≠ 0))).length < 63) →
         exec (.mbxGo f) s = .next (s.after (((e.mbxAdmit f).tal { code := 0x701, fn := some f }).takeUp f))) ∧
       (x.cmd = none → s.eng.ctl.ready = true → f ≠ 0 → 63 ≤ (s.eng.ctl.inflight.filter (fun g => decide (g ≠ 0))).length →
         exec (.mbxGo f) s = .next (s.after (((e.mbxAdmit f).tal { code := 0x702, fn := some f }).answer f 0x01 0))) ∧
       (x.cmd = none → s.eng.ctl.ready = false → exec (.mbxGo f) s = .next (s.after (e.setFn f { x with overrun := true }))) ∧
       (∀ c, x.cmd = some c → exec (.mbxGo f) s =
         .next (s.after ((e.setFn f { x with overrun := true }).badMailbox f 0x11200))) ∧
       (∀ a : Csr, a.fn = f → a.win = false → 0x11100 ≤ a.off.toNat → a.off.toNat < 0x11200 →
         (a.size = 8 ∧ a.off.toNat % 8 = 0 ∨ a.size = 4 ∧ a.off.toNat % 4 = 0) → s.eng.journals = false →
         exec (.registerWrite a) s = .next (s.after e))))

/-- What becomes of a request at GO (R43, R44, R46, R47, R50): MBX_REQ's header and parameters make the command in flight,
its time limit runs from now, CLASS is the opcode's class, and the function joins those with a command in flight. The
response to a command, of at most 240 bytes, fills MBX_RSP, sets DONE and LAST_TAG, and ends BUSY. -/
def Obligations.MailboxRequestAndResponse : Prop :=
  (∀ (e : Eng) (f : Fn), ∃ c, ((e.mbxAdmit f).fn f).cmd = some c ∧ c.opcode = (e.fn f).req.toNat % 65536 ∧
    c.tag = (e.fn f).req.toNat / 65536 % 65536 ∧ c.indReq = (e.fn f).req.getLsbD 32 ∧ c.indRsp = (e.fn f).req.getLsbD 33 ∧
    c.reqLen = (e.fn f).req.toNat / 2 ^ 64 % 2 ^ 32 ∧ c.rspMax = (e.fn f).req.toNat / 2 ^ 96 % 2 ^ 32 ∧
    c.params = (e.fn f).req.toNat / 2 ^ 256 % 2 ^ 1792 ∧ c.start = e.now ∧ c.st = .ready ∧
    (∀ k, opClass c.opcode = some k → ((e.mbxAdmit f).fn f).cls = BitVec.ofNat 2 k) ∧
    (e.mbxAdmit f).ctl.inflight = e.ctl.inflight ++ [f]) ∧
  (∀ (e : Eng) (f : Fn) (c : Cmd) (status detail : Nat) (bs : List Byte), e.journals = false → e.ctl.restarting = false →
    (e.fn f).cmd = some c → bs.length ≤ 240 →
    (let t := e.respond f status detail bs
     t.fn f = { e.fn f with
       cmd := none, done := true, lastTag := BitVec.ofNat 16 c.tag
       rsp := rspArea c.opcode c.tag status 0 detail bs.length 0 bs } ∧
     (∀ g, g ≠ f → t.fn g = e.fn g) ∧ t.ctl.inflight = e.ctl.inflight.filter (fun g => !decide (g = f)) ∧
     ({ t with fns := e.fns, ctl := e.ctl } : Eng).core = e.core ∧
     ((e.fn f).irqDone = false → t.dma = e.dma ∧ t.outs = e.outs ∧ t.vecs = e.vecs ∧ t.eqs = e.eqs)))

/-! ### Register accesses -/

/-- REGISTER_WRITE and REGISTER_READ (R9, R10, R28, R40, R422, R424, R475). In RUN an aligned access of 32 or 64 bits acts
as its register takes it, and a read returns the value found; an access of another size or alignment, and a write of
another function's to the engine window, change nothing but for an event of source 35, and a read returns 0. In S1 to S3 of
a start sequence and in WATCH and OFF registers are not reached but for the PWR_ block: an access stalls, or reads zero and
writes nothing; in WATCH and OFF, and for a write in DOZE, it is a wake source, HOST.
STALLED_ACCESS_COMPLETE (R29): once registers are reached again the oldest stalled access acts, in order, and no longer
waits; while they are not, nothing happens. -/
def Obligations.RegisterAccesses : Prop :=
  (
    ∀ (s : State) (a : Csr), s.eng.standby = false → s.eng.journals = false →
      let ok : Bool := (decide (a.size = 4) && decide (a.off.toNat % 4 = 0)) || (decide (a.size = 8) && decide (a.off.toNat % 8 = 0))
      (s.eng.Open a.fn →
        (ok = true → (a.win = false ∨ a.fn = 0) →
          exec (.registerWrite a) s = .next (s.after ((s.eng.touch a.fn).regWrite s.budget a)) ∧
          (let r := (s.eng.touch a.fn).regRead s.boot.runB s.budget a
           exec (.registerRead a) s = .next (s.after (r.2.emit (.csr a.fn (csrPart a r.1)))))) ∧
        (ok = false ∨ a.win = true ∧ a.fn ≠ 0 →
          exec (.registerWrite a) s = .next (s.after ((s.eng.touch a.fn).badAccess a.fn a.off.toNat))) ∧
        (ok = false → exec (.registerRead a) s =
          .next (s.after (((s.eng.touch a.fn).badAccess a.fn a.off.toNat).emit (.csr a.fn 0)))) ∧
        (ok = true → a.win = true → a.fn ≠ 0 → exec (.registerRead a) s =
          .next (s.after ((s.eng.touch a.fn).emit (.csr a.fn 0))))) ∧
      (s.eng.start.phase = .held → exec (.registerWrite a) s = .next (s.after s.eng.clear) ∧
        exec (.registerRead a) s = .next (s.after s.eng.clear)) ∧
      ((a.win = true → a.fn = 0 → a.off.toNat < 0x20000 ∨ 0x30000 ≤ a.off.toNat) →
        ((s.eng.start.phase = .s1 ∨ s.eng.start.phase = .s2) →
          exec (.registerWrite a) s = .next (s.after (s.eng.touch a.fn)) ∧
          exec (.registerRead a) s = .next (s.after ((s.eng.touch a.fn).emit (.csr a.fn 0)))) ∧
        (s.eng.start.phase = .s3 →
          (∀ w : Bool, (if w then exec (.registerWrite a) s else exec (.registerRead a) s) = .next (s.after (
            let e := s.eng.touch a.fn
            { e with ctl := { e.ctl with stalled := e.ctl.stalled ++ [(w, a)] } })))) ∧
        (s.eng.start.phase = .ready → s.eng.pwr.step = .none →
          (let e := (s.eng.touch a.fn).wake 1 0 0
           let held (w : Bool) : State := s.after { e with ctl := { e.ctl with stalled := e.ctl.stalled ++ [(w, a)] } }
           (s.eng.pwr.state = .watch → exec (.registerWrite a) s = .next (held true) ∧ exec (.registerRead a) s = .next (held false)) ∧
           (s.eng.pwr.state = .doze → exec (.registerWrite a) s = .next (held true)) ∧
           (s.eng.pwr.state = .off → exec (.registerWrite a) s = .next (s.after e) ∧
             exec (.registerRead a) s = .next (s.after (e.emit (.csr a.fn 0)))))))) ∧
  (
    ∀ (s : State),
      (s.eng.ctl.stalled = [] → exec .stalledAccessComplete s = .next (s.after s.eng.clear)) ∧
      (∀ w a l, s.eng.ctl.stalled = (w, a) :: l →
        (s.eng.Up → exec .stalledAccessComplete s = .next (s.after (
          ({ s.eng.clear with ctl := { s.eng.ctl with stalled := l } } : Eng).csrRun s.boot.runB s.budget w a))) ∧
        (s.eng.start.phase = .s3 → (a.win = true → a.fn = 0 → a.off.toNat < 0x20000 ∨ 0x30000 ≤ a.off.toNat) →
          exec .stalledAccessComplete s = .next (s.after s.eng.clear))))

/-! ### Time bases -/

/-- FAST_TIME_READ, CAPTURE_READ and PPS_READ in RUN (R39, R325, R326). The fast time read returns NS and SEC_LO of the
function's base and latches SEC_HI, TB and DEGRADED; a function without a base reads 0. The capture read takes the oldest
capture off the queue and latches its seconds; of an empty queue it returns 0. The 1PPS read returns the base's NS at the
last edge with its signed offset from the whole second, and latches the seconds.
TB_SNAP, TB_STEP, TB_ADD, SLEW_GO and SLEW_STOP in RUN on a member that is no standby (R316, R318). A snapshot copies
the time. A step replaces it, SUBNS 0; an add adds OFFSET in ns, SUBNS kept, and is ignored with source 35 where the result
would be below zero; either clears DEGRADED, ends a slew with LEFT 0 and adds 1 to STEP_COUNT, and what follows a step
(R319, R324, R355) follows. A slew starts with LEFT at AMOUNT, or ends at once with SLEW_DONE for AMOUNT 0; SLEW_STOP
leaves LEFT. -/
def Obligations.TimeReadsAndControls : Prop :=
  (
    ∀ (s : State),
      (∀ f, s.eng.Open f → (s.eng.fn f).enabled = true →
        (∀ n, (s.eng.fn f).timeBase = some n → exec (.fastTimeRead f) s = .next (s.after (
          let t := s.eng.tb n
          let hi := t.sec / 2 ^ 32 % 2 ^ 32 + 2 ^ 32 * n.val + if t.degraded then 2 ^ 34 else 0
          ((s.eng.touch f).setFn f { s.eng.fn f with ftHi := BitVec.ofNat 64 hi }).emit
            (.csr f (BitVec.ofNat 64 (t.ns % 2 ^ 32 + 2 ^ 32 * (t.sec % 2 ^ 32))))))) ∧
        ((s.eng.fn f).timeBase = none → exec (.fastTimeRead f) s = .next (s.after ((s.eng.touch f).emit (.csr f 0))))) ∧
      (s.eng.Open 0 → ∀ k, (∀ c l, (s.eng.cap k).queue = c :: l → exec (.captureRead k) s = .next (s.after (
          ((s.eng.touch 0).setCap k { s.eng.cap k with queue := l, hi := c.sec }).emit
            (.csr 0 (BitVec.ofNat 64 (c.ns % 2 ^ 32 + 2 ^ 32 * (c.frac % 16) + (if c.rise then 2 ^ 36 else 0) + 2 ^ 37 +
              2 ^ 38 * c.tb.val + 2 ^ 40 * (l.length % 32))))))) ∧
        ((s.eng.cap k).queue = [] → exec (.captureRead k) s = .next (s.after ((s.eng.touch 0).emit (.csr 0 0))))) ∧
      (s.eng.Open 0 → ∀ n : TbId, exec (.ppsRead n) s = .next (s.after (
        let (sec, ns) := s.eng.time.ppsAt.get (0, 0) n.val
        let off := if ns < 500000000 then ns else unsigned 32 ((ns : Int) - 1000000000)
        let e := s.eng.touch 0
        ({ e with time := { s.eng.time with ppsHi := s.eng.time.ppsHi.put 0 n.val sec } } : Eng).emit
          (.csr 0 (BitVec.ofNat 64 (ns + off * 2 ^ 32))))))) ∧
  (
    ∀ (s : State) (n : TbId), s.eng.Open 0 → s.eng.standby = false → s.eng.journals = false →
      (let e := s.eng.touch 0
       let t := s.eng.tb n
       let jump (sec ns sub : Nat) : TimeBase :=
         { t with sec := sec, ns := ns, sub := sub, degraded := false, left := 0, slewing := false, stepCount := t.stepCount + 1 }
       let v : Int := (t.sec * 1000000000 + t.ns : Nat) + t.offset
       exec (.tbSnap n) s = .next (s.after (e.setTb n { t with snapNs := t.ns, snapSub := t.sub, snapSec := t.sec })) ∧
       exec (.tbStep n) s = .next (s.after ((e.setTb n (jump t.setSec t.setNs 0)).stepped n 0)) ∧
       (0 ≤ v → exec (.tbAdd n) s = .next (s.after
         ((e.setTb n (jump (v.toNat / 1000000000 % 2 ^ 64) (v.toNat % 1000000000) t.sub)).stepped n
           (unsigned 32 (max (-2 ^ 31) (min (2 ^ 31 - 1) t.offset)))))) ∧
       (v < 0 → exec (.tbAdd n) s = .next (s.after (e.badAccess 0 (0x40000 + 0x100 * n.val)))) ∧
       (t.amount ≠ 0 → exec (.slewGo n) s =
         .next (s.after (e.setTb n { t with left := t.amount * 2 ^ 32, slewing := true }))) ∧
       (t.amount = 0 → exec (.slewGo n) s =
         .next (s.after ((e.setTb n { t with left := 0, slewing := false }).ctlEvent 0 8 6 n.val 0))) ∧
       exec (.slewStop n) s = .next (s.after (e.setTb n { t with slewing := false }))))

/-- TIME_BASE_INCREMENT and HOLDOVER_INCREMENT (R311, R312, R318, R321). At a CLK_TS edge the phase count advances by 1
modulo 25 and every base's count of 2^-32 ns by the nominal units of its phase, FREQ and its slew's step, which leaves
LEFT; in holdover a CLK_AON edge does so for 40 edges, without slews. NS stays below 10^9 and SUBNS below 2^32. Outside
holdover there is no CLK_AON increment, and in it no CLK_TS edge.
The nominal increment is 2 ns and 2,405,181,685 units, with a further unit at every phase but 0, 4, 8, 12, 16 and 20;
any 25 edges in a row add exactly 64 ns (R312). -/
def Obligations.TimeBaseRates : Prop :=
  (
    (∀ (t : TimeBase) (p : Nat),
      let v (x : TimeBase) : Nat := (x.sec * 1000000000 + x.ns) * 2 ^ 32 + x.sub
      let m : Int := 2 ^ 64 * 1000000000 * 2 ^ 32
      let step : Int := if t.slewing then (if 0 ≤ t.left then min (slewUnits t.ppm : Int) t.left else max (-(slewUnits t.ppm : Int)) t.left) else 0
      ((v (t.tick p) : Int) = ((v t : Int) + (nominal p : Int) + t.freq + step) % m) ∧ (t.tick p).ns < 1000000000 ∧
      (t.tick p).sub < 2 ^ 32 ∧ (t.tick p).left = t.left - step ∧ (t.tick p).slewing = (t.slewing && decide (t.left ≠ step)) ∧
      (t.tick p).freq = t.freq ∧
      ((v (t.hold40 p) : Int) = ((v t : Int) + (nominals 40 p : Int) + 40 * t.freq) % m) ∧ (t.hold40 p).ns < 1000000000) ∧
    (∀ (s : State), s.eng.time.holdover = none → s.eng.pwr.pll = true → (∀ n, (s.eng.tb n).slewing = false) →
      ∃ e, exec .timeBaseIncrement s = .next (s.after e) ∧ (∀ n, e.tb n = (s.eng.tb n).tick s.eng.time.phase) ∧
        e.time.phase = (s.eng.time.phase + 1) % 25 ∧ e.time.clk = s.eng.time.clk + 1 ∧ { e with time := s.eng.time } = s.eng.clear) ∧
    (∀ (s : State) (t : Nat), s.eng.time.holdover = some t →
      exec .timeBaseIncrement s = .next (s.after s.eng.clear) ∧
      ∃ e, exec .holdoverIncrement s = .next (s.after e) ∧ (∀ n, e.tb n = (s.eng.tb n).hold40 s.eng.time.phase) ∧
        e.time.phase = (s.eng.time.phase + 40) % 25 ∧ e.time.clk = s.eng.time.clk + 40 ∧ { e with time := s.eng.time } = s.eng.clear) ∧
    (∀ (s : State), s.eng.time.holdover = none → exec .holdoverIncrement s = .next (s.after s.eng.clear))) ∧
  (
    (∀ p, p < 25 → nominal p = 2 * 2 ^ 32 + 2405181685 + (if p ∈ [0, 4, 8, 12, 16, 20] then 0 else 1)) ∧
    (∀ p, nominals 25 p = 64 * 2 ^ 32))

/-- PPO_MODE_SET in RUN and PULSE_EDGE (R323, R324). MODE OFF ends a pulse in progress and stops the output; mode 3, or a
mode whose WIDTH or PERIOD is out of range, is ignored with source 35; PERIODIC makes the next edge the first START + j ×
PERIOD that is not in the past. At a due edge the output goes to its active level for WIDTH, and then back: a ONCE output
is then OFF, and a PERIODIC one has its next edge PERIOD after the last.
CAPTURE_EDGE, PPS_EDGE and TSQ_ENTRY_EXPIRY (R325, R326, R333). Outside holdover an enabled edge puts the time of the
input's base in its queue of 16, with a CAPTURE event where it was empty; a 17th is dropped and counted. An enabled 1PPS
edge takes the time of all four bases and counts. A time-stamp unread for 1 s leaves its port's queue and is counted. -/
def Obligations.PulsesAndCaptures : Prop :=
  (
    (∀ (s : State) (k : Fin 8), s.eng.Open 0 → s.eng.standby = false → s.eng.journals = false →
      (let e := s.eng.touch 0
       let x := s.eng.ppo k
       let only (d : Eng) : Prop := (∀ j, j ≠ k → d.ppo j = s.eng.ppo j) ∧
         ({ d with time := { d.time with ppo := s.eng.time.ppo } } : Eng) = e
       (x.mode ≠ 0 → x.mode < 4 → ∃ d, only d ∧ d.ppo k = { x with active := false, mode := 0, next := none } ∧
         exec (.ppoModeSet k 0) s = .next (s.after (if x.active then d.emit (.pulse k x.polarity) else d))) ∧
       (x.mode < 3 → ∃ d, only d ∧ d.ppo k = x ∧
         exec (.ppoModeSet k 3) s = .next (s.after (d.badAccess 0 (0x41000 + 0x40 * k.val)))) ∧
       (x.mode < 2 → (x.width < 6 ∨ x.period < 16 ∨ x.period < x.width + 6) → ∃ d, only d ∧ d.ppo k = x ∧
         exec (.ppoModeSet k 2) s = .next (s.after (d.badAccess 0 (0x41000 + 0x40 * k.val)))) ∧
       (x.mode = 0 → x.active = false → 6 ≤ x.width → 16 ≤ x.period → x.width + 6 ≤ x.period → s.eng.time.holdover = none →
         ∃ d t, only d ∧ d.ppo k = { x with mode := 2, next := some t } ∧ exec (.ppoModeSet k 2) s = .next (s.after d) ∧
           x.start ≤ t ∧ (s.eng.tb x.tb).linear ≤ t ∧ (∃ j, t = x.start + j * x.period) ∧
           (t < (s.eng.tb x.tb).linear + x.period ∨ t = x.start)))) ∧
    (∀ (s : State) (k : Fin 8) (t : Nat), s.eng.time.holdover = none →
      (let x := s.eng.ppo k
       let e := s.eng.clear
       x.next = some t →
       (x.active = false → exec (.pulseEdge k) s = .next (s.after
         ((e.setPpo k { x with active := true, next := some (t + x.width) }).emit (.pulse k (!x.polarity))))) ∧
       (x.active = true → x.mode = 2 → exec (.pulseEdge k) s = .next (s.after
         ((e.setPpo k { x with active := false, next := some (t + x.period - x.width) }).emit (.pulse k x.polarity)))) ∧
       (x.active = true → x.mode = 1 → exec (.pulseEdge k) s = .next (s.after
         ((e.setPpo k { x with active := false, mode := 0, next := none }).emit (.pulse k x.polarity))))))) ∧
  (
    ∀ (s : State),
      (let e := s.eng.clear
       (∀ (k : Fin 8) (r : Bool),
         let x := s.eng.cap k
         let t := s.eng.tb x.tb
         let d := e.setCap k { x with queue := x.queue ++
           [{ sec := t.sec % 2 ^ 48, ns := t.ns, frac := t.sub / 2 ^ 28, rise := r, tb := x.tb }] }
         s.eng.time.holdover = none → (if r then x.rise else x.fall) = true →
           (x.queue.length < 16 → exec (.captureEdge k r) s = .next (s.after
             (if x.eventEn = true ∧ x.queue = [] then d.ctlEvent 0 8 4 k.val 1 else d))) ∧
           (16 ≤ x.queue.length → exec (.captureEdge k r) s = .next (s.after (e.setCap k { x with drops := sat64 (x.drops + 1) })))) ∧
       (s.eng.time.holdover = none → s.eng.time.ppsEn = true → ∃ d, exec .ppsEdge s = .next (s.after
           (if s.eng.time.ppsEvent then d.ctlEvent 0 8 4 8 0 else d)) ∧
         (∀ n : TbId, d.time.ppsAt.get (0, 0) n.val = ((s.eng.tb n).sec % 2 ^ 48, (s.eng.tb n).ns)) ∧
         d.time.ppsCount = s.eng.time.ppsCount + 1 ∧ { d with time := s.eng.time } = s.eng.clear) ∧
       (∀ (p : PortId) x l,
         let q := s.eng.time.tsq.get {} p.val
         let q' : TsQueue := { q with ents := l, exp := sat64 (q.exp + 1) }
         q.ents = x :: l → exec (.tsqEntryExpiry p) s = .next (s.after
           { e with time := { s.eng.time with tsq := s.eng.time.tsq.put {} p.val q' } }))))

/-! ### Flow control, transmit starts and frames received -/

/-- RX_PAUSE, RX_PFC and PAUSE_TIMER_EXPIRY (R109, R110, R111, R126, R128). On a port in UP a PAUSE frame is counted and,
in PAUSE mode, loads the port's timer; a PFC frame is counted for each class of its enable vector and, in PFC mode, loads
those classes' timers; in another mode it is ignored and counted. A time of zero ends a timer and adds its time to the
class's count. A timer that runs out is as a time of zero; a port not in UP receives nothing.
FC_REFRESH, PFC_WATCHDOG_EXPIRY and DRAIN_RESTORE (R116, R125, R126). A class in XOFF has its flow-control frame made
ready again at half of its time. A class whose timer has stayed above zero past WD_LIMIT goes into DRAIN with source 33; in
PAUSE mode all classes do. Once the timer has been at zero for WD_RESTORE the class leaves DRAIN. -/
def Obligations.PauseAndDrainTimers : Prop :=
  (
    (∀ (s : State) (p : PortId), s.eng.pwr.restOn = true →
      (let e := s.eng.clear.rxControl p 0x0180C2000001 64
       let x := s.eng.port p
       let heard : TEvent := { code := 0x004, port := some p, dir := some .rx }
       (x.state = .up →
         (∀ q, exec (.rxPause p q) s = .next (s.after (
           let d := (e.stat p 32 1).tal heard
           if x.fcMode = .pause then d.setPause p q.toNat else d.stat p 50 1))) ∧
         (∀ en times, exec (.rxPfc p en times) s = .next (s.after (
           let cs := (upTo 8).filter (bitAt en.toNat)
           let d := (foldEng cs (fun e c => e.stat p (34 + c) 1) e).tal heard
           if x.fcMode = .pfc then foldEng cs (fun e c => e.setPfc p c (nth (times.map BitVec.toNat) c 0)) d else d.stat p 50 1)))) ∧
       (x.state ≠ .up → (∀ q, exec (.rxPause p q) s = .next (s.after s.eng.clear)) ∧
         ∀ en times, exec (.rxPfc p en times) s = .next (s.after s.eng.clear)))) ∧
    (∀ (s : State) (p : PortId),
      ((s.eng.port p).pauseP.isSome = true → exec (.pauseTimerExpiry p none) s = .next (s.after (s.eng.clear.setPause p 0))) ∧
      (∀ c : Tc, (nth (s.eng.port p).pauseC c.val none).isSome = true →
        exec (.pauseTimerExpiry p (some c)) s = .next (s.after (s.eng.clear.setPfc p c.val 0)))) ∧
    (∀ (e : Eng) (p : PortId) (c : Tc) (q : Nat),
      (let x := e.port p
       let run (t : Option PauseT) : Option PauseT :=
         if q = 0 then none
         else some { cycles := (q * 4 + x.txLanes - 1) / x.txLanes, setAt := e.now, since := (t.map (·.since)).getD e.now }
       ((e.setPause p q).port p).pauseP = run x.pauseP ∧ ((e.setPause p q).port p).pauseC = x.pauseC ∧
       (x.pauseC.length = 8 → nth ((e.setPfc p c.val q).port p).pauseC c.val none = run (nth x.pauseC c.val none)) ∧
       ((e.setPfc p c.val q).port p).pauseP = x.pauseP ∧
       (∀ t, x.pausedFor.length = 8 → nth x.pauseC c.val none = some t → q = 0 →
         nth ((e.setPfc p c.val q).port p).pausedFor c.val 0 = nth x.pausedFor c.val 0 + ((e.now : Int) - t.since)) ∧
       (∀ r, r ≠ p → (e.setPause p q).port r = e.port r ∧ (e.setPfc p c.val q).port r = e.port r)))) ∧
  (
    ∀ (s : State) (p : PortId) (c : Tc),
      (let e := s.eng.clear
       let x := s.eng.port p
       (bitAt x.xoffSt.toNat c.val = true → x.state = .up → s.eng.standby = false → x.fcMode ≠ .none →
         x.trump = [] → x.trumpWait = [] → exec (.fcRefresh p c) s = .next (s.after (e.setPort p { x with trump := [.fc] }))) ∧
       (bitAt x.xoffSt.toNat c.val = false → exec (.fcRefresh p c) s = .next (s.after e)) ∧
       (x.wdLimit ≠ 0 →
         (x.fcMode = .pfc → (nth x.pauseC c.val none).isSome = true → bitAt x.drain.toNat c.val = false →
           exec (.pfcWatchdogExpiry p c) s = .next (s.after
             ((e.setPort p { x with drain := x.drain ||| BitVec.ofNat 8 (2 ^ c.val) }).raiseEv
               (mkEv 33 .failure (p.val + 16 * c.val) (0x8020 + p.val) 0 0)))) ∧
         (x.fcMode = .pause → x.pauseP.isSome = true → bitAt x.drain.toNat 0 = false →
           exec (.pfcWatchdogExpiry p c) s = .next (s.after
             ((e.setPort p { x with drain := 0xFF }).raiseEv (mkEv 33 .failure p.val (0x8020 + p.val) 0 0))))) ∧
       (x.wdLimit = 0 → exec (.pfcWatchdogExpiry p c) s = .next (s.after e)) ∧
       (x.fcMode = .pfc → bitAt x.drain.toNat c.val = true → (nth x.restoreAt c.val none).isSome = true →
         exec (.drainRestore p c) s = .next (s.after (e.setPort p { x with
           drain := x.drain &&& ~~~ BitVec.ofNat 8 (2 ^ c.val), restoreAt := setNth x.restoreAt c.val none }))) ∧
       (x.fcMode = .pause → bitAt x.drain.toNat 0 = true → (nth x.restoreAt 0 none).isSome = true →
         exec (.drainRestore p c) s = .next (s.after (e.setPort p { x with
           drain := 0, restoreAt := List.replicate 8 none })))))

/-- TX_HOLD and CT_THRESHOLD_LOWER (R108, R487). MI_TX_HOLD of a slot follows its pin, and while it is high no frame starts
on a port the slot serves. After 10^6 frames without an underrun the cut-through threshold halves, not below its floor;
from SAF it returns to 8,192 bytes; the count starts anew.
TRUMP_FRAME_START (R112, R113, R118, R119). On a port that may start, the control frame of the highest precedence
leaves the trump store, takes the next free start position and is sent with its FCS; one that waited takes the room. A
flow-control frame carries the state at its start, and is not held by a pause. -/
def Obligations.ControlFramesAndHolds : Prop :=
  (
    (∀ (s : State) (p : PortId) (on : Bool),
      exec (.txHold p on) s = .next (s.after { s.eng.clear with
        txHold := if on then s.eng.txHold ||| BitVec.ofNat 16 (2 ^ p.val) else s.eng.txHold &&& ~~~ BitVec.ofNat 16 (2 ^ p.val) })) ∧
    (∀ (s : State) (p : PortId) (dp : Fin 4) (seg : Fin 16), bitAt s.eng.txHold.toNat p.val = true → 0 < (s.eng.port p).txLanes →
      (s.eng.port p).lists = List.replicate 8 [] →
      exec (.txFrameStart p dp seg) s = .next (s.after s.eng.clear) ∧ exec (.trumpFrameStart p) s = .next (s.after s.eng.clear)) ∧
    (∀ (s : State) (p : PortId),
      (let x := s.eng.port p
       x.ctSaf = false →
       (∀ n, 1000000 ≤ x.ctFrames → x.ct = .bytes n → x.ctFloor < n → exec (.ctThresholdLower p) s = .next (s.after
         (s.eng.clear.setPort p { x with ct := .bytes (max x.ctFloor (n / 2)), ctFrames := 0 }))) ∧
       (∀ n, 1000000 ≤ x.ctFrames → x.ct = .bytes n → n ≤ x.ctFloor → exec (.ctThresholdLower p) s = .next (s.after
         (s.eng.clear.setPort p { x with ctFrames := 0 }))) ∧
       (1000000 ≤ x.ctFrames → x.ct = .saf → exec (.ctThresholdLower p) s = .next (s.after
         (s.eng.clear.setPort p { x with ct := .bytes (max x.ctFloor 8192), ctFrames := 0 }))) ∧
       (x.ctFrames < 1000000 → exec (.ctThresholdLower p) s = .next (s.after s.eng.clear))))) ∧
  (
    ∀ (s : State) (p : PortId), s.eng.mayStart p = true →
      (let x := s.eng.port p
       (x.nextTrump = none → exec (.trumpFrameStart p) s = .next (s.after s.eng.clear)) ∧
       (∀ t l, x.trump = t :: l → (t = .fc ∨ (∃ ttl, t = .lldp ttl) ∨ ∃ ty m, t = .thin ty m ∧ ty < 4) → (∀ u ∈ l, t.rank ≤ u.rank) →
         (t = .fc ∨ x.fcMode ≠ .pause) →
         (let bs := s.eng.trumpBytes p t
          let d := ((s.eng.clear.takeNext p (bs.length + 4)).modPort p (fun y => { y with trump := l })).sendTrump p t
          exec (.trumpFrameStart p) s = .next (s.after (Eng.trumpRefill p 4 d)) ∧ Out.trump p (bs ++ fcsBytes bs) ∈ d.outs ∧
            (d.port p).trump = l))))

/-- TX_FRAME_START, TX_FRAME_END and TX_UNDERRUN (R25, R106, R107, R113, R166, R350). On a port with no class in DRAIN no
frame starts while a control frame waits, while the port may not start, or at a position that is not its own or not free.
Else the head that can start and was granted first is committed and joins the committed frames; so does the only head, on a
port without a Deck, of a frame that is whole, not paused, without a launch time and no frame that R117 discards. A frame
whose data is whole ends as its last byte leaves, and is sent; a frame that runs dry is stomped, counted, and goes back to
its queue, and the threshold rises one level.
RX_FRAME (R74, R88, R99, R100, R104, R123, R124, R220). A port not in UP receives nothing; while its slot MAC is
powered the frame is counted as discarded. A frame below 64 bytes is a runt; one that finds no room is dropped, counted;
one too long, with an error, or with a bad FCS is counted and freed; a frame that is consumed is freed, or goes on too
where LLDP_MIRROR is ON; any other goes on to steering with its lines charged to its class. A frame of a lossy class below
its limit, with room in the shared area, is so admitted. -/
def Obligations.FramesStartEndAndArrive : Prop :=
  (
    (∀ (s : State) (p : PortId) (dp : Fin 4) (seg : Fin 16), (s.eng.port p).drain = 0 →
      ((s.eng.port p).nextTrump.isSome = true ∨ s.eng.mayStart p = false ∨ s.eng.freePos p dp.val seg.val = false →
        exec (.txFrameStart p dp seg) s = .next (s.after s.eng.clear)) ∧
      (s.eng.mayStart p = true → (s.eng.port p).nextTrump = none → s.eng.freePos p dp.val seg.val = true →
        ∀ c g l x f, nth (s.eng.port p).lists c.val [] = g :: l → (∀ k, k < 8 → k ≠ c.val → nth (s.eng.port p).lists k [] = []) →
        s.eng.txq g.q = some x → x.frame? g.frame = some f → g.need ≤ g.data.length → (s.eng.port p).paused c = false →
        (s.eng.port p).hostDrop g.data = none → x.launch f g.seg = none → (s.eng.port p).deck.st = .none →
        (s.eng.port p).deck.oper = none →
        ∃ d w, exec (.txFrameStart p dp seg) s = .next (s.after d) ∧ d = s.eng.clear.commitStart p c g none dp.val seg.val ∧
          nth (d.port p).lists c.val [] = l ∧ (d.port p).wire = (s.eng.port p).wire ++ [w] ∧ w.g = g ∧ w.f = f ∧
          w.lateSent = none ∧ w.len = (s.eng.port p).txLen f x.fcsPass g.seg ∧ Out.txStart p g.q w.len ∈ d.outs ∧
          ∀ r, r ≠ p → d.port r = s.eng.port r) ∧
      ((∀ c g, c < 8 → (nth (s.eng.port p).lists c []).head? = some g → ∀ st d i,
          s.eng.clear.place p (fin 8 c) g dp.val seg.val ≠ .done st d ∧ s.eng.clear.place p (fin 8 c) g dp.val seg.val ≠ .discard i) →
        s.eng.mayStart p = true → (s.eng.port p).nextTrump = none → s.eng.freePos p dp.val seg.val = true →
        (let d := foldEng (upTo 8) (fun e c => e.fitWait p (fin 8 c) dp.val seg.val) s.eng.clear
         (d.pickStart p dp.val seg.val = none → exec (.txFrameStart p dp seg) s = .next (s.after d)) ∧
         (∀ c g late, d.pickStart p dp.val seg.val = some (c, g, late) →
           exec (.txFrameStart p dp seg) s = .next (s.after (d.commitStart p c g late dp.val seg.val)))))) ∧
    (∀ (s : State) (p : PortId) (w : WireFrame) (l : List WireFrame), (s.eng.port p).wire = w :: l →
      (w.g.failed = 0 → w.g.need ≤ w.g.data.length → s.eng.pwr.restOn = true → w.f.tsReq = false → w.lateSent = none →
        w.orphan = false → exec (.txFrameEnd p) s = .next (s.after (
          let (bs, bad) := s.eng.clear.txBytes p w
          let e := (s.eng.clear.popWire p w).emit (.txEnd p false bs)
          (((e.countSent p w bs bad).slotSent p w).sentWhole w false).stompAll p))) ∧
      (w.g.failed = 0 → w.g.data.length < w.g.need → w.orphan = false →
        exec (.txFrameEnd p) s = .next (s.after (s.eng.clear.stompAll p)) ∧
        exec (.txUnderrun p) s = .next (s.after (
          let e := (s.eng.clear.stomp p w).stat p 70 1
          let e := match (e.port p).ctNow with
            | .bytes n => (e.modPort p (fun y => { y with ct := if n < 8192 then .bytes (2 * n) else .saf, ctFrames := 0 })).stat p 84 1
            | .saf => e.modPort p (fun y => { y with ctFrames := 0 })
          (e.retryFrame p w.g).stompAll p))))) ∧
  (
    ∀ (s : State) (r : RxFrame),
      (let p := s.eng.portOf r.port
       let x := s.eng.port p
       let len := r.bytes.length
       let c := x.ingress r.bytes
       let e := s.eng.clear.wireBytes p .rx (some c) (some .host) len
       let lines := linesOf (min len (x.maxFrame + 1))
       let good : Bool := fcsBytes (r.bytes.take (len - 4)) == r.bytes.drop (len - 4)
       let tr := x.hasTrailer c
       (x.state ≠ .up → exec (.rxFrame r) s = .next (s.after (if s.eng.pwr.restOn then s.eng.clear.stat p 66 1 else s.eng.clear))) ∧
       (x.state = .up → s.eng.pwr.restOn = true → r.badBeat = none → s.eng.pwr.closed = false →
         (len < 64 → exec (.rxFrame r) s = .next (s.after
           ((((s.eng.clear.wireBytes p .rx none (some .host) len).stat p 60 1).tal
             { code := 0x006, port := some p, dir := some .rx }).slotFrame p .rx clWasted (len + 20)))) ∧
         (64 ≤ len → ∀ i, e.admission p c lines = .inr i → good = false → exec (.rxFrame r) s = .next (s.after
           ((e.stat p i 1).slotFrame p .rx clStarvedFront (len + 20)))) ∧
         (64 ≤ len → x.fcMode = .none → s.eng.sharedUse + lines ≤ s.eng.sharedCap → 64 * nth x.shared c.val 0 < nth x.lossyLimit c.val 0 →
           len ≤ x.maxFrame → r.err = false → r.cut = false → good = true → x.consumer r.bytes = .none →
           exec (.rxFrame r) s = .next (s.after ((((e.chargeRx p c .shared lines).rxGood p (some c) r.bytes len).slotFrame p .rx
             clRetired (len + 20)).rxSteer r p c lines .shared false tr))) ∧
         (64 ≤ len → ∀ a, e.admission p c lines = .inl a →
           (let d := e.chargeRx p c a lines
            let bad (i : Nat) : Eng := (d.rxBad p i).slotFrame p .rx clWasted (len + 20)
            (x.maxFrame < len → exec (.rxFrame r) s = .next (s.after ((bad 61).freeRx p c a lines))) ∧
            (len ≤ x.maxFrame → r.err = true ∨ r.cut = true → exec (.rxFrame r) s = .next (s.after ((bad 63).freeRx p c a lines))) ∧
            (len ≤ x.maxFrame → r.err = false → r.cut = false →
              (good = false → exec (.rxFrame r) s = .next (s.after (
                if x.badFcsDeliver then (bad 62).rxSteer r p c lines a true tr else (bad 62).freeRx p c a lines))) ∧
              (good = true →
                (let d := (d.rxGood p (some c) r.bytes len).slotFrame p .rx clRetired (len + 20)
                 (x.consumer r.bytes = .none → exec (.rxFrame r) s = .next (s.after (d.rxSteer r p c lines a false tr))) ∧
                 (x.consumer r.bytes = .lldp → exec (.rxFrame r) s = .next (s.after (
                   let d := d.consume p r.bytes .lldp
                   if x.lldpMirror then d.rxSteer r p c lines a false tr else d.freeRx p c a lines))) ∧
                 (x.consumer r.bytes = .mac ∨ x.consumer r.bytes = .thin → exec (.rxFrame r) s =
                   .next (s.after ((d.consume p r.bytes (x.consumer r.bytes)).freeRx p c a lines)))))))))))

/-! ### LLDP, links, modules and thinning -/

/-- RX_LLDPDU, LLDP_TX_TIMER and PARTNER_TTL_EXPIRY (R85, R88, R89, R90). A good LLDPDU reaches the agent of a port in UP
and is consumed there, or goes on to steering too where LLDP_MIRROR is ON; the first from a partner fills its record with
its TTL, one with TTL 0 of a known partner clears it with PARTNER_LOST, and one of the same partner that no longer advertises
THIN withdraws it. The timer makes the port's own LLDPDU ready with a TTL of four intervals, at most 65,535, and one
fast-start LLDPDU fewer is to come. A record whose TTL has passed is cleared with PARTNER_LOST, and partner features are
withdrawn. While PD_CTL is gated the agent does not run. -/
def Obligations.PartnerRecords : Prop :=
  (∀ (s : State) (r : RxFrame),
    (let p := s.eng.portOf r.port
     let x := s.eng.port p
     let len := r.bytes.length
     let c := x.ingress r.bytes
     let lines := linesOf len
     (∀ q, q ≠ p ∨ x.consumer r.bytes ≠ .lldp → exec (.rxLldpdu q r) s = .next (s.after s.eng.clear)) ∧
     (x.consumer r.bytes = .lldp → x.state = .up → s.eng.pwr.restOn = true → s.eng.pwr.closed = false → r.badBeat = none →
       r.err = false → r.cut = false → 64 ≤ len → len ≤ x.maxFrame → fcsBytes (r.bytes.take (len - 4)) = r.bytes.drop (len - 4) →
       x.fcMode = .none → s.eng.sharedUse + lines ≤ s.eng.sharedCap → 64 * nth x.shared c.val 0 < nth x.lossyLimit c.val 0 →
       ∀ d, lldpOf (slice r.bytes 14 (len - 18)) = some d → exec (.rxLldpdu p r) s = .next (s.after (
         let e := ((((s.eng.clear.wireBytes p .rx (some c) (some .host) len).chargeRx p c .shared lines).rxGood p (some c) r.bytes
           len).slotFrame p .rx clRetired (len + 20)).lldpRx p d
         if x.lldpMirror then e.rxSteer r p c lines .shared false (x.hasTrailer c) else e.freeRx p c .shared lines))))) ∧
  (∀ (e : Eng) (p : PortId) (d : Lldpdu),
    ((e.port p).lldpAgent = false → e.lldpRx p d = e) ∧
    (∀ k, d.ttl ≠ 0 → (e.port p).partner.st = .present → (e.port p).partner.chassis = d.chassis →
      (e.port p).partner.portId = d.portId → (e.port p).partner.cap = some k → k.thin = true →
      (d.cap.map (·.thin)).getD false = false →
      e.partnerRx p d = (true, e.setPort p { e.port p with partner :=
        { st := .present, chassis := d.chassis, portId := d.portId, ttl := d.ttl.toNat, cap := d.cap, pair := d.pair
          time := e.tb0, count := (e.port p).partner.count + 1 } })) ∧
    (d.ttl ≠ 0 → (e.port p).partner.st = .none →
      e.partnerRx p d = (false, e.setPort p { e.port p with partner :=
        { st := .present, chassis := d.chassis, portId := d.portId, ttl := d.ttl.toNat, cap := d.cap, pair := d.pair
          time := e.tb0, count := 1 } })) ∧
    (d.ttl = 0 → (e.port p).partner.st ≠ .none →
      e.partnerRx p d = (true, (e.setPort p { e.port p with partner := {} }).portEvent p 4 0))) ∧
  (∀ (s : State) (p : PortId),
    (let x := s.eng.port p
     let e := s.eng.clear.setPort p { x with fastStart := x.fastStart - 1 }
     (s.eng.pwr.ctlOn = true → x.state = .up → x.lldpAgent = true → exec (.lldpTxTimer p) s =
       .next (s.after (e.pushTrump p (.lldp (min (4 * x.lldpInterval) 65535))))) ∧
     (s.eng.pwr.ctlOn = true → x.state ≠ .up ∨ x.lldpAgent = false → exec (.lldpTxTimer p) s = .next (s.after e)) ∧
     (s.eng.pwr.ctlOn = false → exec (.lldpTxTimer p) s = .next (s.after s.eng.clear) ∧
       exec (.partnerTtlExpiry p) s = .next (s.after s.eng.clear)) ∧
     (s.eng.pwr.ctlOn = true → x.partner.st ≠ .none → exec (.partnerTtlExpiry p) s = .next (s.after
       (((s.eng.clear.setPort p { x with partner := {} }).portEvent p 4 0).thinWithdraw p))) ∧
     (x.partner.st = .none → exec (.partnerTtlExpiry p) s = .next (s.after s.eng.clear))))

/-- LINK_UP, LINK_FAULT, UP_DEBOUNCE_EXPIRY and TRAIN_TIMEOUT (R72, R73, R75). The link coming up on a port in TRAINING
starts its debounce; at its end, the link still up, the port enters UP with STATE_CHANGED and cause LINK_UP. A fault on a
lane in service takes a port in UP back to TRAINING, where it is retrained, and ends a debounce. After 10 s without link-up
training is reported and requested again.
MI_CTL_ACK and MI_CTL_TIMEOUT (R144, R148, R489). The line block's answer ends the command outstanding and the next one
waiting leaves; the answer to TX_MAP lets the transmit gap end. A command that fails, or is unanswered at its bound, raises
source 46; a failed map in UP is recovered by retraining, and a failed ENABLE or RETRAIN in TRAINING starts training again.
With no command outstanding an answer is ignored. -/
def Obligations.LinkStates : Prop :=
  (
    ∀ (s : State) (p : PortId),
      (let e := s.eng.clear
       let x := s.eng.port p
       (x.state = .training → exec (.linkUp p) s = .next (s.after (e.setPort p { x with linkUp := true, debouncing := true }))) ∧
       (x.state ≠ .training → exec (.linkUp p) s = .next (s.after (e.setPort p { x with linkUp := true }))) ∧
       (x.state = .training → x.debouncing = true → x.linkUp = true → x.xoffSt = 0 → x.released = 0 → x.lldpAgent = false →
         exec (.upDebounceExpiry p) s = .next (s.after
           ((e.setPort p { x with debouncing := false, state := .up, cause := 13, changed := s.eng.tb0 }).portEvent p 1 (5 + 256 * 13)))) ∧
       (x.linkUp = false ∨ x.debouncing = false → exec (.upDebounceExpiry p) s = .next (s.after e)) ∧
       (x.state = .training → x.miCtl = none → s.eng.ctlEq 0 = none → x.subs = [] →
         exec (.trainTimeout p) s = .next (s.after
           ((e.setPort p { x with cause := 9, changed := s.eng.tb0, miCtl := some (.retrain, 2 ^ x.width - 1) }).emit
             (.miCtl p .retrain (2 ^ x.width - 1))))) ∧
       (x.state ≠ .training → exec (.trainTimeout p) s = .next (s.after e)) ∧
       (∀ sig, s.eng.portOf p = p → 0 < x.txLanes → s.eng.pwr.restOn = true → s.eng.laneKept p = false →
         (x.state = .training → exec (.linkFault p sig) s = .next (s.after
           (e.setPort p { x with linkUp := false, debouncing := false }))) ∧
         (x.state = .up → exec (.linkFault p sig) s = .next (s.after
           (((e.setPort p { x with linkUp := false }).downTo p .training 10).mi p .retrain (2 ^ x.width - 1)))) ∧
         (x.state ≠ .up → x.state ≠ .training → exec (.linkFault p sig) s = .next (s.after
           (e.setPort p { x with linkUp := false })))))) ∧
  (
    ∀ (s : State) (p : PortId),
      (let e := s.eng.clear
       let x := s.eng.port p
       let no (e : Eng) : Eng := (e.raiseEv (mkEv 46 .failure (p.val + 16 * p.val) (0x8020 + p.val) 0 0)).miNext p
       (x.miCtl = none → (∀ b, exec (.miCtlAck p b) s = .next (s.after e)) ∧ exec (.miCtlTimeout p) s = .next (s.after e)) ∧
       (∀ c arg, x.miCtl = some (c, arg) →
         (c = .disable ∨ c = .warm ∨ c = .cold ∨ c = .watchKeep →
           exec (.miCtlAck p false) s = .next (s.after (e.miNext p)) ∧
           exec (.miCtlAck p true) s = .next (s.after (no e)) ∧ exec (.miCtlTimeout p) s = .next (s.after (no e))) ∧
         (c = .txMap ∨ c = .rxMap → x.state = .up →
           exec (.miCtlTimeout p) s = .next (s.after ((no e).thinRecover p)) ∧
           exec (.miCtlAck p true) s = .next (s.after ((no e).thinRecover p))) ∧
         (c = .txMap → x.miQueue = [] → ∀ b, x.gap = some (arg, b) → exec (.miCtlAck p false) s = .next (s.after
           (e.setPort p { x with miCtl := none, gap := some (arg, true) }))) ∧
         (c = .enable ∨ c = .retrain → x.state = .training →
           exec (.miCtlAck p true) s = .next (s.after (((no e).portState p .training 9).mi p .retrain (2 ^ x.width - 1)))))))

/-- PRESENCE_CONFIRMED, MGMT_INIT_TIMEOUT, MODULE_STATE_TIMEOUT and MODULE_BUS_RETRY (R76, R77, R78, R79, R82). A module
confirmed in an empty cage takes it to MGMT_INIT with its reset released and low power held; a confirmed removal empties
the cage. No answer in MGMT_INIT for 2 s, or a fourth failed transaction, is source 44 and FAULT; a state change beyond its
limit is FAULT. The level of MOD_PRS_N is kept; a present state that is confirmed again changes nothing else. The cause of
the fourth failure is the model's choice (log entry 68).
MODULE_INTERRUPT, MODULE_POLL and MODULE_BUS_TRANSACTION_DONE (R77, R78, R79, R82, R83). An interrupt latches the flags
read and reports them with MODULE_FLAG; the state read is kept, and a module that reads fault faults its cage. A failed
transaction is counted toward its retries, but for one found while MOD_PRS_N is high, which is discarded; the first answer
of the lower page takes a cage from MGMT_INIT to IDENTIFY. Lanes and their flags are read only of a module with pages 10h
and 11h. -/
def Obligations.CagesAndModules : Prop :=
  (
    ∀ (s : State) (c : Cage),
      (let e := s.eng.clear
       let k := s.eng.cage c
       let late (e : Eng) : Eng := e.raiseEv (mkEv 44 .failure c.val 0x8036 0 0)
       let fault (e : Eng) (cause : Nat) : Eng := e.setCage c { k with retries := 0, state := .fault, cause := cause }
       (s.eng.Up → s.eng.mapped c = [] →
         (k.state = .empty → exec (.presenceConfirmed c true) s = .next (s.after
           (e.setCage c { k with rstN := true, lpm := true, retries := 0, state := .mgmtInit, cause := 0, prs := true }))) ∧
         (k.state = .empty → exec (.presenceConfirmed c false) s = .next (s.after (e.setCage c { k with prs := false }))) ∧
         (k.state ≠ .empty → exec (.presenceConfirmed c true) s = .next (s.after (e.setCage c { k with prs := true }))) ∧
         (k.state ≠ .empty → exec (.presenceConfirmed c false) s = .next (s.after
           (e.setCage c { k with rstN := false, lpm := true, ident := none, modState := none, dpActive := 0, laneApp := []
                                 dpPending := false, retries := 0, state := .empty, cause := 2, prs := false })))) ∧
       (s.eng.mapped c = [] →
         (k.state = .mgmtInit → exec (.mgmtInitTimeout c) s = .next (s.after (fault (late e) 3))) ∧
         (k.state = .powerUp ∨ k.state = .ready ∧ k.dpPending = true →
           exec (.moduleStateTimeout c) s = .next (s.after (fault e 7))) ∧
         (4 ≤ k.retries → k.state ≠ .empty → exec (.moduleBusRetry c) s = .next (s.after (fault (late e) 3)))) ∧
       (k.state ≠ .mgmtInit → exec (.mgmtInitTimeout c) s = .next (s.after e)) ∧
       (k.retries < 4 → exec (.moduleBusRetry c) s = .next (s.after e)) ∧
       (k.state = .ready → k.dpPending = false → exec (.moduleStateTimeout c) s = .next (s.after e)))) ∧
  (
    ∀ (s : State) (c : Cage) (st : ModState), s.eng.Up →
      (let e := s.eng.clear
       let k := s.eng.cage c
       (k.state = .empty ∨ k.state = .fault ∨ k.state = .unsupported →
         (∀ fl lf, exec (.moduleInterrupt c fl lf st) s = .next (s.after e)) ∧
         (∀ dp, exec (.modulePoll c st dp) s = .next (s.after e)) ∧
         (∀ n, exec (.moduleBusTransactionDone c (.failed n)) s = .next (s.after e))) ∧
       (k.state = .mgmtInit ∨ k.state = .identify → st ≠ .fault →
         ∀ dp, exec (.modulePoll c st dp) s = .next (s.after (e.setCage c { k with
           modState := some st, dpActive := if k.lanePages then dp else 0 }))) ∧
       (k.state = .identify → st ≠ .fault → s.eng.ctlEq 0 = none → ∀ fl lf,
         exec (.moduleInterrupt c fl lf st) s = .next (s.after (e.setCage c { k with
           modState := some st, flags := k.flags ||| fl, laneFlags := k.laneFlags ||| (if k.lanePages then lf else 0)
           dpActive := if k.lanePages then k.dpActive else 0 }))) ∧
       (k.state = .identify ∨ k.state = .powerUp ∨ k.state = .ready →
         exec (.moduleBusTransactionDone c (.failed false)) s = .next (s.after (e.setCage c { k with retries := k.retries + 1 })) ∧
         exec (.moduleBusTransactionDone c (.failed true)) s = .next (s.after e)) ∧
       (k.state = .mgmtInit → st ≠ .fault → s.eng.mapped c = [] → exec (.moduleBusTransactionDone c (.lowerPage st)) s =
         .next (s.after (e.setCage c { k with modState := some st, retries := 0, state := .identify, cause := 0 }))) ∧
       (k.state = .mgmtInit → s.eng.mapped c = [] → exec (.moduleBusTransactionDone c (.lowerPage .fault)) s =
         .next (s.after (e.setCage c { k with modState := some .fault, retries := 0, lpm := true, state := .fault, cause := 8 })))))

/-- RX_PROPOSE, RX_ACCEPT, RX_REJECT, RX_READY and RX_MARK on a port in UP that receives (R139, R140, R141, R144, R148). A
proposal that finds no handshake is answered once: accepted, or rejected with its reason; the same SEQ again gets the same
answer. An answer of a SEQ that is not the handshake's is malformed. A reject ends a proposal, and a narrowing is not
proposed for 100 ms. The initiator's MARK sets the receive width and is answered by a MARK; a READY is kept.
THIN_INTERVAL, PROPOSE_RETRY, HANDSHAKE_TIMEOUT, READY_TIMEOUT, THIN_GAP_END and WARM_LANE_EXPIRY (R135, R136, R137,
R140, R143, R144, R147, R148). A proposal is sent again three times, and then a narrowing is given up and a widening
recovered by retraining; no MARK in time is recovered too; a READY missing for 6 ms ends the handshake with source 47. As
the gap ends the port takes the new width, and lanes out of service stay warm; a lane warm for 1 s goes cold. An interval
under a threshold throughout which R132 held and the backlog stayed within 256 KiB is counted, up to 1,000; as the count of
the next lower lane count is full, that narrowing is proposed. A port that is not in UP closes its intervals without a
proposal. -/
def Obligations.ThinningHandshakes : Prop :=
  (
    ∀ (s : State) (p : PortId) (m : ThinMsg), (s.eng.port p).state = .up → s.eng.pwr.restOn = true →
      (let e := s.eng.clear.rxControl p 0x0180C200000E 64
       let x := e.port p
       x.state = .up →
       (x.hs = none → x.gap = none →
         (∀ t, x.lastAnswer = some (m.seq, t) → exec (.rxPropose p m) s = .next (s.after (e.pushTrump p t))) ∧
         (x.lastAnswer = none →
           (∀ r, e.rejectReason p m = some r → exec (.rxPropose p m) s = .next (s.after (
             let h : Handshake :=
               { initiator := false, seq := m.seq, target := x.target m, restore := m.restore, warm := x.warmLanes
                 pwarm := m.warm.toNat, phase := .sendMark }
             let t : Trump := .thin 3 (x.thinMsg h r 0)
             (e.setPort p { x with lastAnswer := some (m.seq, t) }).pushTrump p t))) ∧
           (e.rejectReason p m = none → x.target m ≤ x.txLanes → exec (.rxPropose p m) s = .next (s.after (
             let h : Handshake :=
               { initiator := false, seq := m.seq, target := x.target m, restore := m.restore, warm := x.warmLanes
                 pwarm := m.warm.toNat, phase := .sendMark }
             let t : Trump := .thin 2 (x.thinMsg h 0 0)
             ((e.setPort p { x with lastAnswer := some (m.seq, t), hs := some h }).pushTrump p t).pushTrump p
               (.thin 5 (x.thinMsg h 0 1)))))) ∧
         (let bad := e.thinCnt p (fun c => { c with malformed := sat64 (c.malformed + 1) })
          exec (.rxAccept p m) s = .next (s.after bad) ∧ exec (.rxReject p m) s = .next (s.after bad) ∧
          exec (.rxReady p m) s = .next (s.after bad) ∧ exec (.rxMark p m) s = .next (s.after bad))) ∧
       (∀ h, x.hs = some h → h.seq = m.seq →
         (∀ n, h.initiator = true → h.phase = .proposed n →
           (h.target ≤ x.txLanes → exec (.rxAccept p m) s = .next (s.after
             (e.setPort p { x with hs := some { h with pwarm := m.warm.toNat, phase := .waitMark } }))) ∧
           (h.target < x.txLanes → exec (.rxReject p m) s = .next (s.after
             (((e.hsDrop p).modPort p (fun y => { y with
               noNarrow := e.now + 39062500, thin := { y.thin with rejects := sat64 (y.thin.rejects + 1) } })).widenNext p)))) ∧
         (exec (.rxReady p m) s = .next (s.after ((e.setPort p { x with hs := some { h with readyRcvd := true } }).hsReady p))) ∧
         (h.phase = .waitMark → m.switch.toNat = h.switch → exec (.rxMark p m) s = .next (s.after (
           let h' := { h with markRcvd := true, phase := .sendMark }
           ((e.setPort p { x with rxLanes := h.width, hs := some h' }).mi p .rxMap h.width).pushTrump p
             (.thin 5 (x.thinMsg h' 0 h.switch)))))))) ∧
  (
    ∀ (s : State) (p : PortId),
      (let e := s.eng.clear
       let x := s.eng.port p
       let low : List Nat := (upTo 3).map (fun k =>
         if e.mayThin p ∧ x.spoiled = false ∧ e.backlog p ≤ 262144 ∧ x.load < 100000 * 2 ^ k then min (nth x.lowCount k 0 + 1) 1000 else 0)
       let d := e.setPort p { x with load := 0, lowCount := low, spoiled := false }
       (x.state ≠ .up → exec (.thinInterval p) s =
         .next (s.after (e.setPort p { x with load := 0, lowCount := [0, 0, 0], spoiled := false }))) ∧
       (x.state = .up → x.width ≤ x.txLanes →
         (x.narrower = none → exec (.thinInterval p) s = .next (s.after d)) ∧
         (∀ m, x.narrower = some m →
           ((d.port p).lowAt m < 1000 → exec (.thinInterval p) s = .next (s.after d)) ∧
           ((d.port p).lowAt m = 1000 → x.hs = none → x.gap = none → x.noNarrow ≤ s.eng.now → x.noPropose ≤ s.eng.now →
             exec (.thinInterval p) s = .next (s.after (d.propose p m false))))) ∧
       (x.pauseP = none → ∀ h, x.hs = some h →
         (∀ n, h.phase = .proposed n →
           (n < 4 → exec (.proposeRetry p) s = .next (s.after
             ((e.setPort p { x with hs := some { h with phase := .proposed (n + 1) } }).pushTrump p
               (.thin 1 { x.thinMsg h 0 0 with warm := BitVec.ofNat 8 h.warm, cold := decide (h.warm < h.target) })))) ∧
           (4 ≤ n → h.target < x.txLanes → exec (.proposeRetry p) s = .next (s.after
             (((e.hsDrop p).thinCnt p (fun c => { c with failures := sat64 (c.failures + 1) })).widenNext p))) ∧
           (4 ≤ n → x.txLanes ≤ h.target → exec (.proposeRetry p) s = .next (s.after (e.thinRecover p)))) ∧
         (h.phase = .waitMark ∨ h.phase = .sentMark → exec (.handshakeTimeout p) s = .next (s.after (e.thinRecover p)))
         ∧ (h.phase = .ready → h.readySent = false ∨ h.readyRcvd = false → exec (.readyTimeout p) s = .next (s.after
           ((((e.hsDrop p).thinCnt p (fun c => { c with failures := sat64 (c.failures + 1) })).modPort p (fun y =>
             { y with rewiden := some (s.eng.now + 390625000), widenDue := none })).raiseEv (mkEv 47 .failure p.val 0x8000 0 0)))) ∧
         (h.phase = .ready → h.readySent = true → h.readyRcvd = true → exec (.readyTimeout p) s = .next (s.after e))) ∧
       (x.hs = none → exec (.proposeRetry p) s = .next (s.after e) ∧ exec (.handshakeTimeout p) s = .next (s.after e) ∧
         exec (.readyTimeout p) s = .next (s.after e)) ∧
       (∀ lane : Fin 8, ∀ t, nth x.lanes lane.val .cold = .warm t → exec (.warmLaneExpiry p lane) s = .next (s.after
         ((e.setPort p { x with lanes := setNth x.lanes lane.val .cold }).mi p .cold (2 ^ lane.val)))) ∧
       (∀ w, x.gap = some (w, true) → w < x.txLanes → s.eng.tally.bwEn = false → exec (.thinGapEnd p) s = .next (s.after (
         let lanes := (upTo x.width).map (fun i => if i < w then LaneSt.inService else match nth x.lanes i .cold with
           | .inService => .warm s.eng.now
           | l => l)
         let d := (e.setPort p { x with
           gap := none, txLanes := w, lanes := lanes, thin := { x.thin with narrow := sat64 (x.thin.narrow + 1) }
           lowCount := [0, 0, 0], spoiled := false, load := 0, lastSwitch := s.eng.tb0 }).mi p .warm (2 ^ x.txLanes - 2 ^ w)
         (d.portEvent p 2 w).hsSettle p)))))

/-! ### Steering's returns, rings' timers, the Dealer -/

/-- RCIRC_RETURN, RCIRC_DISCARD_NOTICE and SP_CREDIT_RETURN (R236, R240, R241, R242, R498). A unit or notice that the
credits do not cover is an error: source 45 and its port's counter. One that is good takes its credits and goes through
steering a second time with its lines charged to recirculation; a notice gives its credits back. Whether it was covered or
not, a notice of a live serial lowers its generation's count, and any other is counted.
SP_CREDIT_RETURN and FORCED_RETIREMENT (R236, R498). Credits returned are added to their destination's, up to 65,535,
and units that wait leave; past that it is source 45. A generation not yet retired after 10 ms, or at a power entry, is
retired with its count at 0, counted, and with source 30, and a STEER_SWAP that waits for it is answered OK; without one
nothing happens. -/
def Obligations.RecirculationAndRetirement : Prop :=
  (
    ∀ (s : State), s.eng.pwr.restOn = true → s.eng.pwr.ctlOn = true →
      (∀ (slot : PortId) (n : BitVec 16),
        (let e := s.eng.clear
         let d := if s.eng.steer.rcircCredit < 2 then (e.steerStat (s.eng.portOf slot) 15 1).raiseEv (mkEv 45 .failure 2 0x8030 0 0)
           else ({ e with steer := { s.eng.steer with rcircCredit := s.eng.steer.rcircCredit - 2 } } : Eng).rcircTopUp
         (d.liveGen n = none → exec (.rcircDiscardNotice slot n) s = .next (s.after (d.steerStat (d.portOf slot) 17 1))) ∧
         (∀ b, d.liveGen n = some b → exec (.rcircDiscardNotice slot n) s = .next (s.after (d.genDown b))))) ∧
      (∀ u : RcUnit,
        (let p := s.eng.portOf u.port
         let need := (32 + u.bytes.length + 15) / 16
         let t : TEvent := { code := 0x404, port := some p, tc := some u.tc }
         let e := s.eng.clear.tal t
         s.eng.liveGen u.serial = none →
         (s.eng.steer.rcircCredit < need → exec (.rcircReturn u) s = .next (s.after
           ((e.steerStat p 15 1).raiseEv (mkEv 45 .failure 2 0x8030 0 0)))) ∧
         (need ≤ s.eng.steer.rcircCredit →
           (let d : Eng := { e with steer := { s.eng.steer with rcircCredit := s.eng.steer.rcircCredit - need } }
            (u.pass = 2 → exec (.rcircReturn u) s = .next (s.after ((d.steerStat p 14 1).rcircTopUp))) ∧
            (u.pass = 1 → u.ret = true → (s.eng.port p).state ≠ .up → exec (.rcircReturn u) s =
              .next (s.after ((d.steerStat p 16 1).rcircTopUp))) ∧
            (u.pass = 1 → u.ret = false → exec (.rcircReturn u) s = .next (s.after
              (((d.steerStat p 15 1).raiseEv (mkEv 45 .failure 2 0x8030 0 0)).rcircTopUp))))))) ∧
      (∀ (u : RcUnit) (b : Bool),
        (let p := s.eng.portOf u.port
         let t : TEvent := { code := 0x404, port := some p, tc := some u.tc }
         let e := (s.eng.clear.tal t).genDown b
         let need := (32 + u.bytes.length + 15) / 16
         let lines := linesOf u.bytes.length
         s.eng.liveGen u.serial = some b → u.pass = 1 → u.ret = true → (s.eng.port p).state = .up → 60 ≤ u.len.toNat →
         u.len.toNat ≤ (s.eng.port p).maxFrame - 4 → u.len.toNat = u.bytes.length → need ≤ e.steer.rcircCredit →
         exec (.rcircReturn u) s = .next (s.after (
           let d := ({ e with steer := { e.steer with rcircCredit := e.steer.rcircCredit - need } } : Eng).chargeRx p u.tc .recirc lines
           d.steerJob { port := p, tc := u.tc, bytes := u.bytes, n := u.bytes.length, len := u.bytes.length, out := u.bytes
                        strm := u.bytes, pass2 := true, rtag := u.tag.toNat, genB := b, fcsErr := u.fcsErr, lines := lines
                        area := .recirc, stamps := (upTo 4).map (fun k => stampRound ((d.tb (fin 4 k)).fine u.dp.val))
                        parity := u.parity }))))) ∧
  (
    (∀ (s : State) (k : Fin 2) (d : Fin 8) (n : BitVec 10),
      (let c := s.eng.steer.credits.get 0 (creditIdx k d) + n.toNat
       let e : Eng := { s.eng.clear with
         steer := { s.eng.steer with credits := s.eng.steer.credits.put 0 (creditIdx k d) (min c 65535) } }
       (c ≤ 65535 → exec (.spCreditReturn k d n) s = .next (s.after e.pumpAll)) ∧
       (65535 < c → exec (.spCreditReturn k d n) s = .next (s.after (e.raiseEv (mkEv 45 .failure k.val 0x8030 0 0)).pumpAll)))) ∧
    (∀ (s : State),
      (s.eng.steer.retiring = none → exec .forcedRetirement s = .next (s.after s.eng.clear)) ∧
      (∀ t, s.eng.steer.retiring = some t →
        (let b := !s.eng.steer.activeB
         let e := s.eng.clear.modGen b (fun g => { g with count := 0 })
         exec .forcedRetirement s = .next (s.after
           (({ e with steer := { e.steer with retiring := none, forced := sat64 (e.steer.forced + 1) } } : Eng).raiseEv
             (mkEv 30 .failure (1 + 2 * (s.eng.gen b).serial.toNat) 0x8030 0 0) |>.swapAnswer 0))))))

/-- TX_BATCH_TIMEOUT, RX_COAL_TIMEOUT, PACK_TIMEOUT, EQ_MOD_TIME and ANCHOR_TIMER (R170, R175, R178, R183, R185). An open
batch is written as one BATCH record of its count and last index; without one nothing is. A packed buffer that is open is
closed, but never where PACK_TIMEOUT is 0. An armed event queue that reaches MOD_TIME is disarmed and raises its vector.
QUEUE_STOPPED (R188). A queue or ring that stops and has nothing in progress writes its last records, then a record or
entry of STOP, and is STOPPED; the QUEUE_STOP command that waits for it goes on. One that does not stop is left alone. -/
def Obligations.RingTimersAndStops : Prop :=
  (
    (∀ (s : State) (q : TxqId) (x : Txq), s.eng.txq q = some x →
      (x.batch = none → exec (.txBatchTimeout q) s = .next (s.after s.eng.clear)) ∧
      (∀ b, x.batch = some b → exec (.txBatchTimeout q) s = .next (s.after
        ((s.eng.clear.setTxq q (some { x with batch := none })).txRecord q 0 0 (b.last % 65536) b.count 0 0 0)))) ∧
    (∀ (s : State) (q : RxqId) (x : Rxq), s.eng.rxq q = some x →
      (x.eventDue true = false → exec (.rxCoalTimeout q) s = .next (s.after s.eng.clear)) ∧
      (∀ i v, x.eventDue true = true → s.eng.eqOf x.fn x.eq = some i → s.eng.eq_ i = some v →
        (v.covers (.rx q) = true → exec (.rxCoalTimeout q) s = .next (s.after s.eng.clear)) ∧
        (v.covers (.rx q) = false → exec (.rxCoalTimeout q) s = .next (s.after (
          let (ok, e) := s.eng.clear.writeEvent i 2 0 x.loc (x.cqCount % 65536) (some (.rx q)) none
          if ok then e.modRxq q (fun x => { x with uncovered := 0, uncovSince := none, uncovClose := false }) else e)))) ∧
      (x.cur = none → exec (.packTimeout q) s = .next (s.after s.eng.clear)) ∧
      (x.packTimeout = 0 → exec (.packTimeout q) s = .next (s.after s.eng.clear)) ∧
      (∀ o, x.cur = some o → x.packTimeout ≠ 0 → x.placed = [] → exec (.packTimeout q) s = .next (s.after
        ((s.eng.clear.setRxq q (some { x with cur := none })).rxClose q o.buf.idx))) ∧
      (x.rxTs = true → x.anchorAt.isSome = true → x.anchorLast = false → x.state = .running →
        exec (.anchorTimer q) s = .next (s.after (s.eng.clear.rxAnchor q))) ∧
      (x.rxTs = false ∨ x.anchorLast = true ∨ x.state ≠ .running → exec (.anchorTimer q) s = .next (s.after s.eng.clear))) ∧
    (∀ (s : State) (i : EqId) (v : Evq), s.eng.eq_ i = some v →
      (v.armed.isSome = true → v.modTime ≠ 0 → v.evs.any (·.seen) = true → exec (.eqModTime i) s = .next (s.after
        ((s.eng.clear.setEq i (some { v with armed := none })).irqOpt v.fn v.vector))) ∧
      (v.armed = none ∨ v.modTime = 0 ∨ v.evs.any (·.seen) = false → exec (.eqModTime i) s = .next (s.after s.eng.clear)))) ∧
  (
    (∀ (s : State) (q : TxqId) (x : Txq), s.eng.txq q = some x →
      (x.state ≠ .stopping → exec (.queueStopped (.txq q)) s = .next (s.after s.eng.clear)) ∧
      (x.state = .stopping → x.frames = [] → x.fetching = 0 → x.held = [] → x.batch = none →
        s.eng.busyFor (fun w => decide (w = .txCompl q)) = false → x.fetched = x.stopAt →
        (s.eng.port x.port).wire = [] → exec (.queueStopped (.txq q)) s = .next (s.after
          (((s.eng.clear.txRecord q 2 0 x.cons.toNat 0 0 0 0).txState q .stopped 0).stopAnswer x.fn (.txq q))))) ∧
    (∀ (s : State) (q : RxqId) (x : Rxq), s.eng.rxq q = some x →
      (x.state ≠ .stopping → exec (.queueStopped (.rxq q)) s = .next (s.after s.eng.clear)) ∧
      (x.state = .stopping → x.fetching = 0 → x.placed = [] → x.waiting = [] → x.parked = [] → x.held = [] →
        s.eng.busyFor (fun w => decide (w = .rxCompl q)) = false → exec (.queueStopped (.rxq q)) s = .next (s.after (
          let next := (x.posted.head?.map (·.idx)).getD x.fetched
          let e := (s.eng.clear.rxEntry q (fun ph => closeBytes x ph 3 next.toNat)).modRxq q (fun x =>
            { x with cur := none, cons := next, anchorLast := false })
          (e.rxState q .stopped 0).stopAnswer x.fn (.rxq q))))))

/-- TX_DESCRIPTORS_READ and RX_POST_ENTRIES_READ (R97, R159, R164, R173, R174). Descriptors of a read join those not yet
parsed, each with its profile's values as it was read; each whole chain becomes a frame, and the next read starts. Post
entries of a read become posted buffers whose pages are looked up, and waiting frames are placed; an entry that breaks a
rule ends the ring in ERROR. Where no read is underway nothing happens. -/
def Obligations.DescriptorsArrive : Prop :=
  (∀ (s : State) (q : TxqId) (x : Txq) (ds : List (BitVec 128)) (hs : List (List Byte)), s.eng.txq q = some x →
    x.stopMode = .drain ∨ x.state ≠ .stopping →
    (x.fetching = 0 → exec (.txDescriptorsRead q ds hs) s = .next (s.after (s.eng.clear.flushAgain q))) ∧
    (0 < x.fetching → x.fetching ≤ ds.length → s.eng.unsent x.fetchGrp = false →
      exec (.txDescriptorsRead q ds hs) s = .next (s.after (
        let n := x.fetching
        let e := (s.eng.clear.endReads (fun a => a.grp == x.fetchGrp && decide (a.owner = .txDesc q))).talDescs .tx x.fn
          (x.base + 16 * (x.fetched.toNat % x.size)) n
        let l := x.partials ++ (ds.take n).map (fun d => (d, e.profile (fld d.toNat 88 8)))
        let d := Eng.parseChains q (l.length + 1) hs (e.setTxq q (some { x with
          partials := l, fetched := x.fetched + BitVec.ofNat 16 n, fetching := 0 }))
        ((d.modTxq q Txq.pruneBells).txFetch q).flushAgain q)))) ∧
  (∀ (s : State) (q : RxqId) (x : Rxq) (ws : List (BitVec 64)), s.eng.rxq q = some x →
    (x.fetching = 0 → exec (.rxPostEntriesRead q ws) s = .next (s.after s.eng.clear)) ∧
    (0 < x.fetching → x.fetching ≤ ws.length → s.eng.unsent x.fetchGrp = false →
      (let n := x.fetching
       let e := (s.eng.clear.endReads (fun a => a.grp == x.fetchGrp && decide (a.owner = .rxPost q))).talDescs .rx x.fn
         (x.base + 8 * (x.fetched.toNat % x.size)) n
       let l := (postBufs x.fetched (ws.take n)).1
       let d := e.setRxq q (some { x with posted := x.posted ++ l, fetched := x.fetched + BitVec.ofNat 16 n, fetching := 0 })
       ((postBufs x.fetched (ws.take n)).2 = true → exec (.rxPostEntriesRead q ws) s =
         .next (s.after ((((d.lookPosts q x l).rxFetch q).rxPlaceNext q).rxDrainNext q))) ∧
       ((postBufs x.fetched (ws.take n)).2 = false → exec (.rxPostEntriesRead q ws) s = .next (s.after (d.rxError q 4))))))

/-- DEALER_DECISION, SHAPER_REFILL, PACING_REFILL and SAMPLER_SAMPLE (R288, R290, R296, R299, R303, R305, R306). A port to
which the calendar gives no turn makes no decision; a frame whose launch time is past is looked at first. A decision takes
the calendar's position, grants frames of the leaf it reaches and charges its path. A refill adds the bucket's rate up to
its burst, and the bytes that the port's lanes carry in 64 ns up to 32,768; a bucket that is not enabled keeps its tokens.
A sample writes one record of 32 bytes for the queue that is next and counts it; with the sampler off nothing happens. -/
def Obligations.DealerEvents : Prop :=
  (∀ (s : State) (p : PortId),
    (let e := foldEng (s.eng.txqList.filter (fun r => decide (r.2.port = p))) (fun e r => e.txHead r.1 true) s.eng.clear
     (e.calTurn ≠ some p → exec (.dealerDecision p) s = .next (s.after e)) ∧
     (e.calTurn = some p → ∀ d, Eng.descend 10 e.calStep (.root p) [] = (none, d) → exec (.dealerDecision p) s = .next (s.after d)) ∧
     (e.calTurn = some p → ∀ q path d, Eng.descend 10 e.calStep (.root p) [] = (some (q, path), d) →
       (let b := d.takeBatch q
        let c := b.2.2.2.charge path b.1 b.2.1
        let r := c.setRoot p { c.root p with decisions := sat64 ((c.root p).decisions + 1) }
        ∀ x, r.txq q = some x → exec (.dealerDecision p) s = .next (s.after (
          let t (code inc : Nat) : TEvent := { code := code, inc := inc, port := some p, tc := some x.tc, fn := some x.fn }
          let e := if 0 < b.1 then r.tal (t 0x101 1) else r
          let e := if 0 < b.2.2.1 then e.tal (t 0x102 b.2.2.1) else e
          let e := e.tal (t 0x103 ((b.1 : Int) + b.2.1 * (b.2.2.2.leaf q).sh.lenAdj).toNat)
          let e := foldEng ((e.shaped p).filter (fun q => !(d.shaped p).contains q)) (fun e q => match e.txq q with
            | some y => e.tal { code := 0x104, port := some p, tc := some y.tc, fn := some y.fn }
            | none => e) e
          e.txHead q false)))))) ∧
  (∀ (s : State) (o : DObjId), (∀ p, o ≠ .root p) → s.eng.pwr.restOn = true → s.eng.pwr.ctlOn = true →
    (let x := s.eng.dobj o
     x.live = true → x.shadow = none → x.forgive = false →
     (x.sh.en = true → exec (.shaperRefill o) s = .next (s.after (s.eng.clear.setDobj o
       { x with tokens := min (125 * (x.sh.burst : Int)) (x.tokens + x.sh.rate) }))) ∧
     (x.sh.en = false → exec (.shaperRefill o) s = .next (s.after (s.eng.clear.setDobj o x))))) ∧
  (∀ (s : State) (p : PortId), s.eng.portOf p = p → s.eng.pwr.restOn = true → s.eng.pwr.ctlOn = true →
    exec (.pacingRefill p) s = .next (s.after (s.eng.clear.setRoot p { s.eng.root p with
      pacing := min 32768 ((s.eng.root p).pacing + 1600 * ((s.eng.port p).txLanes : Int)) }))) ∧
  (∀ (s : State),
    (s.eng.dealer.sampleEn = false → exec .samplerSample s = .next (s.after s.eng.clear)) ∧
    (∀ q x, s.eng.dealer.sampleEn = true → s.eng.pwr.restOn = true → s.eng.pwr.ctlOn = true → s.eng.clear.sampleQueue = some q →
      s.eng.txq q = some x →
      (let r := s.eng.dealer.ring
       exec .samplerSample s = .next (s.after (({ s.eng.clear with dealer := { s.eng.dealer with
         sampleNext := q.val + 1, sampleSeq := s.eng.dealer.sampleSeq + 1, ring := { r with count := r.count + 1 } } } : Eng).writeRecord
           .sample r.fn r.pasid (r.base + 32 * (r.count % r.size)) (s.eng.clear.sampleBytes q x (phaseBit r.count r.size))).2))))

/-! ### DMA responses, translation -/

/-- DMA_READ_DATA and DMA_WRITE_DONE (R180, R491, R492, R493). A response ends its request, and a waiting request takes its
place; one that answers no request of its kind changes nothing, and one of an operation given up nothing more. Frame data
read joins its frame, that of Carry its channel's buffer or list; a written completion entry counts toward its ring's
event; a written frame's lines are freed once all of it is.
DMA_ERROR_RESPONSE and DMA_COMPLETION_TIMEOUT (R187, R191, R397, R492). Either ends its request and raises source 24,
or 25, with the port, the master, the access and its address; descriptors that were not read take their queue, and a
receive entry or its data its ring, to ERROR with a cause of 1 or 2, and of 3 at a timeout. A response to no request
changes nothing. -/
def Obligations.DmaResponsesAndFailures : Prop :=
  (
    ∀ (s : State) (m : Fin 4) (tag : Fin 1024) (bs : List Byte),
      let ended (l : List Outst) : Eng := ({ s.eng.clear with dma := { s.eng.dma with outst := l, invals := s.eng.dma.invals.map (fun i =>
        { i with waits := i.waits.filter (fun k => !decide (k = (m.val, tag.val))) }) } } : Eng).issueNext
      ((∀ o ∈ s.eng.dma.outst, o.port = m → o.tag = tag → o.acc.kind.isRead = false) →
        exec (.dmaReadData m tag bs) s = .next (s.after s.eng.clear)) ∧
      ((∀ o ∈ s.eng.dma.outst, o.port = m → o.tag = tag → o.acc.kind.isRead = true) →
        exec (.dmaWriteDone m tag) s = .next (s.after s.eng.clear)) ∧
      (∀ o l, takeFirst (fun o => decide (o.port = m ∧ o.tag = tag) && o.acc.kind.isRead) s.eng.dma.outst = some (o, l) →
        let e := ended l
        (o.acc.grp = 0 → exec (.dmaReadData m tag bs) s = .next (s.after e)) ∧
        (o.acc.grp ≠ 0 →
          (∀ q id, o.acc.owner = .txData q id → exec (.dmaReadData m tag bs) s =
            .next (s.after ((e.readLatency o).txDataIn q id o.acc bs))) ∧
          (∀ c, o.acc.owner = .carryRead c → exec (.dmaReadData m tag bs) s =
            .next (s.after ((e.readLatency o).carryData c o.acc bs))) ∧
          (∀ c, o.acc.owner = .carryList c → exec (.dmaReadData m tag bs) s =
            .next (s.after ((e.readLatency o).carryListData c o.acc bs))))) ∧
      (∀ o l, takeFirst (fun o => decide (o.port = m ∧ o.tag = tag) && !o.acc.kind.isRead) s.eng.dma.outst = some (o, l) →
        let e := ended l
        (o.acc.grp = 0 → exec (.dmaWriteDone m tag) s = .next (s.after e)) ∧
        (o.acc.grp ≠ 0 →
          (∀ q, o.acc.owner = .txCompl q → exec (.dmaWriteDone m tag) s = .next (s.after
            ((e.modTxq q (fun x => { x with uncovered := true })).txEvent q))) ∧
          (∀ q, o.acc.owner = .rxCompl q → u8 o.acc.data 0 / 2 % 4 = 0 → exec (.dmaWriteDone m tag) s = .next (s.after
            ((e.modRxq q (fun x => { x with
              uncovered := x.uncovered + 1, uncovSince := some (x.uncovSince.getD e.now) })).rxEvent q false))) ∧
          (∀ q id, o.acc.owner = .rxData q id → exec (.dmaWriteDone m tag) s = .next (s.after (e.rxDataDone q o.acc.grp))) ∧
          (∀ i, o.acc.owner = .event i → exec (.dmaWriteDone m tag) s = .next (s.after (e.eventDone i o.acc.grp)))))) ∧
  (
    ∀ (s : State) (m : Fin 4) (tag : Fin 1024),
      let ended (l : List Outst) : Eng := ({ s.eng.clear with dma := { s.eng.dma with outst := l, invals := s.eng.dma.invals.map (fun i =>
        { i with waits := i.waits.filter (fun k => !decide (k = (m.val, tag.val))) }) } } : Eng).issueNext
      ((∀ o ∈ s.eng.dma.outst, o.port ≠ m ∨ o.tag ≠ tag) →
        exec (.dmaErrorResponse m tag) s = .next (s.after s.eng.clear) ∧
        exec (.dmaCompletionTimeout m tag) s = .next (s.after s.eng.clear)) ∧
      (∀ o l, takeFirst (fun o => decide (o.port = m ∧ o.tag = tag)) s.eng.dma.outst = some (o, l) →
        (let a := o.acc
         let e := ended l
         let bad (src : Fin 64) : Eng := e.raiseEv (mkEv src .failure m.val a.master (a.owner.access a.kind) a.sent)
         (a.grp = 0 → exec (.dmaErrorResponse m tag) s = .next (s.after (bad 24)) ∧
           exec (.dmaCompletionTimeout m tag) s = .next (s.after (bad 25))) ∧
         (a.grp ≠ 0 →
           (∀ q, a.owner = .txDesc q → exec (.dmaErrorResponse m tag) s = .next (s.after ((bad 24).txError q 1)) ∧
             exec (.dmaCompletionTimeout m tag) s = .next (s.after ((bad 25).txError q 3))) ∧
           (∀ q, a.owner = .txCompl q → exec (.dmaErrorResponse m tag) s = .next (s.after ((bad 24).txError q 2)) ∧
             exec (.dmaCompletionTimeout m tag) s = .next (s.after ((bad 25).txError q 3))) ∧
           (∀ q id, a.owner = .txData q id → exec (.dmaErrorResponse m tag) s = .next (s.after ((bad 24).txDataError q id a.grp)) ∧
             exec (.dmaCompletionTimeout m tag) s = .next (s.after ((bad 25).txError q 3))) ∧
           (∀ q, a.owner = .rxPost q → exec (.dmaErrorResponse m tag) s = .next (s.after ((bad 24).rxError q 1)) ∧
             exec (.dmaCompletionTimeout m tag) s = .next (s.after ((bad 25).rxError q 3))) ∧
           (∀ q, a.owner = .rxCompl q ∨ (∃ id, a.owner = .rxData q id) →
             exec (.dmaErrorResponse m tag) s = .next (s.after ((bad 24).rxError q 2)) ∧
             exec (.dmaCompletionTimeout m tag) s = .next (s.after ((bad 25).rxError q 3))) ∧
           (∀ i, a.owner = .event i → exec (.dmaErrorResponse m tag) s = .next (s.after ((bad 24).eqError i 2)) ∧
             exec (.dmaCompletionTimeout m tag) s = .next (s.after ((bad 25).eqError i 3))) ∧
           (∀ f, a.owner = .mbxReq f ∨ a.owner = .mbxRsp f →
             exec (.dmaErrorResponse m tag) s = .next (s.after ((bad 24).mbxFault f)) ∧
             exec (.dmaCompletionTimeout m tag) s = .next (s.after ((bad 25).mbxFault f)))))))

/-- TRANSLATION_RESPONSE, PAGE_RESPONSE and XLT_REQUEST_TIMEOUT (R197, R198, R203, R204, R496). A response to no message is
source 7; to one that no access waits for, it fills the cache with its entry where it is a success, and changes nothing
else but the message's end. A page response ends its group, and a failed one fails the group's object. An unanswered
message is source 25.
INVALIDATE, INVALIDATION_ACK and FAULT_TIMEOUT_EXPIRY (R201, R205, R211, R218). An invalidation removes the cache
entries in its scope and waits for the requests sent with them; its acknowledgement leaves once none is left, and otherwise
nothing happens. A fault wait that has lasted FAULT_TIMEOUT is a translation failure at its address, that of a ring whose
drain a quench holds too; one that has not goes on. -/
def Obligations.TranslationAndInvalidation : Prop :=
  (
    ∀ (s : State),
      (∀ tag r, s.eng.dma.xreqs.find? (fun x => decide (x.tag = tag)) = none → exec (.translationResponse tag r) s =
        .next (s.after (s.eng.clear.raiseEv (mkEv 7 .failure 0 0x8002 0 0)))) ∧
      (∀ tag, s.eng.dma.xreqs.find? (fun x => decide (x.tag = tag)) = none →
        exec (.xltRequestTimeout tag) s = .next (s.after s.eng.clear)) ∧
      (∀ g ok, s.eng.dma.groups.find? (fun x => decide (x.group = g)) = none → exec (.pageResponse g ok) s =
        .next (s.after (s.eng.clear.raiseEv (mkEv 7 .failure 0 0x8002 0 0)))) ∧
      (∀ tag x, s.eng.dma.xreqs.find? (fun x => decide (x.tag = tag)) = some x → s.eng.dma.blocked = [] → s.eng.dma.waits = [] →
        (let d : DmaSt := { s.eng.dma with xreqs := s.eng.dma.xreqs.filter (fun r => !decide (r.tag = tag)) }
         (∀ pa size rd wr, exec (.translationResponse tag (.success pa size rd wr)) s = .next (s.after
           { s.eng.clear with dma := { d with cache := xltFill s.eng.dma.cache (xltEntry x pa.toNat size rd wr) } })) ∧
         exec (.translationResponse tag .notPresent) s = .next (s.after { s.eng.clear with dma := d }) ∧
         exec (.translationResponse tag .denied) s = .next (s.after { s.eng.clear with dma := d }) ∧
         exec (.xltRequestTimeout tag) s = .next (s.after
           (({ s.eng.clear with dma := d } : Eng).raiseEv (mkEv 25 .failure 0 x.fn.val 5 (x.vpn * 4096)))))) ∧
      (∀ g x, s.eng.dma.groups.find? (fun x => decide (x.group = g)) = some x →
        (let e : Eng := { s.eng.clear with dma := { s.eng.dma with groups := s.eng.dma.groups.filter (fun x => !decide (x.group = g)) } }
         (s.eng.dma.waits = [] → x.obj = none → ∀ ok, exec (.pageResponse g ok) s = .next (s.after e)) ∧
         (s.eng.dma.waits = [] → s.eng.dma.blocked = [] → ∀ ok, exec (.pageResponse g ok) s = .next (s.after e)) ∧
         (∀ o b l, x.obj = some o → e.unitOf o = b :: l → exec (.pageResponse g false) s = .next (s.after (e.xltFail o b.acc).pageAskAll))))) ∧
  (
    ∀ (s : State),
      (∀ tag sc,
        (let hit (x : XEnt) : Bool := InvScope.hits sc x.fn x.pasid x.vpn (pageBytes x.size / 4096)
         let due (a : Acc) : Bool := a.pa.isSome && (InvScope.hits sc a.fn a.pasid (a.addr / 4096) 1 ||
           (s.eng.dma.cache.filter hit).any (fun x => x.covers a.fn a.pasid a.addr))
         (∀ a ∈ s.eng.dma.queue, due a = false) → exec (.invalidate tag sc) s = .next (s.after { s.eng.clear with dma := { s.eng.dma with
           cache := s.eng.dma.cache.filter (fun x => !hit x)
           invals := s.eng.dma.invals ++ [({ tag := tag, waits := (s.eng.dma.outst.filter (fun o => due o.acc)).map (fun o =>
             (o.port.val, o.tag.val)) } : Inval)]
           cnt := { s.eng.dma.cnt with invals := sat64 (s.eng.dma.cnt.invals + 1) } } }))) ∧
      (∀ tag,
        (∀ i r, takeFirst (fun (i : Inval) => decide (i.tag = tag) && i.waits.isEmpty) s.eng.dma.invals = some (i, r) →
          exec (.invalidationAck tag) s = .next (s.after
            (({ s.eng.clear with dma := { s.eng.dma with invals := r } } : Eng).emit (.invAck tag)))) ∧
        ((∀ i ∈ s.eng.dma.invals, i.tag ≠ tag ∨ i.waits ≠ []) → exec (.invalidationAck tag) s = .next (s.after s.eng.clear))) ∧
      (∀ o w b l, (∀ f, o ≠ .mbx f) → s.eng.waitOf o = some w → s.eng.unitOf o = b :: l →
        (w.run.isSome = true → s.eng.dma.faultTimeout * 1000000 * 25 ≤ w.elapsed s.eng.now * 64 → exec (.faultTimeoutExpiry o) s =
          .next (s.after (s.eng.clear.xltFail o { b.acc with addr := w.va }))) ∧
        (w.run = none ∨ w.elapsed s.eng.now * 64 < s.eng.dma.faultTimeout * 1000000 * 25 → exec (.faultTimeoutExpiry o) s =
          .next (s.after s.eng.clear))) ∧
      (∀ q x w, s.eng.waitOf (.rxq q) = some w → s.eng.unitOf (.rxq q) = [] → s.eng.rxq q = some x → w.run.isSome = true →
        s.eng.dma.faultTimeout * 1000000 * 25 ≤ w.elapsed s.eng.now * 64 → exec (.faultTimeoutExpiry (.rxq q)) s = .next (s.after
          (s.eng.clear.xltFail (.rxq q) { owner := .rxData q 0, fn := x.fn, pasid := w.pasid, addr := w.va, len := 1, kind := .write }))))

/-! ### Decks and Carry -/

/-- GATE_ENTRY_CHANGE, DECK_CUT and DECK_CLEAR_POINT (R340, R342, R343, R344). The gates take the schedule's state. At a
cut the admin list becomes operational from the cut on, is counted, and the gates follow it; without an admin list nothing
happens. At the clear point of a Deck that clears, it is gone and every gate is open. -/
def Obligations.DeckEvents : Prop :=
  ∀ (s : State) (p : PortId),
    (let e := s.eng.clear
     let x := s.eng.port p
     exec (.gateEntryChange p) s = .next (s.after (e.setPort p { x with deck := { x.deck with gates := e.gatesNow p } })) ∧
     (x.deck.admin = none → exec (.deckCut p) s = .next (s.after e)) ∧
     (∀ a, x.deck.admin = some a → x.deck.oper = none → exec (.deckCut p) s = .next (s.after (
       let d := e.setPort p { x with deck := { x.deck with
         st := .operational, oper := some a, operFrom := x.deck.cut, admin := none, cuts := sat64 (x.deck.cuts + 1)
         extensions := sat64 x.deck.extensions, truncations := sat64 x.deck.truncations } }
       d.gateUpdate p))) ∧
     (x.deck.st = .clearing → exec (.deckClearPoint p) s = .next (s.after
       (e.setPort p { x with deck := { x.deck with st := .none, oper := none, gates := 0xFF } }))) ∧
     (x.deck.st ≠ .clearing → exec (.deckClearPoint p) s = .next (s.after e)))

/-- CARRY_REQUEST_COMPLETE, CARRY_AUTO_RESUME, CARRY_SLOT_OFFER and CARRY_VALIDATE_DONE (R360, R361, R362, R363, R364,
R370). A request whose data has all been issued, and where it is fenced answered, ends with OK, all its elements and bytes
done; one that has not goes on. Carry resumes by itself where AUTO_RESUME is set, and not otherwise. A slot goes to the
channel of lowest PRIO that can take it, with the beat it reads or writes; so the only ACTIVE channel takes it, to write
the beat at its buffer's head or to read the next of a COPY. A list that its first pass has accepted makes the channel
ACTIVE and is read once more, and one it has not ends the request with its status; a first pass that still reads goes on.
CARRY_GO, CARRY_DISABLE and CARRY_RESUME (R364, R370, R372, R373): a request starts on a claimed, enabled, idle
channel, and on another is ignored, with source 35 where the channel is busy; a channel disabled ends its request; Carry
resumes where it is stopped. -/
def Obligations.CarryEventsAndRegisters : Prop :=
  (
    ∀ (s : State),
      (∀ c : ChId,
        (let x := s.eng.chan c
         let total := x.elems.foldl (fun n k => n + k.len) 0
         (x.state = .fencing → x.writes = [] → x.ending = none → s.eng.carry.stopped = false →
           exec (.carryRequestComplete c) s = .next (s.after (s.eng.clear.carryEnd c 0 x.elems.length total))) ∧
         (x.state = .active → x.drained = true → s.eng.carryUnsent c = false → x.fence = false → x.ending = none →
           s.eng.carry.stopped = false →
           exec (.carryRequestComplete c) s = .next (s.after (s.eng.clear.carryEnd c 0 x.elems.length total))) ∧
         (x.state = .fencing → x.writes ≠ [] → exec (.carryRequestComplete c) s = .next (s.after s.eng.clear)) ∧
         (x.state = .idle ∨ x.state = .wait ∨ x.state = .suspended → exec (.carryRequestComplete c) s = .next (s.after s.eng.clear)))) ∧
      (s.eng.carry.autoResume = true → exec .carryAutoResume s = .next (s.after s.eng.clear.carryResume)) ∧
      (s.eng.carry.autoResume = false → exec .carryAutoResume s = .next (s.after s.eng.clear)) ∧
      (∀ w, s.eng.carry.stopped = true ∨ s.eng.dataOn = false ∨ (∀ c, (s.eng.chan c).state ≠ .active) →
        exec (.carrySlotOffer w) s = .next (s.after s.eng.clear)) ∧
      (∀ w c, s.eng.carry.stopped = false → s.eng.dataOn = true →
        (let d := foldEng allChans (fun e c => e.carryFill c) s.eng.clear
         let took : Eng := { d with carry := { d.carry with
           lastSlot := c, turns := modNth d.carry.turns (2 * (d.chan c).prio + if w then 1 else 0) (fun _ => c) } }
         d.carryPick w = some c → (d.chan d.carry.lastSlot).prio ≤ (d.chan c).prio →
           exec (.carrySlotOffer w) s = .next (s.after (if w then took.carryWriteBeat c else took.carryReadBeat c)))) ∧
      (∀ c, s.eng.carry.stopped = false → s.eng.dataOn = true →
        (let x := s.eng.chan c
         let e := s.eng.clear.setChan c x
         let took (t : Nat) : Eng := { e with carry := { e.carry with lastSlot := c, turns := modNth s.eng.carry.turns t (fun _ => c) } }
         x.state = .active → (∀ d, d ≠ c → (s.eng.chan d).state ≠ .active) → x.ending = none → x.enable = true → x.prio < 4 →
         x.rdSecond = false → s.eng.carryWaits c = 0 →
         (∀ b r k bs, x.buf = b :: r → x.elems[b.elem]? = some k → k.op = 0 → b.a = some bs → x.elem? x.rdElem = none →
           exec (.carrySlotOffer true) s = .next (s.after (
             ((((took (2 * x.prio + 1)).setChan c { x with buf := r, writes := x.writes ++ [b.pos], issued := x.issued + 64 }).carryCnt 1 64).access
               { owner := .carryWrite c, fn := x.owner, pasid := x.dstPasid, addr := k.dst + b.off, len := 64, kind := .write
                 data := bs, grp := x.grp, pos := b.pos + 2 ^ 48 * x.curReq }).carryFill c |>.carryLeft c))) ∧
         (∀ k, x.buf = [] → x.elem? x.rdElem = some k → k.op = 0 → x.rdOff + 64 < k.len →
           exec (.carrySlotOffer false) s = .next (s.after (
             (((took (2 * x.prio)).setChan c { x with
               buf := [{ pos := x.rdPos, elem := x.rdElem, off := x.rdOff }], rdPos := x.rdPos + 64, rdOff := x.rdOff + 64 }).carryFill c).access
                 { owner := .carryRead c, fn := x.owner, pasid := x.srcPasid, addr := k.src + x.rdOff, len := 64, kind := .read
                   grp := x.grp, pos := 2 * x.rdPos }))))) ∧
      (∀ c,
        (let x := s.eng.chan c
         (∀ els, x.state ≠ .validate ∨ x.ending.isSome = true ∨ els ≠ x.words → exec (.carryValidateDone c els) s = .next (s.after s.eng.clear)) ∧
         (x.state = .validate → x.ending = none →
           (x.words = [] → exec (.carryValidateDone c x.words) s = .next (s.after s.eng.clear)) ∧
           (x.checked = .reading → exec (.carryValidateDone c x.words) s = .next (s.after s.eng.clear)) ∧
           (∀ st i, x.checked = .fail st i → exec (.carryValidateDone c x.words) s = .next (s.after (s.eng.clear.carryEnd c st i 0))) ∧
           (∀ l, x.checked = .pass l → exec (.carryValidateDone c x.words) s =
             .next (s.after ((s.eng.clear.setChan c { x with state := .active, elems := l }).carryList c))) ∧
           (∀ w, x.words = [w] → (elemOf w).op ≠ 3 → w.getLsbD 2 = true →
             (elemCheck w (x.srcPasid == x.dstPasid) = 0 → exec (.carryValidateDone c x.words) s =
               .next (s.after ((s.eng.clear.setChan c { x with state := .active, elems := [elemOf w] }).carryList c))) ∧
             (elemCheck w (x.srcPasid == x.dstPasid) ≠ 0 → exec (.carryValidateDone c x.words) s =
               .next (s.after (s.eng.clear.carryEnd c (elemCheck w (x.srcPasid == x.dstPasid)) 0 0)))))))) ∧
  (
    ∀ (s : State), s.eng.Open 0 → s.eng.standby = false → s.eng.journals = false →
      (∀ c : ChId,
        (let e := s.eng.touch 0
         let x := s.eng.chan c
         let off := 0x140000 + 0x1000 * c.val
         x.claimed = true → 0 < x.prio → x.prio < 4 →
          (x.state = .idle → x.enable = true → exec (.carryGo c) s = .next (s.after ((e.setChan c x).carryGo c))) ∧
          (x.state = .idle → x.enable = false → exec (.carryGo c) s = .next (s.after (e.setChan c x))) ∧
          (x.state ≠ .idle → exec (.carryGo c) s = .next (s.after ((e.setChan c x).badAccess 0 off))) ∧
          (x.enable = true → exec (.carryDisable c) s = .next (s.after ((e.setChan c x).carryDisable c))) ∧
          (x.enable = false → exec (.carryDisable c) s = .next (s.after (e.setChan c x))))) ∧
      (∀ c : ChId, (s.eng.chan c).claimed = false →
        (let e := (s.eng.touch 0).badAccess 0 (0x140000 + 0x1000 * c.val)
         exec (.carryGo c) s = .next (s.after e) ∧ exec (.carryDisable c) s = .next (s.after e))) ∧
      (s.eng.carry.stopped = false → exec .carryResume s = .next (s.after (s.eng.touch 0))) ∧
      (s.eng.carry.stopped = true → exec .carryResume s = .next (s.after ((s.eng.touch 0).carryResume))))

/-! ### The control processor -/

/-- The accesses of the debugger (R386, R391, R507). While DBG_CTRL.ENABLE is 1, HALT halts a thread that runs or waits,
with its hold timer standing and its reservations kept, RESUME lets it go on as it was, and STEP leaves it halted at
another instruction. While it is 0 they change nothing but for source 35, and a write on the DBG port is REFUSED. The DBG
port answers GATED while PD_CTL is gated. The program counter a thread halts at is a free value.
Messages between threads (R381, R385). A running thread's word begins or goes on with a message, reserving the channel;
the closing word makes it visible behind those closed before. A writer to a channel another thread has reserved, or one
full with 4 messages, waits, and so does a reader of an empty one; a reader takes the oldest message. A hold beyond its
limit faults its writer, whose partial message is discarded. -/
def Obligations.DebugAndChannels : Prop :=
  (
    ∀ (s : State) (t : ThreadId), s.eng.standby = false →
      (let e := s.eng.touch 0
       let y := s.eng.thread t
       let pc (d : Eng) : Eng := { d with free := d.free + 1 }
       s.eng.Open 0 → s.eng.lcp.enable = true →
         (y.state = .running ∨ y.state = .waitChannel ∨ y.state = .waitEvent → exec (.debugHalt t) s = .next (s.after
           (pc (e.setThread t { y with state := .haltedDebug, halted := y.state, holdTimer := y.holdNow s.eng.now, holdSince := none
                                       pc := Config.freeValue s.eng.free % 2 ^ 32 })))) ∧
         (y.state = .haltedDebug ∨ y.state = .faulted ∨ y.state = .reset → exec (.debugHalt t) s = .next (s.after e)) ∧
         (y.state = .haltedDebug → exec (.debugResume t) s = .next (s.after (e.setThread t { y with
           state := y.halted, holdSince := if y.hold.isSome then some s.eng.now else none })) ∧
           exec (.debugStep t) s = .next (s.after (pc (e.setThread t { y with pc := Config.freeValue s.eng.free % 2 ^ 32 })))) ∧
         (y.state ≠ .haltedDebug → exec (.debugResume t) s = .next (s.after e) ∧ exec (.debugStep t) s = .next (s.after e))) ∧
      (s.eng.Open 0 → s.eng.lcp.enable = false →
        (let e := (s.eng.touch 0).badAccess 0 (0x200108 + 0x40 * t.val)
         exec (.debugHalt t) s = .next (s.after e) ∧ exec (.debugResume t) s = .next (s.after e) ∧
         exec (.debugStep t) s = .next (s.after e))) ∧
      (∀ (off : BitVec 22) (w : Bool) (v : BitVec 64),
        (s.eng.pwr.ctlOn = false → exec (.dbgPortAccess off w v) s = .next (s.after (s.eng.clear.emit (.dbg 2 0)))) ∧
        (s.eng.Up → s.eng.lcp.enable = false → exec (.dbgPortAccess off true v) s = .next (s.after (s.eng.clear.emit (.dbg 1 0)))) ∧
        (s.eng.Up → off.toNat % 8 = 0 → off.toNat < 0x200000 →
          (let a := f0Write (0x200000 + off.toNat) v.toNat
           (s.eng.lcp.enable = true → exec (.dbgPortAccess off true v) s =
             .next (s.after ((s.eng.clear.regWrite s.budget a).emit (.dbg 0 0)))) ∧
           exec (.dbgPortAccess off false v) s =
             .next (s.after (s.eng.clear.emit (.dbg 0 (csrPart a (s.eng.clear.regRead s.boot.runB s.budget a).1)))))))) ∧
  (
    ∀ (s : State) (t : ThreadId) (c : ChnId) (w : BitVec 64), s.eng.pwr.ctlOn = true →
      let e := s.eng.clear
      let y := s.eng.thread t
      let x := s.eng.chnl c
      (y.state = .running →
        (x.part = none → x.msgs.length < 4 →
          exec (.channelWrite t c w false) s = .next (s.after
            ((e.setThread t { y with state := .running, waitChn := none, hold := some c, holdTimer := 0, holdSince := some s.eng.now }).setChnl c
              { x with part := some (t, [w]) })) ∧
          exec (.channelWrite t c w true) s = .next (s.after
            (((e.setThread t { y with state := .running, waitChn := none, hold := none, holdTimer := 0, holdSince := none }).setChnl c
              { msgs := x.msgs ++ [[w]], part := none }).wakeChn c))) ∧
        (∀ ws, x.part = some (t, ws) → ws ≠ [] → ws.length < 8 →
          exec (.channelWrite t c w false) s = .next (s.after
            ((e.setThread t { y with state := .running, waitChn := none }).setChnl c { x with part := some (t, ws ++ [w]) })) ∧
          exec (.channelWrite t c w true) s = .next (s.after
            (((e.setThread t { y with state := .running, waitChn := none, hold := none, holdTimer := 0, holdSince := none }).setChnl c
              { msgs := x.msgs ++ [ws ++ [w]], part := none }).wakeChn c))) ∧
        ((∃ u ws, x.part = some (u, ws) ∧ u ≠ t) ∨ (x.part = none ∧ 4 ≤ x.msgs.length) → ∀ last,
          exec (.channelWrite t c w last) s = .next (s.after
            (e.setThread t { y with state := .waitChannel, waitChn := some (c, true) }))) ∧
        (x.msgs = [] → exec (.channelRead t c) s = .next (s.after
          (e.setThread t { y with state := .waitChannel, waitChn := some (c, false) }))) ∧
        (∀ m r, x.msgs = m :: r → exec (.channelRead t c) s = .next (s.after
          ((((e.setThread t { y with state := .running, waitChn := none }).setChnl c { x with msgs := r }).emit (.message t m)).wakeChn c)))) ∧
      (y.state = .faulted ∨ y.state = .reset ∨ y.state = .haltedDebug ∨ y.state = .waitEvent → ∀ last,
        exec (.channelWrite t c w last) s = .next (s.after e) ∧ exec (.channelRead t c) s = .next (s.after e)) ∧
      (x.part = none → exec (.channelHoldExpiry c) s = .next (s.after e)) ∧
      (∀ u ws, x.part = some (u, ws) → (s.eng.thread u).holdSince = none → exec (.channelHoldExpiry c) s = .next (s.after e)) ∧
      (∀ u ws, x.part = some (u, ws) → (s.eng.thread u).holdSince.isSome = true → exec (.channelHoldExpiry c) s = .next (s.after
        ((({ e with free := e.free + 1 } : Eng).threadFault u (Config.freeValue s.eng.free)).dropPart u))))

/-- The LCP's restarts (R55, R378, R379, R380, R382, R383, R385). A watchdog not restarted, a fault of T0 and a deadlock
raise sources 38, 36 and 37 and restart the LCP: READY is 0 and every thread and channel starts anew, with the cause and
the TB0 time recorded; at the edge of a deadlock's restart the watchdog adds no second one. A fault of another thread
raises source 36, stops that thread and posts a notice to T0, whose restart of the thread lets it run again, its partial
message gone and its commands taken back with TIMEOUT. A halted or gated thread does none of this. At its end a restart
ends the commands in flight with TIMEOUT, reports to every enabled function, releases T1 to T7 (the model's choice of
moment, log entry 75) and sets READY. -/
def Obligations.RestartsAndThreadFaults : Prop :=
  ∀ (s : State),
    let e := s.eng.clear
    let restart (d : Eng) (cause : Nat) : Eng := { d with
      ctl := { d.ctl with ready := false, restarting := true }
      lcp := { d.lcp with threads := {}, chnls := {}, notices := [], lastCause := cause, restarts := d.lcp.restarts + 1
                          lastRestart := s.eng.tb0 } }
    (let edge : Prop := s.eng.ctl.restarting = true ∧ s.eng.lcp.lastCause = 1 ∧ s.eng.lcp.lastRestart = s.eng.tb0
     (s.eng.thread 0).state ≠ .haltedDebug → s.eng.pwr.ctlOn = true →
      (¬ edge → exec .lcpWatchdogExpiry s = .next (s.after (restart (e.raiseEv (mkEv 38 .failure 0 0x8010 0 0)) 2))) ∧
      (edge → exec .lcpWatchdogExpiry s = .next (s.after (e.raiseEv (mkEv 38 .failure 0 0x8010 0 0))))) ∧
    ((s.eng.thread 0).state = .haltedDebug ∨ s.eng.pwr.ctlOn = false → exec .lcpWatchdogExpiry s = .next (s.after e)) ∧
    (s.eng.deadlock = false ∨ s.eng.pwr.ctlOn = false → exec .deadlockDetected s = .next (s.after e)) ∧
    (s.eng.deadlock = true → s.eng.pwr.ctlOn = true → exec .deadlockDetected s = .next (s.after (
      let m := pack (allThreads.map (fun t => (b2n (decide ((s.eng.thread t).state = .waitChannel)), 1)))
      restart (e.raiseEv (mkEv 37 .failure m 0x8010 0 0)) 1))) ∧
    (∀ (t : ThreadId) (cause : BitVec 8),
      (let y := s.eng.thread t
       let d := e.raiseEv (mkEv 36 .failure (t.val + 16 * (cause.toNat % 16)) (0x8010 + t.val) 0 0)
       let live := s.eng.pwr.ctlOn = true ∧ y.state ≠ .reset ∧ y.state ≠ .faulted
       (live → t = 0 → exec (.threadFault t cause) s = .next (s.after (restart d 3))) ∧
       (live → t ≠ 0 → exec (.threadFault t cause) s = .next (s.after (
         let x := (d.setThread t { y with state := .faulted, waitChn := none, holdTimer := y.holdNow s.eng.now
                                          holdSince := none }).freePc t
         { x with lcp := { x.lcp with notices := s.eng.lcp.notices ++ [t] } }))) ∧
       (¬ live → exec (.threadFault t cause) s = .next (s.after e)))) ∧
    (∀ (t : ThreadId), t ≠ 0 → s.eng.pwr.ctlOn = true →
      ((s.eng.thread t).state = .reset →
        exec (.threadRestart t) s = .next (s.after (e.setThread t { state := .running }))) ∧
      ((s.eng.thread t).state = .faulted → exec (.threadRestart t) s = .next (s.after (
        let d := (e.dropPart t).setThread t { state := .running }
        let d : Eng := { d with lcp := { d.lcp with
          threadRestarts := d.lcp.threadRestarts + 1, notices := d.lcp.notices.filter (fun u => !decide (u = t)) } }
        foldEng d.ctl.inflight (fun e f => match (e.fn f).cmd with
          | some k => if k.thread = some t then e.cmdLapse f k 0x08 else e
          | none => e) d))) ∧
      ((s.eng.thread t).state ≠ .reset → (s.eng.thread t).state ≠ .faulted →
        exec (.threadRestart t) s = .next (s.after e))) ∧
    (s.eng.ctl.restarting = true → exec .lcpRestartReady s = .next (s.after (
      let d := foldEng s.eng.ctl.inflight (fun e f => e.cmdEnd f 0x08 0) { e with ctl := { s.eng.ctl with restarting := false } }
      let d := (foldEng d.enabledFns (fun e f => e.fwRestarted f) d).releaseThreads
      { d with ctl := { d.ctl with ready := true }, lcp := { d.lcp with readyAt := d.now } }))) ∧
    (s.eng.ctl.restarting = false → exec .lcpRestartReady s = .next (s.after e))

/-! ### Fault collection -/

/-- FAULT_EVENT and FAULT_FORCE (R309, R337, R393, R394, R395, R396, R397, R398, R400, R405). What has happened in the unit
that drives an event happens, as a Dealer tree or a policer's tokens lost, and the event is graded as the command ends; an
event of INFO class, one corrected of another source than 7, and one of a source above 32 is no more than driven. One such
event of a source that counts no window and has no shadow over it: the source's count goes up, its status bit and HIGH_SEV
show the severity, a free capture takes the event, and an occupied one stays with FLT_MULTI set. A forced event is one with
master FORCE; bits 4, 6, 39 and 41 are ignored outside factory test mode, with source 35. -/
def Obligations.FaultEventsAreGraded : Prop :=
  (∀ (s : State) (evs : List FaultEv),
    exec (.faultEvent evs) s = .next (s.after (foldEng evs (fun e v => (e.unitFault v).raiseEv v) s.eng.clear)) ∧
    ((∀ v ∈ evs, v.cls = .info ∨ v.cls = .corrected ∧ v.src.val ≠ 7 ∨ 32 < v.src.val) → exec (.faultEvent evs) s = .next (s.after
      { s.eng.clear with flt := { s.eng.flt with raised := s.eng.flt.raised ++ evs } }))) ∧
  (∀ (e : Eng) (v : FaultEv),
    (v.cls = .info ∨ v.cls = .corrected ∧ v.src.val ≠ 7 → e.unitFault v = e) ∧
    (v.cls = .failure → v.src = 28 → e.unitFault v =
      e.setRoot (fin 16 v.detail.toNat) { e.root (fin 16 v.detail.toNat) with broken := true }) ∧
    (v.cls = .failure → v.src = 29 → v.master = 0x8030 →
      (let p : Fin 4096 := fin 4096 (v.detail.toNat % 32768)
       e.unitFault v = ({ e with free := e.free + 1 } : Eng).setPolicer p { e.policer p with tokens := Config.freeValue e.free })) ∧
    (v.cls ≠ .info → v.src = 7 → e.dma.cache.length = 1 →
      e.unitFault v = { e with free := e.free + 1, dma := { e.dma with cache := [] } })) ∧
  (∀ (s : State) (v : FaultEv), s.eng.Calm → s.eng.collecting = true → v.src.val < 50 →
    (v.cls = .info ∨ v.cls = .corrected ∧ v.src.val ≠ 7 ∨ 32 < v.src.val) →
    s.eng.flt.shadows = [] → (s.eng.srcCfg v.src.val).winEn = false → s.eng.tally.freezeSev = 0 → s.eng.pair.wakeSev = 0 →
    s.eng.flt.irqEn = false →
    (let lasting := bitAt s.eng.flt.lasting.toNat v.src.val
     let sev := min 4 ((match v.cls with
       | .info => 0
       | .corrected => 1
       | .failure => (s.eng.srcCfg v.src.val).sevFail) + (if lasting then 1 else 0))
     let react := nth (s.eng.srcCfg v.src.val).react sev .none
     (react = .none ∨ react = .interrupt) → exec (.faultEvent [v]) s = .next (s.to { s.eng.clear with flt := {
       s.eng.flt with
         status := s.eng.flt.status ||| srcBit v.src.val
         stat := s.eng.flt.stat.put {} v.src.val { s.eng.srcStat v.src.val with
           count := min ((s.eng.srcStat v.src.val).count + 1) 0xFFFFFFFF, highSev := max (s.eng.srcStat v.src.val).highSev sev }
         multi := s.eng.flt.multi || s.eng.flt.first.valid
         first := if s.eng.flt.first.valid then s.eng.flt.first else {
           valid := true, src := v.src.val, sev := sev, lasting := lasting, forced := v.master.toNat == 0x807F
           cls := (match v.cls with | .info => 0 | .corrected => 1 | .failure => 2)
           reaction := react.code, addr := if v.access = 0 then 0 else v.addr.toNat, master := v.master.toNat
           access := v.access.toNat, detail := v.detail.toNat, ns := (s.eng.tb 0).ns, sec := (s.eng.tb 0).sec } } }))) ∧
  (∀ (s : State) (n : Fin 50), s.eng.Open 0 → s.eng.standby = false →
    (let locked : Prop := (n = 4 ∨ n = 6 ∨ n = 39 ∨ n = 41) ∧ s.eng.flt.factory = false
     (¬ locked → exec (.faultForce (BitVec.ofNat 64 (2 ^ n.val))) s = .next (s.after
       ((s.eng.touch 0).raiseEv (mkEv (fin 64 n.val) s.eng.flt.forced 0 0x807F 0 0)))) ∧
     (locked → exec (.faultForce (BitVec.ofNat 64 (2 ^ n.val))) s =
       .next (s.after ((s.eng.touch 0).badAccess 0 0x10020)))))

/-- FIRST_ERROR_RELEASE, REACTION_RELEASED, SHADOW_EXPIRY, FAULT_WINDOW_EXPIRY, PB_BANK_RETIRED and IRQ_STALL (R395, R396,
R399, R401, R403, R500). Releasing the capture clears its VALID alone. A PORT_DOWN reaction is released once its port is in
FAULT with nothing on the wire, or is in ADMIN_DOWN so, a QUIESCE_FUNCTION reaction once its function's queues stand; its
shadow closes after that, and never before. A window that expires loses its count; a bank on its way out is out of service.
An episode of IRQ_MSG_RDY held low raises source 48 once.
SCRUB (R309, R356, R543, R544). Only a memory the scrubber reads in the power state is scrubbed. An error it corrects
is a CORRECTED event of the memory's source with what it names, one it cannot correct a FAILURE event: of an offload
profile that no frame uses no more; of a Dealer tree the port's tree is broken, and whole again at the next good read; of a
shaper's tokens they are zero and counted. -/
def Obligations.CollectorAndScrubber : Prop :=
  (
    ∀ (s : State),
      let e := s.eng.clear
      let flt (x : FltSt) : Eng := { e with flt := x }
      (s.eng.Open 0 → s.eng.standby = false → exec .firstErrorRelease s = .next (s.after
        (let d := s.eng.touch 0; { d with flt := { d.flt with first := { d.flt.first with valid := false } } }))) ∧
      (∀ k h, s.eng.flt.shadows[k]? = some h →
        (h.released.isSome = true → exec (.shadowExpiry k) s =
          .next (s.after (flt { s.eng.flt with shadows := s.eng.flt.shadows.eraseIdx k }))) ∧
        (h.released = none → exec (.shadowExpiry k) s = .next (s.after e)) ∧
        (∀ p, h.released = none → h.reaction = .portDown → h.target = .port p →
          (s.eng.port p).state = .portFault ∨ (s.eng.port p).state = .adminDown → (s.eng.port p).wire = [] → exec (.reactionReleased k) s = .next (s.after
            (flt { s.eng.flt with shadows := setNth s.eng.flt.shadows k { h with released := some s.eng.now } }))) ∧
        (∀ p, h.target = .port p → (s.eng.port p).state ≠ .portFault → (s.eng.port p).state ≠ .adminDown → exec (.reactionReleased k) s = .next (s.after e)) ∧
        (∀ f, h.released = none → h.reaction = .quiesce → h.target = .fn f → s.eng.txStopped f = true → s.eng.rxStopped f = true →
          exec (.reactionReleased k) s = .next (s.after
            (flt { s.eng.flt with shadows := setNth s.eng.flt.shadows k { h with released := some s.eng.now } }))) ∧
        (h.released.isSome = true → exec (.reactionReleased k) s = .next (s.after e))) ∧
      (∀ k, s.eng.flt.shadows[k]? = none →
        exec (.reactionReleased k) s = .next (s.after e) ∧ exec (.shadowExpiry k) s = .next (s.after e)) ∧
      (∀ n, exec (.faultWindowExpiry (.src n)) s = .next (s.after
        (flt { s.eng.flt with stat := s.eng.flt.stat.put {} n.val { s.eng.srcStat n.val with win := none } }))) ∧
      (∀ b, exec (.faultWindowExpiry (.bank b)) s = .next (s.after
        (flt { s.eng.flt with bankWin := s.eng.flt.bankWin.put none b.val none }))) ∧
      (∀ b : Fin 32, (let m : BitVec 32 := BitVec.ofNat 32 (2 ^ b.val)
        (bitAt s.eng.flt.retiring.toNat b.val = true → exec (.pbBankRetired b) s = .next (s.after
          (flt { s.eng.flt with retiring := s.eng.flt.retiring &&& ~~~m, pbRetired := s.eng.flt.pbRetired ||| m }))) ∧
        (bitAt s.eng.flt.retiring.toNat b.val = false → exec (.pbBankRetired b) s = .next (s.after e)))) ∧
      (s.eng.irqStall = true → exec .irqStall s = .next (s.after e)) ∧
      (s.eng.irqStall = false → exec .irqStall s = .next (s.after
        ({ e with free := e.free + 2, irqStall := true }.raiseEv (mkEv 48 .failure (Config.freeValue s.eng.free % 4096)
          (Config.freeValue (s.eng.free + 1) % 2048) 0 0))))) ∧
  (
    ∀ (s : State) (m : ScrubMem),
      let e := s.eng.clear
      let bad (src : Fin 64) (cls : EvClass) (detail unit : Nat) (d : Eng) : Eng := d.raiseEv (mkEv src cls detail unit 0 0)
      (s.eng.scrubs m = false → ∀ r, exec (.scrub m r) s = .next (s.after e)) ∧
      (s.eng.scrubs m = true →
        ((∀ p, m ≠ .dealerTree p) → exec (.scrub m .clean) s = .next (s.after e)) ∧
        (∀ b, m = .packetBuffer b → exec (.scrub m .corrected) s =
          .next (s.after (bad (fin 64 (b.val / 8)) .corrected b.val 0x8037 e))) ∧
        (∀ b, m = .retention b →
          exec (.scrub m .corrected) s = .next (s.after (bad 4 .corrected b.val 0x8000 e)) ∧
          (4 ≤ b.val → exec (.scrub m .uncorrectable) s = .next (s.after (bad 4 .failure b.val 0x8000 e)))) ∧
        (∀ n, m = .offloadProfile n → (∀ p, (s.eng.port p).lists = List.replicate 8 [] ∧ (s.eng.port p).wire = []) →
          exec (.scrub m .uncorrectable) s = .next (s.after (bad 31 .failure n.val 0x8031 e))) ∧
        (∀ n r, m = .tcam n r → exec (.scrub m .uncorrectable) s =
          .next (s.after (bad 5 .failure (n.val + 16384 * r.val) 0x8030 e))) ∧
        (∀ p, m = .gateList p → exec (.scrub m .uncorrectable) s = .next (s.after (bad 32 .failure (4 * p.val) 0x8033 e))) ∧
        (∀ p, m = .dealerTree p → exec (.scrub m .uncorrectable) s = .next (s.after
          (bad 28 .failure p.val 0x8032 (e.setRoot p { s.eng.root p with broken := true }))) ∧
          ((s.eng.root p).broken = true → exec (.scrub m .clean) s = .next (s.after
            (e.setRoot p { s.eng.root p with broken := false }))) ∧
          ((s.eng.root p).broken = false → exec (.scrub m .clean) s = .next (s.after e))) ∧
        (∀ o, m = .tokens o → (∀ p, o ≠ .root p) → exec (.scrub m .uncorrectable) s = .next (s.after (
          let d := e.setDobj o { s.eng.dobj o with tokens := 0, deficit := 0 }
          let n := match o with
            | .leaf q => q.val
            | .node k => k.val
            | .root p => p.val
          bad 29 .failure n 0x8032
            { d with dealer := { d.dealer with shaperResets := sat64 (s.eng.dealer.shaperResets + 1) } }))) ∧
        (∀ p, m = .policer p → exec (.scrub m .uncorrectable) s = .next (s.after
          (bad 29 .failure p.val 0x8030 (({ e with free := e.free + 1 } : Eng).setPolicer p
            { s.eng.policer p with tokens := Config.freeValue s.eng.free }))))))

/-! ### Tally -/

/-- The commands of TLY_CTRL, TLY_CNT and TLY_BW_CTRL (R461, R462, R466, R467): a freeze holds the counters with the time
it began, and the events on their way are not counted; a release lets them go on. A snapshot copies every counter into its
shadow, with the time and a count; the clear zeroes every counter and OVF bit and leaves the shadows, and the slot clear
zeroes the slot accounting; no other field changes. A counter written has the value written. The windows begin with what is
set for them.
TALLY_COUNT and BW_WINDOW_BOUNDARY (R456, R460, R461, R467, R469). At an edge the events on their way are counted by
each enabled counter that they pass, unless Tally is frozen; with PD_CTL gated nothing counts. A counter that wraps sets
its OVF bit, or passes its wraps on where its partner is chained. At a boundary each port of the mask has its record
written, and the next window begins. -/
def Obligations.TallyControlsAndCounts : Prop :=
  (
    (∀ (s : State), s.eng.Open 0 → s.eng.standby = false → s.eng.tally.freezeSev ≠ 1 → s.eng.tally.freezeSev ≤ 4 →
      s.eng.tally.vector < 4096 →
      (let e := s.eng.touch 0
       (s.eng.tally.freeze = false → exec (.tallyFreeze true) s = .next (s.after { e with tally := {
         e.tally with freeze := true, byFault := false, freezeTime := s.eng.tb0, queue := [] } })) ∧
       (s.eng.tally.freeze = true → exec (.tallyFreeze false) s = .next (s.after { e with tally := { e.tally with freeze := false } })) ∧
       exec (.tallyFreeze s.eng.tally.freeze) s = .next (s.after e) ∧
       exec .tallySnap s = .next (s.after e.tallySnap) ∧
       exec .tallyClearAll s = .next (s.after e.tallyClear) ∧
       exec .slotClear s = .next (s.after e.slotClear))) ∧
    (∀ (e : Eng) (k : Nat),
      (e.tallySnap.tcnt k = { e.tcnt k with shadow := (e.tcnt k).value } ∧ e.tallySnap.tally.snapCount = e.tally.snapCount + 1 ∧
       e.tallySnap.tally.snapTime = e.tb0 ∧
       (e.tallySnap.tally.slots.get {} k).shadows = (e.tally.slots.get {} k).times) ∧
      (e.tallyClear.tcnt k = { e.tcnt k with value := 0 } ∧ e.tallyClear.tally.ovf = 0 ∧ e.tallyClear.tally.slots = e.tally.slots) ∧
      (e.slotClear.tally.slots.get {} k = { e.tally.slots.get {} k with times := [0, 0, 0, 0, 0] } ∧
       e.slotClear.tally.cnts = e.tally.cnts) ∧
      (∀ v, (e.tallyWrite k v).tcnt k = { e.tcnt k with value := v })) ∧
    (∀ (s : State) (k : Fin 256) (v : BitVec 48), s.eng.Open 0 → s.eng.standby = false →
      exec (.tallyCounterWrite k v) s = .next (s.after ((s.eng.touch 0).tallyWrite k.val v))) ∧
    (∀ (s : State), s.eng.Open 0 → s.eng.standby = false → 0 < s.eng.tally.bwWindow → s.eng.tally.bwWindow ≤ 1000000 →
      (let e := s.eng.touch 0
       (s.eng.tally.bwEn = false → exec .bwWindowsEnable s = .next (s.after { e with tally := {
         e.tally with
           bwEn := true, bwMaskNow := s.eng.tally.bwMask, bwWindowNow := s.eng.tally.bwWindow, bwSeq := 0, bwCount := 0, bw := {} } })) ∧
       (s.eng.tally.bwEn = true → exec .bwWindowsEnable s = .next (s.after e))))) ∧
  (
    (∀ (s : State),
      (s.eng.pwr.ctlOn = false → exec .tallyCount s = .next (s.after s.eng.clear) ∧ exec .bwWindowBoundary s = .next (s.after s.eng.clear)) ∧
      (s.eng.tally.bwEn = false → exec .bwWindowBoundary s = .next (s.after s.eng.clear)) ∧
      (s.eng.pwr.ctlOn = true → s.eng.tally.bwEn = false → exec .tallyCount s = .next (s.after (
        let held := s.eng.portList.filter (fun p =>
          decide ((s.eng.port p).state = .up) && s.eng.elig 10 (.root p) && !s.eng.pacingOk p)
        let e := s.eng.clear.countEvents (({ code := 0xF01 } : TEvent) :: held.map (fun p => { code := 0x105, port := some p })) none
        foldEng e.portList (fun e p => (e.slotEdge p .tx).slotEdge p .rx) e))) ∧
      (s.eng.pwr.ctlOn = true → s.eng.tally.bwEn = true → s.eng.portList.filter (fun p => bitAt s.eng.tally.bwMaskNow.toNat p.val) = [] →
        exec .bwWindowBoundary s = .next (s.after { s.eng.clear with tally := {
          s.eng.tally with bw := {}, bwMaskNow := s.eng.tally.bwMask, bwWindowNow := s.eng.tally.bwWindow } }))) ∧
    (∀ (e : Eng) (extra : List TEvent), e.tally.freeze = true →
      e.countEvents extra none = { e with tally := { e.tally with queue := [] } }) ∧
    (∀ (e : Eng) (k n : Nat) (chained : Bool), (e.tcnt k).enable = true → 0 < n →
      (let v := (e.tcnt k).value.toNat + n
       let r := e.tcntAdd k n chained
       r.1.tcnt k = { e.tcnt k with value := BitVec.ofNat 48 v } ∧
       (v < 2 ^ 48 → r.1.tally.ovf = e.tally.ovf ∧ r.2 = 0) ∧
       (2 ^ 48 ≤ v → chained = true → r.1.tally.ovf = e.tally.ovf ∧ r.2 = v / 2 ^ 48) ∧
       (2 ^ 48 ≤ v → chained = false → r.1.tally.ovf = e.tally.ovf ||| BitVec.ofNat 256 (2 ^ k) ∧ r.2 = 0))))

/-! ### Carry's registers -/

/-! ### Power -/

/-- PWR_REQ (R414, R415, R416, R475, R506). A request for the state the engine is in is OK at once, and before READY it is
BUSY. In RUN a request for another state starts an entry, with the request as the one it answers, unless the engine is a
member of a pair that may not leave RUN (NOT_PERMITTED), a queue is paused or a channel of CH8 to CH63 works (BUSY), or no
credit is left (BUDGET), which change nothing. A request for the target of the transition in progress joins it.
POWER_SWITCH_DONE, DOMAIN_SWITCH_TIMEOUT and BUDGET_CREDIT (R411, R413, R417, R420, R430). At E5's end the state is the
one entered, with its domains off, and a wake that came meanwhile starts. A domain that does not switch within 50 µs raises
source 39. A credit is gained up to the cap of 10,000. -/
def Obligations.PowerRequestsAndSwitches : Prop :=
  (
    ∀ (s : State) (t : Fin 4) (tag : Fin 16),
      let e := s.eng.clear
      let tgt := PwrState.ofCode t.val
      let asks : List (Fin 16) := s.eng.pwr.tags ++ [tag]
      (tag ∈ s.eng.pwr.tags → exec (.pwrReq t tag) s = .next (s.after e)) ∧
      (tag ∉ s.eng.pwr.tags →
        (s.eng.start.phase ≠ .ready → exec (.pwrReq t tag) s = .next (s.after (e.emit (.pwrAck tag 1)))) ∧
        (s.eng.start.phase = .ready →
          (s.eng.pwr.step = .none → s.eng.pwr.state = tgt → exec (.pwrReq t tag) s = .next (s.after (e.emit (.pwrAck tag 0)))) ∧
          (s.eng.pwr.step = .none → s.eng.pwr.state = .run → tgt ≠ .run → s.eng.pair.state = .unpaired →
            ((s.eng.anyPaused = true ∧ tgt ≠ .off ∨ s.eng.carryBusy = true) →
              exec (.pwrReq t tag) s = .next (s.after (e.emit (.pwrAck tag 1)))) ∧
            (s.eng.anyPaused = false → s.eng.carryBusy = false → s.budget.credits = 0 →
              exec (.pwrReq t tag) s = .next (s.after (e.emit (.pwrAck tag 0x0A)))) ∧
            (s.eng.anyPaused = false → s.eng.carryBusy = false → 0 < s.budget.credits → s.eng.pwr.wakeAt = 0 →
              exec (.pwrReq t tag) s = .next (s.after { e with pwr := {
                s.eng.pwr with
                  tags := asks, step := .e1, target := tgt, waiters := [.pwrReq tag], abort := none, runWaiters := []
                  begun := false } }))) ∧
          (s.eng.pwr.step = .none → s.eng.pwr.state = .run → tgt ≠ .run → s.eng.pair.state = .active →
            exec (.pwrReq t tag) s = .next (s.after (e.emit (.pwrAck tag 5)))) ∧
          (s.eng.pwr.step = .waking → tgt = .run → exec (.pwrReq t tag) s = .next (s.after
            { e with pwr := { s.eng.pwr with tags := asks, waiters := s.eng.pwr.waiters ++ [.pwrReq tag] } })) ∧
          ((s.eng.pwr.step = .e1 ∨ s.eng.pwr.step = .e2 ∨ s.eng.pwr.step = .e3 ∨ s.eng.pwr.step = .e4) → tgt = .run →
            s.eng.pwr.pend = none → s.eng.pwr.target ≠ .run → s.eng.pwr.abort = none →
            exec (.pwrReq t tag) s = .next (s.after { e with pwr := {
              s.eng.pwr with
                tags := asks, runWaiters := s.eng.pwr.runWaiters ++ [.pwrReq tag], abort := some { cause := 1 } } }))))) ∧
  (
    (∀ (s : State),
      let e := s.eng.clear
      (s.eng.pwr.step ≠ .e5 → exec .powerSwitchDone s = .next (s.after e)) ∧
      (s.eng.pwr.step = .e5 → s.eng.pwr.waiters = [] → s.eng.pwr.late = none → s.eng.pwr.pend = none →
        (let entered (d : Eng) (tgt : PwrState) : Eng := { d with pwr := {
           d.pwr with state := tgt, step := .none, target := .run, waiters := [], begun := false } }
         (s.eng.pwr.target = .doze → exec .powerSwitchDone s = .next (s.after (entered e.noteSleep.gateData .doze))) ∧
         (s.eng.pwr.target = .watch → s.eng.pwr.state = .run → exec .powerSwitchDone s =
           .next (s.after (entered e.noteSleep.gateData.gateCtl .watch))) ∧
         (s.eng.pwr.target = .watch → s.eng.pwr.state = .doze → exec .powerSwitchDone s =
           .next (s.after (entered e.gateCtl .watch))) ∧
         (s.eng.pwr.target = .off → exec .powerSwitchDone s = .next (s.after (entered e.gateAll .off))))) ∧
      (s.eng.pwr.step = .e5 → exec .domainSwitchTimeout s = .next (s.after
        (e.raiseEv (mkEv 39 .failure s.eng.pwr.target.code 0x8034 0 0)))) ∧
      (s.eng.pwr.step = .waking → exec .domainSwitchTimeout s = .next (s.after (e.raiseEv (mkEv 39 .failure 0 0x8034 0 0)))) ∧
      (s.eng.pwr.step ≠ .e5 → s.eng.pwr.step ≠ .waking → exec .domainSwitchTimeout s = .next (s.after e)) ∧
      exec .budgetCredit s = .next { s.after e with
        budget := { credits := min 10000 (s.budget.credits + 1), since := s.eng.now } }) ∧
    (∀ (e : Eng), e.gateData.pwr.restOn = false ∧ e.gateData.pwr.ctlOn = e.pwr.ctlOn ∧ e.gateCtl.pwr.ctlOn = false ∧
      e.gateCtl.pwr.pll = false ∧ e.gateCtl.ctl.ready = false ∧
      e.gateAll.pwr.ctlOn = false ∧ e.gateAll.pwr.restOn = false ∧ e.gateAll.pwr.retOn = false))

/-- POWER_ENTRY_START, ENTRY_PREPARE_DONE, RING_DRAIN_DONE and RING_DRAIN_TIMEOUT (R417, R418, R419). E1 withdraws the
credit of SP_RCIRC; once no generation retires and no handshake goes on, granted frames go back to their queue heads and
admission closes in E2. E2 ends once every frame in progress is over, at A1: an entry to be aborted rolls back there, and
another goes on with E3. An entry not drained in time raises source 39 and rolls back.
BUFFER_FLUSH_DONE and SIGNING_DONE (R413, R416, R417, R419, R425, R427, R430). With the packet buffer empty and every
write answered and no access due but those a fault wait covers E3 ends at A2 with the trump stores empty and the sampler's
copy of the wake patterns made, or the entry rolls back. E4 stores a signature for each bank it signs; past A3 the entry
takes one credit and cannot be called off, and requests for WATCH and OFF get their answer. An entry to be aborted rolls
back at A3 and takes none. -/
def Obligations.EntryStepsToSigning : Prop :=
  (
    ∀ (s : State),
      let e := s.eng.clear
      let w := s.eng.portOf s.eng.pwr.watchPort
      (s.eng.pwr.step = .e1 → s.eng.pwr.begun = false → s.eng.steer.retiring = none → exec .powerEntryStart s = .next (s.after
        { e with
          pwr := { s.eng.pwr with begun := true, watchUp := decide (s.eng.pwr.target = .watch) && decide ((s.eng.port w).state = .up) }
          steer := { s.eng.steer with rcircOff := true, rcircCredit := 0 } })) ∧
      (s.eng.pwr.step ≠ .e1 ∨ s.eng.pwr.begun = true → exec .powerEntryStart s = .next (s.after e)) ∧
      (s.eng.pwr.step = .e1 → s.eng.pwr.begun = true → s.eng.steer.retiring = none → (∀ p, (s.eng.port p).hs = none) →
        exec .entryPrepareDone s = .next (s.after (
          let d := foldEng s.eng.portList (fun e p => e.ungrant p (fun _ => true)) e
          { d with pwr := { d.pwr with closed := true, step := .e2 } }))) ∧
      (s.eng.pwr.step ≠ .e1 ∨ s.eng.steer.retiring.isSome = true → exec .entryPrepareDone s = .next (s.after e)) ∧
      (s.eng.drained = false → exec .ringDrainDone s = .next (s.after e)) ∧
      (s.eng.drained = true → s.eng.start.due = none →
        (s.eng.pwr.step ≠ .e2 → exec .ringDrainDone s = .next (s.after e)) ∧
        (s.eng.pwr.step = .e2 → exec .ringDrainDone s = .next (s.after (
          let d := foldEng s.eng.txqList (fun e r => e.txBatchOut r.1) e
          match d.pwr.abort with
          | none => { d with pwr := { d.pwr with step := .e3 } }
          | some a => d.rollback 1 a s.budget.credits)))) ∧
      (s.eng.drained = true → s.eng.start.due = some .graceful → exec .ringDrainDone s = .next (s.after e.flushBatches) ∧
        exec .ringDrainTimeout s = .next (s.after (e.engineReset .command))) ∧
      (s.eng.start.due = none → s.eng.pwr.step = .e2 → exec .ringDrainTimeout s = .next (s.after
        ((e.raiseEv (mkEv 39 .failure s.eng.pwr.target.code 0x8034 0 0)).rollback 1
          (s.eng.pwr.abort.getD { cause := 3 }) s.budget.credits))) ∧
      (s.eng.start.due = none → s.eng.pwr.step ≠ .e2 → exec .ringDrainTimeout s = .next (s.after e))) ∧
  (
    ∀ (s : State),
      let e := s.eng.clear
      let w := s.eng.portOf s.eng.pwr.watchPort
      ((s.eng.bufferEmpty = false ∨ s.eng.dma.outst ≠ [] ∨ s.eng.dma.queue ≠ []) → exec .bufferFlushDone s = .next (s.after e)) ∧
      ((∃ b ∈ s.eng.dma.blocked, ∀ w ∈ s.eng.dma.waits, (s.eng.unitOf w.obj).contains b = false) →
        exec .bufferFlushDone s = .next (s.after e)) ∧
      (s.eng.bufferEmpty = true → s.eng.dma.outst = [] → s.eng.dma.queue = [] →
        (∀ b ∈ s.eng.dma.blocked, ∃ w ∈ s.eng.dma.waits, (s.eng.unitOf w.obj).contains b = true) →
        (s.eng.start.due = some .graceful → exec .bufferFlushDone s = .next (s.after (e.engineReset .command))) ∧
        (s.eng.start.due = none → s.eng.pwr.step ≠ .e3 → exec .bufferFlushDone s = .next (s.after e)) ∧
        (s.eng.start.due = none → s.eng.pwr.step = .e3 →
          (let d := foldEng s.eng.portList (fun e p => e.setPort p { e.port p with trump := [], trumpWait := [] }) e
           let pats := (upTo 32).map (fun i => s.eng.steer.wakePats.get {} (32 * w.val + i))
           (s.eng.pwr.abort = none → s.eng.pwr.watchUp = false → exec .bufferFlushDone s =
             .next (s.after { d with pwr := { s.eng.pwr with step := .e4, patterns := pats } })) ∧
           (∀ a, s.eng.pwr.abort = some a → exec .bufferFlushDone s = .next (s.after (d.rollback 2 a s.budget.credits)))))) ∧
      (∀ sigs, s.eng.pwr.step ≠ .e4 → exec (.signingDone sigs) s = .next (s.after e)) ∧
      (∀ sigs a, s.eng.pwr.step = .e4 → s.eng.pwr.abort = some a →
        exec (.signingDone sigs) s = .next { s.after (e.rollback 3 a s.budget.credits) with
          budget := s.budget.take s.eng (s.after (e.rollback 3 a s.budget.credits)).eng }) ∧
      (∀ sigs, s.eng.Calm → s.eng.pwr.step = .e4 → s.eng.pwr.abort = none → s.eng.pwr.target = .doze → s.eng.pair.state = .unpaired →
        exec (.signingDone sigs) s = .next { s.to { e with pwr := {
          (e.storeSigs sigs).pwr with step := .e5, cnt := addCnt s.eng.pwr.cnt 0 1 } } with
          budget := { s.budget with credits := s.budget.credits - 1 } }) ∧
      (∀ (d : Eng) (sigs : List (BitVec 32)) (b : Nat), d.pwr.state = .run → d.pwr.target = .doze →
        (4 ≤ b → b < 23 → (d.storeSigs sigs).pwr.sigs.get none b = some (nth sigs b 0)) ∧
        (b < 4 ∨ 23 ≤ b → (d.storeSigs sigs).pwr.sigs.get none b = none)))

/-- The wake sources (R411, R421, R422, R425, R426): in RUN none acts. In DOZE and in WATCH an armed source begins a wake,
with the wake record of its source, and DOZE's wake begins with the domains; a timer at 0 or not armed does nothing, and
the timer clears as it fires. The watch window opens in WATCH with the watch lane kept up, and closes unless it is as long
as the period.
The steps of a wake (R423, R427, R428): the PLL's lock, the domains' power, PD_CTL's state, the check of the banks'
signatures, the recovery of each lost bank in a way R428 gives for it (RB23's restarts the statistics sets, R129; what a
bank of RB0 to RB3 then holds is a free value), and the start, after which the engine is in RUN and READY. A step reported
out of its place changes nothing. -/
def Obligations.WakeSourcesAndSteps : Prop :=
  (
    ∀ (s : State),
      let e := s.eng.clear
      let woken (code pattern : Nat) (port : Nat) (d : Eng) : Eng := { d with pwr := {
        d.pwr with
          step := .waking, target := .run, window := false
          wakeStep := if s.eng.pwr.state = .doze then some .power else some .pll
          last := { source := code, from_ := if s.eng.pwr.state = .doze then 1 else 2, pattern := pattern, port := port, abort := 0
                    holdover := s.eng.time.holdover.isSome, time := s.eng.tb0 } } }
      let asleep : Prop := s.eng.pwr.step = .none ∧ (s.eng.pwr.state = .doze ∨ s.eng.pwr.state = .watch)
      let inRun : Prop := s.eng.pwr.step = .none ∧ s.eng.pwr.state = .run
      (inRun → exec .pairWakeSignal s = .next (s.after e) ∧ exec .wakeTimer s = .next (s.after e) ∧
        exec .watchWindowOpen s = .next (s.after e) ∧ (∀ p, exec (.linkActivity p) s = .next (s.after e)) ∧
        (∀ bs b, s.eng.pwr.window = false → exec (.watchFrame bs b) s = .next (s.after e))) ∧
      (asleep →
        (s.eng.armed 7 = true → exec .pairWakeSignal s = .next (s.after (woken 7 0 0 e))) ∧
        (s.eng.armed 7 = false → exec .pairWakeSignal s = .next (s.after e)) ∧
        (s.eng.armed 6 = true → s.eng.pwr.wakeAt ≠ 0 → exec .wakeTimer s = .next (s.after
          (woken 6 0 0 { e with pwr := { s.eng.pwr with wakeAt := 0 } }))) ∧
        (s.eng.armed 6 = false ∨ s.eng.pwr.wakeAt = 0 → exec .wakeTimer s = .next (s.after e)) ∧
        (∀ p, s.eng.laneKept p = true → s.eng.armed 2 = true → exec (.linkActivity p) s =
          .next (s.after (woken 2 0 (s.eng.portOf p).val e))) ∧
        (∀ p, s.eng.laneKept p = false ∨ s.eng.armed 2 = false → exec (.linkActivity p) s = .next (s.after e))) ∧
      (s.eng.pwr.step = .none → s.eng.pwr.state = .watch → s.eng.pwr.watchUp = true → exec .watchWindowOpen s = .next (s.after
        { e with pwr := { s.eng.pwr with window := true, windowAt := s.eng.now } })) ∧
      (s.eng.pwr.watchUp = false → exec .watchWindowOpen s = .next (s.after e)) ∧
      (s.eng.pwr.windowUs = s.eng.pwr.periodMs * 1000 → exec .watchWindowClose s = .next (s.after e)) ∧
      (s.eng.pwr.windowUs ≠ s.eng.pwr.periodMs * 1000 → exec .watchWindowClose s = .next (s.after
        { e with pwr := { s.eng.pwr with window := false } })) ∧
      (∀ bs, (exec (.watchFrame bs true) s = .next (s.after e)) ∧
        (bs.length < 64 → exec (.watchFrame bs false) s = .next (s.after e)) ∧
        (s.eng.pwr.window = false → exec (.watchFrame bs false) s = .next (s.after e)) ∧
        ((∀ i, i < 32 → (nth s.eng.pwr.patterns i {}).hits bs = false) → exec (.watchFrame bs false) s = .next (s.after e)) ∧
        (∀ n, asleep → s.eng.pwr.window = true → 64 ≤ bs.length → fcsBytes (bs.take (bs.length - 4)) = bs.drop (bs.length - 4) →
          (upTo 32).find? (fun i => (nth s.eng.pwr.patterns i {}).hits bs) = some n → s.eng.armed 3 = true →
          (let p := s.eng.portOf s.eng.pwr.watchPort
           exec (.watchFrame bs false) s = .next (s.after ((woken 3 n p.val e).stat p 0 1)))))) ∧
  (
    ∀ (s : State),
      let e := s.eng.clear
      let pwr (x : PwrSt) : Eng := { e with pwr := x }
      (s.eng.start.phase = .s1 → exec .pllLocked s = .next (s.after { e with
        start := { s.eng.start with phase := .s2, ends := setNth s.eng.start.ends 0 s.eng.tb0 }, pwr := { s.eng.pwr with pll := true } })) ∧
      (s.eng.start.phase ≠ .s1 → s.eng.pwr.wakeStep = some .pll → exec .pllLocked s =
        .next (s.after (pwr { s.eng.pwr with pll := true, wakeStep := some .power }))) ∧
      (s.eng.start.phase ≠ .s1 → s.eng.pwr.wakeStep ≠ some .pll → exec .pllLocked s = .next (s.after e)) ∧
      (s.eng.start.phase = .s2 → exec .wakePowerDone s = .next (s.after ({ e with
        start := { s.eng.start with phase := .s3, ends := setNth s.eng.start.ends 1 s.eng.tb0 }
        pwr := { s.eng.pwr with ctlOn := true, restOn := true, retOn := true } } : Eng).holdEnd)) ∧
      (s.eng.start.phase ≠ .s2 → s.eng.pwr.wakeStep = some .power → exec .wakePowerDone s = .next (s.after
        (pwr { s.eng.pwr with
          ctlOn := true, restOn := true, retOn := true, lost := 0, restored := 0, recover := []
          wakeStep := some (if s.eng.pwr.state = .doze then .check else .control) }).dealerWake)) ∧
      (s.eng.start.phase ≠ .s2 → s.eng.pwr.wakeStep ≠ some .power → exec .wakePowerDone s = .next (s.after e)) ∧
      (∀ sigs, (s.eng.pwr.wakeStep ≠ some .control → exec (.controlStateRestored sigs) s = .next (s.after e)) ∧
        (s.eng.pwr.wakeStep = some .control → s.eng.badSigs [23, 24] (fun b => nth sigs (b - 23) 0) = [] →
          exec (.controlStateRestored sigs) s = .next (s.after (pwr { s.eng.pwr with wakeStep := some .check }).holdEnd))) ∧
      (∀ sigs ecc, (s.eng.pwr.wakeStep ≠ some .check → exec (.retentionCheckDone sigs ecc) s = .next (s.after e)) ∧
        (s.eng.pwr.wakeStep = some .check → s.eng.pwr.state = .doze →
          s.eng.badSigs ((upTo 19).map (· + 4)) (fun b => nth sigs b 0) = [] → exec (.retentionCheckDone sigs []) s =
            .next (s.after (pwr { s.eng.pwr with wakeStep := some .start }))) ∧
        (∀ b, s.eng.pwr.wakeStep = some .check → s.eng.pwr.state = .doze →
          s.eng.badSigs ((upTo 19).map (· + 4)) (fun k => nth sigs k 0) = [b] → b < 28 →
          exec (.retentionCheckDone sigs []) s = .next (s.after ((pwr { s.eng.pwr with
            lost := s.eng.pwr.lost ||| BitVec.ofNat 28 (2 ^ b), recover := s.eng.pwr.recover ++ [fin 28 b]
            cnt := addCnt s.eng.pwr.cnt 4 1, wakeStep := some .start }).raiseEv (mkEv 40 .failure b 0x8034 0 0))))) ∧
      (∀ b r, (b ∉ s.eng.pwr.recover → exec (.bankRecovered b r) s = .next (s.after e)) ∧
        (b ∈ s.eng.pwr.recover →
          (let left := s.eng.pwr.recover.filter (fun c => !decide (c = b))
           (b.val < 4 → exec (.bankRecovered b .loss) s = .next (s.after e)) ∧
           (4 ≤ b.val → exec (.bankRecovered b .loss) s = .next (s.after
             ((pwr { s.eng.pwr with recover := left }).loseBank b.val)) ∧
             exec (.bankRecovered b .bootStore) s = .next (s.after e)) ∧
           (4 ≤ b.val → b.val ≤ 24 → s.eng.paired = true →
             (let d := pwr { s.eng.pwr with
                recover := left, restored := s.eng.pwr.restored ||| BitVec.ofNat 28 (2 ^ b.val), cnt := addCnt s.eng.pwr.cnt 5 1 }
              (b ≠ 23 → exec (.bankRecovered b .partner) s = .next (s.after d)) ∧
              (b = 23 → exec (.bankRecovered b .partner) s = .next (s.after (foldEng allSlots (fun d p => d.setPort p { d.port p with
                stats := {}, pausedFor := List.replicate 8 0, statsReset := true }) d))))) ∧
           (s.eng.paired = false → exec (.bankRecovered b .partner) s = .next (s.after e)) ∧
           (b.val < 4 → s.eng.enabledFns = [] → exec (.bankRecovered b .bootStore) s = .next (s.after { e with
             free := s.eng.free + 1, lcp := { s.eng.lcp with banks := setNth s.eng.lcp.banks b.val (Config.freeValue s.eng.free) }
             pwr := { s.eng.pwr with
               recover := left, restored := s.eng.pwr.restored ||| BitVec.ofNat 28 (2 ^ b.val)
               cnt := addCnt s.eng.pwr.cnt 5 1 } }))))) ∧
      (s.eng.pwr.wakeStep ≠ some .start ∨ s.eng.pwr.recover ≠ [] → exec .wakeStartDone s = .next (s.after e)) ∧
      (s.eng.pwr.wakeStep = some .start → s.eng.pwr.recover = [] → s.eng.pwr.state = .doze → exec .wakeStartDone s = .next (s.after (
        let d : Eng := { e with
          pwr := { s.eng.pwr with state := .run, step := .none, wakeStep := none, waiters := [], window := false }
          ctl := { s.eng.ctl with ready := true }, lcp := { s.eng.lcp with readyAt := s.eng.now } }
        let d := d.lateCages.lateTtls.fastStartAll.reopen
        let d : Eng := { d with pwr := { d.pwr with wasUp := [], watchUp := false } }
        let d : Eng := if d.pair.state = .standbyStale then { d with pair := { d.pair with lostLink := true, wakeSent := true } } else d
        (d.pwrAnswerAll s.eng.pwr.waiters 0 0).pwrNext s.budget.credits))))

/-! ### Start-up and resets -/

/-- RESET_ASSERT, RESET_RELEASE, REF_CLK_LOSS and PLL_LOCK_LOSS (R430, R473, R484, R539). With BLK_RST_N low every domain,
PD_AON and its credit count included, has its reset values; only the inputs and the model's own numbers stand (log entries
1 and 4). Its release starts S1. A missing REF_CLK and a PLL out of lock raise source 41 with DETAIL 0 and 1.
RESET_DRAIN_DONE (R322, R412, R474, R478): at the end of X2 every domain but PD_AON has its reset values, what PD_AON
holds stays, the domains are powered, and the sequence goes on in S3; elsewhere nothing happens. -/
def Obligations.ResetsAndTheirDrain : Prop :=
  (
    ∀ (s : State),
      let e := s.eng.clear
      (exec .resetAssert s = .next { s.after {
          flt := { factory := s.eng.flt.factory }, dma := { nextGrp := s.eng.dma.nextGrp }, irqStall := s.eng.irqStall
          txHold := s.eng.txHold, lcp := { policy := s.eng.lcp.policy }, start := { phase := .held }, nextRx := s.eng.nextRx
          free := s.eng.free } with
        budget := { credits := 10000, since := 0 } }) ∧
      (s.eng.start.phase = .held → exec .resetRelease s = .next (s.after { e with start := { s.eng.start with phase := .s1 } }) ∧
        exec .refClkLoss s = .next (s.after e)) ∧
      (s.eng.start.phase ≠ .held → exec .resetRelease s = .next (s.after e) ∧
        exec .refClkLoss s = .next (s.after (e.raiseEv (mkEv 41 .failure 0 0x8000 0 0)))) ∧
      ((s.eng.pwr.pll = true ∨ s.eng.start.phase = .s1 ∨ s.eng.pwr.wakeStep = some .pll) → exec .pllLockLoss s =
        .next (s.after (e.raiseEv (mkEv 41 .failure 1 0x8000 0 0)))) ∧
      (s.eng.pwr.pll = false → s.eng.start.phase ≠ .s1 → s.eng.pwr.wakeStep ≠ some .pll →
        exec .pllLockLoss s = .next (s.after e))) ∧
  (
    (∀ (s : State),
      (s.eng.start.phase ≠ .x2 → exec .resetDrainDone s = .next (s.after s.eng.clear)) ∧
      (s.eng.start.phase = .x2 → exec .resetDrainDone s = .next (s.after (
        let d := s.eng.clear.aonOnly
        ({ d with
          pwr := { d.pwr with state := .run, ctlOn := true, restOn := true, retOn := true, pll := true }
          start := { d.start with phase := .s3 } } : Eng).holdEnd)))) ∧
    (∀ (e : Eng), e.aonOnly.fns = {} ∧ e.aonOnly.txqs = {} ∧ e.aonOnly.rxqs = {} ∧ e.aonOnly.eqs = {} ∧ e.aonOnly.vecs = {} ∧
      e.aonOnly.ports = {} ∧ e.aonOnly.slots = {} ∧ e.aonOnly.steer = {} ∧ e.aonOnly.dealer = {} ∧ e.aonOnly.carry = {} ∧
      e.aonOnly.pair = {} ∧ e.aonOnly.tally = {} ∧ e.aonOnly.irqs = [] ∧
      e.aonOnly.flt.status = e.flt.status ∧ e.aonOnly.flt.first = e.flt.first ∧ e.aonOnly.flt.lasting = e.flt.lasting ∧
      e.aonOnly.flt.pbRetired = e.flt.pbRetired ||| e.flt.retiring ∧
      e.aonOnly.pwr.wakeEn = e.pwr.wakeEn ∧ e.aonOnly.pwr.wakeAt = e.pwr.wakeAt ∧ e.aonOnly.pwr.last = e.pwr.last ∧
      e.aonOnly.pwr.cnt = e.pwr.cnt ∧ e.aonOnly.pwr.grouping = none ∧
      e.aonOnly.time.clk = e.time.clk ∧ e.aonOnly.time.holdover = e.time.holdover))

/-- MEMORY_INIT_DONE, IMAGE_LOAD_DONE and TRIAL_TIMEOUT (R388, R390, R473, R476, R480). A PENDING image is tried before the
ACTIVE one; with none of either source 36 is raised with NO_IMAGE and start-up stops. An image that R388 accepts goes on to
S6, in RB0 to RB3 with contents that are free values (log entry 71); a trial that fails makes its slot BAD and goes back to
S4 with the other one, and no trial's failure stops start-up.
SELF_TEST_DONE and START_READY (R377, R390, R473, R476). A clean self-test goes on to S7; a failed slot is marked
failed with its source's event, a failed retention bank raises source 4 and stops start-up. At S8 READY rises, the threads
held in reset run, and a trial's slot is ACTIVE with the other one PREVIOUS. -/
def Obligations.ImagesAndStartUp : Prop :=
  (
    ∀ (s : State),
      let e := s.eng.clear
      let at_ (n : Nat) (p : Phase) (d : Eng) : Eng := { d with start := {
        d.start with phase := p, ends := setNth d.start.ends (n - 1) s.eng.tb0 } }
      let loaded : Eng :=
        (let d := at_ 5 .s6 (at_ 4 .s4 e)
         { d with
           free := s.eng.free + 4
           lcp := { s.eng.lcp with banks := (upTo 4).map (fun k => Config.freeValue (s.eng.free + k)) } })
      let noImage (d : Eng) : Eng :=
        ({ d with start := { d.start with phase := .stopped } } : Eng).raiseEv (mkEv 36 .failure 0xF0 0x8010 0 0)
      let retry : Eng := { e with start := { s.eng.start with phase := .s4, trial := 2, trying := false } }
      (s.eng.start.phase ≠ .s3 → exec .memoryInitDone s = .next (s.after e)) ∧
      (s.eng.start.phase = .s3 →
        (let d := (at_ 3 .s4 e).resetReleased
         let on (b trial : Bool) : State := { s.after { d with start := { d.start with trying := trial } } with
           boot := { s.boot with runB := b } }
         (s.boot.a.state = .pending → exec .memoryInitDone s = .next (on false true)) ∧
         (s.boot.a.state ≠ .pending → s.boot.b.state = .pending → exec .memoryInitDone s = .next (on true true)) ∧
         (s.boot.a.state = .active → s.boot.b.state ≠ .pending → exec .memoryInitDone s = .next (on false false)) ∧
         (s.boot.a.state ≠ .pending → s.boot.a.state ≠ .active → s.boot.b.state = .active →
           exec .memoryInitDone s = .next (on true false)) ∧
         (s.boot.a.state ≠ .pending → s.boot.a.state ≠ .active → s.boot.b.state ≠ .pending → s.boot.b.state ≠ .active →
           exec .memoryInitDone s = .next (s.after (noImage d))))) ∧
      (∀ i : ImageInfo,
        let read (x : ImgSlot) : ImgSlot := { x with version := i.version, secVersion := i.secVersion }
        let good : Prop := i.sigOk = true ∧ i.secOk = true ∧ i.codeLen.toNat ≤ 2097152
        (s.eng.start.phase ≠ .s4 → exec (.imageLoadDone i) s = .next (s.after e)) ∧
        (s.eng.start.phase = .s4 → s.boot.runB = false →
          (good → exec (.imageLoadDone i) s = .next { s.after loaded with
            boot := { s.boot with a := read s.boot.a } }) ∧
          (¬ good → s.eng.start.trying = true → exec (.imageLoadDone i) s = .next { s.after retry with
            boot := { s.boot with a := { read s.boot.a with state := .bad }, runB := true } }) ∧
          (¬ good → s.eng.start.trying = false → exec (.imageLoadDone i) s = .next { s.after (noImage e) with
            boot := { s.boot with a := read s.boot.a } })) ∧
        (s.eng.start.phase = .s4 → s.boot.runB = true → good → exec (.imageLoadDone i) s =
          .next { s.after loaded with boot := { s.boot with b := read s.boot.b } })) ∧
      ((s.eng.start.phase = .s4 ∨ s.eng.start.phase = .s6 ∨ s.eng.start.phase = .s7 ∨ s.eng.start.phase = .stopped) →
        (s.eng.start.trying = true → s.boot.runB = true → exec .trialTimeout s = .next { s.after retry with
          boot := { s.boot with b := { s.boot.b with state := .bad }, runB := false } }) ∧
        (s.eng.start.trying = false → exec .trialTimeout s = .next (s.after e))) ∧
      (s.eng.start.phase = .ready → exec .trialTimeout s = .next (s.after e))) ∧
  (
    ∀ (s : State),
      let e := s.eng.clear
      let d : Eng := { e with start := { s.eng.start with phase := .s7, ends := setNth s.eng.start.ends 5 s.eng.tb0 } }
      let none_ : SelfTest := { pbBanks := 0, retBanks := 0, tcam := 0, mems := 0, slots := 0, vectors := 0 }
      let with_ (r : SelfTest) : Eng := { d with start := { d.start with tests := r } }
      (∀ r, s.eng.start.phase ≠ .s6 → exec (.selfTestDone r) s = .next (s.after e)) ∧
      (s.eng.start.phase = .s6 →
        exec (.selfTestDone none_) s = .next (s.after (with_ none_)) ∧
        (∀ n : Fin 16, exec (.selfTestDone { none_ with slots := BitVec.ofNat 16 (2 ^ n.val) }) s = .next (s.after (
          let x := with_ { none_ with slots := BitVec.ofNat 16 (2 ^ n.val) }
          (x.setSlot n { s.eng.slot n with failed := true }).raiseEv
            (mkEv (fin 64 (8 + n.val)) .failure ((x.setSlot n { s.eng.slot n with failed := true }).portOf n).val
              (0x8020 + n.val) 0 0)))) ∧
        (∀ b : Fin 28, exec (.selfTestDone { none_ with retBanks := BitVec.ofNat 28 (2 ^ b.val) }) s = .next (s.after (
          let x := (with_ { none_ with retBanks := BitVec.ofNat 28 (2 ^ b.val) }).raiseEv (mkEv 4 .failure b.val 0x8000 0 0)
          { x with start := { x.start with phase := .stopped } })))) ∧
      (s.eng.start.phase ≠ .s7 → exec .startReady s = .next (s.after e)) ∧
      (s.eng.start.phase = .s7 → s.eng.start.trying = false →
        exec .startReady s = .next (s.after (e.startDone s.budget.credits))) ∧
      (s.eng.start.phase = .s7 → s.eng.start.trying = true → s.boot.runB = true →
        exec .startReady s = .next { s.after (e.startDone s.budget.credits) with boot := { s.boot with
          b := { s.boot.b with state := .active }, a := { s.boot.a with state := .previous } } }) ∧
      (s.eng.start.phase = .s7 → s.eng.pwr.waiters = [] → s.eng.pwr.pend = none →
        (∀ c, (s.eng.cage c).seen = none ∧ (s.eng.cage c).irqSeen = none ∧ (s.eng.cage c).prs = false) →
        (let t := e.startDone s.budget.credits
         t.start.phase = .ready ∧ t.ctl.ready = true ∧ t.pwr.state = .run ∧ t.pwr.step = .none ∧ t.start.trying = false ∧
         t.start.trial = (if s.eng.start.trying = true then 1 else s.eng.start.trial) ∧
         (∀ k, k ≠ 0 → (s.eng.thread k).state = .reset → (t.thread k).state = .running))))

/-! ### Pairs -/

/-- HEARTBEAT_TIMER, RX_HEARTBEAT and HEARTBEAT_LOSS (R448, R449, R450, R454, R504). A member sends its next sequence
number with its epoch and the number of the partner's last heartbeat. A heartbeat that arrives is noted with its time, the
missed ones are counted, the offset is taken, and a standby's bases follow the active's (log entry 26); one that returns to
an active alone starts the copy of a resynchronisation with AUTO_RESYNC or after a wake. Sixteen misses end the pair's
link: the active goes on alone and a standby is stale, with source 42. A member that does not run heartbeats does nothing.
LEASE_RENEW, LEASE_CAS_DONE, LEASE_FENCE, LEASE_POLL, RX_HANDOVER and RX_PAIR_WAKE_MSG (R421, R437, R439, R440, R441,
R444, R447, R503). The active swaps the lease word for one with COUNT one higher, which Tally counts as firmware's; a swap
that finds another word fences it, with source 43, as does a lease not renewed in time. A standby that sees the word stand
claims it at the next epoch once the lease has expired and the heartbeats are lost, and then takes over. HANDOVER makes a
standby active at the epoch given. -/
def Obligations.HeartbeatsAndLease : Prop :=
  (
    ∀ (s : State),
      let e := s.eng.clear
      let x := s.eng.pair
      let alone (d : Eng) : Eng := ({ d with pair := { d.pair with
        state := .activeAlone, formStep := 0, resync := false, changes := [], unacked := [], handover := none } } : Eng).releaseAll.pairEvent 4
      let stale (d : Eng) : Eng := ({ d with pair := { d.pair with
        state := .standbyStale, formStep := 0, resync := false, buffered := [], copyAgain := false, op := none } } : Eng).pairAnswer 0x0804 5 0
      (s.eng.beats = true → exec .heartbeatTimer s = .next (s.after
        (({ e with pair := { x with hbSeq := x.hbSeq + 1 } } : Eng).emit
          (.pairHeartbeat (x.hbSeq + 1) x.epoch (x.hbLast.map (fun h => h.1)))))) ∧
      (s.eng.beats = false → exec .heartbeatTimer s = .next (s.after e) ∧ exec .heartbeatLoss s = .next (s.after e) ∧
        ∀ h, exec (.rxHeartbeat h) s = .next (s.after e)) ∧
      (∀ h, s.eng.beats = true → (x.lostLink = false ∨ x.resync = true) →
        (let missed := match x.hbLast with
           | some (q, _) => ((h.seq - q).toNat - 1) % 2147483648
           | none => 0
         let d : Eng := { e with pair := {
           x with
             hbLast := some (h.seq, s.eng.now), lostLink := false, partnerId := h.engineId.toNat
             offset := ((h.tb0.sec * 1000000000 + h.tb0.ns + h.delay : Nat) : Int) - (s.eng.tb0 : Int)
             partnerGated := false, wakeSent := false, staleTold := false, cnt := addCnt x.cnt 3 missed } }
         (s.eng.standby = false → exec (.rxHeartbeat h) s = .next (s.after d)) ∧
         (s.eng.standby = true → exec (.rxHeartbeat h) s = .next (s.after
           ((((d.modTb 0 (fun t => t.steer h.tb0 h.delay)).modTb 1 (fun t => t.steer h.tb1 h.delay)).modTb 2
             (fun t => t.steer h.tb2 h.delay)).modTb 3 (fun t => t.steer h.tb3 h.delay)))))) ∧
      (∀ h, s.eng.beats = true → x.state = .activeAlone → x.lostLink = true → x.resync = false → x.hbLast = none →
        (let d : Eng := { e with pair := {
           x with
             hbLast := some (h.seq, s.eng.now), lostLink := false, partnerId := h.engineId.toNat
             offset := ((h.tb0.sec * 1000000000 + h.tb0.ns + h.delay : Nat) : Int) - (s.eng.tb0 : Int)
             partnerGated := false, wakeSent := false, staleTold := false, cnt := addCnt x.cnt 3 0 } }
         (x.autoResync = true ∨ x.wakeSent = true → exec (.rxHeartbeat h) s = .next (s.after (({ d with pair := { d.pair with
           resync := true, buffered := [], copyAgain := false, formStep := 5, copyNext := 4, copyAcked := [], changes := []
           unacked := [], sent := 0, acked := 0 } } : Eng).emit (.pairCopy 4)))) ∧
         (x.autoResync = false → x.wakeSent = false → x.partnerGated = false → exec (.rxHeartbeat h) s = .next (s.after d)))) ∧
      (s.eng.beats = true →
        (let lost (gated : Bool) : Eng := { e with pair := {
           x with lostLink := true, hbLast := none, resync := false, formStep := 0, partnerGated := gated, cnt := addCnt x.cnt 3 16 } }
         (x.state = .active → exec .heartbeatLoss s = .next (s.after
           (alone ((lost true).raiseEv (mkEv 42 .failure 1 0x8035 0 0))))) ∧
         (x.state = .standby → exec .heartbeatLoss s = .next (s.after
           (stale ((lost false).raiseEv (mkEv 42 .failure 1 0x8035 0 0))))) ∧
         (x.state = .activeAlone → exec .heartbeatLoss s = .next (s.after (lost true))) ∧
         (x.state = .standbyStale → exec .heartbeatLoss s = .next (s.after (lost false)))))) ∧
  (
    ∀ (s : State),
      let e := s.eng.clear
      let x := s.eng.pair
      let swap (op : LeaseOp) (new : BitVec 64) : Eng :=
        (({ e with pair := { x with op := some op, opWord := new, opAt := s.eng.now } } : Eng).tal (x.leaseEvent 0x204 8)).emit
          (.leaseCas x.word new)
      let fault (cause : Nat) (d : Eng) : Eng := d.raiseEv (mkEv 43 .failure cause 0x8035 0 0)
      ((x.state = .active ∨ x.state = .activeAlone) → s.eng.pwr.ctlOn = true → x.op = none →
        exec .leaseRenew s = .next (s.after (swap .renew (leaseWord x.epoch (x.count + 1) s.eng.off.engineId)))) ∧
      (x.op.isSome = true ∨ x.state = .standby ∨ x.state = .unpaired ∨ s.eng.pwr.ctlOn = false →
        exec .leaseRenew s = .next (s.after e)) ∧
      ((x.state = .active ∨ x.state = .activeAlone) → exec .leaseFence s = .next (s.after (fault 1 e).fence)) ∧
      (x.state ≠ .active → x.state ≠ .activeAlone → exec .leaseFence s = .next (s.after e)) ∧
      (∀ r, x.op = none → exec (.leaseCasDone r) s = .next (s.after e)) ∧
      (x.op = some .renew →
        (exec (.leaseCasDone (.old x.word)) s = .next (s.after (
          let y : PairSt := { x with
            op := none, word := x.opWord, epoch := BitVec.ofNat 32 x.opWord.toNat, count := BitVec.ofNat 16 (x.opWord.toNat >>> 32) }
          { e with pair := if s.eng.passed x.opAt 10000 then y else { y with renewed := s.eng.now } }))) ∧
        (∀ w, w ≠ x.word → exec (.leaseCasDone (.old w)) s = .next (s.after (fault 2 { e with pair := { x with op := none } }).fence)) ∧
        exec (.leaseCasDone .error) s = .next (s.after (fault 5 { e with pair := { x with op := none } }))) ∧
      (x.op = some .claim →
        exec (.leaseCasDone (.old x.word)) s = .next (s.after
          (((fault 3 (({ e with pair := { x with op := none } } : Eng).takeOver x.opWord)).pairCnt 0 1).pairEventAll 2)) ∧
        (∀ w, w ≠ x.word → exec (.leaseCasDone (.old w)) s = .next (s.after
          ({ e with pair := { x with op := none, word := w } } : Eng).goStale))) ∧
      (∀ w, s.eng.standby = false ∨ s.eng.pwr.ctlOn = false → exec (.leasePoll w) s = .next (s.after e)) ∧
      (∀ w, s.eng.standby = true → s.eng.pwr.ctlOn = true →
        (let ep : BitVec 32 := BitVec.ofNat 32 w.toNat
         let ct : BitVec 16 := BitVec.ofNat 16 (w.toNat >>> 32)
         let same := ep = BitVec.ofNat 32 x.word.toNat ∧ ct = BitVec.ofNat 16 (x.word.toNat >>> 32)
         let read := (e.tal (x.leaseEvent 0x208 1)).tal (x.leaseEvent 0x203 8)
         (x.seenAt = none ∨ ¬ same →
           (let d : Eng := { read with pair := {
              x with word := w, epoch := ep, count := ct, seenAt := some s.eng.now, staleTold := false, tries := 0 } }
            (ep = x.epoch → exec (.leasePoll w) s = .next (s.after d)) ∧
            (ep ≠ x.epoch → exec (.leasePoll w) s = .next (s.after d.fastStartAll)))) ∧
         (∀ t, x.seenAt = some t → same → s.eng.passed t 50000 = false → exec (.leasePoll w) s = .next (s.after read)) ∧
         (∀ t, x.seenAt = some t → same → s.eng.passed t 50000 = true → s.eng.heartsLost = true → x.state = .standby →
           s.eng.pwr.step = .none → x.op = none → x.tries = 0 →
           exec (.leasePoll w) s = .next (s.after (
             (({ read with pair := { x with
               op := some .claim, opWord := leaseWord (x.epoch + 1) 0 s.eng.off.engineId, opAt := s.eng.now } } : Eng).tal
               (x.leaseEvent 0x204 8)).emit (.leaseCas x.word (leaseWord (x.epoch + 1) 0 s.eng.off.engineId))))) ∧
         (∀ t, x.seenAt = some t → same → s.eng.heartsLost = false → exec (.leasePoll w) s = .next (s.after read)))) ∧
      (∀ ep, x.state = .standby → exec (.rxHandover ep) s = .next (s.after
        (((((e.takeOver (leaseWord ep 0 s.eng.off.engineId)).pairCnt 1 1).pairEventAll 3).pairAnswer 0x0804 0 0)))) ∧
      (∀ ep, x.state ≠ .standby → exec (.rxHandover ep) s = .next (s.after e)) ∧
      (s.eng.armed 7 = false → exec .rxPairWakeMsg s = .next (s.after e)) ∧
      (s.eng.armed 7 = true → s.eng.pwr.step = .none → s.eng.pwr.state = .doze ∨ s.eng.pwr.state = .watch →
        exec .rxPairWakeMsg s = .next (s.after (e.beginWake 7 0 0))))

/-- HELLO_TIMER, RX_HELLO, PAIR_FORM_TIMEOUT and RX_COPY_ACK (R437, R451). A forming member sends HELLO; a HELLO of another
PAIR_ID changes nothing, one that does not agree ends the formation with source 42, one that does makes the active claim
the lease word and the standby await the copy. Each bank acknowledged is followed by the next, and after RB24 the pair is
in sync.
JOURNAL_PERIOD, RX_JOURNAL_ACK, JOURNAL_ACK_TIMEOUT, RX_JOURNAL and RX_COPY (R437, R442, R443, R449). The changes of a
period leave as one record, and none does where nothing has changed and no write waits. An acknowledgement releases what
waits for its record; a record unacknowledged too long makes the active go on alone. A standby applies the record that
follows, drops one it has applied, and is stale after a gap; during a copy it buffers records. -/
def Obligations.PairsFormAndJournal : Prop :=
  (
    ∀ (s : State),
      let e := s.eng.clear
      let x := s.eng.pair
      let failed (d : Eng) (status detail : Nat) : Eng := (({ d with pair := { d.pair with
        state := .unpaired, formStep := 0, op := none, changes := [], unacked := [], buffered := []
        copyAgain := false } } : Eng).pairAnswer 0x0802 status detail).fastStartAll
      let fw := (if s.boot.runB then s.boot.b else s.boot.a).version
      (x.state = .forming → x.formStep ≤ 2 → s.eng.pwr.ctlOn = true → exec .helloTimer s = .next (s.after
        (({ e with pair := { x with helloSeq := x.helloSeq + 1 } } : Eng).emit (.pairHello (x.helloSeq + 1))))) ∧
      (x.state ≠ .forming ∨ 2 < x.formStep ∨ s.eng.pwr.ctlOn = false → exec .helloTimer s = .next (s.after e)) ∧
      (x.state = .forming → x.formStep ≤ 1 → exec .pairFormTimeout s = .next (s.after (failed e 0x08 0))) ∧
      (x.state ≠ .forming ∨ 1 < x.formStep → exec .pairFormTimeout s = .next (s.after e)) ∧
      (∀ h,
        (h.pairId.toNat ≠ x.pairId ∨ s.eng.pwr.ctlOn = false → exec (.rxHello h) s = .next (s.after e)) ∧
        (h.pairId.toNat = x.pairId → s.eng.pwr.ctlOn = true → x.state = .forming → x.formStep ≤ 2 →
          (s.eng.agrees fw h = false → exec (.rxHello h) s = .next (s.after
            (failed (({ e with free := e.free + 1 } : Eng).raiseEv (mkEv 42 .failure 3 0x8035 0 0)) 0x03
              (Config.freeValue s.eng.free % 65536)))) ∧
          (s.eng.agrees fw h = true → x.roleActive = false → exec (.rxHello h) s = .next (s.after
            { e with pair := { x with partnerId := h.engineId.toNat, formStep := 5 } })) ∧
          (s.eng.agrees fw h = true → x.roleActive = true → exec (.rxHello h) s = .next (s.after
            (let new := leaseWord (BitVec.ofNat 32 x.word.toNat + 1) 0 s.eng.off.engineId
             (({ e with pair := {
               x with partnerId := h.engineId.toNat, formStep := 3, op := some .init, opWord := new, opAt := s.eng.now } } : Eng).tal
               (x.leaseEvent 0x204 8)).emit (.leaseCas x.word new))))) ∧
        (x.state = .active ∨ x.state = .standby ∨ x.state = .unpaired → exec (.rxHello h) s = .next (s.after e))) ∧
      (∀ b : BankId,
        (x.formStep = 5 → (x.state = .activeAlone ∨ x.state = .forming ∧ x.roleActive = true) → b.val = x.copyNext → b.val ≠ 24 →
          b.val < 27 → exec (.rxCopyAck b) s = .next (s.after
            (({ e with pair := { x with copyNext := b.val + 1, copyAcked := x.copyAcked ++ [b] } } : Eng).emit
              (.pairCopy (fin 28 (b.val + 1)))))) ∧
        (x.formStep = 5 → (x.state = .activeAlone ∨ x.state = .forming ∧ x.roleActive = true) → x.copyNext = 24 → b.val = 24 →
          exec (.rxCopyAck b) s = .next (s.after ({ e with pair := { x with copyAcked := x.copyAcked ++ [b] } } : Eng).synced)) ∧
        (x.formStep ≠ 5 ∨ b.val ≠ x.copyNext → exec (.rxCopyAck b) s = .next (s.after e)))) ∧
  (
    ∀ (s : State),
      let e := s.eng.clear
      let x := s.eng.pair
      (s.eng.journals = false ∨ (x.changes = [] ∧ x.held = [] ∧ x.heldIrq = []) → exec .journalPeriod s = .next (s.after e)) ∧
      (s.eng.journals = true → x.changes ≠ [] → exec .journalPeriod s = .next (s.after
        (({ e with pair := { x with
          sent := x.sent + 1, changes := [], unacked := x.unacked ++ [(x.sent + 1, s.eng.now)] } } : Eng).emit
          (.pairJournal (x.sent + 1) x.changes)))) ∧
      (x.state = .active → x.unacked ≠ [] → exec .journalAckTimeout s = .next (s.after
        (e.raiseEv (mkEv 42 .failure 2 0x8035 0 0)).goAlone)) ∧
      (x.state ≠ .active ∨ x.unacked = [] → exec .journalAckTimeout s = .next (s.after e)) ∧
      (∀ n,
        (s.eng.journals = false ∨ (∀ r ∈ x.unacked, r.1 ≠ n) → exec (.rxJournalAck n) s = .next (s.after e)) ∧
        (s.eng.journals = true → (∃ r ∈ x.unacked, r.1 = n) → exec (.rxJournalAck n) s = .next (s.after
          (({ e with pair := { x with
            acked := n, unacked := x.unacked.filter (fun r => !decide ((n - r.1).toNat < 2147483648)) } } : Eng).releaseHeld n)))) ∧
      (∀ n ep l, x.state = .standby → s.eng.pwr.ctlOn = true → x.buffered = [] →
        (n = x.applied + 1 → exec (.rxJournal n ep l) s = .next (s.after (
          let d := e.applyAll s.budget l
          ({ d with pair := { d.pair with applied := n } } : Eng).emit (.pairJournalAck n)))) ∧
        (n = x.applied → exec (.rxJournal n ep l) s = .next (s.after e)) ∧
        (1 < (n - x.applied).toNat → (n - x.applied).toNat < 2147483648 → exec (.rxJournal n ep l) s = .next (s.after
          e.goStale))) ∧
      (∀ n ep l, s.eng.copying = true → s.eng.pwr.ctlOn = true → x.buffered = [] → n = x.applied + 1 →
        exec (.rxJournal n ep l) s = .next (s.after
          (if Config.journalRoom = 0 then e.copyOverflow n else { e with pair := { x with buffered := [(n, l)] } }))) ∧
      (∀ n ep l, x.state = .active ∨ x.state = .activeAlone ∨ x.state = .unpaired →
        exec (.rxJournal n ep l) s = .next (s.after e)) ∧
      (∀ k l last, s.eng.copying = false ∨ k.val < 4 ∨ 24 < k.val → exec (.rxCopy k l last) s = .next (s.after e)) ∧
      (∀ k l, s.eng.copying = true → s.eng.pwr.ctlOn = true → 4 ≤ k.val → k.val ≤ 24 →
        exec (.rxCopy k l false) s = .next (s.after (e.applyAll s.budget l)) ∧
        (k.val ≠ 24 → exec (.rxCopy k l true) s = .next (s.after ((e.applyAll s.budget l).emit (.pairCopyAck k))))))

/-! ### The mailbox's commands: ports and modules -/

/-- The ports and modules group's commands on ports (R67, R68, R92, R120, R122, R523). Each is judged on the request's
parameters and its issuer, takes its effect, and answers OK; answers of up to 240 bytes stand in MBX_RSP. PORT_GROUP gives
every slot its port. PORT_CONFIG, FC_CONFIG and KITTY_CONFIG write the fields of their SET block, and KITTY_OVERSUB
follows; PORT_CONFIG's ADMIN takes the port up or down, and FC_CONFIG holds every class's use against the thresholds it now
has. A change of a LOCKED field of a port that is not ADMIN_DOWN is refused with LOCKED, and headroom above KITTY_SIZE with
NO_RESOURCE. -/
def Obligations.PortSetCommands : Prop :=
  ∀ (s : State) (f : Fn) (c : Cmd) (cf : Commit), cf.fail = none →
    let e := s.eng.clear
    (e.Has f 0x0101 c → c.reqLen = 16 → firstBad (e.groupChecks c) = none → f = 0 →
      ((∀ p, e.groupKept c p = false → (e.port (e.portOf p)).state = .adminDown) →
        exec (.portGroup f cf) s = .next (s.done f c ((e.groupApply c).setOversub.answer f 0x00 0))) ∧
      (∀ p, e.groupKept c p = false → (e.port (e.portOf p)).state ≠ .adminDown →
        (∀ q, q < p → e.groupKept c q = false → (e.port (e.portOf q)).state = .adminDown) →
        exec (.portGroup f cf) s = .next (s.done f c ((e.reject f 0x0101 false 0).answer f 0x02 (32 + p.val))))) ∧
    (∀ p, e.groupKept c p = false → (((e.groupApply c).slot p).port = fin 16 (c.groupOf p.val) ∧
      (e.groupApply c).port p = if c.groupOf p.val = p.val then Port.created p (c.groupWidth p.val) else Port.reset p.val)) ∧
    (∀ p, e.groupKept c p = true → (e.groupApply c).slot p = e.slot p ∧ (e.groupApply c).port p = e.port p) ∧
    (∀ b, e.Sets f 0x0102 (fun _ => portFlds) e.portArg c b → firstBad (e.portChecks b) = none → f = 0 →
      let p : PortId := fin 16 b.object
      let x := e.port p
      (∀ l, lockedChange portFlds b (fun i => nth x.cfg i []) (fun _ => !decide (x.state = .adminDown)) = some l →
        exec (.portConfig f cf) s = .next (s.done f c ((e.reject f 0x0102 false l.idx).answer f 0x02 l.off))) ∧
      (lockedChange portFlds b (fun i => nth x.cfg i []) (fun _ => !decide (x.state = .adminDown)) = none →
        (b.bool 0 false = false ∨ ∀ q, e.portOf q = p → (e.slot q).failed = false) →
        let d := (e.setPort p (x.setCfg b)).setOversub
        let d := (if b.has 0 then (if b.bool 0 false then d.adminUp p else d.adminDown p) else d).advertise p x
        let y := d.port p
        let d := if b.has 15 = true ∧ b.bool 15 true = false then d.thinOff p else d
        exec (.portConfig f cf) s = .next (s.done f c (
          if b.has 15 = true ∧ b.bool 15 true = false ∧ y.state = .up ∧ (y.txLanes < y.width ∨ y.rxLanes < y.width) then
            (d.widen p false).answer f 0x0B 0
          else d.answer f 0x00 0)))) ∧
    (∀ b, e.Sets f 0x010B (fun _ => fcFlds) e.portArg c b → firstBad (e.fcChecks b) = none → f = 0 →
      let p : PortId := fin 16 b.object
      let x := e.port p
      let y := x.setFc b
      lockedChange fcFlds b (fun i => nth (x.fcCfg e.start.oversub) i []) (fun _ => !decide (x.state = .adminDown)) = none →
        (e.start.kittySize < (e.setPort p y).headroom → b.bool 12 false = false →
          exec (.fcConfig f cf) s = .next (s.done f c (e.answer f 0x04 0))) ∧
        ((e.setPort p y).headroom ≤ e.start.kittySize ∨ b.bool 12 false = true →
          let z : Port := if y.fcMode = x.fcMode ∧ y.lossless = x.lossless then y else { y with xoffSt := 0, released := 0 }
          exec (.fcConfig f cf) s = .next (s.done f c ((foldEng ((upTo 8).map (fin 8)) (fun d k => d.fcCheck p k false)
            (e.setPort p z)).setOversub.answer f 0x00 0)))) ∧
    (∀ b, e.Sets f 0x010C (fun _ => kittyFlds) (fun v => v == objEngine) c b → f = 0 →
      let size := b.val 0 e.start.kittySize
      lockedChange kittyFlds b (fun i => if i = 0 then [e.start.kittySize] else [])
        (fun _ => e.portList.any (fun p => !decide ((e.port p).state = .adminDown))) = none →
        (size < e.headroom → b.bool 1 false = false → exec (.kittyConfig f) s = .next (s.done f c (e.answer f 0x04 0))) ∧
        (e.headroom ≤ size ∨ b.bool 1 false = true → exec (.kittyConfig f) s = .next (s.done f c (
          ({ e with start := { e.start with kittySize := size, oversub := decide (size < e.headroom) } } : Eng).answer f 0x00 0))))

/-- The ports and modules group's reads and its commands on LLDP, subscriptions, thinning and trailers (R75, R85, R89,
R151, R275, R278, R281, R523). A read answers the state as it stands, to F0 and the functions R511 admits; CLEAR then
clears what it read. -/
def Obligations.PortStatusCommands : Prop :=
  ∀ (s : State) (f : Fn) (c : Cmd),
    let e := s.eng.clear
    let p := c.port
    let x := e.port p
    let stat : Prop := f = 0 ∨ x.statsOwner = f
    let code (k : PartnerSt) : Nat := if k = .none then 0 else if k = .present then 1 else 2
    (e.Asks f 0x0103 1 c → e.portArg (c.slot 0) = true → (f = 0 ∨ e.ownsOn f p = true) →
      exec (.portStateGet f) s = .next (s.done f c (e.respond f 0x00 0 (slotBytes
        [x.state.code, x.cause, x.changed, x.txLanes, x.rxLanes, optSlot x.ctNow.bytes?, b2n e.start.oversub, code x.partner.st])))) ∧
    (e.Asks f 0x0104 3 c → c.slot 0 < 65536 → (∀ q, q < 16 → bitAt (c.slot 0) q = true → e.portArg q = true) →
      (e.eqOf f (c.slot 1)).isSome = true → c.slot 2 < 2 →
      (f = 0 ∨ ∀ q, q < 16 → bitAt (c.slot 0) q = true → e.ownsOn f (fin 16 q) = true) →
      exec (.portEventSubscribe f) s = .next (s.done f c ((foldEng ((upTo 16).filter (fun q => bitAt (c.slot 0) q)) (fun d q =>
        d.modPort (fin 16 q) (fun y => { y with
          subs := y.subs.filter (fun k => !decide (k.1 = f)) ++ (if c.slot 2 = 1 then [(f, c.slot 1)] else []) })) e).answer f 0x00 0))) ∧
    (e.Has f 0x0109 c → c.slot 1 ≤ 512 → c.reqLen = 16 + c.slot 1 → e.portArg (c.slot 0) = true → f = 0 →
      let bs := c.bytes 16 (c.slot 1)
      let d := e.setPort p { x with lldpExtra := bs }
      exec (.lldpConfig f) s = .next (s.done f c ((if x.lldpExtra = bs then d else d.fastStart p).answer f 0x00 0))) ∧
    (e.Asks f 0x010A 1 c → e.portArg (c.slot 0) = true → stat →
      let r := x.partner
      exec (.lldpPartnerGet f) s = .next (s.done f c (e.respond f 0x00 0 (slotBytes [code r.st, r.count, r.ttl, r.time] ++
        (r.cap.map capBytes).getD (zeros 8) ++ (r.pair.map pairBytes).getD (zeros 16) ++ idBytes r.chassis ++ idBytes r.portId)))) ∧
    (e.Asks f 0x010D 2 c → e.portArg (c.slot 0) = true → c.slot 1 < 2 → stat →
      let t := x.thin
      exec (.thinStatusGet f) s = .next (s.done f c ((if c.slot 1 = 1 then e.setPort p { x with thin := {} } else e).respond f 0x00 0
        (slotBytes ([x.txLanes, x.rxLanes, x.lastSwitch] ++ (upTo 8).map (fun i => e.laneSlot (nth x.lanes i .cold)) ++
          [t.narrow, t.widen, t.rejects, t.failures, t.recoveries, t.malformed, t.hostDrops]))))) ∧
    (∀ b, e.Sets f 0x010E trailerFlds (fun v => v == objEngine || e.portArg v) c b → f = 0 →
      (b.object = objEngine → e.paired = false ∨ b.val 1 e.off.engineId = e.off.engineId →
        let id := b.val 1 e.off.engineId
        let d : Eng := { e with off := { e.off with trailerTb := fin 4 (b.val 0 e.off.trailerTb.val), engineId := id } }
        exec (.trailerConfig f) s = .next (s.done f c ((if id = e.off.engineId then d else d.fastStartAll).answer f 0x00 0))) ∧
      (b.object ≠ objEngine → (∀ r, slotOpt (b.val 2 vNone) = some r → (e.off.rings.get none r).isSome = true) →
        let q : PortId := fin 16 b.object
        let y := e.port q
        exec (.trailerConfig f) s = .next (s.done f c (((e.setPort q { y with
          trailerStrip := b.bool 0 y.trailerStrip
          trailerTcs := BitVec.ofNat 8 (b.val 1 y.trailerTcs.toNat)
          reportRing := (slotOpt (b.val 2 (optSlot (y.reportRing.map (·.val))))).map (fin 16) }).advertise q y).answer f 0x00 0)))) ∧
    (e.Asks f 0x010F 4 c → c.slot 0 < 2048 → c.slot 1 < 2 ^ 20 → c.slot 2 % 4096 = 0 → sizeOk (c.slot 3) = true → f = 0 →
      (∀ r, pickFree 5 16 ((upTo 16).filter (fun r => (e.off.rings.get none r).isSome)) = some r →
        let ring : TeleRing := { fn := fin 2048 (c.slot 0), pasid := c.slot 1, base := c.slot 2, size := c.slot 3 }
        exec (.trailerRingCreate f) s = .next (s.done f c (
          ({ e with off := { e.off with rings := e.off.rings.put none r (some ring) } } : Eng).respond f 0x00 0 (slotBytes [r])))) ∧
      ((∀ r, r < 16 → (e.off.rings.get none r).isSome = true) →
        exec (.trailerRingCreate f) s = .next (s.done f c (e.answer f 0x04 0)))) ∧
    (e.Asks f 0x0110 1 c → c.slot 0 < 16 → (e.off.rings.get none (c.slot 0)).isSome = true → f = 0 →
      ((∀ q, q ∈ e.portList → (e.port q).reportRing ≠ some (fin 16 (c.slot 0))) →
        exec (.trailerRingDestroy f) s = .next (s.done f c (
          ({ e with off := { e.off with rings := e.off.rings.put none (c.slot 0) none } } : Eng).answer f 0x00 0))) ∧
      ((∃ q, q ∈ e.portList ∧ (e.port q).reportRing = some (fin 16 (c.slot 0))) →
        exec (.trailerRingDestroy f) s = .next (s.done f c (e.answer f 0x03 32))))

/-- The ports and modules group's commands on module cages, issued by F0 (R76, R78, R79, R83, R84, R523, R525).
MODULE_RESET of a cage in FAULT or UNSUPPORTED pulses MOD_RST_N and starts the cage again from MGMT_INIT; in another state
it is INVALID. MODULE_ACCESS makes its transaction on the cage's bus and answers the bytes read; a write while a port of
the cage is not ADMIN_DOWN is LOCKED, and an empty cage, or a bus that fails, answers FAULTED; a failure while the module
is out of its cage is discarded (R77). -/
def Obligations.ModuleCommands : Prop :=
  ∀ (s : State) (f : Fn) (c : Cmd), f = 0 →
    let e := s.eng.clear
    let g := c.cage
    let k := e.cage g
    (∀ b, e.Sets f 0x0105 (fun _ => cageFlds) (fun v => decide (v < 16)) c b →
      let i : Cage := fin 16 b.object
      exec (.moduleConfig f) s = .next (s.done f c (
        (e.setCage i { e.cage i with speed := b.val 0 (e.cage i).speed }).answer f 0x00 0))) ∧
    (e.Asks f 0x0106 1 c → c.slot 0 < 16 →
      ((k.state = .fault ∨ k.state = .unsupported) → exec (.moduleReset f) s = .next (s.done f c (
        ((((e.emit (.modPulse g)).drivePins g true true).modCage g CageSt.unread).cageTo g .mgmtInit 0).answer f 0x00 0))) ∧
      (k.state ≠ .fault → k.state ≠ .unsupported → exec (.moduleReset f) s = .next (s.done f c (e.answer f 0x03 32)))) ∧
    (e.Asks f 0x0107 2 c → c.slot 0 < 16 → c.slot 1 < 2 → exec (.moduleInfoGet f) s = .next (s.done f c (
      (if c.slot 1 = 1 then e.setCage g { k with flags := 0, laneFlags := 0 } else e).respond f 0x00 0 k.infoBytes))) ∧
    (e.Has f 0x0108 c → c.slot 0 < 16 → c.slot 1 < 256 → c.slot 2 < 256 → c.slot 3 < 256 → 1 ≤ c.slot 4 → c.slot 4 ≤ 128 →
      (c.slot 5 = 0 ∧ c.reqLen = 48 ∨ c.slot 5 = 1 ∧ c.reqLen = 48 + c.slot 4) →
      let open_ : Prop := c.slot 5 = 1 → ∀ p, p ∈ e.portList → (e.port p).cage = g → (e.port p).state = .adminDown
      let d := e.emit (.modAccess g (c.slot 1) (c.slot 2) (c.slot 3) (c.slot 4) (if c.slot 5 = 1 then some (c.bytes 48 (c.slot 4)) else none))
      (∀ bus, ¬ open_ → exec (.moduleAccess f bus) s = .next (s.done f c ((e.reject f 0x0108 false 0).answer f 0x02 72))) ∧
      (∀ bus, open_ → k.state = .empty → exec (.moduleAccess f bus) s = .next (s.done f c (e.answer f 0x0D (0x20 + g.val)))) ∧
      (open_ → k.state ≠ .empty →
        (∀ bs, exec (.moduleAccess f (.done bs)) s = .next (s.done f c (
          if c.slot 5 = 1 then d.answer f 0x00 0 else d.respond f 0x00 0 (slice (bs ++ zeros 128) 0 (c.slot 4))))) ∧
        (∀ prsN, exec (.moduleAccess f (.failed prsN)) s = .next (s.done f c (
          (if prsN = false ∧ (k.state = .identify ∨ k.state = .powerUp ∨ k.state = .ready) then
            (d.fail 44 g.val mModule).cageFault g cNoMgmt else d).answer f 0x0D (0x20 + g.val))))))

/-! ### The mailbox's commands: rings, event queues, translation, profiles -/

/-- The creation and modification commands of queues, rings and event queues (R154, R161, R172, R181, R286, R526). A
creation whose fields and issuer pass takes a free number of its pool and makes an object of the fields given, the others
at their reset values, or at free values of their range where the spec gives none (R11), owned by the issuer under the
local number OBJECT; a queue is STOPPED and becomes a leaf, of its port's root where no PARENT is given. It answers the
number; an exhausted quota or pool is NO_RESOURCE. QUEUE_MODIFY writes the fields of its SET block; a change of a LOCKED
field of an object that is not STOPPED answers LOCKED and is logged.
XLT_FUNC_CONFIG, XLT_CONFIG and OFFLOAD_PROFILE_SET, issued by F0 (R196, R205, R256, R526). XLT_MODE is LOCKED while
its function is enabled; PARK_SIZE while any port is not ADMIN_DOWN; a fault wait already longer than a new FAULT_TIMEOUT
expires at once; a profile takes the fields given and keeps the others. -/
def Obligations.QueueCreationAndTranslation : Prop :=
  (
    ∀ (s : State) (f : Fn) (c : Cmd) (b : SetBlk),
      let e := s.eng.clear
      (∀ cf : Commit, cf.fail = none → e.Sets f 0x0201 (fun _ => txFlds) (fun v => decide (v < 4096) && (e.txqOf f v).isNone) c b →
        let x : Txq := (e.txBlank f b.object).setCfg b
        let up := b.val 10 (dobjCode (.root x.port))
        firstBad (e.txChecks f x b) = none → (e.attachOf ((dobjOf up).getD (.root x.port))).allows f = true →
          ((e.fn f).txqQuota ≤ e.heldTx f → exec (.txqCreate f cf) s = .next (s.done f c (e.answer f 0x04 0))) ∧
          (∀ n, e.heldTx f < (e.fn f).txqQuota → pickFree 0 32768 (e.txqList.map (·.1.val)) = some n →
            let q : TxqId := fin 32768 n
            let leaf : DObj := { live := true, port := x.port, parent := parentOf up, band := b.val 11 0, quantum := b.val 12 4096 }
            let d := e.made b txDash
            exec (.txqCreate f cf) s = .next (s.done f c (((d.setTxq q (some { x with nextFrame := d.firstFrame q })).setLeaf q leaf).respond
              f 0x00 0 (slotBytes [q.val]))))) ∧
      (e.Sets f 0x0202 (fun _ => rxFlds) (fun v => decide (v < 4096) && (e.rxqOf f v).isNone) c b →
        let x : Rxq := (e.rxBlank f b.object).setCfg b
        firstBad (e.rxChecks f x b) = none →
          ((e.fn f).rxqQuota ≤ e.heldRx f → exec (.rxqCreate f) s = .next (s.done f c (e.answer f 0x04 0))) ∧
          (∀ n, e.heldRx f < (e.fn f).rxqQuota → pickFree 1 32768 (e.rxqList.map (·.1.val)) = some n →
            exec (.rxqCreate f) s = .next (s.done f c (((e.made b rxDash).setRxq (fin 32768 n) (some x)).respond f 0x00 0 (slotBytes [n]))))) ∧
      (e.Sets f 0x0203 (fun _ => eqFlds) (fun v => decide (v < 512) && (e.eqOf f v).isNone) c b →
        let x : Evq := (e.eqBlank f b.object).setCfg b
        firstBad (e.eqChecks f x b) = none →
          ((e.fn f).eqQuota ≤ e.heldEq f → exec (.eqCreate f) s = .next (s.done f c (e.answer f 0x04 0))) ∧
          (∀ n, e.heldEq f < (e.fn f).eqQuota → pickFree 2 4096 (e.eqList.map (·.1.val)) = some n →
            exec (.eqCreate f) s = .next (s.done f c (((e.made b eqDash).setEq (fin 4096 n) (some x)).respond f 0x00 0 (slotBytes [n]))))) ∧
      (e.Sets f 0x0204 modifyFlds (fun v => (e.objOf f v).isSome) c b → firstBad (e.modifyChecks f b) = none →
        (∀ q x, e.objOf f b.object = some (.txq q) → e.txq q = some x →
          (∀ l, lockedChange txFlds b (fun i => nth (e.txCfg q x) i []) (fun _ => !decide (x.state = .stopped)) = some l →
            exec (.queueModify f) s = .next (s.done f c ((e.reject f 0x0204 false l.idx).answer f 0x02 l.off))) ∧
          (lockedChange txFlds b (fun i => nth (e.txCfg q x) i []) (fun _ => !decide (x.state = .stopped)) = none →
            exec (.queueModify f) s = .next (s.done f c ((e.setTxq q (some (x.setCfg b))).answer f 0x00 0)))) ∧
        (∀ q x, e.objOf f b.object = some (.rxq q) → e.rxq q = some x →
          (lockedChange rxFlds b (fun i => nth x.cfg i []) (fun _ => !decide (x.state = .stopped)) = none →
            exec (.queueModify f) s = .next (s.done f c ((e.setRxq q (some (x.setCfg b))).answer f 0x00 0))) ∧
          (∀ l, lockedChange rxFlds b (fun i => nth x.cfg i []) (fun _ => !decide (x.state = .stopped)) = some l →
            exec (.queueModify f) s = .next (s.done f c ((e.reject f 0x0204 false l.idx).answer f 0x02 l.off)))) ∧
        (∀ i x, e.objOf f b.object = some (.eq i) → e.eq_ i = some x →
          (lockedChange eqFlds b (fun k => nth x.cfg k []) (fun _ => true) = none →
            exec (.queueModify f) s = .next (s.done f c ((e.setEq i (some (x.setCfg b))).answer f 0x00 0))) ∧
          (∀ l, lockedChange eqFlds b (fun k => nth x.cfg k []) (fun _ => true) = some l →
            exec (.queueModify f) s = .next (s.done f c ((e.reject f 0x0204 false l.idx).answer f 0x02 l.off)))))) ∧
  (
    ∀ (s : State) (f : Fn) (c : Cmd) (b : SetBlk), f = 0 →
      let e := s.eng.clear
      (e.Sets f 0x020C (fun _ => xltFnFlds) (fun v => decide (v < 2048)) c b →
        let g : Fn := fin 2048 b.object
        let x := e.fn g
        (∀ l, lockedChange xltFnFlds b (fun _ => [b2n (!x.translated)]) (fun _ => x.enabled) = some l →
          exec (.xltFuncConfig f) s = .next (s.done f c ((e.reject f 0x020C false l.idx).answer f 0x02 l.off))) ∧
        (lockedChange xltFnFlds b (fun _ => [b2n (!x.translated)]) (fun _ => x.enabled) = none →
          exec (.xltFuncConfig f) s = .next (s.done f c (
            (e.setFn g { x with translated := !b.bool 0 (!x.translated) }).answer f 0x00 0)))) ∧
      (e.Sets f 0x020D (fun _ => xltFlds) (fun v => v == objEngine) c b →
        let up := e.portList.any (fun p => !decide ((e.port p).state = .adminDown))
        let limit := b.val 2 e.dma.faultTimeout
        (∀ l, lockedChange xltFlds b (fun _ => [e.dma.parkSize]) (fun _ => up) = some l →
          exec (.xltConfig f) s = .next (s.done f c ((e.reject f 0x020D false l.idx).answer f 0x02 l.off))) ∧
        (lockedChange xltFlds b (fun _ => [e.dma.parkSize]) (fun _ => up) = none →
          exec (.xltConfig f) s = .next (s.done f c ((foldEng
            (e.dma.waits.filter (fun w => w.run.isSome && decide (limit * 1000000 ≤ edgesNs (w.elapsed e.now))))
            (fun d w => d.faultExpiry w.obj)
            { e with dma := { e.dma with
              parkSize := b.val 0 e.dma.parkSize, parkRing := b.val 1 e.dma.parkRing, faultTimeout := limit } }).answer f 0x00 0)))) ∧
      (e.Sets f 0x020E (fun _ => profileFlds) (fun v => decide (1 ≤ v ∧ v < 256)) c b →
        let x := e.profile b.object
        let y : OffProfile :=
          { grant := Scope.ofSlot (b.val 0 x.grant.slot), l3 := b.bool 1 x.l3, l4 := b.bool 2 x.l4, inL3 := b.bool 3 x.inL3
            inL4 := b.bool 4 x.inL4, lso := b.bool 5 x.lso, outerIdInc := !b.bool 6 (!x.outerIdInc), ts80 := !b.bool 7 (!x.ts80) }
        exec (.offloadProfileSet f) s = .next (s.done f c (
          ({ e with off := { e.off with profiles := e.off.profiles.put (OffProfile.reset b.object) b.object y } } : Eng).answer f 0x00 0))))

/-- QUEUE_START, QUEUE_STOP, QUEUE_RESET, QUEUE_DESTROY, QUEUE_QUERY, QUEUE_STATS and VECTOR_MASK on an object of the
issuer's (R154, R186 to R192, R219, R526). START takes a STOPPED object to RUNNING, and is OK on a RUNNING one. STOP of a
STOPPED object is OK at once; of another it begins, and the answer waits for its end. RESET gives all progress up and
leaves the fields and the counters. DESTROY frees the numbers of an object that is STOPPED or in ERROR and that nothing
names. The answers of STOP and RESET wait for the buffers to be software's again. START of an object in another state, STOP
of one in ERROR, and DESTROY of any other are INVALID with DETAIL 32. -/
def Obligations.QueueRunCommands : Prop :=
  ∀ (s : State) (f : Fn) (c : Cmd),
    let e := s.eng.clear
    (∀ q x, e.objOf f (c.slot 0) = some (.txq q) → e.txq q = some x →
      (e.Asks f 0x0205 1 c → exec (.queueStart f) s = .next (s.done f c (
        if x.state = .stopped then ((e.txState q .running 0).txFetch q).answer f 0x00 0
        else if x.state = .running then e.answer f 0x00 0 else e.answer f 0x03 32))) ∧
      (e.Asks f 0x0206 2 c → c.slot 1 < 2 → exec (.queueStop f) s = .next (s.done f c (
        let d := if x.state = .stopping then e
          else (e.setTxq q (some { x with stopAt := x.stopEnd (c.prodOf q x.prod), stopMode := .drain })).txState q .stopping x.cause
        if x.state = .stopped then e.answer f 0x00 0 else if x.state = .error then e.answer f 0x03 32
        else (if c.slot 1 = 1 then (d.modTxq q (fun y => { y with stopMode := .flush })).txFlush q else d.txFetch q).working f))) ∧
      (e.Asks f 0x0207 1 c → exec (.queueReset f) s = .next (s.done f c (
        let d := (e.txClear q x).modTxq q Txq.fresh
        let d := if x.state = .stopped then d else d.txState q .stopped 0
        if d.objBusy (.txq q) then d.working f else d.answer f 0x00 0))) ∧
      (∀ cf : Commit, cf.fail = none → e.Asks f 0x0208 1 c →
        ((x.state = .stopped ∨ x.state = .error) → exec (.queueDestroy f cf) s = .next (s.done f c (
          (((e.txClear q x).setTxq q none).setLeaf q {}).answer f 0x00 0))) ∧
        (x.state ≠ .stopped → x.state ≠ .error → exec (.queueDestroy f cf) s = .next (s.done f c (e.answer f 0x03 32)))) ∧
      (e.Asks f 0x0209 1 c → exec (.queueQuery f) s = .next (s.done f c (e.respond f 0x00 0 (slotBytes (
        [x.state.code, x.cause, x.prod.toNat, x.cons.toNat, x.cqCount % 65536] ++
          if x.state = .paused then e.faultItems (.txq q) 0 else [0, 0, 0, 0, 0]))))) ∧
      (e.Asks f 0x020A 2 c → c.slot 1 < 2 → exec (.queueStats f) s = .next (s.done f c (
        (if c.slot 1 = 1 then e.setTxq q (some { x with txFrames := 0, txOctets := 0, txErrors := 0, rejects := 0 }) else e).respond
          f 0x00 0 (slotBytes [x.txFrames, x.txOctets, x.txErrors, x.rejects]))))) ∧
    (∀ q x, e.objOf f (c.slot 0) = some (.rxq q) → e.rxq q = some x →
      (e.Asks f 0x0205 1 c → exec (.queueStart f) s = .next (s.done f c (
        if x.state = .stopped then (((e.setRxq q (some { x with
          anchorDue := true, anchorAt := none, anchorLast := false })).rxState q .running 0).rxFetch q).answer f 0x00 0
        else if x.state = .running then e.answer f 0x00 0 else e.answer f 0x03 32))) ∧
      (e.Asks f 0x0206 2 c → c.slot 1 < 2 → exec (.queueStop f) s = .next (s.done f c (
        let d := if x.state = .stopping then e else (e.setRxq q (some { x with stopMode := .drain })).rxState q .stopping x.cause
        if x.state = .stopped then e.answer f 0x00 0 else if x.state = .error then e.answer f 0x03 32
        else (if c.slot 1 = 1 then (d.modRxq q (fun y => { y with stopMode := .flush })).rxFlush q else d).working f))) ∧
      (e.Asks f 0x0207 1 c → exec (.queueReset f) s = .next (s.done f c (
        let d := (e.rxClear q x).modRxq q Rxq.fresh
        let d := if x.state = .stopped then d else d.rxState q .stopped 0
        if d.objBusy (.rxq q) then d.working f else d.answer f 0x00 0))) ∧
      (∀ cf : Commit, e.Asks f 0x0208 1 c →
        ((x.state = .stopped ∨ x.state = .error) → e.ringNamed q x = false → exec (.queueDestroy f cf) s = .next (s.done f c (
          ((e.rxClear q x).setRxq q none).answer f 0x00 0))) ∧
        (x.state ≠ .stopped ∧ x.state ≠ .error ∨ e.ringNamed q x = true →
          exec (.queueDestroy f cf) s = .next (s.done f c (e.answer f 0x03 32)))) ∧
      (e.Asks f 0x0209 1 c → exec (.queueQuery f) s = .next (s.done f c (e.respond f 0x00 0 (slotBytes (
        [x.state.code, x.cause, x.prod.toNat, x.cons.toNat, x.cqCount % 65536] ++
          if x.state = .paused then e.faultItems (.rxq q) x.parkedBytes else [0, 0, 0, 0, 0]))))) ∧
      (e.Asks f 0x020A 2 c → c.slot 1 < 2 → exec (.queueStats f) s = .next (s.done f c (
        (if c.slot 1 = 1 then e.setRxq q (some { x with
          rxFrames := 0, rxOctets := 0, noBuffer := 0, stoppedDrops := 0, quenchDrops := 0, faultDrops := 0, rejects := 0 })
         else e).respond f 0x00 0 (slotBytes
          [x.rxFrames, x.rxOctets, x.noBuffer, x.stoppedDrops, x.quenchDrops, x.faultDrops, x.rejects]))))) ∧
    (∀ i x, e.objOf f (c.slot 0) = some (.eq i) → e.eq_ i = some x →
      (e.Asks f 0x0205 1 c → exec (.queueStart f) s = .next (s.done f c (e.answer f 0x03 32))) ∧
      (e.Asks f 0x0206 2 c → c.slot 1 < 2 → exec (.queueStop f) s = .next (s.done f c (e.answer f 0x03 32))) ∧
      (e.Asks f 0x0207 1 c → exec (.queueReset f) s = .next (s.done f c (
        let d := (e.forget (.eq i)).modEq i Evq.fresh
        if d.objBusy (.eq i) then d.working f else d.answer f 0x00 0))) ∧
      (∀ cf : Commit, e.Asks f 0x0208 1 c →
        (e.eqBound x.fn x.loc = false →
          exec (.queueDestroy f cf) s = .next (s.done f c (((e.forget (.eq i)).setEq i none).answer f 0x00 0))) ∧
        (e.eqBound x.fn x.loc = true → exec (.queueDestroy f cf) s = .next (s.done f c (e.answer f 0x03 32)))) ∧
      (e.Asks f 0x020A 2 c → c.slot 1 < 2 → exec (.queueStats f) s = .next (s.done f c (e.respond f 0x00 0 [])))) ∧
    (e.Asks f 0x020B 3 c → 1 ≤ c.slot 1 → c.slot 1 ≤ 4096 → c.slot 2 < 2 →
      (c.slot 0 + c.slot 1 ≤ (e.fn f).vecCount → exec (.vectorMask f) s = .next (s.done f c ((foldEng (upTo (c.slot 1)) (fun d i =>
        let n := (d.fn f).vecBase + (c.slot 0 + i)
        if c.slot 2 = 1 then d.setVec n { d.vec n with mask := true }
        else if (d.vec n).mask && (d.vec n).pending then
          (d.setVec n { mask := false, pending := false }).irqOut f (c.slot 0 + i)
        else d.setVec n { mask := false, pending := false }) e).answer f 0x00 0))) ∧
      ((e.fn f).vecCount < c.slot 0 + c.slot 1 → exec (.vectorMask f) s = .next (s.done f c (e.answer f 0x03 40))))

/-! ### The mailbox's commands: steering -/

/-- The steering group's commands on rules and generations, issued by F0 (R227, R232, R233, R234, R243, R527, R528).
STEER_GEN_SET and STEER_RULE_BATCH write the generation that is not active: they answer BUSY while one retires, and a batch
that changes KEY, MASK or ACTION of an entry valid in the active generation answers LOCKED and writes nothing. STEER_SWAP
makes the other generation active under the next serial, and the old one begins to retire. -/
def Obligations.SteeringRuleCommands : Prop :=
  ∀ (s : State) (f : Fn) (c : Cmd), f = 0 →
    let e := s.eng.clear
    let t := e.steer
    (∀ b, e.Sets f 0x0301 (fun _ => steerPortFlds) e.portArg c b → firstBad (e.steerPortChecks b) = none →
      let p : PortId := fin 16 b.object
      let x := e.port p
      exec (.steerPortConfig f) s = .next (s.done f c ((e.setPort p { x with
        malAction := b.val 0 x.malAction, excRing := (slotOpt (b.val 1 (excSlot x.excRing))).map refOf }).answer f 0x00 0))) ∧
    (∀ b, e.Sets f 0x0302 genFlds e.genObj c b →
      (b.object / 256 ≠ 1 ∨ b.has 2 = false →
        (t.retiring ≠ none → exec (.steerGenSet f) s = .next (s.done f c (e.answer f 0x01 0))) ∧
        (t.retiring = none → exec (.steerGenSet f) s = .next (s.done f c (
          (e.modGen (!t.activeB) (fun g => g.setItem b {})).answer f 0x00 0)))) ∧
      (∀ a, b.object / 256 = 1 → b.has 2 = true → e.missIn b = .inr a → t.retiring = none →
        exec (.steerGenSet f) s = .next (s.done f c ((e.modGen (!t.activeB) (fun g => g.setItem b a)).answer f 0x00 0)))) ∧
    (∀ rs, e.Has f 0x0303 c → 1 ≤ c.slot 0 → c.slot 0 ≤ 4096 → c.reqLen = 8 + 168 * c.slot 0 →
      e.rulesIn c (c.slot 0) 8 = .inr rs →
      (∀ cf, t.retiring ≠ none → exec (.steerRuleBatch f cf) s = .next (s.done f c (e.answer f 0x01 0))) ∧
      (∀ cf : Commit, cf.fail = none → t.retiring = none → (∀ r, r ∈ rs → e.ruleLocked r = none) →
        exec (.steerRuleBatch f cf) s = .next (s.done f c ((foldEng rs (fun d r =>
          let k := d.tcam r.entry
          let k := if r.validOnly then k else { k with key := r.key, mask := r.mask, action := r.action }
          { d with steer := { d.steer with
            tcam := d.steer.tcam.put {} r.entry (if t.activeB then { k with validA := r.valid } else { k with validB := r.valid }) } }) e).answer
              f 0x00 0))) ∧
      (∀ cf i r k, t.retiring = none → rs[i]? = some r → e.ruleLocked r = some k → (∀ j q, j < i → rs[j]? = some q → e.ruleLocked q = none) →
        exec (.steerRuleBatch f cf) s = .next (s.done f c ((e.reject f 0x0303 false 0).answer f 0x02 (detOff (40 + 168 * i + k)))))) ∧
    (e.Asks f 0x0304 0 c →
      (t.retiring ≠ none → exec (.steerSwap f) s = .next (s.done f c (e.answer f 0x01 0))) ∧
      (t.retiring = none →
        let n := t.lastSerial + 1
        let d := e.modGen (!t.activeB) (fun g => { g with serial := n })
        exec (.steerSwap f) s = .next (s.done f c ((({ d with steer := { d.steer with
          activeB := !t.activeB, lastSerial := n, retiring := some e.now, swapAt := some (e.tb0, e.now)
          swaps := sat64 (t.swaps + 1) } } : Eng).working f).retireCheck)))) ∧
    (e.Asks f 0x0305 0 c →
      let old := e.gen (!t.activeB)
      exec (.steerStatusGet f) s = .next (s.done f c (e.respond f 0x00 0 (slotBytes
        [b2n t.activeB, (e.gen t.activeB).serial.toNat, b2n t.retiring.isSome, if t.retiring.isSome then old.serial.toNat else 0,
         if t.retiring.isSome then old.count else 0, (t.swapAt.map (fun w => edgesNs (e.now - w.2))).getD 0, t.forced, t.swaps])))) ∧
    (∀ b, e.Sets f 0x0306 (fun _ => steerFlds) (fun v => v == objEngine) c b →
      exec (.steerConfig f) s = .next (s.done f c (({ e with steer := { t with
        rcircLimit := b.val 0 t.rcircLimit, streamKey := keyBytes (b.list 1 (keySlots t.streamKey))
        streamIp4t := b.bool 2 t.streamIp4t, streamInner := b.bool 3 t.streamInner } } : Eng).rcircTopUp.answer f 0x00 0)))

/-- The steering group's commands on stream groups and spreading tables (R238, R245, R527). A group takes the members
given, and frames that wait for it are placed; one that an action names cannot be left without a member. A table is made of
a free number and of entries of the pool, its OWNER or F0 sets its parts, and one that an action names cannot go.
The steering group's itemised commands and its counters (R249, R250, R251, R255, R527). Every block of POLICER_SET and
WAKE_PATTERN_SET that passes is applied, whatever becomes of the others: all of them make OK, some PARTIAL with the first
failure's offset, and the response says which. A policer given fields starts with BURST tokens. A statistics command
answers the counters as they stand, and CLEAR then clears them. -/
def Obligations.StreamsSpreadingAndPolicers : Prop :=
  (
    ∀ (s : State) (f : Fn) (c : Cmd),
      let e := s.eng.clear
      let t := e.steer
      (e.Has f 0x0307 c → f = 0 → c.slot 0 < 64 → c.slot 1 ≤ 16 → c.reqLen = 16 + 8 * c.slot 1 →
        (∀ i, i < c.slot 1 → c.slot (2 + i) = fld (c.slot (2 + i)) 0 1 + 256 * fld (c.slot (2 + i)) 8 3) →
        (c.slot 1 ≠ 0 ∨ e.groupNamed (c.slot 0) = false →
          let m := (upTo (c.slot 1)).map (fun i => ((fin 2 (fld (c.slot (2 + i)) 0 1) : Fin 2), (fin 8 (fld (c.slot (2 + i)) 8 3) : Fin 8)))
          let x := t.groups.get {} (c.slot 0)
          exec (.streamGroupSet f) s = .next (s.done f c ((Eng.pump (fin 64 (c.slot 0)) x.waiting.length
            { e with steer := { t with groups := t.groups.put {} (c.slot 0) { x with members := m } } }).answer f 0x00 0))) ∧
        (c.slot 1 = 0 → e.groupNamed (c.slot 0) = true → exec (.streamGroupSet f) s = .next (s.done f c (e.answer f 0x03 40)))) ∧
      (e.Asks f 0x0308 2 c → f = 0 → c.slot 0 < 2048 → [16, 32, 64, 128, 256, 512, 1024, 2048].contains (c.slot 1) = true →
        (32768 < e.spreadUse + c.slot 1 → exec (.spreadCreate f) s = .next (s.done f c (e.answer f 0x04 0))) ∧
        (∀ n, e.spreadUse + c.slot 1 ≤ 32768 → pickFree 4 256 ((upTo 256).filter (fun n => (t.spreads.get none n).isSome)) = some n →
          let x : Spread := { owner := fin 2048 (c.slot 0), size := c.slot 1 }
          exec (.spreadCreate f) s = .next (s.done f c (
            ({ e with steer := { t with spreads := t.spreads.put none n (some x) } } : Eng).respond f 0x00 0 (slotBytes [n]))))) ∧
      (e.Asks f 0x0309 1 c → f = 0 → c.slot 0 < 256 → (t.spreads.get none (c.slot 0)).isSome = true →
        let named := e.liveActions.any (fun a => a.ty == 2 && a.target == c.slot 0)
        (named = false → exec (.spreadDestroy f) s = .next (s.done f c (
          ({ e with steer := { t with spreads := t.spreads.put none (c.slot 0) none } } : Eng).answer f 0x00 0))) ∧
        (named = true → exec (.spreadDestroy f) s = .next (s.done f c (e.answer f 0x03 32)))) ∧
      (∀ x, e.Has f 0x030A c → c.slot 0 < 256 → t.spreads.get none (c.slot 0) = some x → c.slot 1 < 16 →
        let mask := c.slot 1
        let hash := 16 + (if bitAt mask 0 then 40 else 0)
        let inner := hash + (if bitAt mask 1 then 8 else 0)
        let first := inner + (if bitAt mask 2 then 8 else 0)
        let n := if bitAt mask 3 then c.at_ (first + 8) 64 else 0
        let ring (i : Nat) : Nat := c.at_ (first + 16 + 2 * i) 16
        c.reqLen = first + (if bitAt mask 3 then 16 + alignUp (2 * n) 8 else 0) →
        (bitAt mask 1 = true → c.at_ hash 64 < 2) → (bitAt mask 2 = true → c.at_ inner 64 < 2) →
        (bitAt mask 3 = true → n ≤ 2048 ∧ c.at_ first 64 + n ≤ x.size ∧ (∀ i, i < n → (e.rxqOf x.owner (ring i)).isSome = true) ∧
          c.at_ (first + 16 + 2 * n) (8 * (alignUp (2 * n) 8 - 2 * n)) = 0) →
        (f = 0 ∨ f = x.owner → exec (.spreadSet f) s = .next (s.done f c (({ e with steer := { t with
            spreads := t.spreads.put none (c.slot 0) (some { x with
              key := if bitAt mask 0 then c.bytes 16 40 else x.key
              ip4t := if bitAt mask 1 then c.at_ hash 64 == 1 else x.ip4t
              inner := if bitAt mask 2 then c.at_ inner 64 == 1 else x.inner
              entries := (upTo n).foldl (fun (l : Tab Nat) i => l.put 0 (c.at_ first 64 + i) (ring i)) x.entries }) } } : Eng).answer f 0x00 0))) ∧
        (f ≠ 0 → f ≠ x.owner → exec (.spreadSet f) s = .next (s.done f c (e.answer f 0x05 0))))) ∧
  (
    ∀ (s : State) (f : Fn) (c : Cmd),
      let e := s.eng.clear
      (e.Has f 0x030B c → f = 0 → spansOk c (fun _ => policerFlds) 64 0 = true →
        (∀ bs : List SetBlk, itemBlocks c policerFlds (fun v => decide (v < 4096)) 64 0 = bs.map Sum.inr →
          exec (.policerSet f) s = .next (s.done f c ((foldEng bs (fun d b =>
            let i : Fin 4096 := fin 4096 b.object
            let x := d.policer i
            let y := { x with
              rate := b.val 0 x.rate, burst := b.val 1 x.burst, lenAdj := signed 64 (b.val 2 (unsigned 64 x.lenAdj)) }
            d.setPolicer i (if b.flds = [] then y else { y with tokens := y.burst * 6250, last := 2 * d.now })) e).respond
              f 0x00 0 (slotBytes [2 ^ bs.length - 1])))) ∧
        (∀ d done k, e.items Eng.policerApply (itemBlocks c policerFlds (fun v => decide (v < 4096)) 64 0) = (d, done, some k) →
          (done ≠ 0 → exec (.policerSet f) s = .next (s.done f c (d.respond f 0x06 k (slotBytes [done])))) ∧
          (done = 0 → exec (.policerSet f) s = .next (s.done f c (e.answer f 0x03 k))))) ∧
      (e.Has f 0x030C c → f = 0 → spansOk c (fun _ => wakeFlds) 32 0 = true →
        (∀ d done, e.items Eng.wakeApply (itemBlocks c wakeFlds e.wakeObj 32 0) = (d, done, none) →
          exec (.wakePatternSet f) s = .next (s.done f c (d.respond f 0x00 0 (slotBytes [done])))) ∧
        (∀ d done k, e.items Eng.wakeApply (itemBlocks c wakeFlds e.wakeObj 32 0) = (d, done, some k) →
          (done ≠ 0 → exec (.wakePatternSet f) s = .next (s.done f c (d.respond f 0x06 k (slotBytes [done])))) ∧
          (done = 0 → exec (.wakePatternSet f) s = .next (s.done f c (e.answer f 0x03 k))))) ∧
      (∀ b, let i := 32 * fld b.object 0 4 + fld b.object 8 5
        let x := e.steer.wakePats.get {} i
        let m := if b.has 1 then ((b.list 1 []).zip (upTo 4)).foldl (fun a (v, k) => a + v * 2 ^ (64 * k)) 0 else x.mask
        (m = 0 → e.wakeApply b = .inl (b.off 1)) ∧
        (m ≠ 0 → e.wakeApply b = .inr { e with steer := { e.steer with
          wakePats := e.steer.wakePats.put {} i { enable := b.bool 0 x.enable, mask := m, check := b.val 2 x.check } } })) ∧
      (e.Asks f 0x030D 2 c → f = 0 → c.slot 0 < 4096 → c.slot 1 < 2 →
        let i : Fin 4096 := fin 4096 (c.slot 0)
        let x := e.policer i
        exec (.policerStats f) s = .next (s.done f c ((if c.slot 1 = 1 then
            e.setPolicer i { x with passFrames := 0, passOctets := 0, dropFrames := 0, dropOctets := 0 } else e).respond f 0x00 0
          (slotBytes [x.passFrames, x.passOctets, x.dropFrames, x.dropOctets])))) ∧
      (e.Asks f 0x030E 2 c → e.portArg (c.slot 0) = true → c.slot 1 < 2 → (f = 0 ∨ (e.port c.port).statsOwner = f) →
        let x := e.port c.port
        exec (.steerStats f) s = .next (s.done f c ((if c.slot 1 = 1 then e.setPort c.port { x with steer := {} } else e).respond f 0x00 0
          (slotBytes ((upTo 19).map (fun i => x.steer.get 0 i)))))))

/-! ### The mailbox's commands: Dealer, Deck and time -/

/-- The Dealer group's commands (R18, R284 to R287, R305, R310, R529). A node is made of a free number on a port, under a
parent of that port or its root, and one without children goes. DEALER_SET applies its 1 to 64 blocks in order once all of
them pass: LIVE fields at once, STAGED ones in the object's shadow, and an object that changes its PARENT or BAND joins the
tail of its new round with deficit 0. DEALER_QUERY answers an object's state and fields; the sampler takes its fields, its
sequence starting anew as it is turned on. -/
def Obligations.DealerCommands : Prop :=
  ∀ (s : State) (f : Fn) (c : Cmd),
    let e := s.eng.clear
    let dl := e.dealer
    (∀ b, e.Sets f 0x0401 (fun _ => dealerFlds) (fun v => v == objEngine) c b → f = 0 →
      let p := e.nodePort b
      (b.has 0 = true → p = fin 16 (b.val 0 0)) ∧ (
      e.isPort p = true →
      (b.has 2 = true → e.parentOk p (b.val 2 0) = true ∧ ∀ o, dobjOf (b.val 2 0) = some o → e.level 10 o < 8) →
      let used := (dl.nodes.rows.filter (fun r => r.2.live)).map (·.1)
      (pickFree 3 8192 used = none → exec (.dealerNodeCreate f) s = .next (s.done f c (e.answer f 0x04 0))) ∧
      (∀ n, pickFree 3 8192 used = some n → exec (.dealerNodeCreate f) s = .next (s.done f c (
        ((e.made b [0]).setNode (fin 8192 n) (({ live := true, port := p } : DObj).set b)).respond f 0x00 0 (slotBytes [n])))))) ∧
    (e.Asks f 0x0402 1 c → f = 0 → c.slot 0 < 8192 →
      let n : Fin 8192 := fin 8192 (c.slot 0)
      ((e.node n).live = true → e.kids (.node n) = [] → exec (.dealerNodeDestroy f) s = .next (s.done f c (
        ((e.leaveRounds (.node n)).setNode n {}).answer f 0x00 0))) ∧
      ((e.node n).live = false ∨ e.kids (.node n) ≠ [] → exec (.dealerNodeDestroy f) s = .next (s.done f c (e.answer f 0x03 32)))) ∧
    (∀ bs : List SetBlk, e.Has f 0x0403 c → parseBlocks c (fun _ => dealerFlds) (fun v => (e.dealerObj f v).isSome) 64 = .good bs →
      Eng.dealerStage f bs e = none →
      let os := bs.filterMap (fun b => (e.dealerObj f b.object).map (fun o => (o, b)))
      ((∃ r, r ∈ os ∧ e.dealerMay f r.1 r.2 = false) → ∀ cf, exec (.dealerSet f cf) s = .next (s.done f c (e.answer f 0x05 0))) ∧
      ((∀ r, r ∈ os → e.dealerMay f r.1 r.2 = true ∧
          lockedChange dealerFlds r.2 (fun i => nth (e.dealerCfg r.1) i []) (fun _ => true) = none) →
        ∀ cf : Commit, cf.fail = none →
          exec (.dealerSet f cf) s = .next (s.done f c ((foldEng os (fun d r => d.dealerApply r.1 r.2) e).answer f 0x00 0)))) ∧
    (∀ o b, (∀ p, o ≠ .root p) →
      let x := e.dobj o
      let y : DObj := { x with
        attach := Scope.ofSlot (b.val 1 x.attach.slot), parent := if b.has 2 then parentOf (b.val 2 0) else x.parent
        band := b.val 3 x.band, quantum := b.val 4 x.quantum
        shadow := if b.staged then some ((x.shadow.getD x.sh).set b) else x.shadow
        forgive := x.forgive || b.bool 9 false }
      e.dealerApply o b = if y.parent = x.parent ∧ y.band = x.band then e.setDobj o y
        else (e.leaveRounds o).setDobj o { y with deficit := 0, turn := false }) ∧
    (∀ o, e.Asks f 0x0404 2 c → c.slot 0 < 2 ^ 32 → e.dealerObj f (c.slot 0) = some o → c.slot 1 < 2 →
      (f = 0 ∨ c.slot 0 < 32768) →
      let bs := e.queryBytes f (c.slot 0) o
      (c.fits bs.length = false → exec (.dealerQuery f) s = .next (s.done f c (e.answer f 0x03 4))) ∧
      (c.fits bs.length = true → c.slot 1 = 0 ∨ f ≠ 0 →
        exec (.dealerQuery f) s = .next (s.done f c (e.respond f 0x00 0 bs))) ∧
      (c.fits bs.length = true → c.slot 1 = 1 → f = 0 → exec (.dealerQuery f) s = .next (s.done f c (
        ({ e with dealer := { dl with samplerDrops := 0, shaperResets := 0 } } : Eng).respondClear f 0x00 0 bs
          { opcode := 0x0404, object := 0, counts := [dl.samplerDrops, dl.shaperResets] })))) ∧
    (∀ b, e.Sets f 0x0405 (fun _ => samplerFlds) (fun v => v == objEngine) c b → f = 0 →
      (b.has 1 = true ∨ b.has 2 = true → b.val 1 dl.sampleFirst + b.val 2 dl.sampleCount ≤ 32768) →
      (∀ l, lockedChange samplerFlds b (fun i => nth dl.samplerCfg i []) (fun _ => dl.sampleEn) = some l →
        exec (.dealerSamplerConfig f) s = .next (s.done f c ((e.reject f 0x0405 false l.idx).answer f 0x02 l.off))) ∧
      (lockedChange samplerFlds b (fun i => nth dl.samplerCfg i []) (fun _ => dl.sampleEn) = none →
        let l := b.list 3 (nth dl.samplerCfg 3 [])
        let starts := b.bool 0 dl.sampleEn && !dl.sampleEn
        exec (.dealerSamplerConfig f) s = .next (s.done f c (({ e with dealer := { dl with
          sampleEn := b.bool 0 dl.sampleEn, sampleFirst := b.val 1 dl.sampleFirst, sampleCount := b.val 2 dl.sampleCount
          ring := if l = nth dl.samplerCfg 3 [] then dl.ring
            else { fn := fin 2048 (nth l 0 0), pasid := nth l 1 0, base := nth l 2 0, size := nth l 3 64 }
          sampleSeq := if starts then 0 else dl.sampleSeq
          sampleNext := if starts then b.val 1 dl.sampleFirst else dl.sampleNext } } : Eng).answer f 0x00 0))))

/-- The time and Deck group's commands (R334, R338, R339, R342, R344, R357, R530, R531). DECK_SET arms the list given: its
cut is the first start of one of its cycles, from its base time on, that lies at least 10 microseconds ahead; it answers
the cut. DECK_CLEAR drops an armed list and answers when the gates open; DECK_STATUS_GET answers the Deck. TS_QUEUE_READ
takes the issuer's oldest time-stamps, up to MAX, from the port's queue, or F0 everyone's, and answers how many of its own
are left. -/
def Obligations.DeckAndTimeStampCommands : Prop :=
  (∀ (l : GateList) (now : Nat), 0 < l.cycle →
    let r := l.cutAfter now
    r.2 = l.base + r.1 * l.cycle ∧ now + 10000 ≤ r.2 ∧ (∀ k, k < r.1 → l.base + k * l.cycle < now + 10000)) ∧
  ∀ (s : State) (f : Fn) (c : Cmd),
    let e := s.eng.clear
    (e.Has f 0x0501 c → firstBad (e.deckChecks c) = none →
      (f ≠ 0 → exec (.deckSet f) s = .next (s.done f c (e.answer f 0x05 0))) ∧
      (f = 0 →
        let p : PortId := fin 16 (c.at_ 0 8)
        let x := e.port p
        let l := c.gateList
        let r := l.cutAfter (e.tb l.tb).linear
        let d := e.setPort p { x with deck := { x.deck with
          admin := some l, cut := r.2, cutN := r.1
          st := if x.deck.st = .none ∨ x.deck.st = .pending then .pending else .operPending } }
        exec (.deckSet f) s = .next (s.done f c (d.respond f 0x00 0 (slotBytes (d.cutItems (d.port p).deck)))))) ∧
    (e.Asks f 0x0502 1 c → e.portArg (c.slot 0) = true → f = 0 →
      let p := c.port
      let x := e.port p
      (x.deck.oper = none → exec (.deckClear f) s = .next (s.done f c (
        (e.setPort p { x with deck := { x.deck with st := .none, admin := none, gates := 0xFF } }).respond f 0x00 0 (slotBytes [0, 0])))) ∧
      (∀ o, x.deck.oper = some o → x.deck.st ≠ .clearing →
        let a := (e.tb o.tb).linear + 10000
        let t := if o.off a = 0 then a else a + (o.cycle - o.off a)
        exec (.deckClear f) s = .next (s.done f c (
          (e.setPort p { x with deck := { x.deck with st := .clearing, admin := none, clearAt := t } }).respond f 0x00 0 (slotBytes (secNs t))))) ∧
      (∀ o, x.deck.oper = some o → x.deck.st = .clearing →
        exec (.deckClear f) s = .next (s.done f c (e.respond f 0x00 0 (slotBytes (secNs x.deck.clearAt)))))) ∧
    (e.Asks f 0x0503 2 c → e.portArg (c.slot 0) = true → c.slot 1 < 2 → (f = 0 ∨ (e.port c.port).statsOwner = f) →
      let x := e.port c.port
      let bs := e.deckBytes c.port c.indRsp
      (c.fits bs.length = false → exec (.deckStatusGet f) s = .next (s.done f c (e.answer f 0x03 4))) ∧
      (c.fits bs.length = true → c.slot 1 = 0 → exec (.deckStatusGet f) s = .next (s.done f c (e.respond f 0x00 0 bs))) ∧
      (c.fits bs.length = true → c.slot 1 = 1 → exec (.deckStatusGet f) s = .next (s.done f c (
        (e.setPort c.port { x with deck := x.deck.setCounts [] }).respondClear f 0x00 0 bs
          { opcode := 0x0503, object := c.port.val, counts := x.deck.counts })))) ∧
    (e.Asks f 0x0504 3 c → e.portArg (c.slot 0) = true → 1 ≤ c.slot 1 → c.slot 1 ≤ 15 → c.slot 2 < 2 →
      let q := e.time.tsq.get {} c.port.val
      let mine (x : TsEnt) : Bool := decide (x.fn = f) || c.slot 2 == 1
      let r := takePass mine (c.slot 1) q.ents
      (f = 0 ∨ e.txOwner f c.port = true ∧ c.slot 2 = 0 → exec (.tsQueueRead f) s = .next (s.done f c (
        ({ e with time := { e.time with tsq := e.time.tsq.put {} c.port.val { q with ents := r.2 } } } : Eng).respond f 0x00
          (r.2.filter (fun x => decide (x.fn = f))).length (r.1.flatMap TsEnt.bytes)))) ∧
      (f ≠ 0 → c.slot 2 = 1 ∨ e.txOwner f c.port = false → exec (.tsQueueRead f) s = .next (s.done f c (e.answer f 0x05 0)))) ∧
    (∀ (q : List TsEnt) (p : TsEnt → Bool) (n : Nat), (takePass p n q).1 = (q.filter p).take n ∧
      (takePass p n q).2.filter (fun x => !p x) = q.filter (fun x => !p x) ∧
      (takePass p n q).2.filter p = (q.filter p).drop n)

/-! ### The mailbox's commands: general, firmware, power, pair, statistics, Carry -/

/-- The general group's commands (R42, R58, R60, R153, R194, R477, R480, R520 to R522). FUNC_CONFIG writes a function's
fields, and first resets a function that it disables; FUNC_RESET begins with the function's admin quench. CONFIG_GET
answers the fields in effect, REJECT_LOG_GET the newest entries, COMMIT changes nothing, RESET_INFO_GET answers the
start-up record. ENG_RESET answers OK and then begins the reset, at once or after a drain, except on an ACTIVE pair member. -/
def Obligations.GeneralCommands : Prop :=
  ∀ (s : State) (f : Fn) (c : Cmd),
    let e := s.eng.clear
    (∀ b, f = 0 → e.Sets f 0x0001 (fun _ => fnFlds) (fun v => decide (v < 2048)) c b → firstBad (e.fnChecks b) = none →
      let g : Fn := fin 2048 b.object
      let x := e.fn g
      (∀ l, lockedChange fnFlds b (fun i => nth x.cfg i []) (fun _ => x.enabled) = some l →
        exec (.funcConfig f) s = .next (s.done f c ((e.reject f 0x0001 false l.idx).answer f 0x02 l.off))) ∧
      (lockedChange fnFlds b (fun i => nth x.cfg i []) (fun _ => x.enabled) = none →
        (x.enabled = true → b.bool 0 true = false →
          exec (.funcConfig f) s = .next (s.done f c ((e.working f).resetBegin g))) ∧
        (x.enabled = false ∨ b.bool 0 true = true →
          let y := x.setCfg b
          let d := e.setFn g y
          exec (.funcConfig f) s = .next (s.done f c ((if y.timeBase = x.timeBase then d
            else foldEng (e.rxqList.filter (fun r => decide (r.2.fn = g))) (fun k r =>
              k.modRxq r.1 (fun q => { q with anchorDue := true })) d).answer f 0x00 0))))) ∧
    (f = 0 → e.Asks f 0x0002 1 c →
      (1 ≤ c.slot 0 → c.slot 0 < 2048 →
        exec (.funcReset f) s = .next (s.done f c ((e.working f).resetBegin (fin 2048 (c.slot 0))))) ∧
      (c.slot 0 = 0 → exec (.funcReset f) s = .next (s.done f c (e.answer f 0x03 32)))) ∧
    (∀ l, e.Asks f 0x0003 2 c → setOps.contains (c.slot 0) = true → e.configOf f (c.slot 0) (c.slot 1) = some l →
      (configMay f (c.slot 0) (c.slot 1) = false → exec (.configGet f) s = .next (s.done f c (e.answer f 0x05 0))) ∧
      (configMay f (c.slot 0) (c.slot 1) = true →
        let bs := bytesLE 4 (c.slot 1) ++ zeros 4 ++ bytesLE 8 (2 ^ l.length - 1) ++ slotBytes l.flatten
        exec (.configGet f) s = .next (s.done f c (if c.fits bs.length then e.respond f 0x00 0 bs else e.answer f 0x03 4)))) ∧
    (f = 0 → e.Asks f 0x0004 0 c →
      let bs := (e.ctl.rejects.take (if c.indRsp then 64 else 7)).flatMap (fun x =>
        bytesLE 8 x.time ++ bytesLE 2 x.fn.val ++ zeros 2 ++ bytesLE 4 (x.what % 2 ^ 31 + 2 ^ 31 * b2n x.isReg) ++ bytesLE 2 x.field ++
          bytesLE 1 x.status ++ zeros 13)
      exec (.rejectLogGet f) s = .next (s.done f c (if c.fits bs.length then e.respond f 0x00 0 bs else e.answer f 0x03 4))) ∧
    (f = 0 → e.Asks f 0x0005 0 c → exec (.commit f) s = .next (s.done f c (e.answer f 0x00 0))) ∧
    (f = 0 → e.Asks f 0x0006 1 c → c.slot 0 < 2 →
      (e.pair.state = .active → exec (.engReset f) s = .next (s.done f c (e.answer f 0x05 0))) ∧
      (e.pair.state ≠ .active → exec (.engReset f) s = .next (s.done f c (
        if c.slot 0 = 1 then (e.answer f 0x00 0).engineReset .command else (e.answer f 0x00 0).graceful)))) ∧
    (f = 0 → e.Asks f 0x0007 0 c →
      let x := e.start
      exec (.resetInfoGet f) s = .next (s.done f c (e.respond f 0x00 0 (slotBytes (
        [x.cause.code, x.cause.source, x.started] ++ x.ends ++ [x.trial, x.tests.pbBanks.toNat, x.tests.retBanks.toNat,
          x.tests.tcam.toNat, x.tests.mems.toNat, x.tests.slots.toNat, x.tests.vectors.toNat])))))

/-- Command time limits, progress reports and the firmware group's commands (R45, R51, R52, R188, R234, R382, R386 to R390,
R535, R536). A command at its class limit ends with TIMEOUT, or with BUSY_DEBUG where a halted thread holds its path; a
queue's stop and a steering swap end with PENDING and go on. What another changed is put back: an entry that POWER_SET
alone asked for is rolled back at its next abort point, a handover that is not at its lease write is given up, and a copy
stops; nothing ends while the LCP restarts. FW_UPDATE writes the slot that does not run, FW_RESTART answers OK and the LCP
restarts, and FW_DEBUG_ENABLE sets DBG_CTRL.ENABLE where the policy allows it. -/
def Obligations.FirmwareCommands : Prop :=
  ∀ (s : State) (f : Fn) (c : Cmd),
    let e := s.eng.clear
    let st := if e.heldByDebug f then 0x09 else 0x08
    ((e.fn f).cmd = none ∨ e.ctl.ready = false → exec (.commandTimeout f) s = .next (s.after e)) ∧
    ((e.fn f).cmd = some c → e.ctl.ready = true → e.waitOf (.mbx f) = none → c.undo = none →
      (c.opcode ∉ [0x0206, 0x0304, 0x0601, 0x0802, 0x0804, 0x0805] → exec (.commandTimeout f) s = .next (s.after (e.cmdEnd f st 0))) ∧
      (c.opcode = 0x0206 → c.st = .working → st = 0x08 → exec (.commandTimeout f) s = .next (s.after (e.answer f 0x0B 0))) ∧
      (c.opcode = 0x0304 → c.st = .working → st = 0x08 → exec (.commandTimeout f) s = .next (s.after (e.swapAnswer 0x0B))) ∧
      (c.opcode = 0x0802 → c.st = .working → exec (.commandTimeout f) s = .next (s.after (e.formFail st 0))) ∧
      (c.opcode = 0x0804 → c.st = .working → exec (.commandTimeout f) s = .next (s.after (
        (if e.pair.handover = some false ∧ e.pair.state = .active ∧ e.pair.op = none then
          (e.modPair (fun x => { x with handover := none })).fetchAll else e).cmdEnd f st 0))) ∧
      (c.opcode = 0x0805 → c.st = .working → exec (.commandTimeout f) s = .next (s.after (
        (e.modPair (fun x => { x with resync := false, formStep := 0, changes := [], unacked := [], buffered := [] })).cmdEnd f st 0))) ∧
      (c.opcode = 0x0601 →
        let y := e.pwr.dropSet
        exec (.commandTimeout f) s = .next (s.after ((e.modPwr (fun x =>
          if (x.step = .e1 ∨ x.step = .e2 ∨ x.step = .e3 ∨ x.step = .e4) ∧ x.waiters = [.powerSet] then
            { y with abort := some (y.abort.getD { cause := 3 }) } else y)).cmdEnd f st 0)))) ∧
    ((e.fn f).cmd = some c → e.ctl.ready = true → c.st = .working →
      ∀ done total : BitVec 32,
        (c.opcode = 0x0601 → exec (.progressReport f done total) s = .next (s.after (
          e.progressMbx f (if e.pwr.step.code = 6 then 0 else 200 * (e.pwr.step.code - 1)) e.pwr.step.code))) ∧
        (c.opcode = 0x0802 → e.pair.formStep = 5 → 0 < total.toNat → exec (.progressReport f done total) s = .next (s.after (
          e.progressMbx f (400 + min 400 (400 * done.toNat / total.toNat)) 5))) ∧
        (c.opcode = 0x0B02 → 0 < done.toNat → done.toNat < total.toNat → exec (.progressReport f done total) s = .next (s.after (
          e.progressMbx f (100 + 800 * done.toNat / total.toNat) 2)))) ∧
    (e.Asks f 0x0B01 0 c → exec (.fwInfoGet f) s = .next (s.done f c (e.respond f 0x00 0 (slotBytes
      [s.boot.a.state.code, s.boot.a.version.toNat, s.boot.a.secVersion.toNat,
       s.boot.b.state.code, s.boot.b.version.toNat, s.boot.b.secVersion.toNat, b2n s.boot.runB])))) ∧
    (e.Has f 0x0B02 c → f = 0 →
      (∀ writeOk : Bool, c.indReq = true → 512 ≤ c.reqLen → c.at_ 12 32 ≤ 2097152 →
        let x : ImgSlot := if writeOk then
          { state := .pending, version := BitVec.ofNat 32 (c.at_ 0 32), secVersion := BitVec.ofNat 32 (c.at_ 8 32) } else {}
        exec (.fwUpdate f true true writeOk) s = .next { s.done f c (e.answer f (if writeOk then 0x00 else 0x0D) 0) with
          boot := if s.boot.runB then { s.boot with a := x } else { s.boot with b := x } }) ∧
      (∀ sigOk secOk writeOk d, firstBad [(4, c.indReq), (8, decide (512 ≤ c.reqLen)), (40, secOk),
          (44, decide (c.at_ 12 32 ≤ 2097152)), (288, sigOk)] = some d →
        exec (.fwUpdate f sigOk secOk writeOk) s = .next (s.done f c (e.answer f 0x03 d)))) ∧
    (e.Asks f 0x0B03 0 c → f = 0 →
      let d := e.answer f 0x00 0
      exec (.fwRestart f) s = .next (s.done f c { d with
        ctl := { d.ctl with ready := false, restarting := true }
        lcp := { d.lcp with
          threads := {}, chnls := {}, notices := [], lastCause := 5, restarts := d.lcp.restarts + 1, lastRestart := d.tb0 } })) ∧
    (e.Asks f 0x0B04 1 c → f = 0 → c.slot 0 < 2 → exec (.fwDebugEnable f) s = .next (s.done f c (
      if e.lcp.policy then (e.dbgEnable (c.slot 0 == 1)).answer f 0x00 0 else e.answer f 0x05 0)))

/-- The power and fault groups' commands (R414, R415, R416, R433, R532). POWER_SET of the present state answers OK at once.
A request to leave RUN is NOT_PERMITTED to a pair's member but for a standby's sleep, BUSY while a ring is held by a fault
or Carry runs firmware's requests, and BUDGET without credits; else the entry starts. POWER_STATUS_GET answers the power
registers and the issuer's lost objects, which it clears; FAULT_INFO_GET answers the fault registers at one edge. -/
def Obligations.PowerAndFaultCommands : Prop :=
  ∀ (s : State) (f : Fn) (c : Cmd),
    let e := s.eng.clear
    (e.Asks f 0x0601 1 c → f = 0 → c.slot 0 < 4 →
      let t := PwrState.ofCode (c.slot 0)
      let d := e.working f
      (d.pwr.step = .none → d.pwr.state = t → exec (.powerSet f) s = .next (s.done f c (d.pwrAnswer .powerSet 0x00 0))) ∧
      (d.pwr.step = .none → d.pwr.state = .run → t ≠ .run →
        (d.pair.state ≠ .unpaired → t = .off ∨ d.pair.state ≠ .standby ∧ d.pair.state ≠ .standbyStale →
          exec (.powerSet f) s = .next (s.done f c (d.pwrAnswer .powerSet 0x05 0))) ∧
        (d.pair.state = .unpaired → d.anyPaused = true ∧ t ≠ .off ∨ d.carryBusy = true →
          exec (.powerSet f) s = .next (s.done f c (d.pwrAnswer .powerSet 0x01 0))) ∧
        (d.pair.state = .unpaired → d.anyPaused = false ∨ t = .off → d.carryBusy = false →
          (s.budget.credits = 0 → exec (.powerSet f) s = .next (s.done f c (d.pwrAnswer .powerSet 0x0A 0))) ∧
          (0 < s.budget.credits → d.pwr.wakeAt = 0 → exec (.powerSet f) s = .next (s.done f c { d with
            pwr := { d.pwr with step := .e1, target := t, waiters := [.powerSet], abort := none, runWaiters := [], begun := false } }))))) ∧
    (e.Asks f 0x0602 1 c → c.slot 0 < 2 →
      let x := e.pwr
      let y := e.fn f
      let d := e.setFn f { y with lost := [0, 0, 0, 0, 0, 0, 0, 0] }
      (f ≠ 0 → c.slot 0 = 0 → exec (.powerStatusGet f) s = .next (s.done f c (d.respond f 0x00 0 (slotBytes (
        [x.statusReg, s.budget.reg e.now, x.last.reg, x.last.time] ++ y.lost))))) ∧
      (f = 0 → exec (.powerStatusGet f) s = .next (s.done f c (
        (if c.slot 0 = 1 then ({ d with pwr := { d.pwr with cnt := [0, 0, 0, 0, 0, 0] } } : Eng) else d).respond f 0x00 0 (slotBytes (
          [x.statusReg, s.budget.reg e.now, x.last.reg, x.last.time] ++ y.lost ++ x.retReg :: x.cnt))))) ∧
      (f ≠ 0 → c.slot 0 = 1 → exec (.powerStatusGet f) s = .next (s.done f c (e.answer f 0x05 0)))) ∧
    (e.Asks f 0x0701 0 c → f = 0 →
      let x := e.flt
      exec (.faultInfoGet f) s = .next (s.done f c (e.respond f 0x00 0 (slotBytes (
        [x.status.toNat, b2n x.multi, x.lasting.toNat, x.pbRetired.toNat, x.shadowReg, x.conseqStatus.toNat] ++ x.first.regs)))))

/-- The pair group's commands (R435, R437, R447 to R454, R532). PAIR_CONFIG writes the pair fields, some of them LOCKED in
a pair. PAIR_FORM begins to form a pair on a member of none, and is BUSY in one; PAIR_LEAVE leaves the pair;
PAIR_SWITCHOVER begins a handover on an ACTIVE member; PAIR_RESYNC starts a copy on a member without its partner in step,
given heartbeats; PAIR_WAKE sends WAKE to a gated standby; PAIR_STATUS_GET answers the pair's state. -/
def Obligations.PairCommands : Prop :=
  ∀ (s : State) (f : Fn) (c : Cmd),
    let e := s.eng.clear
    let x := e.pair
    (∀ b, f = 0 → e.Sets f 0x0801 (fun _ => pairFlds) (fun v => v == objEngine) c b →
      (∀ l, lockedChange pairFlds b (fun i => nth x.cfg i []) (fun _ => e.paired) = some l →
        exec (.pairConfig f) s = .next (s.done f c ((e.reject f 0x0801 false l.idx).answer f 0x02 l.off))) ∧
      (lockedChange pairFlds b (fun i => nth x.cfg i []) (fun _ => e.paired) = none →
        let l := b.list 2 x.lease.slots
        exec (.pairConfig f) s = .next (s.done f c (({ e with pair := { x with
          pairId := b.val 0 x.pairId, roleActive := !b.bool 1 (!x.roleActive)
          lease := if nth l 0 0 = 1 then .host (nth l 1 0) (nth l 2 0) else .chip
          failPorts := BitVec.ofNat 16 (b.val 3 x.failPorts.toNat), autoResync := b.bool 4 x.autoResync
          wakeSev := b.val 5 x.wakeSev } } : Eng).answer f 0x00 0)))) ∧
    (f = 0 → e.Asks f 0x0802 0 c →
      (e.paired = true → exec (.pairForm f) s = .next (s.done f c (e.answer f 0x01 0))) ∧
      (e.paired = false → exec (.pairForm f) s = .next (s.done f c (({ e.working f with pair := { x with
        state := .forming, formStep := 1, resync := false, copyAgain := false, changes := [], unacked := [], held := [], heldIrq := []
        buffered := [], hbLast := none, lostLink := false, seenAt := none, sent := 0, acked := 0, applied := 0, tries := 0
        partnerGated := false, wakeSent := false, handover := none } } : Eng).fastStartAll)))) ∧
    (f = 0 → e.Asks f 0x0803 0 c → exec (.pairLeave f) s = .next (s.done f c (
      (if e.paired then e.leavePair else e).answer f 0x00 0))) ∧
    (f = 0 → e.Asks f 0x0804 0 c →
      (x.state = .active → x.resync = false → e.handing = false →
        exec (.pairSwitchover f) s = .next (s.done f c ((e.working f).beginHandover false))) ∧
      (e.handing = true ∨ x.resync = true ∨ x.state = .forming → exec (.pairSwitchover f) s = .next (s.done f c (e.answer f 0x01 0))) ∧
      (x.state = .unpaired ∨ x.state = .activeAlone ∨ x.state = .fenced → x.resync = false → e.handing = false →
        exec (.pairSwitchover f) s = .next (s.done f c (e.answer f 0x05 0)))) ∧
    (f = 0 → e.Asks f 0x0805 0 c →
      (x.state = .activeAlone ∨ x.state = .standbyStale → x.resync = false → x.formStep = 0 →
        exec (.pairResync f) s = .next (s.done f c (if e.heartsLost then e.answer f 0x0D 0 else (e.working f).startResync))) ∧
      (x.state = .unpaired ∨ x.state = .active ∨ x.state = .fenced → e.handing = false →
        exec (.pairResync f) s = .next (s.done f c (e.answer f 0x00 0)))) ∧
    (f = 0 → e.Asks f 0x0806 0 c → exec (.pairWake f) s = .next (s.done f c ((
      if x.state = .activeAlone ∧ x.partnerGated = true then
        ({ e with pair := { x with wakeSent := true } } : Eng).emit .pairWake else e).answer f 0x00 0))) ∧
    (e.Asks f 0x0807 1 c → c.slot 0 < 2 →
      let l := [x.state.code, e.pairRole - 1, x.epoch.toNat, x.pairId, x.partnerId, e.journalLag, x.sent.toNat, x.acked.toNat,
        unsigned 64 x.offset]
      (f ≠ 0 → c.slot 0 = 0 → exec (.pairStatusGet f) s = .next (s.done f c (e.respond f 0x00 0 (slotBytes l)))) ∧
      (f ≠ 0 → c.slot 0 = 1 → exec (.pairStatusGet f) s = .next (s.done f c (e.answer f 0x05 0))) ∧
      (f = 0 → exec (.pairStatusGet f) s = .next (s.done f c ((if c.slot 0 = 1 then
        ({ e with pair := { x with cnt := [0, 0, 0, 0, 0, 0] } } : Eng) else e).respond f 0x00 0 (slotBytes (l ++ x.cnt))))))

/-- The statistics group's reads and the Carry group's commands (R127, R128, R219, R283, R359, R368, R372, R375, R517,
R533, R534). STATS_READ answers a port's set and clears it, the time of a pause timer that runs going on from here;
STATS_PEEK leaves it. CARRY_CLAIM and CARRY_RELEASE hand all of their channels over, or none where one is not IDLE.
CARRY_SUBMIT starts a request on a free channel within the issuer's quota; CARRY_STATUS and CARRY_ABORT name a request of
the issuer's. -/
def Obligations.StatisticsAndCarryCommands : Prop :=
  ∀ (s : State) (f : Fn) (c : Cmd),
    let e := s.eng.clear
    let p := c.port
    let stat : Prop := f = 0 ∨ (e.port p).statsOwner = f
    let i : ChId := fin 64 (c.slot 0)
    let h := e.chan i
    let hand : Prop := f = 0 ∧ 8 ≤ c.slot 0 ∧ c.slot 0 < 64 ∧ 1 ≤ c.slot 1 ∧ c.slot 0 + c.slot 1 ≤ 64
    let idle : Prop := ∀ k, k ∈ c.chans → (e.chan k).state = .idle
    let named : Prop := c.slot 0 < 64 ∧ h.grp ≠ 0 ∧ h.curReq = c.slot 1 ∧ (f = 0 ∨ h.owner = f ∧ h.submitted = true)
    (e.Asks f 0x0901 1 c → e.portArg (c.slot 0) = true → stat → exec (.statsRead f) s = .next (s.done f c (
      (e.modPort p (fun x => { x with
        stats := {}, statsReset := false
        pausedFor := (upTo 8).map (fun k => nth x.pausedFor k 0 - (e.pausedEdges p k : Int)) })).respondClear f 0x00 0
          (slotBytes ((upTo 85).map (e.statNow p) ++ [b2n (e.port p).statsReset]))
          { opcode := 0x0901, object := p.val, counts := e.statCounts p }))) ∧
    (e.Asks f 0x0902 1 c → e.portArg (c.slot 0) = true → f = 0 → exec (.statsPeek f) s = .next (s.done f c (
      e.respond f 0x00 0 (slotBytes ((upTo 85).map (e.statNow p) ++ [b2n (e.port p).statsReset]))))) ∧
    (e.Asks f 0x0903 2 c → e.portArg (c.slot 0) = true → c.slot 1 < 2 → stat → exec (.offloadStats f) s = .next (s.done f c (
      (if c.slot 1 = 1 then e.setPort p { e.port p with off := {} } else e).respond f 0x00 0 (slotBytes (e.port p).off.items)))) ∧
    (e.Asks f 0x0904 1 c → c.slot 0 < 2 → f = 0 →
      let x := e.dma.cnt
      exec (.xltStats f) s = .next (s.done f c ((if c.slot 0 = 1 then ({ e with dma := { e.dma with cnt := {} } } : Eng) else e).respond
        f 0x00 0 (slotBytes [x.lookups, x.misses, x.faults, x.pageReqs, x.failures, x.invals, x.txStomps, x.parked, x.parkHigh])))) ∧
    (∀ b, e.Sets f 0x0A01 (fun _ => [.num 0 56]) (fun v => decide (v < 2048)) c b → f = 0 →
      let g : Fn := fin 2048 b.object
      exec (.carryFuncConfig f) s = .next (s.done f c ((e.setFn g { e.fn g with chQuota := b.val 0 (e.fn g).chQuota }).answer f 0x00 0))) ∧
    (hand → e.Asks f 0x0A02 2 c →
      (idle → exec (.carryClaim f) s = .next (s.done f c ((foldEng c.chans (fun d k => d.modChan k (fun x => { x with
        claimed := true, owner := 0, submitted := false })) e).answer f 0x00 0))) ∧
      (¬ idle → exec (.carryClaim f) s = .next (s.done f c (e.answer f 0x01 0)))) ∧
    (hand → e.Asks f 0x0A03 2 c →
      (idle → exec (.carryRelease f) s = .next (s.done f c ((foldEng c.chans (fun d k => d.modChan k (fun x => { x with
        claimed := false })) e).answer f 0x00 0))) ∧
      (¬ idle → exec (.carryRelease f) s = .next (s.done f c (e.answer f 0x01 0)))) ∧
    (e.Asks f 0x0A04 9 c → c.slot 0 % 64 = 0 → c.slot 1 < 2 ^ 20 → c.slot 2 < 2 ^ 20 → c.slot 3 % 16 = 0 → c.slot 4 < 65536 →
      c.slot 5 < 4 → c.slot 6 < 2 → vecSlotOk (c.slot 7) = true → vecSlotOk (c.slot 8) = true →
      ((e.fn f).chQuota ≤ e.carryHeld f → exec (.carrySubmit f) s = .next (s.done f c (e.answer f 0x04 0))) ∧
      (∀ n, e.carryHeld f < (e.fn f).chQuota → pickFree 6 64 e.carryTaken = some n →
        let k : ChId := fin 64 n
        exec (.carrySubmit f) s = .next (s.done f c (((e.modChan k (fun x => { x with
          enable := true, fence := c.slot 6 == 1, prio := max 1 (c.slot 5), owner := f, submitted := true
          list := c.slot 0, srcPasid := c.slot 1, dstPasid := c.slot 2, compl := c.slot 3, reqId := c.slot 4
          doneVec := slotOpt (c.slot 7), errVec := slotOpt (c.slot 8)
          doneIrq := !decide (c.slot 7 = vNone), errIrq := !decide (c.slot 8 = vNone) })).carryGo k).respond f 0x00 0
            (slotBytes [n, c.slot 4]))))) ∧
    (named → e.Asks f 0x0A05 2 c → exec (.carryStatus f) s = .next (s.done f c (
      (if h.submitted = true ∧ h.owner = f then e.setChan i { h with lateErr := false } else e).respond f 0x00 0 (slotBytes
        [h.state.code, e.chanElem i, e.chanDone i, h.result, b2n h.lateErr, h.lateAddr, h.errAddr])))) ∧
    (named → e.Asks f 0x0A06 2 c → exec (.carryAbort f) s = .next (s.done f c (
      if h.state = .idle then e.answer f 0x00 0 else (e.working f).carryAbort i))) ∧
    (e.Asks f 0x0A07 1 c → c.slot 0 < 2 → f = 0 → exec (.carryStats f) s = .next (s.done f c (
      (if c.slot 0 = 1 then ({ e with carry := { e.carry with cnt := [0, 0, 0, 0, 0, 0, 0] } } : Eng) else e).respond f 0x00 0
        (slotBytes e.carry.cnt))))

/-! ### Commands that complete -/

/-- For each of the commands named here a case in which it has its own effect, under conditions on the state and the
operands alone, with the state it leaves. Register accesses (R28, R422), frames on the wire and received (R74, R88, R99,
R106, R107, R113, R118, R487), the rings' timers (R170, R175, R178, R183), answers on the DMA ports and of translation
(R197, R201, R203, R205, R492, R496), Decks (R340, R342, R344), Carry (R361, R363, R364, R370 to R373), the debugger's
port, Tally (R456, R457, R467), power and start-up (R413, R473, R474, R484), scrubbing and the journal (R442, R449). -/
def Obligations.CommandsComplete : Prop :=
  ∀ (s : State),
    let e := s.eng.clear
    -- registers
    (s.eng.Open 0 → s.eng.standby = false → s.eng.journals = false →
      (let d := s.eng.touch 0
       (∀ v : BitVec 64, exec (.registerWrite (f0Write 0x20020 v.toNat)) s =
         .next (s.after { d with pwr := { s.eng.pwr with wakeAt := v.toNat } })) ∧
       (∀ (n : TbId) (v : BitVec 64), exec (.registerWrite (f0Write (0x40028 + 0x100 * n.val) v.toNat)) s =
         .next (s.after (d.setTb n { s.eng.tb n with setSec := v.toNat }))) ∧
       exec (.registerRead (f0Write 0 0)) s = .next (s.after (d.emit (.csr 0 (BitVec.ofNat 64 engId)))) ∧
       exec (.registerRead (f0Write 0x20020 0)) s = .next (s.after (d.emit (.csr 0 (BitVec.ofNat 64 s.eng.pwr.wakeAt)))))) ∧
    (∀ v l, s.eng.Up → s.eng.standby = false → s.eng.journals = false → s.eng.ctl.stalled = (true, f0Write 0x40028 v) :: l → v < 2 ^ 64 →
      exec .stalledAccessComplete s = .next (s.after
        (({ e with ctl := { s.eng.ctl with stalled := l } } : Eng).setTb 0 { s.eng.tb 0 with setSec := v }))) ∧
    -- frames
    (∀ (p : PortId) (c : Tc) (dp : Fin 4) (seg : Fin 16) (g : GFrame) (l : List GFrame) (x : Txq) (f : TxFrame),
      (s.eng.port p).drain = 0 → s.eng.mayStart p = true → (s.eng.port p).nextTrump = none → s.eng.freePos p dp.val seg.val = true →
      nth (s.eng.port p).lists c.val [] = g :: l → (∀ k, k < 8 → k ≠ c.val → nth (s.eng.port p).lists k [] = []) →
      s.eng.txq g.q = some x → x.frame? g.frame = some f → g.need ≤ g.data.length → (s.eng.port p).paused c = false →
      (s.eng.port p).hostDrop g.data = none → x.launch f g.seg = none → (s.eng.port p).deck.st = .none →
      (s.eng.port p).deck.oper = none →
      ∃ d w, exec (.txFrameStart p dp seg) s = .next (s.after d) ∧ nth (d.port p).lists c.val [] = l ∧
        (d.port p).wire = (s.eng.port p).wire ++ [w] ∧ w.g = g ∧ w.f = f ∧ Out.txStart p g.q w.len ∈ d.outs) ∧
    (∀ (p : PortId) (w : WireFrame) (l : List WireFrame), (s.eng.port p).wire = w :: l → w.g.failed = 0 → w.orphan = false →
      (w.g.need ≤ w.g.data.length → s.eng.pwr.restOn = true → w.f.tsReq = false → w.lateSent = none →
        exec (.txFrameEnd p) s = .next (s.after (
          let (bs, bad) := e.txBytes p w
          let d := (e.popWire p w).emit (.txEnd p false bs)
          (((d.countSent p w bs bad).slotSent p w).sentWhole w false).stompAll p))) ∧
      (∀ n, w.g.data.length < w.g.need → (s.eng.port p).ctNow = .bytes n → n < 8192 →
        exec (.txUnderrun p) s = .next (s.after (
          let d := ((e.stomp p w).stat p 70 1).modPort p (fun y => { y with ct := .bytes (2 * n), ctFrames := 0 })
          ((d.stat p 84 1).retryFrame p w.g).stompAll p)))) ∧
    (∀ (p : PortId) (t : Trump) (l : List Trump), s.eng.mayStart p = true → (s.eng.port p).trump = t :: l → (∀ u ∈ l, t.rank ≤ u.rank) →
      (t = .fc ∨ (∃ ttl, t = .lldp ttl) ∨ ∃ ty m, t = .thin ty m ∧ ty < 4) → (t = .fc ∨ (s.eng.port p).fcMode ≠ .pause) →
      (s.eng.port p).trumpWait = [] → ∃ d, exec (.trumpFrameStart p) s = .next (s.after d) ∧ (d.port p).trump = l ∧
        Out.trump p (s.eng.trumpBytes p t ++ fcsBytes (s.eng.trumpBytes p t)) ∈ d.outs) ∧
    (∀ (r : RxFrame),
      (let p := s.eng.portOf r.port
       let x := s.eng.port p
       let len := r.bytes.length
       let c := x.ingress r.bytes
       let lines := linesOf (min len (x.maxFrame + 1))
       let d := s.eng.clear.wireBytes p .rx (some c) (some .host) len
       x.state = .up → s.eng.pwr.restOn = true → r.badBeat = none → s.eng.pwr.closed = false → 64 ≤ len → len ≤ x.maxFrame →
       r.err = false → r.cut = false → fcsBytes (r.bytes.take (len - 4)) = r.bytes.drop (len - 4) →
       ∀ a, d.admission p c lines = .inl a →
         (let d := ((d.chargeRx p c a lines).rxGood p (some c) r.bytes len).slotFrame p .rx clRetired (len + 20)
          (x.consumer r.bytes = .none → exec (.rxFrame r) s = .next (s.after (d.rxSteer r p c lines a false (x.hasTrailer c)))) ∧
          (x.consumer r.bytes = .mac → u16 r.bytes 14 ≠ 0x0001 → u16 r.bytes 14 ≠ 0x0101 →
            exec (.rxFrame r) s = .next (s.after ((d.stat p 51 1).freeRx p c a lines)))))) ∧
    (∀ (p : PortId) (on : Bool), exec (.txHold p on) s = .next (s.after { e with
      txHold := if on then s.eng.txHold ||| BitVec.ofNat 16 (2 ^ p.val) else s.eng.txHold &&& ~~~ BitVec.ofNat 16 (2 ^ p.val) })) ∧
    (∀ (p : PortId) (n : Nat), (s.eng.port p).ctSaf = false → 1000000 ≤ (s.eng.port p).ctFrames → (s.eng.port p).ct = .bytes n →
      (s.eng.port p).ctFloor < n → exec (.ctThresholdLower p) s = .next (s.after
        (e.setPort p { s.eng.port p with ct := .bytes (max (s.eng.port p).ctFloor (n / 2)), ctFrames := 0 }))) ∧
    -- the rings' timers
    (∀ (q : TxqId) (x : Txq) (b : Batch), s.eng.txq q = some x → x.batch = some b → x.state ≠ .error →
      ∃ d y, exec (.txBatchTimeout q) s = .next (s.after d) ∧ d.txq q = some y ∧ y.batch = none ∧ y.cqCount = x.cqCount + 1) ∧
    (∀ (q : RxqId) (x : Rxq) (o : OpenBuf), s.eng.rxq q = some x → x.cur = some o → x.packTimeout ≠ 0 → x.placed = [] →
      x.state ≠ .error → ∃ d y, exec (.packTimeout q) s = .next (s.after d) ∧ d.rxq q = some y ∧ y.cur = none ∧
        y.cons = o.buf.idx + 1 ∧ y.cqCount = x.cqCount + 1) ∧
    (∀ (q : RxqId) (x : Rxq) (b : TbId), s.eng.rxq q = some x → x.rxTs = true → x.anchorAt.isSome = true → x.anchorLast = false →
      x.state = .running → (s.eng.fn x.fn).timeBase = some b →
      ∃ d y, exec (.anchorTimer q) s = .next (s.after d) ∧ d.rxq q = some y ∧ y.anchorLast = true ∧ y.anchorAt = some s.eng.now ∧
        y.cqCount = x.cqCount + 1) ∧
    (∀ (i : EqId) (v : Evq), s.eng.eq_ i = some v → v.armed.isSome = true → v.modTime ≠ 0 → v.evs.any (·.seen) = true →
      exec (.eqModTime i) s = .next (s.after ((e.setEq i (some { v with armed := none })).irqOpt v.fn v.vector))) ∧
    -- the DMA ports and translation
    (∀ (m : Fin 4) (tag : Fin 1024) (o : Outst) (l : List Outst), s.eng.dma.outst = o :: l → o.port = m → o.tag = tag →
      s.eng.dma.queue = [] →
      (let ended : Eng := { e with dma := { s.eng.dma with outst := l, invals := s.eng.dma.invals.map (fun i =>
         { i with waits := i.waits.filter (fun k => !decide (k = (m.val, tag.val))) }) } }
       (o.acc.grp = 0 →
         exec (.dmaErrorResponse m tag) s = .next (s.after (ended.raiseEv
           (mkEv 24 .failure m.val o.acc.master (o.acc.owner.access o.acc.kind) o.acc.sent))) ∧
         exec (.dmaCompletionTimeout m tag) s = .next (s.after (ended.raiseEv
           (mkEv 25 .failure m.val o.acc.master (o.acc.owner.access o.acc.kind) o.acc.sent)))) ∧
       (∀ c b bs, o.acc.owner = .carryRead c → o.acc.kind = .read → o.acc.grp ≠ 0 → o.acc.grp = (s.eng.chan c).grp →
         (s.eng.chan c).buf = [b] → o.acc.pos = 2 * b.pos → b.b = none → bs.length = 64 →
         ∃ d, exec (.dmaReadData m tag bs) s = .next (s.after d) ∧ d.dma.outst = l ∧ (d.chan c).buf = [{ b with a := some bs }]) ∧
       (∀ c, o.acc.owner = .carryWrite c → o.acc.kind = .write → o.acc.grp ≠ 0 → o.acc.grp = (s.eng.chan c).grp →
         (s.eng.chan c).ending = none → exec (.dmaWriteDone m tag) s = .next (s.after (ended.setChan c { s.eng.chan c with
           writes := (s.eng.chan c).writes.filter (fun p => p != o.acc.pos % 2 ^ 48) }))))) ∧
    (∀ tag x, s.eng.dma.xreqs.find? (fun x => decide (x.tag = tag)) = some x → s.eng.dma.blocked = [] → s.eng.dma.waits = [] →
      (let d : DmaSt := { s.eng.dma with xreqs := s.eng.dma.xreqs.filter (fun r => !decide (r.tag = tag)) }
       (∀ pa size rd wr, exec (.translationResponse tag (.success pa size rd wr)) s = .next (s.after
         { e with dma := { d with cache := xltFill s.eng.dma.cache (xltEntry x pa.toNat size rd wr) } })) ∧
       exec (.xltRequestTimeout tag) s = .next (s.after
         (({ e with dma := d } : Eng).raiseEv (mkEv 25 .failure 0 x.fn.val 5 (x.vpn * 4096)))))) ∧
    (∀ g x ok, s.eng.dma.groups.find? (fun x => decide (x.group = g)) = some x → s.eng.dma.waits = [] → s.eng.dma.blocked = [] →
      exec (.pageResponse g ok) s = .next (s.after
        { e with dma := { s.eng.dma with groups := s.eng.dma.groups.filter (fun x => !decide (x.group = g)) } })) ∧
    (∀ tag sc, s.eng.dma.queue = [] → s.eng.dma.outst = [] → exec (.invalidate tag sc) s = .next (s.after { e with dma := {
      s.eng.dma with
        cache := s.eng.dma.cache.filter (fun x => !InvScope.hits sc x.fn x.pasid x.vpn (pageBytes x.size / 4096))
        invals := s.eng.dma.invals ++ [{ tag := tag, waits := [] }]
        cnt := { s.eng.dma.cnt with invals := sat64 (s.eng.dma.cnt.invals + 1) } } })) ∧
    (∀ tag i r, s.eng.dma.invals = i :: r → i.tag = tag → i.waits = [] → exec (.invalidationAck tag) s = .next (s.after
      (({ e with dma := { s.eng.dma with invals := r } } : Eng).emit (.invAck tag)))) ∧
    -- Decks
    (∀ (p : PortId),
      (let x := s.eng.port p
       (x.deck.st = .none → x.deck.oper = none → exec (.gateEntryChange p) s =
         .next (s.after (e.setPort p { x with deck := { x.deck with gates := 0xFF } }))) ∧
       (∀ a, x.deck.admin = some a → x.deck.oper = none → ∃ d, exec (.deckCut p) s = .next (s.after d) ∧
         (d.port p).deck.st = .operational ∧ (d.port p).deck.oper = some a ∧ (d.port p).deck.admin = none ∧
         (d.port p).deck.operFrom = x.deck.cut ∧ (d.port p).deck.cuts = sat64 (x.deck.cuts + 1)) ∧
       (x.deck.st = .clearing → exec (.deckClearPoint p) s = .next (s.after
         (e.setPort p { x with deck := { x.deck with st := .none, oper := none, gates := 0xFF } }))))) ∧
    -- Carry
    (s.eng.Open 0 → s.eng.standby = false → s.eng.journals = false →
      (∀ (c : ChId),
        (let x := s.eng.chan c
         x.claimed = true → 0 < x.prio → x.prio < 4 → x.state = .idle → x.enable = true →
         (∃ d, exec (.carryGo c) s = .next (s.after d) ∧ (d.chan c).curReq = x.reqId ∧
           (d.chan c).state = if s.eng.carry.stopped then .wait
             else if (s.eng.fn x.owner).quenched then .suspended else .validate) ∧
         ∃ d, exec (.carryDisable c) s = .next (s.after d) ∧ d.chan c = { x with enable := false })) ∧
      (s.eng.carry.stopped = true → (∀ c, (s.eng.chan c).state = .idle ∧ (s.eng.chan c).heldRec = none) →
        exec .carryResume s = .next (s.after { s.eng.touch 0 with carry := { s.eng.carry with stopped := false } }))) ∧
    (s.eng.carry.autoResume = true → s.eng.carry.stopped = true → (∀ c, (s.eng.chan c).state = .idle ∧ (s.eng.chan c).heldRec = none) →
      exec .carryAutoResume s = .next (s.after { e with carry := { s.eng.carry with stopped := false } })) ∧
    (∀ (c : ChId),
      (let x := s.eng.chan c
       (∀ l, x.state = .validate → x.ending = none → x.checked = .pass l →
         ∃ d, exec (.carryValidateDone c x.words) s = .next (s.after d) ∧ (d.chan c).state = .active ∧ (d.chan c).elems = l) ∧
       (x.state = .fencing → x.writes = [] → x.ending = none → s.eng.carry.stopped = false → s.eng.journals = false →
         s.eng.ctl.inflight = [] →
         ∃ d, exec (.carryRequestComplete c) s = .next (s.after d) ∧ (d.chan c).state = .idle ∧ (d.chan c).result = 0 ∧
           (d.chan c).done = true ∧ (d.chan c).elemIdx = x.elems.length ∧ (d.chan c).doneBytes = x.elems.foldl (fun n k => n + k.len) 0) ∧
       (∀ k, s.eng.carry.stopped = false → s.eng.dataOn = true → x.state = .active → (∀ d, d ≠ c → (s.eng.chan d).state ≠ .active) →
         x.ending = none → x.enable = true → x.prio < 4 → x.rdSecond = false → s.eng.carryWaits c = 0 → x.buf = [] →
         x.elem? x.rdElem = some k → k.op = 0 → x.rdOff + 64 < k.len →
         ∃ d, exec (.carrySlotOffer false) s = .next (s.after d) ∧ (d.chan c).rdPos = x.rdPos + 64 ∧
           (d.chan c).rdOff = x.rdOff + 64 ∧ (d.chan c).buf = [{ pos := x.rdPos, elem := x.rdElem, off := x.rdOff }]))) ∧
    -- the debugger's port
    (∀ v, s.eng.Up → exec (.dbgPortAccess 0 false v) s = .next (s.after (e.emit (.dbg 0 (BitVec.ofNat 64 (b2n s.eng.lcp.enable)))))) ∧
    -- Tally
    (s.eng.pwr.ctlOn = true →
      (s.eng.tally.freeze = true → ∃ d, exec .tallyCount s = .next (s.after d) ∧ d.tally.queue = [] ∧ ∀ k, d.tcnt k = s.eng.tcnt k) ∧
      (∀ k c, s.eng.tally.freeze = false → s.eng.tally.queue = [] → s.eng.tally.cnts.rows = [(2 * k, c)] → c.enable = true →
        c.event = 0xF01 → c.portMask = 0xFFFF → c.tcMask = 0xFF → c.dir = 0 → c.funcEn = false → c.origin = 0 → c.addrEn = false →
        c.value.toNat + 1 < 2 ^ 48 → ∃ d, exec .tallyCount s = .next (s.after d) ∧ (d.tcnt (2 * k)).value = c.value + 1) ∧
      (s.eng.tally.bwEn = true → ∃ d, exec .bwWindowBoundary s = .next (s.after d) ∧ d.tally.bw = {} ∧
        d.tally.bwMaskNow = d.tally.bwMask ∧ d.tally.bwWindowNow = d.tally.bwWindow)) ∧
    -- power and start-up
    (s.eng.drained = true → s.eng.start.due = none → s.eng.pwr.step = .e2 → s.eng.txqList = [] → s.eng.pwr.abort = none →
      exec .ringDrainDone s = .next (s.after { e with pwr := { s.eng.pwr with step := .e3 } })) ∧
    (s.eng.start.due = none → s.eng.pwr.step = .e2 → s.eng.pwr.state = .run → s.eng.pwr.waiters = [] → s.eng.pwr.runWaiters = [] →
      s.eng.pwr.pend = none → ∃ d, exec .ringDrainTimeout s = .next (s.after d) ∧ d.pwr.step = .none ∧ d.pwr.target = .run ∧
        d.pwr.closed = false) ∧
    (s.eng.start.phase = .held → exec .resetRelease s = .next (s.after { e with start := { s.eng.start with phase := .s1 } })) ∧
    (s.eng.start.phase ≠ .held → exec .refClkLoss s = .next (s.after (e.raiseEv (mkEv 41 .failure 0 0x8000 0 0)))) ∧
    (s.eng.pwr.pll = true → exec .pllLockLoss s = .next (s.after (e.raiseEv (mkEv 41 .failure 1 0x8000 0 0)))) ∧
    (∃ t, exec .resetAssert s = .next t ∧ t.budget.credits = 10000 ∧ t.boot = s.boot) ∧
    (s.eng.start.phase = .x2 → s.eng.time.holdover = none → ∃ d, exec .resetDrainDone s = .next (s.after d) ∧ d.start.phase = .s3 ∧ d.pwr.state = .run ∧
      d.pwr.ctlOn = true ∧ d.pwr.restOn = true ∧ d.pwr.retOn = true ∧ d.fns = {} ∧ d.ports = {} ∧ d.txqs = {} ∧ d.rxqs = {}) ∧
    (s.eng.start.phase = .s7 → s.eng.start.trying = false → s.eng.pwr.waiters = [] → s.eng.pwr.pend = none →
      (∀ c, (s.eng.cage c).seen = none ∧ (s.eng.cage c).irqSeen = none ∧ (s.eng.cage c).prs = false) →
      ∃ d, exec .startReady s = .next (s.after d) ∧ d.start.phase = .ready ∧ d.ctl.ready = true ∧ d.pwr.state = .run ∧
        d.pwr.step = .none) ∧
    -- scrubbing
    (∀ p, s.eng.scrubs (.dealerTree p) = true → exec (.scrub (.dealerTree p) .uncorrectable) s = .next (s.after
      ((e.setRoot p { s.eng.root p with broken := true }).raiseEv (mkEv 28 .failure p.val 0x8032 0 0)))) ∧
    -- the journal
    (∀ ep l, s.eng.pair.state = .standby → s.eng.pwr.ctlOn = true → s.eng.pair.buffered = [] →
      ∃ d, exec (.rxJournal (s.eng.pair.applied + 1) ep l) s = .next (s.after d) ∧ d.pair.applied = s.eng.pair.applied + 1 ∧
        Out.pairJournalAck (s.eng.pair.applied + 1) ∈ d.outs) ∧
    (∀ k l, s.eng.copying = true → s.eng.pwr.ctlOn = true → 4 ≤ k.val → k.val < 24 →
      ∃ d, exec (.rxCopy k l true) s = .next (s.after d) ∧ Out.pairCopyAck k ∈ d.outs)
end

