-- ==== Sys2Proof/Laws/Tables.lean ====
section
/-! SUPPORT. Tables.lean: what a read of a sparse table finds after a write, and that a write keeps the canonical form. -/
namespace Sys2Proof.Machine

theorem Tab.look_ins_same {α : Type} (l : List (Nat × α)) (k : Nat) (v : α) : Tab.look (Tab.ins l k v) k = some v := by
  induction l with
  | nil => simp [Tab.ins, Tab.look]
  | cons r t ih =>
    obtain ⟨a, w⟩ := r
    simp only [Tab.ins]
    split
    · simp [Tab.look]
    · split
      · simp [Tab.look]
      · simp [Tab.look, *]

theorem Tab.look_del_same {α : Type} (l : List (Nat × α)) (k : Nat) : Tab.look (Tab.del l k) k = none := by
  induction l with
  | nil => simp [Tab.del, Tab.look]
  | cons r t ih =>
    obtain ⟨a, w⟩ := r
    simp only [Tab.del]
    split
    · exact ih
    · simp [Tab.look, *]

theorem Tab.look_ins_other {α : Type} (l : List (Nat × α)) {k j : Nat} (v : α) (h : j ≠ k) :
    Tab.look (Tab.ins l k v) j = Tab.look l j := by
  induction l with
  | nil => simp [Tab.ins, Tab.look, h]
  | cons r t ih =>
    obtain ⟨a, w⟩ := r
    simp only [Tab.ins]
    split
    · simp [Tab.look, h]
    · split
      · subst_vars; simp [Tab.look, h]
      · simp [Tab.look, ih]

theorem Tab.look_del_other {α : Type} (l : List (Nat × α)) {k j : Nat} (h : j ≠ k) : Tab.look (Tab.del l k) j = Tab.look l j := by
  induction l with
  | nil => rfl
  | cons r t ih =>
    obtain ⟨a, w⟩ := r
    simp only [Tab.del]
    split
    · subst_vars; simp [Tab.look, h, ih]
    · simp [Tab.look, ih]

@[simp] theorem Tab.get_put_same {α : Type} [DecidableEq α] (t : Tab α) (d : α) (k : Nat) (v : α) : (t.put d k v).get d k = v := by
  unfold Tab.put Tab.get
  split
  · simp [Tab.look_del_same, *]
  · simp [Tab.look_ins_same]

theorem Tab.get_put_other {α : Type} [DecidableEq α] (t : Tab α) (d d' : α) {k j : Nat} (v : α) (h : j ≠ k) :
    (t.put d k v).get d' j = t.get d' j := by
  unfold Tab.put Tab.get
  split
  · simp [Tab.look_del_other _ h]
  · simp [Tab.look_ins_other _ v h]

theorem Tab.ins_ins {α : Type} (l : List (Nat × α)) (k : Nat) (v w : α) : Tab.ins (Tab.ins l k v) k w = Tab.ins l k w := by
  induction l with
  | nil => simp [Tab.ins]
  | cons r t ih =>
    obtain ⟨a, u⟩ := r
    simp only [Tab.ins]
    split
    · simp [Tab.ins]
    · split
      · simp [Tab.ins]
      · simp [Tab.ins, *]

/-- A value written over another, neither that of an absent key. -/
theorem Tab.put_put {α : Type} [DecidableEq α] (t : Tab α) (d : α) (k : Nat) {v w : α} (hv : v ≠ d) (hw : w ≠ d) :
    (t.put d k v).put d k w = t.put d k w := by
  simp [Tab.put, hv, hw, Tab.ins_ins]

theorem Tab.rising_mono {α : Type} {l : List (Nat × α)} {a b : Nat} (h : Tab.rising b l = true) (hab : a ≤ b) :
    Tab.rising a l = true := by
  cases l with
  | nil => rfl
  | cons r t =>
    obtain ⟨x, w⟩ := r
    simp only [Tab.rising, Bool.and_eq_true, decide_eq_true_eq] at h ⊢
    exact ⟨by omega, h.2⟩

theorem Tab.rising_del {α : Type} (l : List (Nat × α)) (k n : Nat) (h : Tab.rising n l = true) :
    Tab.rising n (Tab.del l k) = true := by
  induction l generalizing n with
  | nil => rfl
  | cons r t ih =>
    obtain ⟨a, w⟩ := r
    simp [Tab.rising] at h
    simp only [Tab.del]
    split
    · exact Tab.rising_mono (ih _ h.2) (by omega)
    · simp [Tab.rising, h.1, ih _ h.2]

theorem Tab.rising_ins {α : Type} (l : List (Nat × α)) (k n : Nat) (v : α) (h : Tab.rising n l = true) (hk : n ≤ k) :
    Tab.rising n (Tab.ins l k v) = true := by
  induction l generalizing n with
  | nil => simp [Tab.ins, Tab.rising, hk]
  | cons r t ih =>
    obtain ⟨a, w⟩ := r
    simp [Tab.rising] at h
    simp only [Tab.ins]
    split
    · simp [Tab.rising, hk, h.2]; omega
    · split
      · subst_vars; simp [Tab.rising, h]
      · simp [Tab.rising, h.1]; exact ih _ h.2 (by omega)

theorem Tab.mem_del {α : Type} {l : List (Nat × α)} {k : Nat} {r : Nat × α} (h : r ∈ Tab.del l k) : r ∈ l := by
  induction l with
  | nil => simp [Tab.del] at h
  | cons q t ih =>
    obtain ⟨a, w⟩ := q
    simp only [Tab.del] at h
    split at h
    · exact List.mem_cons_of_mem _ (ih h)
    · simp at h ⊢; exact h.imp id ih

theorem Tab.mem_ins {α : Type} {l : List (Nat × α)} {k : Nat} {v : α} {r : Nat × α} (h : r ∈ Tab.ins l k v) :
    r = (k, v) ∨ r ∈ l := by
  induction l with
  | nil => simp [Tab.ins] at h; exact .inl h
  | cons q t ih =>
    obtain ⟨a, w⟩ := q
    simp only [Tab.ins] at h
    split at h
    · simpa using h
    · split at h
      · simp at h ⊢; exact h.imp id .inr
      · simp at h ⊢
        rcases h with h | h
        · exact .inr (.inl h)
        · exact (ih h).imp id .inr

/-- A write keeps a table's canonical form. -/
theorem Tab.wf_put {α : Type} [DecidableEq α] (t : Tab α) (d : Nat → α) (k : Nat) (v : α) (h : t.wf d = true) :
    (t.put (d k) k v).wf d = true := by
  simp only [Tab.wf, Bool.and_eq_true, List.all_eq_true, decide_eq_true_eq] at h ⊢
  unfold Tab.put
  split
  · exact ⟨Tab.rising_del _ _ _ h.1, fun r hr => h.2 r (Tab.mem_del hr)⟩
  · refine ⟨Tab.rising_ins _ _ _ _ h.1 (by omega), fun r hr => ?_⟩
    rcases Tab.mem_ins hr with rfl | hr
    · assumption
    · exact h.2 r hr

end Sys2Proof.Machine
end

