-- ==== Sys2Proof/Laws/State.lean ====
section
/-! SUPPORT. State.lean: what each named update of the state leaves alone, field by field, and what a read of an object finds
after a write of one. -/
namespace Sys2Proof.Machine


@[simp] theorem Eng.setFn_frame (e : Eng) (f : Fn) (v : FnState) :
    (e.setFn f v).ctl = e.ctl ∧ (e.setFn f v).flt = e.flt ∧ (e.setFn f v).dma = e.dma ∧ (e.setFn f v).txqs = e.txqs ∧
    (e.setFn f v).rxqs = e.rxqs ∧ (e.setFn f v).eqs = e.eqs ∧ (e.setFn f v).vecs = e.vecs ∧ (e.setFn f v).irqs = e.irqs ∧
    (e.setFn f v).irqStall = e.irqStall ∧ (e.setFn f v).txHold = e.txHold ∧ (e.setFn f v).ports = e.ports ∧
    (e.setFn f v).slots = e.slots ∧ (e.setFn f v).cages = e.cages ∧ (e.setFn f v).steer = e.steer ∧
    (e.setFn f v).dealer = e.dealer ∧ (e.setFn f v).off = e.off ∧ (e.setFn f v).time = e.time ∧ (e.setFn f v).carry = e.carry ∧
    (e.setFn f v).lcp = e.lcp ∧ (e.setFn f v).pwr = e.pwr ∧ (e.setFn f v).pair = e.pair ∧ (e.setFn f v).tally = e.tally ∧
    (e.setFn f v).start = e.start ∧ (e.setFn f v).nextRx = e.nextRx ∧ (e.setFn f v).free = e.free ∧
    (e.setFn f v).outs = e.outs :=
  ⟨rfl, rfl, rfl, rfl, rfl, rfl, rfl, rfl, rfl, rfl, rfl, rfl, rfl, rfl, rfl, rfl, rfl, rfl, rfl, rfl, rfl, rfl, rfl, rfl, rfl, rfl⟩

@[simp] theorem Eng.setFn_reads (e : Eng) (f : Fn) (v : FnState) :
    (∀ t' : TxqId, (e.setFn f v).txq t' = e.txq t') ∧ (∀ r' : RxqId, (e.setFn f v).rxq r' = e.rxq r') ∧
    (∀ q' : EqId, (e.setFn f v).eq_ q' = e.eq_ q') ∧ (∀ v' : Nat, (e.setFn f v).vec v' = e.vec v') ∧
    (∀ p' : PortId, (e.setFn f v).slot p' = e.slot p') ∧ (∀ p' : PortId, (e.setFn f v).port p' = e.port p') ∧
    (∀ c' : Cage, (e.setFn f v).cage c' = e.cage c') ∧ (∀ h' : ChId, (e.setFn f v).chan h' = e.chan h') ∧
    (∀ b' : TbId, (e.setFn f v).tb b' = e.tb b') ∧ (∀ t' : ThreadId, (e.setFn f v).thread t' = e.thread t') ∧
    (∀ q' : TxqId, (e.setFn f v).leaf q' = e.leaf q') ∧ (∀ p' : PortId, (e.setFn f v).root p' = e.root p') ∧
    (∀ i' : Fin 4096, (e.setFn f v).policer i' = e.policer i') ∧ (e.setFn f v).standby = e.standby ∧
    (e.setFn f v).journals = e.journals ∧ (e.setFn f v).handing = e.handing ∧ (e.setFn f v).now = e.now ∧
    (e.setFn f v).tb0 = e.tb0 ∧ (e.setFn f v).collecting = e.collecting :=
  ⟨fun _ => rfl, fun _ => rfl, fun _ => rfl, fun _ => rfl, fun _ => rfl, fun _ => rfl, fun _ => rfl, fun _ => rfl, fun _ => rfl, fun _ => rfl, fun _ => rfl, fun _ => rfl, fun _ => rfl, rfl, rfl, rfl, rfl, rfl, rfl⟩

@[simp] theorem Eng.modFn_frame (e : Eng) (f : Fn) (g : FnState → FnState) :
    (e.modFn f g).ctl = e.ctl ∧ (e.modFn f g).flt = e.flt ∧ (e.modFn f g).dma = e.dma ∧ (e.modFn f g).txqs = e.txqs ∧
    (e.modFn f g).rxqs = e.rxqs ∧ (e.modFn f g).eqs = e.eqs ∧ (e.modFn f g).vecs = e.vecs ∧ (e.modFn f g).irqs = e.irqs ∧
    (e.modFn f g).irqStall = e.irqStall ∧ (e.modFn f g).txHold = e.txHold ∧ (e.modFn f g).ports = e.ports ∧
    (e.modFn f g).slots = e.slots ∧ (e.modFn f g).cages = e.cages ∧ (e.modFn f g).steer = e.steer ∧
    (e.modFn f g).dealer = e.dealer ∧ (e.modFn f g).off = e.off ∧ (e.modFn f g).time = e.time ∧ (e.modFn f g).carry = e.carry ∧
    (e.modFn f g).lcp = e.lcp ∧ (e.modFn f g).pwr = e.pwr ∧ (e.modFn f g).pair = e.pair ∧ (e.modFn f g).tally = e.tally ∧
    (e.modFn f g).start = e.start ∧ (e.modFn f g).nextRx = e.nextRx ∧ (e.modFn f g).free = e.free ∧
    (e.modFn f g).outs = e.outs :=
  ⟨rfl, rfl, rfl, rfl, rfl, rfl, rfl, rfl, rfl, rfl, rfl, rfl, rfl, rfl, rfl, rfl, rfl, rfl, rfl, rfl, rfl, rfl, rfl, rfl, rfl, rfl⟩

@[simp] theorem Eng.modFn_reads (e : Eng) (f : Fn) (g : FnState → FnState) :
    (∀ t' : TxqId, (e.modFn f g).txq t' = e.txq t') ∧ (∀ r' : RxqId, (e.modFn f g).rxq r' = e.rxq r') ∧
    (∀ q' : EqId, (e.modFn f g).eq_ q' = e.eq_ q') ∧ (∀ v' : Nat, (e.modFn f g).vec v' = e.vec v') ∧
    (∀ p' : PortId, (e.modFn f g).slot p' = e.slot p') ∧ (∀ p' : PortId, (e.modFn f g).port p' = e.port p') ∧
    (∀ c' : Cage, (e.modFn f g).cage c' = e.cage c') ∧ (∀ h' : ChId, (e.modFn f g).chan h' = e.chan h') ∧
    (∀ b' : TbId, (e.modFn f g).tb b' = e.tb b') ∧ (∀ t' : ThreadId, (e.modFn f g).thread t' = e.thread t') ∧
    (∀ q' : TxqId, (e.modFn f g).leaf q' = e.leaf q') ∧ (∀ p' : PortId, (e.modFn f g).root p' = e.root p') ∧
    (∀ i' : Fin 4096, (e.modFn f g).policer i' = e.policer i') ∧ (e.modFn f g).standby = e.standby ∧
    (e.modFn f g).journals = e.journals ∧ (e.modFn f g).handing = e.handing ∧ (e.modFn f g).now = e.now ∧
    (e.modFn f g).tb0 = e.tb0 ∧ (e.modFn f g).collecting = e.collecting :=
  ⟨fun _ => rfl, fun _ => rfl, fun _ => rfl, fun _ => rfl, fun _ => rfl, fun _ => rfl, fun _ => rfl, fun _ => rfl, fun _ => rfl, fun _ => rfl, fun _ => rfl, fun _ => rfl, fun _ => rfl, rfl, rfl, rfl, rfl, rfl, rfl⟩

@[simp] theorem Eng.setTxq_frame (e : Eng) (q : TxqId) (v : Option Txq) :
    (e.setTxq q v).fns = e.fns ∧ (e.setTxq q v).ctl = e.ctl ∧ (e.setTxq q v).flt = e.flt ∧ (e.setTxq q v).dma = e.dma ∧
    (e.setTxq q v).rxqs = e.rxqs ∧ (e.setTxq q v).eqs = e.eqs ∧ (e.setTxq q v).vecs = e.vecs ∧ (e.setTxq q v).irqs = e.irqs ∧
    (e.setTxq q v).irqStall = e.irqStall ∧ (e.setTxq q v).txHold = e.txHold ∧ (e.setTxq q v).ports = e.ports ∧
    (e.setTxq q v).slots = e.slots ∧ (e.setTxq q v).cages = e.cages ∧ (e.setTxq q v).steer = e.steer ∧
    (e.setTxq q v).dealer = e.dealer ∧ (e.setTxq q v).off = e.off ∧ (e.setTxq q v).time = e.time ∧
    (e.setTxq q v).carry = e.carry ∧ (e.setTxq q v).lcp = e.lcp ∧ (e.setTxq q v).pwr = e.pwr ∧ (e.setTxq q v).pair = e.pair ∧
    (e.setTxq q v).tally = e.tally ∧ (e.setTxq q v).start = e.start ∧ (e.setTxq q v).nextRx = e.nextRx ∧
    (e.setTxq q v).free = e.free ∧ (e.setTxq q v).outs = e.outs :=
  ⟨rfl, rfl, rfl, rfl, rfl, rfl, rfl, rfl, rfl, rfl, rfl, rfl, rfl, rfl, rfl, rfl, rfl, rfl, rfl, rfl, rfl, rfl, rfl, rfl, rfl, rfl⟩

@[simp] theorem Eng.setTxq_reads (e : Eng) (q : TxqId) (v : Option Txq) :
    (∀ f' : Fn, (e.setTxq q v).fn f' = e.fn f') ∧ (∀ r' : RxqId, (e.setTxq q v).rxq r' = e.rxq r') ∧
    (∀ q' : EqId, (e.setTxq q v).eq_ q' = e.eq_ q') ∧ (∀ v' : Nat, (e.setTxq q v).vec v' = e.vec v') ∧
    (∀ p' : PortId, (e.setTxq q v).slot p' = e.slot p') ∧ (∀ p' : PortId, (e.setTxq q v).port p' = e.port p') ∧
    (∀ c' : Cage, (e.setTxq q v).cage c' = e.cage c') ∧ (∀ h' : ChId, (e.setTxq q v).chan h' = e.chan h') ∧
    (∀ b' : TbId, (e.setTxq q v).tb b' = e.tb b') ∧ (∀ t' : ThreadId, (e.setTxq q v).thread t' = e.thread t') ∧
    (∀ q' : TxqId, (e.setTxq q v).leaf q' = e.leaf q') ∧ (∀ p' : PortId, (e.setTxq q v).root p' = e.root p') ∧
    (∀ i' : Fin 4096, (e.setTxq q v).policer i' = e.policer i') ∧ (e.setTxq q v).standby = e.standby ∧
    (e.setTxq q v).journals = e.journals ∧ (e.setTxq q v).handing = e.handing ∧ (e.setTxq q v).now = e.now ∧
    (e.setTxq q v).tb0 = e.tb0 ∧ (e.setTxq q v).collecting = e.collecting :=
  ⟨fun _ => rfl, fun _ => rfl, fun _ => rfl, fun _ => rfl, fun _ => rfl, fun _ => rfl, fun _ => rfl, fun _ => rfl, fun _ => rfl, fun _ => rfl, fun _ => rfl, fun _ => rfl, fun _ => rfl, rfl, rfl, rfl, rfl, rfl, rfl⟩

@[simp] theorem Eng.modTxq_frame (e : Eng) (q : TxqId) (g : Txq → Txq) :
    (e.modTxq q g).fns = e.fns ∧ (e.modTxq q g).ctl = e.ctl ∧ (e.modTxq q g).flt = e.flt ∧ (e.modTxq q g).dma = e.dma ∧
    (e.modTxq q g).rxqs = e.rxqs ∧ (e.modTxq q g).eqs = e.eqs ∧ (e.modTxq q g).vecs = e.vecs ∧ (e.modTxq q g).irqs = e.irqs ∧
    (e.modTxq q g).irqStall = e.irqStall ∧ (e.modTxq q g).txHold = e.txHold ∧ (e.modTxq q g).ports = e.ports ∧
    (e.modTxq q g).slots = e.slots ∧ (e.modTxq q g).cages = e.cages ∧ (e.modTxq q g).steer = e.steer ∧
    (e.modTxq q g).dealer = e.dealer ∧ (e.modTxq q g).off = e.off ∧ (e.modTxq q g).time = e.time ∧
    (e.modTxq q g).carry = e.carry ∧ (e.modTxq q g).lcp = e.lcp ∧ (e.modTxq q g).pwr = e.pwr ∧ (e.modTxq q g).pair = e.pair ∧
    (e.modTxq q g).tally = e.tally ∧ (e.modTxq q g).start = e.start ∧ (e.modTxq q g).nextRx = e.nextRx ∧
    (e.modTxq q g).free = e.free ∧ (e.modTxq q g).outs = e.outs :=
  ⟨rfl, rfl, rfl, rfl, rfl, rfl, rfl, rfl, rfl, rfl, rfl, rfl, rfl, rfl, rfl, rfl, rfl, rfl, rfl, rfl, rfl, rfl, rfl, rfl, rfl, rfl⟩

@[simp] theorem Eng.modTxq_reads (e : Eng) (q : TxqId) (g : Txq → Txq) :
    (∀ f' : Fn, (e.modTxq q g).fn f' = e.fn f') ∧ (∀ r' : RxqId, (e.modTxq q g).rxq r' = e.rxq r') ∧
    (∀ q' : EqId, (e.modTxq q g).eq_ q' = e.eq_ q') ∧ (∀ v' : Nat, (e.modTxq q g).vec v' = e.vec v') ∧
    (∀ p' : PortId, (e.modTxq q g).slot p' = e.slot p') ∧ (∀ p' : PortId, (e.modTxq q g).port p' = e.port p') ∧
    (∀ c' : Cage, (e.modTxq q g).cage c' = e.cage c') ∧ (∀ h' : ChId, (e.modTxq q g).chan h' = e.chan h') ∧
    (∀ b' : TbId, (e.modTxq q g).tb b' = e.tb b') ∧ (∀ t' : ThreadId, (e.modTxq q g).thread t' = e.thread t') ∧
    (∀ q' : TxqId, (e.modTxq q g).leaf q' = e.leaf q') ∧ (∀ p' : PortId, (e.modTxq q g).root p' = e.root p') ∧
    (∀ i' : Fin 4096, (e.modTxq q g).policer i' = e.policer i') ∧ (e.modTxq q g).standby = e.standby ∧
    (e.modTxq q g).journals = e.journals ∧ (e.modTxq q g).handing = e.handing ∧ (e.modTxq q g).now = e.now ∧
    (e.modTxq q g).tb0 = e.tb0 ∧ (e.modTxq q g).collecting = e.collecting :=
  ⟨fun _ => rfl, fun _ => rfl, fun _ => rfl, fun _ => rfl, fun _ => rfl, fun _ => rfl, fun _ => rfl, fun _ => rfl, fun _ => rfl, fun _ => rfl, fun _ => rfl, fun _ => rfl, fun _ => rfl, rfl, rfl, rfl, rfl, rfl, rfl⟩

@[simp] theorem Eng.setRxq_frame (e : Eng) (q : RxqId) (v : Option Rxq) :
    (e.setRxq q v).fns = e.fns ∧ (e.setRxq q v).ctl = e.ctl ∧ (e.setRxq q v).flt = e.flt ∧ (e.setRxq q v).dma = e.dma ∧
    (e.setRxq q v).txqs = e.txqs ∧ (e.setRxq q v).eqs = e.eqs ∧ (e.setRxq q v).vecs = e.vecs ∧ (e.setRxq q v).irqs = e.irqs ∧
    (e.setRxq q v).irqStall = e.irqStall ∧ (e.setRxq q v).txHold = e.txHold ∧ (e.setRxq q v).ports = e.ports ∧
    (e.setRxq q v).slots = e.slots ∧ (e.setRxq q v).cages = e.cages ∧ (e.setRxq q v).steer = e.steer ∧
    (e.setRxq q v).dealer = e.dealer ∧ (e.setRxq q v).off = e.off ∧ (e.setRxq q v).time = e.time ∧
    (e.setRxq q v).carry = e.carry ∧ (e.setRxq q v).lcp = e.lcp ∧ (e.setRxq q v).pwr = e.pwr ∧ (e.setRxq q v).pair = e.pair ∧
    (e.setRxq q v).tally = e.tally ∧ (e.setRxq q v).start = e.start ∧ (e.setRxq q v).nextRx = e.nextRx ∧
    (e.setRxq q v).free = e.free ∧ (e.setRxq q v).outs = e.outs :=
  ⟨rfl, rfl, rfl, rfl, rfl, rfl, rfl, rfl, rfl, rfl, rfl, rfl, rfl, rfl, rfl, rfl, rfl, rfl, rfl, rfl, rfl, rfl, rfl, rfl, rfl, rfl⟩

@[simp] theorem Eng.setRxq_reads (e : Eng) (q : RxqId) (v : Option Rxq) :
    (∀ f' : Fn, (e.setRxq q v).fn f' = e.fn f') ∧ (∀ t' : TxqId, (e.setRxq q v).txq t' = e.txq t') ∧
    (∀ q' : EqId, (e.setRxq q v).eq_ q' = e.eq_ q') ∧ (∀ v' : Nat, (e.setRxq q v).vec v' = e.vec v') ∧
    (∀ p' : PortId, (e.setRxq q v).slot p' = e.slot p') ∧ (∀ p' : PortId, (e.setRxq q v).port p' = e.port p') ∧
    (∀ c' : Cage, (e.setRxq q v).cage c' = e.cage c') ∧ (∀ h' : ChId, (e.setRxq q v).chan h' = e.chan h') ∧
    (∀ b' : TbId, (e.setRxq q v).tb b' = e.tb b') ∧ (∀ t' : ThreadId, (e.setRxq q v).thread t' = e.thread t') ∧
    (∀ q' : TxqId, (e.setRxq q v).leaf q' = e.leaf q') ∧ (∀ p' : PortId, (e.setRxq q v).root p' = e.root p') ∧
    (∀ i' : Fin 4096, (e.setRxq q v).policer i' = e.policer i') ∧ (e.setRxq q v).standby = e.standby ∧
    (e.setRxq q v).journals = e.journals ∧ (e.setRxq q v).handing = e.handing ∧ (e.setRxq q v).now = e.now ∧
    (e.setRxq q v).tb0 = e.tb0 ∧ (e.setRxq q v).collecting = e.collecting :=
  ⟨fun _ => rfl, fun _ => rfl, fun _ => rfl, fun _ => rfl, fun _ => rfl, fun _ => rfl, fun _ => rfl, fun _ => rfl, fun _ => rfl, fun _ => rfl, fun _ => rfl, fun _ => rfl, fun _ => rfl, rfl, rfl, rfl, rfl, rfl, rfl⟩

@[simp] theorem Eng.modRxq_frame (e : Eng) (q : RxqId) (g : Rxq → Rxq) :
    (e.modRxq q g).fns = e.fns ∧ (e.modRxq q g).ctl = e.ctl ∧ (e.modRxq q g).flt = e.flt ∧ (e.modRxq q g).dma = e.dma ∧
    (e.modRxq q g).txqs = e.txqs ∧ (e.modRxq q g).eqs = e.eqs ∧ (e.modRxq q g).vecs = e.vecs ∧ (e.modRxq q g).irqs = e.irqs ∧
    (e.modRxq q g).irqStall = e.irqStall ∧ (e.modRxq q g).txHold = e.txHold ∧ (e.modRxq q g).ports = e.ports ∧
    (e.modRxq q g).slots = e.slots ∧ (e.modRxq q g).cages = e.cages ∧ (e.modRxq q g).steer = e.steer ∧
    (e.modRxq q g).dealer = e.dealer ∧ (e.modRxq q g).off = e.off ∧ (e.modRxq q g).time = e.time ∧
    (e.modRxq q g).carry = e.carry ∧ (e.modRxq q g).lcp = e.lcp ∧ (e.modRxq q g).pwr = e.pwr ∧ (e.modRxq q g).pair = e.pair ∧
    (e.modRxq q g).tally = e.tally ∧ (e.modRxq q g).start = e.start ∧ (e.modRxq q g).nextRx = e.nextRx ∧
    (e.modRxq q g).free = e.free ∧ (e.modRxq q g).outs = e.outs :=
  ⟨rfl, rfl, rfl, rfl, rfl, rfl, rfl, rfl, rfl, rfl, rfl, rfl, rfl, rfl, rfl, rfl, rfl, rfl, rfl, rfl, rfl, rfl, rfl, rfl, rfl, rfl⟩

@[simp] theorem Eng.modRxq_reads (e : Eng) (q : RxqId) (g : Rxq → Rxq) :
    (∀ f' : Fn, (e.modRxq q g).fn f' = e.fn f') ∧ (∀ t' : TxqId, (e.modRxq q g).txq t' = e.txq t') ∧
    (∀ q' : EqId, (e.modRxq q g).eq_ q' = e.eq_ q') ∧ (∀ v' : Nat, (e.modRxq q g).vec v' = e.vec v') ∧
    (∀ p' : PortId, (e.modRxq q g).slot p' = e.slot p') ∧ (∀ p' : PortId, (e.modRxq q g).port p' = e.port p') ∧
    (∀ c' : Cage, (e.modRxq q g).cage c' = e.cage c') ∧ (∀ h' : ChId, (e.modRxq q g).chan h' = e.chan h') ∧
    (∀ b' : TbId, (e.modRxq q g).tb b' = e.tb b') ∧ (∀ t' : ThreadId, (e.modRxq q g).thread t' = e.thread t') ∧
    (∀ q' : TxqId, (e.modRxq q g).leaf q' = e.leaf q') ∧ (∀ p' : PortId, (e.modRxq q g).root p' = e.root p') ∧
    (∀ i' : Fin 4096, (e.modRxq q g).policer i' = e.policer i') ∧ (e.modRxq q g).standby = e.standby ∧
    (e.modRxq q g).journals = e.journals ∧ (e.modRxq q g).handing = e.handing ∧ (e.modRxq q g).now = e.now ∧
    (e.modRxq q g).tb0 = e.tb0 ∧ (e.modRxq q g).collecting = e.collecting :=
  ⟨fun _ => rfl, fun _ => rfl, fun _ => rfl, fun _ => rfl, fun _ => rfl, fun _ => rfl, fun _ => rfl, fun _ => rfl, fun _ => rfl, fun _ => rfl, fun _ => rfl, fun _ => rfl, fun _ => rfl, rfl, rfl, rfl, rfl, rfl, rfl⟩

@[simp] theorem Eng.setEq_frame (e : Eng) (q : EqId) (v : Option Evq) :
    (e.setEq q v).fns = e.fns ∧ (e.setEq q v).ctl = e.ctl ∧ (e.setEq q v).flt = e.flt ∧ (e.setEq q v).dma = e.dma ∧
    (e.setEq q v).txqs = e.txqs ∧ (e.setEq q v).rxqs = e.rxqs ∧ (e.setEq q v).vecs = e.vecs ∧ (e.setEq q v).irqs = e.irqs ∧
    (e.setEq q v).irqStall = e.irqStall ∧ (e.setEq q v).txHold = e.txHold ∧ (e.setEq q v).ports = e.ports ∧
    (e.setEq q v).slots = e.slots ∧ (e.setEq q v).cages = e.cages ∧ (e.setEq q v).steer = e.steer ∧
    (e.setEq q v).dealer = e.dealer ∧ (e.setEq q v).off = e.off ∧ (e.setEq q v).time = e.time ∧ (e.setEq q v).carry = e.carry ∧
    (e.setEq q v).lcp = e.lcp ∧ (e.setEq q v).pwr = e.pwr ∧ (e.setEq q v).pair = e.pair ∧ (e.setEq q v).tally = e.tally ∧
    (e.setEq q v).start = e.start ∧ (e.setEq q v).nextRx = e.nextRx ∧ (e.setEq q v).free = e.free ∧
    (e.setEq q v).outs = e.outs :=
  ⟨rfl, rfl, rfl, rfl, rfl, rfl, rfl, rfl, rfl, rfl, rfl, rfl, rfl, rfl, rfl, rfl, rfl, rfl, rfl, rfl, rfl, rfl, rfl, rfl, rfl, rfl⟩

@[simp] theorem Eng.setEq_reads (e : Eng) (q : EqId) (v : Option Evq) :
    (∀ f' : Fn, (e.setEq q v).fn f' = e.fn f') ∧ (∀ t' : TxqId, (e.setEq q v).txq t' = e.txq t') ∧
    (∀ r' : RxqId, (e.setEq q v).rxq r' = e.rxq r') ∧ (∀ v' : Nat, (e.setEq q v).vec v' = e.vec v') ∧
    (∀ p' : PortId, (e.setEq q v).slot p' = e.slot p') ∧ (∀ p' : PortId, (e.setEq q v).port p' = e.port p') ∧
    (∀ c' : Cage, (e.setEq q v).cage c' = e.cage c') ∧ (∀ h' : ChId, (e.setEq q v).chan h' = e.chan h') ∧
    (∀ b' : TbId, (e.setEq q v).tb b' = e.tb b') ∧ (∀ t' : ThreadId, (e.setEq q v).thread t' = e.thread t') ∧
    (∀ q' : TxqId, (e.setEq q v).leaf q' = e.leaf q') ∧ (∀ p' : PortId, (e.setEq q v).root p' = e.root p') ∧
    (∀ i' : Fin 4096, (e.setEq q v).policer i' = e.policer i') ∧ (e.setEq q v).standby = e.standby ∧
    (e.setEq q v).journals = e.journals ∧ (e.setEq q v).handing = e.handing ∧ (e.setEq q v).now = e.now ∧
    (e.setEq q v).tb0 = e.tb0 ∧ (e.setEq q v).collecting = e.collecting :=
  ⟨fun _ => rfl, fun _ => rfl, fun _ => rfl, fun _ => rfl, fun _ => rfl, fun _ => rfl, fun _ => rfl, fun _ => rfl, fun _ => rfl, fun _ => rfl, fun _ => rfl, fun _ => rfl, fun _ => rfl, rfl, rfl, rfl, rfl, rfl, rfl⟩

@[simp] theorem Eng.modEq_frame (e : Eng) (q : EqId) (g : Evq → Evq) :
    (e.modEq q g).fns = e.fns ∧ (e.modEq q g).ctl = e.ctl ∧ (e.modEq q g).flt = e.flt ∧ (e.modEq q g).dma = e.dma ∧
    (e.modEq q g).txqs = e.txqs ∧ (e.modEq q g).rxqs = e.rxqs ∧ (e.modEq q g).vecs = e.vecs ∧ (e.modEq q g).irqs = e.irqs ∧
    (e.modEq q g).irqStall = e.irqStall ∧ (e.modEq q g).txHold = e.txHold ∧ (e.modEq q g).ports = e.ports ∧
    (e.modEq q g).slots = e.slots ∧ (e.modEq q g).cages = e.cages ∧ (e.modEq q g).steer = e.steer ∧
    (e.modEq q g).dealer = e.dealer ∧ (e.modEq q g).off = e.off ∧ (e.modEq q g).time = e.time ∧ (e.modEq q g).carry = e.carry ∧
    (e.modEq q g).lcp = e.lcp ∧ (e.modEq q g).pwr = e.pwr ∧ (e.modEq q g).pair = e.pair ∧ (e.modEq q g).tally = e.tally ∧
    (e.modEq q g).start = e.start ∧ (e.modEq q g).nextRx = e.nextRx ∧ (e.modEq q g).free = e.free ∧
    (e.modEq q g).outs = e.outs :=
  ⟨rfl, rfl, rfl, rfl, rfl, rfl, rfl, rfl, rfl, rfl, rfl, rfl, rfl, rfl, rfl, rfl, rfl, rfl, rfl, rfl, rfl, rfl, rfl, rfl, rfl, rfl⟩

@[simp] theorem Eng.modEq_reads (e : Eng) (q : EqId) (g : Evq → Evq) :
    (∀ f' : Fn, (e.modEq q g).fn f' = e.fn f') ∧ (∀ t' : TxqId, (e.modEq q g).txq t' = e.txq t') ∧
    (∀ r' : RxqId, (e.modEq q g).rxq r' = e.rxq r') ∧ (∀ v' : Nat, (e.modEq q g).vec v' = e.vec v') ∧
    (∀ p' : PortId, (e.modEq q g).slot p' = e.slot p') ∧ (∀ p' : PortId, (e.modEq q g).port p' = e.port p') ∧
    (∀ c' : Cage, (e.modEq q g).cage c' = e.cage c') ∧ (∀ h' : ChId, (e.modEq q g).chan h' = e.chan h') ∧
    (∀ b' : TbId, (e.modEq q g).tb b' = e.tb b') ∧ (∀ t' : ThreadId, (e.modEq q g).thread t' = e.thread t') ∧
    (∀ q' : TxqId, (e.modEq q g).leaf q' = e.leaf q') ∧ (∀ p' : PortId, (e.modEq q g).root p' = e.root p') ∧
    (∀ i' : Fin 4096, (e.modEq q g).policer i' = e.policer i') ∧ (e.modEq q g).standby = e.standby ∧
    (e.modEq q g).journals = e.journals ∧ (e.modEq q g).handing = e.handing ∧ (e.modEq q g).now = e.now ∧
    (e.modEq q g).tb0 = e.tb0 ∧ (e.modEq q g).collecting = e.collecting :=
  ⟨fun _ => rfl, fun _ => rfl, fun _ => rfl, fun _ => rfl, fun _ => rfl, fun _ => rfl, fun _ => rfl, fun _ => rfl, fun _ => rfl, fun _ => rfl, fun _ => rfl, fun _ => rfl, fun _ => rfl, rfl, rfl, rfl, rfl, rfl, rfl⟩

@[simp] theorem Eng.setVec_frame (e : Eng) (k : Nat) (v : VecState) :
    (e.setVec k v).fns = e.fns ∧ (e.setVec k v).ctl = e.ctl ∧ (e.setVec k v).flt = e.flt ∧ (e.setVec k v).dma = e.dma ∧
    (e.setVec k v).txqs = e.txqs ∧ (e.setVec k v).rxqs = e.rxqs ∧ (e.setVec k v).eqs = e.eqs ∧ (e.setVec k v).irqs = e.irqs ∧
    (e.setVec k v).irqStall = e.irqStall ∧ (e.setVec k v).txHold = e.txHold ∧ (e.setVec k v).ports = e.ports ∧
    (e.setVec k v).slots = e.slots ∧ (e.setVec k v).cages = e.cages ∧ (e.setVec k v).steer = e.steer ∧
    (e.setVec k v).dealer = e.dealer ∧ (e.setVec k v).off = e.off ∧ (e.setVec k v).time = e.time ∧
    (e.setVec k v).carry = e.carry ∧ (e.setVec k v).lcp = e.lcp ∧ (e.setVec k v).pwr = e.pwr ∧ (e.setVec k v).pair = e.pair ∧
    (e.setVec k v).tally = e.tally ∧ (e.setVec k v).start = e.start ∧ (e.setVec k v).nextRx = e.nextRx ∧
    (e.setVec k v).free = e.free ∧ (e.setVec k v).outs = e.outs :=
  ⟨rfl, rfl, rfl, rfl, rfl, rfl, rfl, rfl, rfl, rfl, rfl, rfl, rfl, rfl, rfl, rfl, rfl, rfl, rfl, rfl, rfl, rfl, rfl, rfl, rfl, rfl⟩

@[simp] theorem Eng.setVec_reads (e : Eng) (k : Nat) (v : VecState) :
    (∀ f' : Fn, (e.setVec k v).fn f' = e.fn f') ∧ (∀ t' : TxqId, (e.setVec k v).txq t' = e.txq t') ∧
    (∀ r' : RxqId, (e.setVec k v).rxq r' = e.rxq r') ∧ (∀ q' : EqId, (e.setVec k v).eq_ q' = e.eq_ q') ∧
    (∀ p' : PortId, (e.setVec k v).slot p' = e.slot p') ∧ (∀ p' : PortId, (e.setVec k v).port p' = e.port p') ∧
    (∀ c' : Cage, (e.setVec k v).cage c' = e.cage c') ∧ (∀ h' : ChId, (e.setVec k v).chan h' = e.chan h') ∧
    (∀ b' : TbId, (e.setVec k v).tb b' = e.tb b') ∧ (∀ t' : ThreadId, (e.setVec k v).thread t' = e.thread t') ∧
    (∀ q' : TxqId, (e.setVec k v).leaf q' = e.leaf q') ∧ (∀ p' : PortId, (e.setVec k v).root p' = e.root p') ∧
    (∀ i' : Fin 4096, (e.setVec k v).policer i' = e.policer i') ∧ (e.setVec k v).standby = e.standby ∧
    (e.setVec k v).journals = e.journals ∧ (e.setVec k v).handing = e.handing ∧ (e.setVec k v).now = e.now ∧
    (e.setVec k v).tb0 = e.tb0 ∧ (e.setVec k v).collecting = e.collecting :=
  ⟨fun _ => rfl, fun _ => rfl, fun _ => rfl, fun _ => rfl, fun _ => rfl, fun _ => rfl, fun _ => rfl, fun _ => rfl, fun _ => rfl, fun _ => rfl, fun _ => rfl, fun _ => rfl, fun _ => rfl, rfl, rfl, rfl, rfl, rfl, rfl⟩

@[simp] theorem Eng.setSlot_frame (e : Eng) (p : PortId) (v : SlotSt) :
    (e.setSlot p v).fns = e.fns ∧ (e.setSlot p v).ctl = e.ctl ∧ (e.setSlot p v).flt = e.flt ∧ (e.setSlot p v).dma = e.dma ∧
    (e.setSlot p v).txqs = e.txqs ∧ (e.setSlot p v).rxqs = e.rxqs ∧ (e.setSlot p v).eqs = e.eqs ∧
    (e.setSlot p v).vecs = e.vecs ∧ (e.setSlot p v).irqs = e.irqs ∧ (e.setSlot p v).irqStall = e.irqStall ∧
    (e.setSlot p v).txHold = e.txHold ∧ (e.setSlot p v).ports = e.ports ∧ (e.setSlot p v).cages = e.cages ∧
    (e.setSlot p v).steer = e.steer ∧ (e.setSlot p v).dealer = e.dealer ∧ (e.setSlot p v).off = e.off ∧
    (e.setSlot p v).time = e.time ∧ (e.setSlot p v).carry = e.carry ∧ (e.setSlot p v).lcp = e.lcp ∧
    (e.setSlot p v).pwr = e.pwr ∧ (e.setSlot p v).pair = e.pair ∧ (e.setSlot p v).tally = e.tally ∧
    (e.setSlot p v).start = e.start ∧ (e.setSlot p v).nextRx = e.nextRx ∧ (e.setSlot p v).free = e.free ∧
    (e.setSlot p v).outs = e.outs :=
  ⟨rfl, rfl, rfl, rfl, rfl, rfl, rfl, rfl, rfl, rfl, rfl, rfl, rfl, rfl, rfl, rfl, rfl, rfl, rfl, rfl, rfl, rfl, rfl, rfl, rfl, rfl⟩

@[simp] theorem Eng.setSlot_reads (e : Eng) (p : PortId) (v : SlotSt) :
    (∀ f' : Fn, (e.setSlot p v).fn f' = e.fn f') ∧ (∀ t' : TxqId, (e.setSlot p v).txq t' = e.txq t') ∧
    (∀ r' : RxqId, (e.setSlot p v).rxq r' = e.rxq r') ∧ (∀ q' : EqId, (e.setSlot p v).eq_ q' = e.eq_ q') ∧
    (∀ v' : Nat, (e.setSlot p v).vec v' = e.vec v') ∧ (∀ p' : PortId, (e.setSlot p v).port p' = e.port p') ∧
    (∀ c' : Cage, (e.setSlot p v).cage c' = e.cage c') ∧ (∀ h' : ChId, (e.setSlot p v).chan h' = e.chan h') ∧
    (∀ b' : TbId, (e.setSlot p v).tb b' = e.tb b') ∧ (∀ t' : ThreadId, (e.setSlot p v).thread t' = e.thread t') ∧
    (∀ q' : TxqId, (e.setSlot p v).leaf q' = e.leaf q') ∧ (∀ p' : PortId, (e.setSlot p v).root p' = e.root p') ∧
    (∀ i' : Fin 4096, (e.setSlot p v).policer i' = e.policer i') ∧ (e.setSlot p v).standby = e.standby ∧
    (e.setSlot p v).journals = e.journals ∧ (e.setSlot p v).handing = e.handing ∧ (e.setSlot p v).now = e.now ∧
    (e.setSlot p v).tb0 = e.tb0 ∧ (e.setSlot p v).collecting = e.collecting :=
  ⟨fun _ => rfl, fun _ => rfl, fun _ => rfl, fun _ => rfl, fun _ => rfl, fun _ => rfl, fun _ => rfl, fun _ => rfl, fun _ => rfl, fun _ => rfl, fun _ => rfl, fun _ => rfl, fun _ => rfl, rfl, rfl, rfl, rfl, rfl, rfl⟩

@[simp] theorem Eng.setPort_frame (e : Eng) (p : PortId) (v : Port) :
    (e.setPort p v).fns = e.fns ∧ (e.setPort p v).ctl = e.ctl ∧ (e.setPort p v).flt = e.flt ∧ (e.setPort p v).dma = e.dma ∧
    (e.setPort p v).txqs = e.txqs ∧ (e.setPort p v).rxqs = e.rxqs ∧ (e.setPort p v).eqs = e.eqs ∧
    (e.setPort p v).vecs = e.vecs ∧ (e.setPort p v).irqs = e.irqs ∧ (e.setPort p v).irqStall = e.irqStall ∧
    (e.setPort p v).txHold = e.txHold ∧ (e.setPort p v).slots = e.slots ∧ (e.setPort p v).cages = e.cages ∧
    (e.setPort p v).steer = e.steer ∧ (e.setPort p v).dealer = e.dealer ∧ (e.setPort p v).off = e.off ∧
    (e.setPort p v).time = e.time ∧ (e.setPort p v).carry = e.carry ∧ (e.setPort p v).lcp = e.lcp ∧
    (e.setPort p v).pwr = e.pwr ∧ (e.setPort p v).pair = e.pair ∧ (e.setPort p v).tally = e.tally ∧
    (e.setPort p v).start = e.start ∧ (e.setPort p v).nextRx = e.nextRx ∧ (e.setPort p v).free = e.free ∧
    (e.setPort p v).outs = e.outs :=
  ⟨rfl, rfl, rfl, rfl, rfl, rfl, rfl, rfl, rfl, rfl, rfl, rfl, rfl, rfl, rfl, rfl, rfl, rfl, rfl, rfl, rfl, rfl, rfl, rfl, rfl, rfl⟩

@[simp] theorem Eng.setPort_reads (e : Eng) (p : PortId) (v : Port) :
    (∀ f' : Fn, (e.setPort p v).fn f' = e.fn f') ∧ (∀ t' : TxqId, (e.setPort p v).txq t' = e.txq t') ∧
    (∀ r' : RxqId, (e.setPort p v).rxq r' = e.rxq r') ∧ (∀ q' : EqId, (e.setPort p v).eq_ q' = e.eq_ q') ∧
    (∀ v' : Nat, (e.setPort p v).vec v' = e.vec v') ∧ (∀ p' : PortId, (e.setPort p v).slot p' = e.slot p') ∧
    (∀ c' : Cage, (e.setPort p v).cage c' = e.cage c') ∧ (∀ h' : ChId, (e.setPort p v).chan h' = e.chan h') ∧
    (∀ b' : TbId, (e.setPort p v).tb b' = e.tb b') ∧ (∀ t' : ThreadId, (e.setPort p v).thread t' = e.thread t') ∧
    (∀ q' : TxqId, (e.setPort p v).leaf q' = e.leaf q') ∧ (∀ p' : PortId, (e.setPort p v).root p' = e.root p') ∧
    (∀ i' : Fin 4096, (e.setPort p v).policer i' = e.policer i') ∧ (e.setPort p v).standby = e.standby ∧
    (e.setPort p v).journals = e.journals ∧ (e.setPort p v).handing = e.handing ∧ (e.setPort p v).now = e.now ∧
    (e.setPort p v).tb0 = e.tb0 ∧ (e.setPort p v).collecting = e.collecting :=
  ⟨fun _ => rfl, fun _ => rfl, fun _ => rfl, fun _ => rfl, fun _ => rfl, fun _ => rfl, fun _ => rfl, fun _ => rfl, fun _ => rfl, fun _ => rfl, fun _ => rfl, fun _ => rfl, fun _ => rfl, rfl, rfl, rfl, rfl, rfl, rfl⟩

@[simp] theorem Eng.modPort_frame (e : Eng) (p : PortId) (g : Port → Port) :
    (e.modPort p g).fns = e.fns ∧ (e.modPort p g).ctl = e.ctl ∧ (e.modPort p g).flt = e.flt ∧ (e.modPort p g).dma = e.dma ∧
    (e.modPort p g).txqs = e.txqs ∧ (e.modPort p g).rxqs = e.rxqs ∧ (e.modPort p g).eqs = e.eqs ∧
    (e.modPort p g).vecs = e.vecs ∧ (e.modPort p g).irqs = e.irqs ∧ (e.modPort p g).irqStall = e.irqStall ∧
    (e.modPort p g).txHold = e.txHold ∧ (e.modPort p g).slots = e.slots ∧ (e.modPort p g).cages = e.cages ∧
    (e.modPort p g).steer = e.steer ∧ (e.modPort p g).dealer = e.dealer ∧ (e.modPort p g).off = e.off ∧
    (e.modPort p g).time = e.time ∧ (e.modPort p g).carry = e.carry ∧ (e.modPort p g).lcp = e.lcp ∧
    (e.modPort p g).pwr = e.pwr ∧ (e.modPort p g).pair = e.pair ∧ (e.modPort p g).tally = e.tally ∧
    (e.modPort p g).start = e.start ∧ (e.modPort p g).nextRx = e.nextRx ∧ (e.modPort p g).free = e.free ∧
    (e.modPort p g).outs = e.outs :=
  ⟨rfl, rfl, rfl, rfl, rfl, rfl, rfl, rfl, rfl, rfl, rfl, rfl, rfl, rfl, rfl, rfl, rfl, rfl, rfl, rfl, rfl, rfl, rfl, rfl, rfl, rfl⟩

@[simp] theorem Eng.modPort_reads (e : Eng) (p : PortId) (g : Port → Port) :
    (∀ f' : Fn, (e.modPort p g).fn f' = e.fn f') ∧ (∀ t' : TxqId, (e.modPort p g).txq t' = e.txq t') ∧
    (∀ r' : RxqId, (e.modPort p g).rxq r' = e.rxq r') ∧ (∀ q' : EqId, (e.modPort p g).eq_ q' = e.eq_ q') ∧
    (∀ v' : Nat, (e.modPort p g).vec v' = e.vec v') ∧ (∀ p' : PortId, (e.modPort p g).slot p' = e.slot p') ∧
    (∀ c' : Cage, (e.modPort p g).cage c' = e.cage c') ∧ (∀ h' : ChId, (e.modPort p g).chan h' = e.chan h') ∧
    (∀ b' : TbId, (e.modPort p g).tb b' = e.tb b') ∧ (∀ t' : ThreadId, (e.modPort p g).thread t' = e.thread t') ∧
    (∀ q' : TxqId, (e.modPort p g).leaf q' = e.leaf q') ∧ (∀ p' : PortId, (e.modPort p g).root p' = e.root p') ∧
    (∀ i' : Fin 4096, (e.modPort p g).policer i' = e.policer i') ∧ (e.modPort p g).standby = e.standby ∧
    (e.modPort p g).journals = e.journals ∧ (e.modPort p g).handing = e.handing ∧ (e.modPort p g).now = e.now ∧
    (e.modPort p g).tb0 = e.tb0 ∧ (e.modPort p g).collecting = e.collecting :=
  ⟨fun _ => rfl, fun _ => rfl, fun _ => rfl, fun _ => rfl, fun _ => rfl, fun _ => rfl, fun _ => rfl, fun _ => rfl, fun _ => rfl, fun _ => rfl, fun _ => rfl, fun _ => rfl, fun _ => rfl, rfl, rfl, rfl, rfl, rfl, rfl⟩

@[simp] theorem Eng.setCage_frame (e : Eng) (c : Cage) (v : CageSt) :
    (e.setCage c v).fns = e.fns ∧ (e.setCage c v).ctl = e.ctl ∧ (e.setCage c v).flt = e.flt ∧ (e.setCage c v).dma = e.dma ∧
    (e.setCage c v).txqs = e.txqs ∧ (e.setCage c v).rxqs = e.rxqs ∧ (e.setCage c v).eqs = e.eqs ∧
    (e.setCage c v).vecs = e.vecs ∧ (e.setCage c v).irqs = e.irqs ∧ (e.setCage c v).irqStall = e.irqStall ∧
    (e.setCage c v).txHold = e.txHold ∧ (e.setCage c v).ports = e.ports ∧ (e.setCage c v).slots = e.slots ∧
    (e.setCage c v).steer = e.steer ∧ (e.setCage c v).dealer = e.dealer ∧ (e.setCage c v).off = e.off ∧
    (e.setCage c v).time = e.time ∧ (e.setCage c v).carry = e.carry ∧ (e.setCage c v).lcp = e.lcp ∧
    (e.setCage c v).pwr = e.pwr ∧ (e.setCage c v).pair = e.pair ∧ (e.setCage c v).tally = e.tally ∧
    (e.setCage c v).start = e.start ∧ (e.setCage c v).nextRx = e.nextRx ∧ (e.setCage c v).free = e.free ∧
    (e.setCage c v).outs = e.outs :=
  ⟨rfl, rfl, rfl, rfl, rfl, rfl, rfl, rfl, rfl, rfl, rfl, rfl, rfl, rfl, rfl, rfl, rfl, rfl, rfl, rfl, rfl, rfl, rfl, rfl, rfl, rfl⟩

@[simp] theorem Eng.setCage_reads (e : Eng) (c : Cage) (v : CageSt) :
    (∀ f' : Fn, (e.setCage c v).fn f' = e.fn f') ∧ (∀ t' : TxqId, (e.setCage c v).txq t' = e.txq t') ∧
    (∀ r' : RxqId, (e.setCage c v).rxq r' = e.rxq r') ∧ (∀ q' : EqId, (e.setCage c v).eq_ q' = e.eq_ q') ∧
    (∀ v' : Nat, (e.setCage c v).vec v' = e.vec v') ∧ (∀ p' : PortId, (e.setCage c v).slot p' = e.slot p') ∧
    (∀ p' : PortId, (e.setCage c v).port p' = e.port p') ∧ (∀ h' : ChId, (e.setCage c v).chan h' = e.chan h') ∧
    (∀ b' : TbId, (e.setCage c v).tb b' = e.tb b') ∧ (∀ t' : ThreadId, (e.setCage c v).thread t' = e.thread t') ∧
    (∀ q' : TxqId, (e.setCage c v).leaf q' = e.leaf q') ∧ (∀ p' : PortId, (e.setCage c v).root p' = e.root p') ∧
    (∀ i' : Fin 4096, (e.setCage c v).policer i' = e.policer i') ∧ (e.setCage c v).standby = e.standby ∧
    (e.setCage c v).journals = e.journals ∧ (e.setCage c v).handing = e.handing ∧ (e.setCage c v).now = e.now ∧
    (e.setCage c v).tb0 = e.tb0 ∧ (e.setCage c v).collecting = e.collecting :=
  ⟨fun _ => rfl, fun _ => rfl, fun _ => rfl, fun _ => rfl, fun _ => rfl, fun _ => rfl, fun _ => rfl, fun _ => rfl, fun _ => rfl, fun _ => rfl, fun _ => rfl, fun _ => rfl, fun _ => rfl, rfl, rfl, rfl, rfl, rfl, rfl⟩

@[simp] theorem Eng.modCage_frame (e : Eng) (c : Cage) (g : CageSt → CageSt) :
    (e.modCage c g).fns = e.fns ∧ (e.modCage c g).ctl = e.ctl ∧ (e.modCage c g).flt = e.flt ∧ (e.modCage c g).dma = e.dma ∧
    (e.modCage c g).txqs = e.txqs ∧ (e.modCage c g).rxqs = e.rxqs ∧ (e.modCage c g).eqs = e.eqs ∧
    (e.modCage c g).vecs = e.vecs ∧ (e.modCage c g).irqs = e.irqs ∧ (e.modCage c g).irqStall = e.irqStall ∧
    (e.modCage c g).txHold = e.txHold ∧ (e.modCage c g).ports = e.ports ∧ (e.modCage c g).slots = e.slots ∧
    (e.modCage c g).steer = e.steer ∧ (e.modCage c g).dealer = e.dealer ∧ (e.modCage c g).off = e.off ∧
    (e.modCage c g).time = e.time ∧ (e.modCage c g).carry = e.carry ∧ (e.modCage c g).lcp = e.lcp ∧
    (e.modCage c g).pwr = e.pwr ∧ (e.modCage c g).pair = e.pair ∧ (e.modCage c g).tally = e.tally ∧
    (e.modCage c g).start = e.start ∧ (e.modCage c g).nextRx = e.nextRx ∧ (e.modCage c g).free = e.free ∧
    (e.modCage c g).outs = e.outs :=
  ⟨rfl, rfl, rfl, rfl, rfl, rfl, rfl, rfl, rfl, rfl, rfl, rfl, rfl, rfl, rfl, rfl, rfl, rfl, rfl, rfl, rfl, rfl, rfl, rfl, rfl, rfl⟩

@[simp] theorem Eng.modCage_reads (e : Eng) (c : Cage) (g : CageSt → CageSt) :
    (∀ f' : Fn, (e.modCage c g).fn f' = e.fn f') ∧ (∀ t' : TxqId, (e.modCage c g).txq t' = e.txq t') ∧
    (∀ r' : RxqId, (e.modCage c g).rxq r' = e.rxq r') ∧ (∀ q' : EqId, (e.modCage c g).eq_ q' = e.eq_ q') ∧
    (∀ v' : Nat, (e.modCage c g).vec v' = e.vec v') ∧ (∀ p' : PortId, (e.modCage c g).slot p' = e.slot p') ∧
    (∀ p' : PortId, (e.modCage c g).port p' = e.port p') ∧ (∀ h' : ChId, (e.modCage c g).chan h' = e.chan h') ∧
    (∀ b' : TbId, (e.modCage c g).tb b' = e.tb b') ∧ (∀ t' : ThreadId, (e.modCage c g).thread t' = e.thread t') ∧
    (∀ q' : TxqId, (e.modCage c g).leaf q' = e.leaf q') ∧ (∀ p' : PortId, (e.modCage c g).root p' = e.root p') ∧
    (∀ i' : Fin 4096, (e.modCage c g).policer i' = e.policer i') ∧ (e.modCage c g).standby = e.standby ∧
    (e.modCage c g).journals = e.journals ∧ (e.modCage c g).handing = e.handing ∧ (e.modCage c g).now = e.now ∧
    (e.modCage c g).tb0 = e.tb0 ∧ (e.modCage c g).collecting = e.collecting :=
  ⟨fun _ => rfl, fun _ => rfl, fun _ => rfl, fun _ => rfl, fun _ => rfl, fun _ => rfl, fun _ => rfl, fun _ => rfl, fun _ => rfl, fun _ => rfl, fun _ => rfl, fun _ => rfl, fun _ => rfl, rfl, rfl, rfl, rfl, rfl, rfl⟩

@[simp] theorem Eng.setChan_frame (e : Eng) (c : ChId) (v : Chan) :
    (e.setChan c v).fns = e.fns ∧ (e.setChan c v).ctl = e.ctl ∧ (e.setChan c v).flt = e.flt ∧ (e.setChan c v).dma = e.dma ∧
    (e.setChan c v).txqs = e.txqs ∧ (e.setChan c v).rxqs = e.rxqs ∧ (e.setChan c v).eqs = e.eqs ∧
    (e.setChan c v).vecs = e.vecs ∧ (e.setChan c v).irqs = e.irqs ∧ (e.setChan c v).irqStall = e.irqStall ∧
    (e.setChan c v).txHold = e.txHold ∧ (e.setChan c v).ports = e.ports ∧ (e.setChan c v).slots = e.slots ∧
    (e.setChan c v).cages = e.cages ∧ (e.setChan c v).steer = e.steer ∧ (e.setChan c v).dealer = e.dealer ∧
    (e.setChan c v).off = e.off ∧ (e.setChan c v).time = e.time ∧ (e.setChan c v).lcp = e.lcp ∧ (e.setChan c v).pwr = e.pwr ∧
    (e.setChan c v).pair = e.pair ∧ (e.setChan c v).tally = e.tally ∧ (e.setChan c v).start = e.start ∧
    (e.setChan c v).nextRx = e.nextRx ∧ (e.setChan c v).free = e.free ∧ (e.setChan c v).outs = e.outs :=
  ⟨rfl, rfl, rfl, rfl, rfl, rfl, rfl, rfl, rfl, rfl, rfl, rfl, rfl, rfl, rfl, rfl, rfl, rfl, rfl, rfl, rfl, rfl, rfl, rfl, rfl, rfl⟩

@[simp] theorem Eng.setChan_reads (e : Eng) (c : ChId) (v : Chan) :
    (∀ f' : Fn, (e.setChan c v).fn f' = e.fn f') ∧ (∀ t' : TxqId, (e.setChan c v).txq t' = e.txq t') ∧
    (∀ r' : RxqId, (e.setChan c v).rxq r' = e.rxq r') ∧ (∀ q' : EqId, (e.setChan c v).eq_ q' = e.eq_ q') ∧
    (∀ v' : Nat, (e.setChan c v).vec v' = e.vec v') ∧ (∀ p' : PortId, (e.setChan c v).slot p' = e.slot p') ∧
    (∀ p' : PortId, (e.setChan c v).port p' = e.port p') ∧ (∀ c' : Cage, (e.setChan c v).cage c' = e.cage c') ∧
    (∀ b' : TbId, (e.setChan c v).tb b' = e.tb b') ∧ (∀ t' : ThreadId, (e.setChan c v).thread t' = e.thread t') ∧
    (∀ q' : TxqId, (e.setChan c v).leaf q' = e.leaf q') ∧ (∀ p' : PortId, (e.setChan c v).root p' = e.root p') ∧
    (∀ i' : Fin 4096, (e.setChan c v).policer i' = e.policer i') ∧ (e.setChan c v).standby = e.standby ∧
    (e.setChan c v).journals = e.journals ∧ (e.setChan c v).handing = e.handing ∧ (e.setChan c v).now = e.now ∧
    (e.setChan c v).tb0 = e.tb0 ∧ (e.setChan c v).collecting = e.collecting :=
  ⟨fun _ => rfl, fun _ => rfl, fun _ => rfl, fun _ => rfl, fun _ => rfl, fun _ => rfl, fun _ => rfl, fun _ => rfl, fun _ => rfl, fun _ => rfl, fun _ => rfl, fun _ => rfl, fun _ => rfl, rfl, rfl, rfl, rfl, rfl, rfl⟩

@[simp] theorem Eng.modChan_frame (e : Eng) (c : ChId) (g : Chan → Chan) :
    (e.modChan c g).fns = e.fns ∧ (e.modChan c g).ctl = e.ctl ∧ (e.modChan c g).flt = e.flt ∧ (e.modChan c g).dma = e.dma ∧
    (e.modChan c g).txqs = e.txqs ∧ (e.modChan c g).rxqs = e.rxqs ∧ (e.modChan c g).eqs = e.eqs ∧
    (e.modChan c g).vecs = e.vecs ∧ (e.modChan c g).irqs = e.irqs ∧ (e.modChan c g).irqStall = e.irqStall ∧
    (e.modChan c g).txHold = e.txHold ∧ (e.modChan c g).ports = e.ports ∧ (e.modChan c g).slots = e.slots ∧
    (e.modChan c g).cages = e.cages ∧ (e.modChan c g).steer = e.steer ∧ (e.modChan c g).dealer = e.dealer ∧
    (e.modChan c g).off = e.off ∧ (e.modChan c g).time = e.time ∧ (e.modChan c g).lcp = e.lcp ∧ (e.modChan c g).pwr = e.pwr ∧
    (e.modChan c g).pair = e.pair ∧ (e.modChan c g).tally = e.tally ∧ (e.modChan c g).start = e.start ∧
    (e.modChan c g).nextRx = e.nextRx ∧ (e.modChan c g).free = e.free ∧ (e.modChan c g).outs = e.outs :=
  ⟨rfl, rfl, rfl, rfl, rfl, rfl, rfl, rfl, rfl, rfl, rfl, rfl, rfl, rfl, rfl, rfl, rfl, rfl, rfl, rfl, rfl, rfl, rfl, rfl, rfl, rfl⟩

@[simp] theorem Eng.modChan_reads (e : Eng) (c : ChId) (g : Chan → Chan) :
    (∀ f' : Fn, (e.modChan c g).fn f' = e.fn f') ∧ (∀ t' : TxqId, (e.modChan c g).txq t' = e.txq t') ∧
    (∀ r' : RxqId, (e.modChan c g).rxq r' = e.rxq r') ∧ (∀ q' : EqId, (e.modChan c g).eq_ q' = e.eq_ q') ∧
    (∀ v' : Nat, (e.modChan c g).vec v' = e.vec v') ∧ (∀ p' : PortId, (e.modChan c g).slot p' = e.slot p') ∧
    (∀ p' : PortId, (e.modChan c g).port p' = e.port p') ∧ (∀ c' : Cage, (e.modChan c g).cage c' = e.cage c') ∧
    (∀ b' : TbId, (e.modChan c g).tb b' = e.tb b') ∧ (∀ t' : ThreadId, (e.modChan c g).thread t' = e.thread t') ∧
    (∀ q' : TxqId, (e.modChan c g).leaf q' = e.leaf q') ∧ (∀ p' : PortId, (e.modChan c g).root p' = e.root p') ∧
    (∀ i' : Fin 4096, (e.modChan c g).policer i' = e.policer i') ∧ (e.modChan c g).standby = e.standby ∧
    (e.modChan c g).journals = e.journals ∧ (e.modChan c g).handing = e.handing ∧ (e.modChan c g).now = e.now ∧
    (e.modChan c g).tb0 = e.tb0 ∧ (e.modChan c g).collecting = e.collecting :=
  ⟨fun _ => rfl, fun _ => rfl, fun _ => rfl, fun _ => rfl, fun _ => rfl, fun _ => rfl, fun _ => rfl, fun _ => rfl, fun _ => rfl, fun _ => rfl, fun _ => rfl, fun _ => rfl, fun _ => rfl, rfl, rfl, rfl, rfl, rfl, rfl⟩

@[simp] theorem Eng.setTb_frame (e : Eng) (n : TbId) (v : TimeBase) :
    (e.setTb n v).fns = e.fns ∧ (e.setTb n v).ctl = e.ctl ∧ (e.setTb n v).flt = e.flt ∧ (e.setTb n v).dma = e.dma ∧
    (e.setTb n v).txqs = e.txqs ∧ (e.setTb n v).rxqs = e.rxqs ∧ (e.setTb n v).eqs = e.eqs ∧ (e.setTb n v).vecs = e.vecs ∧
    (e.setTb n v).irqs = e.irqs ∧ (e.setTb n v).irqStall = e.irqStall ∧ (e.setTb n v).txHold = e.txHold ∧
    (e.setTb n v).ports = e.ports ∧ (e.setTb n v).slots = e.slots ∧ (e.setTb n v).cages = e.cages ∧
    (e.setTb n v).steer = e.steer ∧ (e.setTb n v).dealer = e.dealer ∧ (e.setTb n v).off = e.off ∧
    (e.setTb n v).carry = e.carry ∧ (e.setTb n v).lcp = e.lcp ∧ (e.setTb n v).pwr = e.pwr ∧ (e.setTb n v).pair = e.pair ∧
    (e.setTb n v).tally = e.tally ∧ (e.setTb n v).start = e.start ∧ (e.setTb n v).nextRx = e.nextRx ∧
    (e.setTb n v).free = e.free ∧ (e.setTb n v).outs = e.outs :=
  ⟨rfl, rfl, rfl, rfl, rfl, rfl, rfl, rfl, rfl, rfl, rfl, rfl, rfl, rfl, rfl, rfl, rfl, rfl, rfl, rfl, rfl, rfl, rfl, rfl, rfl, rfl⟩

@[simp] theorem Eng.setTb_reads (e : Eng) (n : TbId) (v : TimeBase) :
    (∀ f' : Fn, (e.setTb n v).fn f' = e.fn f') ∧ (∀ t' : TxqId, (e.setTb n v).txq t' = e.txq t') ∧
    (∀ r' : RxqId, (e.setTb n v).rxq r' = e.rxq r') ∧ (∀ q' : EqId, (e.setTb n v).eq_ q' = e.eq_ q') ∧
    (∀ v' : Nat, (e.setTb n v).vec v' = e.vec v') ∧ (∀ p' : PortId, (e.setTb n v).slot p' = e.slot p') ∧
    (∀ p' : PortId, (e.setTb n v).port p' = e.port p') ∧ (∀ c' : Cage, (e.setTb n v).cage c' = e.cage c') ∧
    (∀ h' : ChId, (e.setTb n v).chan h' = e.chan h') ∧ (∀ t' : ThreadId, (e.setTb n v).thread t' = e.thread t') ∧
    (∀ q' : TxqId, (e.setTb n v).leaf q' = e.leaf q') ∧ (∀ p' : PortId, (e.setTb n v).root p' = e.root p') ∧
    (∀ i' : Fin 4096, (e.setTb n v).policer i' = e.policer i') ∧ (e.setTb n v).standby = e.standby ∧
    (e.setTb n v).journals = e.journals ∧ (e.setTb n v).handing = e.handing ∧ (e.setTb n v).collecting = e.collecting :=
  ⟨fun _ => rfl, fun _ => rfl, fun _ => rfl, fun _ => rfl, fun _ => rfl, fun _ => rfl, fun _ => rfl, fun _ => rfl, fun _ => rfl, fun _ => rfl, fun _ => rfl, fun _ => rfl, fun _ => rfl, rfl, rfl, rfl, rfl⟩

@[simp] theorem Eng.modTb_frame (e : Eng) (n : TbId) (g : TimeBase → TimeBase) :
    (e.modTb n g).fns = e.fns ∧ (e.modTb n g).ctl = e.ctl ∧ (e.modTb n g).flt = e.flt ∧ (e.modTb n g).dma = e.dma ∧
    (e.modTb n g).txqs = e.txqs ∧ (e.modTb n g).rxqs = e.rxqs ∧ (e.modTb n g).eqs = e.eqs ∧ (e.modTb n g).vecs = e.vecs ∧
    (e.modTb n g).irqs = e.irqs ∧ (e.modTb n g).irqStall = e.irqStall ∧ (e.modTb n g).txHold = e.txHold ∧
    (e.modTb n g).ports = e.ports ∧ (e.modTb n g).slots = e.slots ∧ (e.modTb n g).cages = e.cages ∧
    (e.modTb n g).steer = e.steer ∧ (e.modTb n g).dealer = e.dealer ∧ (e.modTb n g).off = e.off ∧
    (e.modTb n g).carry = e.carry ∧ (e.modTb n g).lcp = e.lcp ∧ (e.modTb n g).pwr = e.pwr ∧ (e.modTb n g).pair = e.pair ∧
    (e.modTb n g).tally = e.tally ∧ (e.modTb n g).start = e.start ∧ (e.modTb n g).nextRx = e.nextRx ∧
    (e.modTb n g).free = e.free ∧ (e.modTb n g).outs = e.outs :=
  ⟨rfl, rfl, rfl, rfl, rfl, rfl, rfl, rfl, rfl, rfl, rfl, rfl, rfl, rfl, rfl, rfl, rfl, rfl, rfl, rfl, rfl, rfl, rfl, rfl, rfl, rfl⟩

@[simp] theorem Eng.modTb_reads (e : Eng) (n : TbId) (g : TimeBase → TimeBase) :
    (∀ f' : Fn, (e.modTb n g).fn f' = e.fn f') ∧ (∀ t' : TxqId, (e.modTb n g).txq t' = e.txq t') ∧
    (∀ r' : RxqId, (e.modTb n g).rxq r' = e.rxq r') ∧ (∀ q' : EqId, (e.modTb n g).eq_ q' = e.eq_ q') ∧
    (∀ v' : Nat, (e.modTb n g).vec v' = e.vec v') ∧ (∀ p' : PortId, (e.modTb n g).slot p' = e.slot p') ∧
    (∀ p' : PortId, (e.modTb n g).port p' = e.port p') ∧ (∀ c' : Cage, (e.modTb n g).cage c' = e.cage c') ∧
    (∀ h' : ChId, (e.modTb n g).chan h' = e.chan h') ∧ (∀ t' : ThreadId, (e.modTb n g).thread t' = e.thread t') ∧
    (∀ q' : TxqId, (e.modTb n g).leaf q' = e.leaf q') ∧ (∀ p' : PortId, (e.modTb n g).root p' = e.root p') ∧
    (∀ i' : Fin 4096, (e.modTb n g).policer i' = e.policer i') ∧ (e.modTb n g).standby = e.standby ∧
    (e.modTb n g).journals = e.journals ∧ (e.modTb n g).handing = e.handing ∧ (e.modTb n g).collecting = e.collecting :=
  ⟨fun _ => rfl, fun _ => rfl, fun _ => rfl, fun _ => rfl, fun _ => rfl, fun _ => rfl, fun _ => rfl, fun _ => rfl, fun _ => rfl, fun _ => rfl, fun _ => rfl, fun _ => rfl, fun _ => rfl, rfl, rfl, rfl, rfl⟩

@[simp] theorem Eng.setThread_frame (e : Eng) (t : ThreadId) (v : Thread) :
    (e.setThread t v).fns = e.fns ∧ (e.setThread t v).ctl = e.ctl ∧ (e.setThread t v).flt = e.flt ∧
    (e.setThread t v).dma = e.dma ∧ (e.setThread t v).txqs = e.txqs ∧ (e.setThread t v).rxqs = e.rxqs ∧
    (e.setThread t v).eqs = e.eqs ∧ (e.setThread t v).vecs = e.vecs ∧ (e.setThread t v).irqs = e.irqs ∧
    (e.setThread t v).irqStall = e.irqStall ∧ (e.setThread t v).txHold = e.txHold ∧ (e.setThread t v).ports = e.ports ∧
    (e.setThread t v).slots = e.slots ∧ (e.setThread t v).cages = e.cages ∧ (e.setThread t v).steer = e.steer ∧
    (e.setThread t v).dealer = e.dealer ∧ (e.setThread t v).off = e.off ∧ (e.setThread t v).time = e.time ∧
    (e.setThread t v).carry = e.carry ∧ (e.setThread t v).pwr = e.pwr ∧ (e.setThread t v).pair = e.pair ∧
    (e.setThread t v).tally = e.tally ∧ (e.setThread t v).start = e.start ∧ (e.setThread t v).nextRx = e.nextRx ∧
    (e.setThread t v).free = e.free ∧ (e.setThread t v).outs = e.outs :=
  ⟨rfl, rfl, rfl, rfl, rfl, rfl, rfl, rfl, rfl, rfl, rfl, rfl, rfl, rfl, rfl, rfl, rfl, rfl, rfl, rfl, rfl, rfl, rfl, rfl, rfl, rfl⟩

@[simp] theorem Eng.setThread_reads (e : Eng) (t : ThreadId) (v : Thread) :
    (∀ f' : Fn, (e.setThread t v).fn f' = e.fn f') ∧ (∀ t' : TxqId, (e.setThread t v).txq t' = e.txq t') ∧
    (∀ r' : RxqId, (e.setThread t v).rxq r' = e.rxq r') ∧ (∀ q' : EqId, (e.setThread t v).eq_ q' = e.eq_ q') ∧
    (∀ v' : Nat, (e.setThread t v).vec v' = e.vec v') ∧ (∀ p' : PortId, (e.setThread t v).slot p' = e.slot p') ∧
    (∀ p' : PortId, (e.setThread t v).port p' = e.port p') ∧ (∀ c' : Cage, (e.setThread t v).cage c' = e.cage c') ∧
    (∀ h' : ChId, (e.setThread t v).chan h' = e.chan h') ∧ (∀ b' : TbId, (e.setThread t v).tb b' = e.tb b') ∧
    (∀ q' : TxqId, (e.setThread t v).leaf q' = e.leaf q') ∧ (∀ p' : PortId, (e.setThread t v).root p' = e.root p') ∧
    (∀ i' : Fin 4096, (e.setThread t v).policer i' = e.policer i') ∧ (e.setThread t v).standby = e.standby ∧
    (e.setThread t v).journals = e.journals ∧ (e.setThread t v).handing = e.handing ∧ (e.setThread t v).now = e.now ∧
    (e.setThread t v).tb0 = e.tb0 ∧ (e.setThread t v).collecting = e.collecting :=
  ⟨fun _ => rfl, fun _ => rfl, fun _ => rfl, fun _ => rfl, fun _ => rfl, fun _ => rfl, fun _ => rfl, fun _ => rfl, fun _ => rfl, fun _ => rfl, fun _ => rfl, fun _ => rfl, fun _ => rfl, rfl, rfl, rfl, rfl, rfl, rfl⟩

@[simp] theorem Eng.setChnl_frame (e : Eng) (c : ChnId) (v : Chnl) :
    (e.setChnl c v).fns = e.fns ∧ (e.setChnl c v).ctl = e.ctl ∧ (e.setChnl c v).flt = e.flt ∧ (e.setChnl c v).dma = e.dma ∧
    (e.setChnl c v).txqs = e.txqs ∧ (e.setChnl c v).rxqs = e.rxqs ∧ (e.setChnl c v).eqs = e.eqs ∧
    (e.setChnl c v).vecs = e.vecs ∧ (e.setChnl c v).irqs = e.irqs ∧ (e.setChnl c v).irqStall = e.irqStall ∧
    (e.setChnl c v).txHold = e.txHold ∧ (e.setChnl c v).ports = e.ports ∧ (e.setChnl c v).slots = e.slots ∧
    (e.setChnl c v).cages = e.cages ∧ (e.setChnl c v).steer = e.steer ∧ (e.setChnl c v).dealer = e.dealer ∧
    (e.setChnl c v).off = e.off ∧ (e.setChnl c v).time = e.time ∧ (e.setChnl c v).carry = e.carry ∧
    (e.setChnl c v).pwr = e.pwr ∧ (e.setChnl c v).pair = e.pair ∧ (e.setChnl c v).tally = e.tally ∧
    (e.setChnl c v).start = e.start ∧ (e.setChnl c v).nextRx = e.nextRx ∧ (e.setChnl c v).free = e.free ∧
    (e.setChnl c v).outs = e.outs :=
  ⟨rfl, rfl, rfl, rfl, rfl, rfl, rfl, rfl, rfl, rfl, rfl, rfl, rfl, rfl, rfl, rfl, rfl, rfl, rfl, rfl, rfl, rfl, rfl, rfl, rfl, rfl⟩

@[simp] theorem Eng.setChnl_reads (e : Eng) (c : ChnId) (v : Chnl) :
    (∀ f' : Fn, (e.setChnl c v).fn f' = e.fn f') ∧ (∀ t' : TxqId, (e.setChnl c v).txq t' = e.txq t') ∧
    (∀ r' : RxqId, (e.setChnl c v).rxq r' = e.rxq r') ∧ (∀ q' : EqId, (e.setChnl c v).eq_ q' = e.eq_ q') ∧
    (∀ v' : Nat, (e.setChnl c v).vec v' = e.vec v') ∧ (∀ p' : PortId, (e.setChnl c v).slot p' = e.slot p') ∧
    (∀ p' : PortId, (e.setChnl c v).port p' = e.port p') ∧ (∀ c' : Cage, (e.setChnl c v).cage c' = e.cage c') ∧
    (∀ h' : ChId, (e.setChnl c v).chan h' = e.chan h') ∧ (∀ b' : TbId, (e.setChnl c v).tb b' = e.tb b') ∧
    (∀ q' : TxqId, (e.setChnl c v).leaf q' = e.leaf q') ∧ (∀ p' : PortId, (e.setChnl c v).root p' = e.root p') ∧
    (∀ i' : Fin 4096, (e.setChnl c v).policer i' = e.policer i') ∧ (e.setChnl c v).standby = e.standby ∧
    (e.setChnl c v).journals = e.journals ∧ (e.setChnl c v).handing = e.handing ∧ (e.setChnl c v).now = e.now ∧
    (e.setChnl c v).tb0 = e.tb0 ∧ (e.setChnl c v).collecting = e.collecting :=
  ⟨fun _ => rfl, fun _ => rfl, fun _ => rfl, fun _ => rfl, fun _ => rfl, fun _ => rfl, fun _ => rfl, fun _ => rfl, fun _ => rfl, fun _ => rfl, fun _ => rfl, fun _ => rfl, fun _ => rfl, rfl, rfl, rfl, rfl, rfl, rfl⟩

@[simp] theorem Eng.setLeaf_frame (e : Eng) (q : TxqId) (v : DObj) :
    (e.setLeaf q v).fns = e.fns ∧ (e.setLeaf q v).ctl = e.ctl ∧ (e.setLeaf q v).flt = e.flt ∧ (e.setLeaf q v).dma = e.dma ∧
    (e.setLeaf q v).txqs = e.txqs ∧ (e.setLeaf q v).rxqs = e.rxqs ∧ (e.setLeaf q v).eqs = e.eqs ∧
    (e.setLeaf q v).vecs = e.vecs ∧ (e.setLeaf q v).irqs = e.irqs ∧ (e.setLeaf q v).irqStall = e.irqStall ∧
    (e.setLeaf q v).txHold = e.txHold ∧ (e.setLeaf q v).ports = e.ports ∧ (e.setLeaf q v).slots = e.slots ∧
    (e.setLeaf q v).cages = e.cages ∧ (e.setLeaf q v).steer = e.steer ∧ (e.setLeaf q v).off = e.off ∧
    (e.setLeaf q v).time = e.time ∧ (e.setLeaf q v).carry = e.carry ∧ (e.setLeaf q v).lcp = e.lcp ∧
    (e.setLeaf q v).pwr = e.pwr ∧ (e.setLeaf q v).pair = e.pair ∧ (e.setLeaf q v).tally = e.tally ∧
    (e.setLeaf q v).start = e.start ∧ (e.setLeaf q v).nextRx = e.nextRx ∧ (e.setLeaf q v).free = e.free ∧
    (e.setLeaf q v).outs = e.outs :=
  ⟨rfl, rfl, rfl, rfl, rfl, rfl, rfl, rfl, rfl, rfl, rfl, rfl, rfl, rfl, rfl, rfl, rfl, rfl, rfl, rfl, rfl, rfl, rfl, rfl, rfl, rfl⟩

@[simp] theorem Eng.setLeaf_reads (e : Eng) (q : TxqId) (v : DObj) :
    (∀ f' : Fn, (e.setLeaf q v).fn f' = e.fn f') ∧ (∀ t' : TxqId, (e.setLeaf q v).txq t' = e.txq t') ∧
    (∀ r' : RxqId, (e.setLeaf q v).rxq r' = e.rxq r') ∧ (∀ q' : EqId, (e.setLeaf q v).eq_ q' = e.eq_ q') ∧
    (∀ v' : Nat, (e.setLeaf q v).vec v' = e.vec v') ∧ (∀ p' : PortId, (e.setLeaf q v).slot p' = e.slot p') ∧
    (∀ p' : PortId, (e.setLeaf q v).port p' = e.port p') ∧ (∀ c' : Cage, (e.setLeaf q v).cage c' = e.cage c') ∧
    (∀ h' : ChId, (e.setLeaf q v).chan h' = e.chan h') ∧ (∀ b' : TbId, (e.setLeaf q v).tb b' = e.tb b') ∧
    (∀ t' : ThreadId, (e.setLeaf q v).thread t' = e.thread t') ∧ (∀ i' : Fin 4096, (e.setLeaf q v).policer i' = e.policer i') ∧
    (e.setLeaf q v).standby = e.standby ∧ (e.setLeaf q v).journals = e.journals ∧ (e.setLeaf q v).handing = e.handing ∧
    (e.setLeaf q v).now = e.now ∧ (e.setLeaf q v).tb0 = e.tb0 ∧ (e.setLeaf q v).collecting = e.collecting :=
  ⟨fun _ => rfl, fun _ => rfl, fun _ => rfl, fun _ => rfl, fun _ => rfl, fun _ => rfl, fun _ => rfl, fun _ => rfl, fun _ => rfl, fun _ => rfl, fun _ => rfl, fun _ => rfl, rfl, rfl, rfl, rfl, rfl, rfl⟩

@[simp] theorem Eng.setNode_frame (e : Eng) (n : Fin 8192) (v : DObj) :
    (e.setNode n v).fns = e.fns ∧ (e.setNode n v).ctl = e.ctl ∧ (e.setNode n v).flt = e.flt ∧ (e.setNode n v).dma = e.dma ∧
    (e.setNode n v).txqs = e.txqs ∧ (e.setNode n v).rxqs = e.rxqs ∧ (e.setNode n v).eqs = e.eqs ∧
    (e.setNode n v).vecs = e.vecs ∧ (e.setNode n v).irqs = e.irqs ∧ (e.setNode n v).irqStall = e.irqStall ∧
    (e.setNode n v).txHold = e.txHold ∧ (e.setNode n v).ports = e.ports ∧ (e.setNode n v).slots = e.slots ∧
    (e.setNode n v).cages = e.cages ∧ (e.setNode n v).steer = e.steer ∧ (e.setNode n v).off = e.off ∧
    (e.setNode n v).time = e.time ∧ (e.setNode n v).carry = e.carry ∧ (e.setNode n v).lcp = e.lcp ∧
    (e.setNode n v).pwr = e.pwr ∧ (e.setNode n v).pair = e.pair ∧ (e.setNode n v).tally = e.tally ∧
    (e.setNode n v).start = e.start ∧ (e.setNode n v).nextRx = e.nextRx ∧ (e.setNode n v).free = e.free ∧
    (e.setNode n v).outs = e.outs :=
  ⟨rfl, rfl, rfl, rfl, rfl, rfl, rfl, rfl, rfl, rfl, rfl, rfl, rfl, rfl, rfl, rfl, rfl, rfl, rfl, rfl, rfl, rfl, rfl, rfl, rfl, rfl⟩

@[simp] theorem Eng.setNode_reads (e : Eng) (n : Fin 8192) (v : DObj) :
    (∀ f' : Fn, (e.setNode n v).fn f' = e.fn f') ∧ (∀ t' : TxqId, (e.setNode n v).txq t' = e.txq t') ∧
    (∀ r' : RxqId, (e.setNode n v).rxq r' = e.rxq r') ∧ (∀ q' : EqId, (e.setNode n v).eq_ q' = e.eq_ q') ∧
    (∀ v' : Nat, (e.setNode n v).vec v' = e.vec v') ∧ (∀ p' : PortId, (e.setNode n v).slot p' = e.slot p') ∧
    (∀ p' : PortId, (e.setNode n v).port p' = e.port p') ∧ (∀ c' : Cage, (e.setNode n v).cage c' = e.cage c') ∧
    (∀ h' : ChId, (e.setNode n v).chan h' = e.chan h') ∧ (∀ b' : TbId, (e.setNode n v).tb b' = e.tb b') ∧
    (∀ t' : ThreadId, (e.setNode n v).thread t' = e.thread t') ∧ (∀ i' : Fin 4096, (e.setNode n v).policer i' = e.policer i') ∧
    (e.setNode n v).standby = e.standby ∧ (e.setNode n v).journals = e.journals ∧ (e.setNode n v).handing = e.handing ∧
    (e.setNode n v).now = e.now ∧ (e.setNode n v).tb0 = e.tb0 ∧ (e.setNode n v).collecting = e.collecting :=
  ⟨fun _ => rfl, fun _ => rfl, fun _ => rfl, fun _ => rfl, fun _ => rfl, fun _ => rfl, fun _ => rfl, fun _ => rfl, fun _ => rfl, fun _ => rfl, fun _ => rfl, fun _ => rfl, rfl, rfl, rfl, rfl, rfl, rfl⟩

@[simp] theorem Eng.setRoot_frame (e : Eng) (p : PortId) (v : Root) :
    (e.setRoot p v).fns = e.fns ∧ (e.setRoot p v).ctl = e.ctl ∧ (e.setRoot p v).flt = e.flt ∧ (e.setRoot p v).dma = e.dma ∧
    (e.setRoot p v).txqs = e.txqs ∧ (e.setRoot p v).rxqs = e.rxqs ∧ (e.setRoot p v).eqs = e.eqs ∧
    (e.setRoot p v).vecs = e.vecs ∧ (e.setRoot p v).irqs = e.irqs ∧ (e.setRoot p v).irqStall = e.irqStall ∧
    (e.setRoot p v).txHold = e.txHold ∧ (e.setRoot p v).ports = e.ports ∧ (e.setRoot p v).slots = e.slots ∧
    (e.setRoot p v).cages = e.cages ∧ (e.setRoot p v).steer = e.steer ∧ (e.setRoot p v).off = e.off ∧
    (e.setRoot p v).time = e.time ∧ (e.setRoot p v).carry = e.carry ∧ (e.setRoot p v).lcp = e.lcp ∧
    (e.setRoot p v).pwr = e.pwr ∧ (e.setRoot p v).pair = e.pair ∧ (e.setRoot p v).tally = e.tally ∧
    (e.setRoot p v).start = e.start ∧ (e.setRoot p v).nextRx = e.nextRx ∧ (e.setRoot p v).free = e.free ∧
    (e.setRoot p v).outs = e.outs :=
  ⟨rfl, rfl, rfl, rfl, rfl, rfl, rfl, rfl, rfl, rfl, rfl, rfl, rfl, rfl, rfl, rfl, rfl, rfl, rfl, rfl, rfl, rfl, rfl, rfl, rfl, rfl⟩

@[simp] theorem Eng.setRoot_reads (e : Eng) (p : PortId) (v : Root) :
    (∀ f' : Fn, (e.setRoot p v).fn f' = e.fn f') ∧ (∀ t' : TxqId, (e.setRoot p v).txq t' = e.txq t') ∧
    (∀ r' : RxqId, (e.setRoot p v).rxq r' = e.rxq r') ∧ (∀ q' : EqId, (e.setRoot p v).eq_ q' = e.eq_ q') ∧
    (∀ v' : Nat, (e.setRoot p v).vec v' = e.vec v') ∧ (∀ p' : PortId, (e.setRoot p v).slot p' = e.slot p') ∧
    (∀ p' : PortId, (e.setRoot p v).port p' = e.port p') ∧ (∀ c' : Cage, (e.setRoot p v).cage c' = e.cage c') ∧
    (∀ h' : ChId, (e.setRoot p v).chan h' = e.chan h') ∧ (∀ b' : TbId, (e.setRoot p v).tb b' = e.tb b') ∧
    (∀ t' : ThreadId, (e.setRoot p v).thread t' = e.thread t') ∧ (∀ i' : Fin 4096, (e.setRoot p v).policer i' = e.policer i') ∧
    (e.setRoot p v).standby = e.standby ∧ (e.setRoot p v).journals = e.journals ∧ (e.setRoot p v).handing = e.handing ∧
    (e.setRoot p v).now = e.now ∧ (e.setRoot p v).tb0 = e.tb0 ∧ (e.setRoot p v).collecting = e.collecting :=
  ⟨fun _ => rfl, fun _ => rfl, fun _ => rfl, fun _ => rfl, fun _ => rfl, fun _ => rfl, fun _ => rfl, fun _ => rfl, fun _ => rfl, fun _ => rfl, fun _ => rfl, fun _ => rfl, rfl, rfl, rfl, rfl, rfl, rfl⟩

@[simp] theorem Eng.setPolicer_frame (e : Eng) (i : Fin 4096) (v : Policer) :
    (e.setPolicer i v).fns = e.fns ∧ (e.setPolicer i v).ctl = e.ctl ∧ (e.setPolicer i v).flt = e.flt ∧
    (e.setPolicer i v).dma = e.dma ∧ (e.setPolicer i v).txqs = e.txqs ∧ (e.setPolicer i v).rxqs = e.rxqs ∧
    (e.setPolicer i v).eqs = e.eqs ∧ (e.setPolicer i v).vecs = e.vecs ∧ (e.setPolicer i v).irqs = e.irqs ∧
    (e.setPolicer i v).irqStall = e.irqStall ∧ (e.setPolicer i v).txHold = e.txHold ∧ (e.setPolicer i v).ports = e.ports ∧
    (e.setPolicer i v).slots = e.slots ∧ (e.setPolicer i v).cages = e.cages ∧ (e.setPolicer i v).dealer = e.dealer ∧
    (e.setPolicer i v).off = e.off ∧ (e.setPolicer i v).time = e.time ∧ (e.setPolicer i v).carry = e.carry ∧
    (e.setPolicer i v).lcp = e.lcp ∧ (e.setPolicer i v).pwr = e.pwr ∧ (e.setPolicer i v).pair = e.pair ∧
    (e.setPolicer i v).tally = e.tally ∧ (e.setPolicer i v).start = e.start ∧ (e.setPolicer i v).nextRx = e.nextRx ∧
    (e.setPolicer i v).free = e.free ∧ (e.setPolicer i v).outs = e.outs :=
  ⟨rfl, rfl, rfl, rfl, rfl, rfl, rfl, rfl, rfl, rfl, rfl, rfl, rfl, rfl, rfl, rfl, rfl, rfl, rfl, rfl, rfl, rfl, rfl, rfl, rfl, rfl⟩

@[simp] theorem Eng.setPolicer_reads (e : Eng) (i : Fin 4096) (v : Policer) :
    (∀ f' : Fn, (e.setPolicer i v).fn f' = e.fn f') ∧ (∀ t' : TxqId, (e.setPolicer i v).txq t' = e.txq t') ∧
    (∀ r' : RxqId, (e.setPolicer i v).rxq r' = e.rxq r') ∧ (∀ q' : EqId, (e.setPolicer i v).eq_ q' = e.eq_ q') ∧
    (∀ v' : Nat, (e.setPolicer i v).vec v' = e.vec v') ∧ (∀ p' : PortId, (e.setPolicer i v).slot p' = e.slot p') ∧
    (∀ p' : PortId, (e.setPolicer i v).port p' = e.port p') ∧ (∀ c' : Cage, (e.setPolicer i v).cage c' = e.cage c') ∧
    (∀ h' : ChId, (e.setPolicer i v).chan h' = e.chan h') ∧ (∀ b' : TbId, (e.setPolicer i v).tb b' = e.tb b') ∧
    (∀ t' : ThreadId, (e.setPolicer i v).thread t' = e.thread t') ∧ (∀ q' : TxqId, (e.setPolicer i v).leaf q' = e.leaf q') ∧
    (∀ p' : PortId, (e.setPolicer i v).root p' = e.root p') ∧ (e.setPolicer i v).standby = e.standby ∧
    (e.setPolicer i v).journals = e.journals ∧ (e.setPolicer i v).handing = e.handing ∧ (e.setPolicer i v).now = e.now ∧
    (e.setPolicer i v).tb0 = e.tb0 ∧ (e.setPolicer i v).collecting = e.collecting :=
  ⟨fun _ => rfl, fun _ => rfl, fun _ => rfl, fun _ => rfl, fun _ => rfl, fun _ => rfl, fun _ => rfl, fun _ => rfl, fun _ => rfl, fun _ => rfl, fun _ => rfl, fun _ => rfl, fun _ => rfl, rfl, rfl, rfl, rfl, rfl, rfl⟩

@[simp] theorem Eng.raiseEv_frame (e : Eng) (v : FaultEv) :
    (e.raiseEv v).fns = e.fns ∧ (e.raiseEv v).ctl = e.ctl ∧ (e.raiseEv v).dma = e.dma ∧ (e.raiseEv v).txqs = e.txqs ∧
    (e.raiseEv v).rxqs = e.rxqs ∧ (e.raiseEv v).eqs = e.eqs ∧ (e.raiseEv v).vecs = e.vecs ∧ (e.raiseEv v).irqs = e.irqs ∧
    (e.raiseEv v).irqStall = e.irqStall ∧ (e.raiseEv v).txHold = e.txHold ∧ (e.raiseEv v).ports = e.ports ∧
    (e.raiseEv v).slots = e.slots ∧ (e.raiseEv v).cages = e.cages ∧ (e.raiseEv v).steer = e.steer ∧
    (e.raiseEv v).dealer = e.dealer ∧ (e.raiseEv v).off = e.off ∧ (e.raiseEv v).time = e.time ∧ (e.raiseEv v).carry = e.carry ∧
    (e.raiseEv v).lcp = e.lcp ∧ (e.raiseEv v).pwr = e.pwr ∧ (e.raiseEv v).pair = e.pair ∧ (e.raiseEv v).tally = e.tally ∧
    (e.raiseEv v).start = e.start ∧ (e.raiseEv v).nextRx = e.nextRx ∧ (e.raiseEv v).free = e.free ∧
    (e.raiseEv v).outs = e.outs :=
  ⟨rfl, rfl, rfl, rfl, rfl, rfl, rfl, rfl, rfl, rfl, rfl, rfl, rfl, rfl, rfl, rfl, rfl, rfl, rfl, rfl, rfl, rfl, rfl, rfl, rfl, rfl⟩

@[simp] theorem Eng.raiseEv_reads (e : Eng) (v : FaultEv) :
    (∀ f' : Fn, (e.raiseEv v).fn f' = e.fn f') ∧ (∀ t' : TxqId, (e.raiseEv v).txq t' = e.txq t') ∧
    (∀ r' : RxqId, (e.raiseEv v).rxq r' = e.rxq r') ∧ (∀ q' : EqId, (e.raiseEv v).eq_ q' = e.eq_ q') ∧
    (∀ v' : Nat, (e.raiseEv v).vec v' = e.vec v') ∧ (∀ p' : PortId, (e.raiseEv v).slot p' = e.slot p') ∧
    (∀ p' : PortId, (e.raiseEv v).port p' = e.port p') ∧ (∀ c' : Cage, (e.raiseEv v).cage c' = e.cage c') ∧
    (∀ h' : ChId, (e.raiseEv v).chan h' = e.chan h') ∧ (∀ b' : TbId, (e.raiseEv v).tb b' = e.tb b') ∧
    (∀ t' : ThreadId, (e.raiseEv v).thread t' = e.thread t') ∧ (∀ q' : TxqId, (e.raiseEv v).leaf q' = e.leaf q') ∧
    (∀ p' : PortId, (e.raiseEv v).root p' = e.root p') ∧ (∀ i' : Fin 4096, (e.raiseEv v).policer i' = e.policer i') ∧
    (e.raiseEv v).standby = e.standby ∧ (e.raiseEv v).journals = e.journals ∧ (e.raiseEv v).handing = e.handing ∧
    (e.raiseEv v).now = e.now ∧ (e.raiseEv v).tb0 = e.tb0 ∧ (e.raiseEv v).collecting = e.collecting :=
  ⟨fun _ => rfl, fun _ => rfl, fun _ => rfl, fun _ => rfl, fun _ => rfl, fun _ => rfl, fun _ => rfl, fun _ => rfl, fun _ => rfl, fun _ => rfl, fun _ => rfl, fun _ => rfl, fun _ => rfl, fun _ => rfl, rfl, rfl, rfl, rfl, rfl, rfl⟩

@[simp] theorem Eng.fail_frame (e : Eng) (src : Fin 64) (d m : Nat) :
    (e.fail src d m).fns = e.fns ∧ (e.fail src d m).ctl = e.ctl ∧ (e.fail src d m).dma = e.dma ∧
    (e.fail src d m).txqs = e.txqs ∧ (e.fail src d m).rxqs = e.rxqs ∧ (e.fail src d m).eqs = e.eqs ∧
    (e.fail src d m).vecs = e.vecs ∧ (e.fail src d m).irqs = e.irqs ∧ (e.fail src d m).irqStall = e.irqStall ∧
    (e.fail src d m).txHold = e.txHold ∧ (e.fail src d m).ports = e.ports ∧ (e.fail src d m).slots = e.slots ∧
    (e.fail src d m).cages = e.cages ∧ (e.fail src d m).steer = e.steer ∧ (e.fail src d m).dealer = e.dealer ∧
    (e.fail src d m).off = e.off ∧ (e.fail src d m).time = e.time ∧ (e.fail src d m).carry = e.carry ∧
    (e.fail src d m).lcp = e.lcp ∧ (e.fail src d m).pwr = e.pwr ∧ (e.fail src d m).pair = e.pair ∧
    (e.fail src d m).tally = e.tally ∧ (e.fail src d m).start = e.start ∧ (e.fail src d m).nextRx = e.nextRx ∧
    (e.fail src d m).free = e.free ∧ (e.fail src d m).outs = e.outs :=
  ⟨rfl, rfl, rfl, rfl, rfl, rfl, rfl, rfl, rfl, rfl, rfl, rfl, rfl, rfl, rfl, rfl, rfl, rfl, rfl, rfl, rfl, rfl, rfl, rfl, rfl, rfl⟩

@[simp] theorem Eng.fail_reads (e : Eng) (src : Fin 64) (d m : Nat) :
    (∀ f' : Fn, (e.fail src d m).fn f' = e.fn f') ∧ (∀ t' : TxqId, (e.fail src d m).txq t' = e.txq t') ∧
    (∀ r' : RxqId, (e.fail src d m).rxq r' = e.rxq r') ∧ (∀ q' : EqId, (e.fail src d m).eq_ q' = e.eq_ q') ∧
    (∀ v' : Nat, (e.fail src d m).vec v' = e.vec v') ∧ (∀ p' : PortId, (e.fail src d m).slot p' = e.slot p') ∧
    (∀ p' : PortId, (e.fail src d m).port p' = e.port p') ∧ (∀ c' : Cage, (e.fail src d m).cage c' = e.cage c') ∧
    (∀ h' : ChId, (e.fail src d m).chan h' = e.chan h') ∧ (∀ b' : TbId, (e.fail src d m).tb b' = e.tb b') ∧
    (∀ t' : ThreadId, (e.fail src d m).thread t' = e.thread t') ∧ (∀ q' : TxqId, (e.fail src d m).leaf q' = e.leaf q') ∧
    (∀ p' : PortId, (e.fail src d m).root p' = e.root p') ∧ (∀ i' : Fin 4096, (e.fail src d m).policer i' = e.policer i') ∧
    (e.fail src d m).standby = e.standby ∧ (e.fail src d m).journals = e.journals ∧ (e.fail src d m).handing = e.handing ∧
    (e.fail src d m).now = e.now ∧ (e.fail src d m).tb0 = e.tb0 ∧ (e.fail src d m).collecting = e.collecting :=
  ⟨fun _ => rfl, fun _ => rfl, fun _ => rfl, fun _ => rfl, fun _ => rfl, fun _ => rfl, fun _ => rfl, fun _ => rfl, fun _ => rfl, fun _ => rfl, fun _ => rfl, fun _ => rfl, fun _ => rfl, fun _ => rfl, rfl, rfl, rfl, rfl, rfl, rfl⟩

@[simp] theorem Eng.badAccess_frame (e : Eng) (f : Fn) (o : Nat) :
    (e.badAccess f o).fns = e.fns ∧ (e.badAccess f o).ctl = e.ctl ∧ (e.badAccess f o).dma = e.dma ∧
    (e.badAccess f o).txqs = e.txqs ∧ (e.badAccess f o).rxqs = e.rxqs ∧ (e.badAccess f o).eqs = e.eqs ∧
    (e.badAccess f o).vecs = e.vecs ∧ (e.badAccess f o).irqs = e.irqs ∧ (e.badAccess f o).irqStall = e.irqStall ∧
    (e.badAccess f o).txHold = e.txHold ∧ (e.badAccess f o).ports = e.ports ∧ (e.badAccess f o).slots = e.slots ∧
    (e.badAccess f o).cages = e.cages ∧ (e.badAccess f o).steer = e.steer ∧ (e.badAccess f o).dealer = e.dealer ∧
    (e.badAccess f o).off = e.off ∧ (e.badAccess f o).time = e.time ∧ (e.badAccess f o).carry = e.carry ∧
    (e.badAccess f o).lcp = e.lcp ∧ (e.badAccess f o).pwr = e.pwr ∧ (e.badAccess f o).pair = e.pair ∧
    (e.badAccess f o).tally = e.tally ∧ (e.badAccess f o).start = e.start ∧ (e.badAccess f o).nextRx = e.nextRx ∧
    (e.badAccess f o).free = e.free ∧ (e.badAccess f o).outs = e.outs :=
  ⟨rfl, rfl, rfl, rfl, rfl, rfl, rfl, rfl, rfl, rfl, rfl, rfl, rfl, rfl, rfl, rfl, rfl, rfl, rfl, rfl, rfl, rfl, rfl, rfl, rfl, rfl⟩

@[simp] theorem Eng.badAccess_reads (e : Eng) (f : Fn) (o : Nat) :
    (∀ f' : Fn, (e.badAccess f o).fn f' = e.fn f') ∧ (∀ t' : TxqId, (e.badAccess f o).txq t' = e.txq t') ∧
    (∀ r' : RxqId, (e.badAccess f o).rxq r' = e.rxq r') ∧ (∀ q' : EqId, (e.badAccess f o).eq_ q' = e.eq_ q') ∧
    (∀ v' : Nat, (e.badAccess f o).vec v' = e.vec v') ∧ (∀ p' : PortId, (e.badAccess f o).slot p' = e.slot p') ∧
    (∀ p' : PortId, (e.badAccess f o).port p' = e.port p') ∧ (∀ c' : Cage, (e.badAccess f o).cage c' = e.cage c') ∧
    (∀ h' : ChId, (e.badAccess f o).chan h' = e.chan h') ∧ (∀ b' : TbId, (e.badAccess f o).tb b' = e.tb b') ∧
    (∀ t' : ThreadId, (e.badAccess f o).thread t' = e.thread t') ∧ (∀ q' : TxqId, (e.badAccess f o).leaf q' = e.leaf q') ∧
    (∀ p' : PortId, (e.badAccess f o).root p' = e.root p') ∧ (∀ i' : Fin 4096, (e.badAccess f o).policer i' = e.policer i') ∧
    (e.badAccess f o).standby = e.standby ∧ (e.badAccess f o).journals = e.journals ∧ (e.badAccess f o).handing = e.handing ∧
    (e.badAccess f o).now = e.now ∧ (e.badAccess f o).tb0 = e.tb0 ∧ (e.badAccess f o).collecting = e.collecting :=
  ⟨fun _ => rfl, fun _ => rfl, fun _ => rfl, fun _ => rfl, fun _ => rfl, fun _ => rfl, fun _ => rfl, fun _ => rfl, fun _ => rfl, fun _ => rfl, fun _ => rfl, fun _ => rfl, fun _ => rfl, fun _ => rfl, rfl, rfl, rfl, rfl, rfl, rfl⟩

@[simp] theorem Eng.badMailbox_frame (e : Eng) (f : Fn) (o : Nat) :
    (e.badMailbox f o).fns = e.fns ∧ (e.badMailbox f o).ctl = e.ctl ∧ (e.badMailbox f o).dma = e.dma ∧
    (e.badMailbox f o).txqs = e.txqs ∧ (e.badMailbox f o).rxqs = e.rxqs ∧ (e.badMailbox f o).eqs = e.eqs ∧
    (e.badMailbox f o).vecs = e.vecs ∧ (e.badMailbox f o).irqs = e.irqs ∧ (e.badMailbox f o).irqStall = e.irqStall ∧
    (e.badMailbox f o).txHold = e.txHold ∧ (e.badMailbox f o).ports = e.ports ∧ (e.badMailbox f o).slots = e.slots ∧
    (e.badMailbox f o).cages = e.cages ∧ (e.badMailbox f o).steer = e.steer ∧ (e.badMailbox f o).dealer = e.dealer ∧
    (e.badMailbox f o).off = e.off ∧ (e.badMailbox f o).time = e.time ∧ (e.badMailbox f o).carry = e.carry ∧
    (e.badMailbox f o).lcp = e.lcp ∧ (e.badMailbox f o).pwr = e.pwr ∧ (e.badMailbox f o).pair = e.pair ∧
    (e.badMailbox f o).tally = e.tally ∧ (e.badMailbox f o).start = e.start ∧ (e.badMailbox f o).nextRx = e.nextRx ∧
    (e.badMailbox f o).free = e.free ∧ (e.badMailbox f o).outs = e.outs :=
  ⟨rfl, rfl, rfl, rfl, rfl, rfl, rfl, rfl, rfl, rfl, rfl, rfl, rfl, rfl, rfl, rfl, rfl, rfl, rfl, rfl, rfl, rfl, rfl, rfl, rfl, rfl⟩

@[simp] theorem Eng.badMailbox_reads (e : Eng) (f : Fn) (o : Nat) :
    (∀ f' : Fn, (e.badMailbox f o).fn f' = e.fn f') ∧ (∀ t' : TxqId, (e.badMailbox f o).txq t' = e.txq t') ∧
    (∀ r' : RxqId, (e.badMailbox f o).rxq r' = e.rxq r') ∧ (∀ q' : EqId, (e.badMailbox f o).eq_ q' = e.eq_ q') ∧
    (∀ v' : Nat, (e.badMailbox f o).vec v' = e.vec v') ∧ (∀ p' : PortId, (e.badMailbox f o).slot p' = e.slot p') ∧
    (∀ p' : PortId, (e.badMailbox f o).port p' = e.port p') ∧ (∀ c' : Cage, (e.badMailbox f o).cage c' = e.cage c') ∧
    (∀ h' : ChId, (e.badMailbox f o).chan h' = e.chan h') ∧ (∀ b' : TbId, (e.badMailbox f o).tb b' = e.tb b') ∧
    (∀ t' : ThreadId, (e.badMailbox f o).thread t' = e.thread t') ∧ (∀ q' : TxqId, (e.badMailbox f o).leaf q' = e.leaf q') ∧
    (∀ p' : PortId, (e.badMailbox f o).root p' = e.root p') ∧ (∀ i' : Fin 4096, (e.badMailbox f o).policer i' = e.policer i') ∧
    (e.badMailbox f o).standby = e.standby ∧ (e.badMailbox f o).journals = e.journals ∧
    (e.badMailbox f o).handing = e.handing ∧ (e.badMailbox f o).now = e.now ∧ (e.badMailbox f o).tb0 = e.tb0 ∧
    (e.badMailbox f o).collecting = e.collecting :=
  ⟨fun _ => rfl, fun _ => rfl, fun _ => rfl, fun _ => rfl, fun _ => rfl, fun _ => rfl, fun _ => rfl, fun _ => rfl, fun _ => rfl, fun _ => rfl, fun _ => rfl, fun _ => rfl, fun _ => rfl, fun _ => rfl, rfl, rfl, rfl, rfl, rfl, rfl⟩

@[simp] theorem Eng.emit_frame (e : Eng) (o : Out) :
    (e.emit o).fns = e.fns ∧ (e.emit o).ctl = e.ctl ∧ (e.emit o).flt = e.flt ∧ (e.emit o).dma = e.dma ∧
    (e.emit o).txqs = e.txqs ∧ (e.emit o).rxqs = e.rxqs ∧ (e.emit o).eqs = e.eqs ∧ (e.emit o).vecs = e.vecs ∧
    (e.emit o).irqs = e.irqs ∧ (e.emit o).irqStall = e.irqStall ∧ (e.emit o).txHold = e.txHold ∧ (e.emit o).ports = e.ports ∧
    (e.emit o).slots = e.slots ∧ (e.emit o).cages = e.cages ∧ (e.emit o).steer = e.steer ∧ (e.emit o).dealer = e.dealer ∧
    (e.emit o).off = e.off ∧ (e.emit o).time = e.time ∧ (e.emit o).carry = e.carry ∧ (e.emit o).lcp = e.lcp ∧
    (e.emit o).pwr = e.pwr ∧ (e.emit o).pair = e.pair ∧ (e.emit o).tally = e.tally ∧ (e.emit o).start = e.start ∧
    (e.emit o).nextRx = e.nextRx ∧ (e.emit o).free = e.free :=
  ⟨rfl, rfl, rfl, rfl, rfl, rfl, rfl, rfl, rfl, rfl, rfl, rfl, rfl, rfl, rfl, rfl, rfl, rfl, rfl, rfl, rfl, rfl, rfl, rfl, rfl, rfl⟩

@[simp] theorem Eng.emit_reads (e : Eng) (o : Out) :
    (∀ f' : Fn, (e.emit o).fn f' = e.fn f') ∧ (∀ t' : TxqId, (e.emit o).txq t' = e.txq t') ∧
    (∀ r' : RxqId, (e.emit o).rxq r' = e.rxq r') ∧ (∀ q' : EqId, (e.emit o).eq_ q' = e.eq_ q') ∧
    (∀ v' : Nat, (e.emit o).vec v' = e.vec v') ∧ (∀ p' : PortId, (e.emit o).slot p' = e.slot p') ∧
    (∀ p' : PortId, (e.emit o).port p' = e.port p') ∧ (∀ c' : Cage, (e.emit o).cage c' = e.cage c') ∧
    (∀ h' : ChId, (e.emit o).chan h' = e.chan h') ∧ (∀ b' : TbId, (e.emit o).tb b' = e.tb b') ∧
    (∀ t' : ThreadId, (e.emit o).thread t' = e.thread t') ∧ (∀ q' : TxqId, (e.emit o).leaf q' = e.leaf q') ∧
    (∀ p' : PortId, (e.emit o).root p' = e.root p') ∧ (∀ i' : Fin 4096, (e.emit o).policer i' = e.policer i') ∧
    (e.emit o).standby = e.standby ∧ (e.emit o).journals = e.journals ∧ (e.emit o).handing = e.handing ∧
    (e.emit o).now = e.now ∧ (e.emit o).tb0 = e.tb0 ∧ (e.emit o).collecting = e.collecting :=
  ⟨fun _ => rfl, fun _ => rfl, fun _ => rfl, fun _ => rfl, fun _ => rfl, fun _ => rfl, fun _ => rfl, fun _ => rfl, fun _ => rfl, fun _ => rfl, fun _ => rfl, fun _ => rfl, fun _ => rfl, fun _ => rfl, rfl, rfl, rfl, rfl, rfl, rfl⟩

@[simp] theorem Eng.stat_frame (e : Eng) (p : PortId) (i n : Nat) :
    (e.stat p i n).fns = e.fns ∧ (e.stat p i n).ctl = e.ctl ∧ (e.stat p i n).flt = e.flt ∧ (e.stat p i n).dma = e.dma ∧
    (e.stat p i n).txqs = e.txqs ∧ (e.stat p i n).rxqs = e.rxqs ∧ (e.stat p i n).eqs = e.eqs ∧ (e.stat p i n).vecs = e.vecs ∧
    (e.stat p i n).irqs = e.irqs ∧ (e.stat p i n).irqStall = e.irqStall ∧ (e.stat p i n).txHold = e.txHold ∧
    (e.stat p i n).slots = e.slots ∧ (e.stat p i n).cages = e.cages ∧ (e.stat p i n).steer = e.steer ∧
    (e.stat p i n).dealer = e.dealer ∧ (e.stat p i n).off = e.off ∧ (e.stat p i n).time = e.time ∧
    (e.stat p i n).carry = e.carry ∧ (e.stat p i n).lcp = e.lcp ∧ (e.stat p i n).pwr = e.pwr ∧ (e.stat p i n).pair = e.pair ∧
    (e.stat p i n).tally = e.tally ∧ (e.stat p i n).start = e.start ∧ (e.stat p i n).nextRx = e.nextRx ∧
    (e.stat p i n).free = e.free ∧ (e.stat p i n).outs = e.outs :=
  ⟨rfl, rfl, rfl, rfl, rfl, rfl, rfl, rfl, rfl, rfl, rfl, rfl, rfl, rfl, rfl, rfl, rfl, rfl, rfl, rfl, rfl, rfl, rfl, rfl, rfl, rfl⟩

@[simp] theorem Eng.stat_reads (e : Eng) (p : PortId) (i n : Nat) :
    (∀ f' : Fn, (e.stat p i n).fn f' = e.fn f') ∧ (∀ t' : TxqId, (e.stat p i n).txq t' = e.txq t') ∧
    (∀ r' : RxqId, (e.stat p i n).rxq r' = e.rxq r') ∧ (∀ q' : EqId, (e.stat p i n).eq_ q' = e.eq_ q') ∧
    (∀ v' : Nat, (e.stat p i n).vec v' = e.vec v') ∧ (∀ p' : PortId, (e.stat p i n).slot p' = e.slot p') ∧
    (∀ c' : Cage, (e.stat p i n).cage c' = e.cage c') ∧ (∀ h' : ChId, (e.stat p i n).chan h' = e.chan h') ∧
    (∀ b' : TbId, (e.stat p i n).tb b' = e.tb b') ∧ (∀ t' : ThreadId, (e.stat p i n).thread t' = e.thread t') ∧
    (∀ q' : TxqId, (e.stat p i n).leaf q' = e.leaf q') ∧ (∀ p' : PortId, (e.stat p i n).root p' = e.root p') ∧
    (∀ i' : Fin 4096, (e.stat p i n).policer i' = e.policer i') ∧ (e.stat p i n).standby = e.standby ∧
    (e.stat p i n).journals = e.journals ∧ (e.stat p i n).handing = e.handing ∧ (e.stat p i n).now = e.now ∧
    (e.stat p i n).tb0 = e.tb0 ∧ (e.stat p i n).collecting = e.collecting :=
  ⟨fun _ => rfl, fun _ => rfl, fun _ => rfl, fun _ => rfl, fun _ => rfl, fun _ => rfl, fun _ => rfl, fun _ => rfl, fun _ => rfl, fun _ => rfl, fun _ => rfl, fun _ => rfl, fun _ => rfl, rfl, rfl, rfl, rfl, rfl, rfl⟩

@[simp] theorem Eng.steerStat_frame (e : Eng) (p : PortId) (i n : Nat) :
    (e.steerStat p i n).fns = e.fns ∧ (e.steerStat p i n).ctl = e.ctl ∧ (e.steerStat p i n).flt = e.flt ∧
    (e.steerStat p i n).dma = e.dma ∧ (e.steerStat p i n).txqs = e.txqs ∧ (e.steerStat p i n).rxqs = e.rxqs ∧
    (e.steerStat p i n).eqs = e.eqs ∧ (e.steerStat p i n).vecs = e.vecs ∧ (e.steerStat p i n).irqs = e.irqs ∧
    (e.steerStat p i n).irqStall = e.irqStall ∧ (e.steerStat p i n).txHold = e.txHold ∧ (e.steerStat p i n).slots = e.slots ∧
    (e.steerStat p i n).cages = e.cages ∧ (e.steerStat p i n).steer = e.steer ∧ (e.steerStat p i n).dealer = e.dealer ∧
    (e.steerStat p i n).off = e.off ∧ (e.steerStat p i n).time = e.time ∧ (e.steerStat p i n).carry = e.carry ∧
    (e.steerStat p i n).lcp = e.lcp ∧ (e.steerStat p i n).pwr = e.pwr ∧ (e.steerStat p i n).pair = e.pair ∧
    (e.steerStat p i n).tally = e.tally ∧ (e.steerStat p i n).start = e.start ∧ (e.steerStat p i n).nextRx = e.nextRx ∧
    (e.steerStat p i n).free = e.free ∧ (e.steerStat p i n).outs = e.outs :=
  ⟨rfl, rfl, rfl, rfl, rfl, rfl, rfl, rfl, rfl, rfl, rfl, rfl, rfl, rfl, rfl, rfl, rfl, rfl, rfl, rfl, rfl, rfl, rfl, rfl, rfl, rfl⟩

@[simp] theorem Eng.steerStat_reads (e : Eng) (p : PortId) (i n : Nat) :
    (∀ f' : Fn, (e.steerStat p i n).fn f' = e.fn f') ∧ (∀ t' : TxqId, (e.steerStat p i n).txq t' = e.txq t') ∧
    (∀ r' : RxqId, (e.steerStat p i n).rxq r' = e.rxq r') ∧ (∀ q' : EqId, (e.steerStat p i n).eq_ q' = e.eq_ q') ∧
    (∀ v' : Nat, (e.steerStat p i n).vec v' = e.vec v') ∧ (∀ p' : PortId, (e.steerStat p i n).slot p' = e.slot p') ∧
    (∀ c' : Cage, (e.steerStat p i n).cage c' = e.cage c') ∧ (∀ h' : ChId, (e.steerStat p i n).chan h' = e.chan h') ∧
    (∀ b' : TbId, (e.steerStat p i n).tb b' = e.tb b') ∧ (∀ t' : ThreadId, (e.steerStat p i n).thread t' = e.thread t') ∧
    (∀ q' : TxqId, (e.steerStat p i n).leaf q' = e.leaf q') ∧ (∀ p' : PortId, (e.steerStat p i n).root p' = e.root p') ∧
    (∀ i' : Fin 4096, (e.steerStat p i n).policer i' = e.policer i') ∧ (e.steerStat p i n).standby = e.standby ∧
    (e.steerStat p i n).journals = e.journals ∧ (e.steerStat p i n).handing = e.handing ∧ (e.steerStat p i n).now = e.now ∧
    (e.steerStat p i n).tb0 = e.tb0 ∧ (e.steerStat p i n).collecting = e.collecting :=
  ⟨fun _ => rfl, fun _ => rfl, fun _ => rfl, fun _ => rfl, fun _ => rfl, fun _ => rfl, fun _ => rfl, fun _ => rfl, fun _ => rfl, fun _ => rfl, fun _ => rfl, fun _ => rfl, fun _ => rfl, rfl, rfl, rfl, rfl, rfl, rfl⟩

@[simp] theorem Eng.xcnt_frame (e : Eng) (g : XltCnt → XltCnt) :
    (e.xcnt g).fns = e.fns ∧ (e.xcnt g).ctl = e.ctl ∧ (e.xcnt g).flt = e.flt ∧ (e.xcnt g).txqs = e.txqs ∧
    (e.xcnt g).rxqs = e.rxqs ∧ (e.xcnt g).eqs = e.eqs ∧ (e.xcnt g).vecs = e.vecs ∧ (e.xcnt g).irqs = e.irqs ∧
    (e.xcnt g).irqStall = e.irqStall ∧ (e.xcnt g).txHold = e.txHold ∧ (e.xcnt g).ports = e.ports ∧ (e.xcnt g).slots = e.slots ∧
    (e.xcnt g).cages = e.cages ∧ (e.xcnt g).steer = e.steer ∧ (e.xcnt g).dealer = e.dealer ∧ (e.xcnt g).off = e.off ∧
    (e.xcnt g).time = e.time ∧ (e.xcnt g).carry = e.carry ∧ (e.xcnt g).lcp = e.lcp ∧ (e.xcnt g).pwr = e.pwr ∧
    (e.xcnt g).pair = e.pair ∧ (e.xcnt g).tally = e.tally ∧ (e.xcnt g).start = e.start ∧ (e.xcnt g).nextRx = e.nextRx ∧
    (e.xcnt g).free = e.free ∧ (e.xcnt g).outs = e.outs :=
  ⟨rfl, rfl, rfl, rfl, rfl, rfl, rfl, rfl, rfl, rfl, rfl, rfl, rfl, rfl, rfl, rfl, rfl, rfl, rfl, rfl, rfl, rfl, rfl, rfl, rfl, rfl⟩

@[simp] theorem Eng.xcnt_reads (e : Eng) (g : XltCnt → XltCnt) :
    (∀ f' : Fn, (e.xcnt g).fn f' = e.fn f') ∧ (∀ t' : TxqId, (e.xcnt g).txq t' = e.txq t') ∧
    (∀ r' : RxqId, (e.xcnt g).rxq r' = e.rxq r') ∧ (∀ q' : EqId, (e.xcnt g).eq_ q' = e.eq_ q') ∧
    (∀ v' : Nat, (e.xcnt g).vec v' = e.vec v') ∧ (∀ p' : PortId, (e.xcnt g).slot p' = e.slot p') ∧
    (∀ p' : PortId, (e.xcnt g).port p' = e.port p') ∧ (∀ c' : Cage, (e.xcnt g).cage c' = e.cage c') ∧
    (∀ h' : ChId, (e.xcnt g).chan h' = e.chan h') ∧ (∀ b' : TbId, (e.xcnt g).tb b' = e.tb b') ∧
    (∀ t' : ThreadId, (e.xcnt g).thread t' = e.thread t') ∧ (∀ q' : TxqId, (e.xcnt g).leaf q' = e.leaf q') ∧
    (∀ p' : PortId, (e.xcnt g).root p' = e.root p') ∧ (∀ i' : Fin 4096, (e.xcnt g).policer i' = e.policer i') ∧
    (e.xcnt g).standby = e.standby ∧ (e.xcnt g).journals = e.journals ∧ (e.xcnt g).handing = e.handing ∧
    (e.xcnt g).now = e.now ∧ (e.xcnt g).tb0 = e.tb0 ∧ (e.xcnt g).collecting = e.collecting :=
  ⟨fun _ => rfl, fun _ => rfl, fun _ => rfl, fun _ => rfl, fun _ => rfl, fun _ => rfl, fun _ => rfl, fun _ => rfl, fun _ => rfl, fun _ => rfl, fun _ => rfl, fun _ => rfl, fun _ => rfl, fun _ => rfl, rfl, rfl, rfl, rfl, rfl, rfl⟩

@[simp] theorem Eng.modFlt_frame (e : Eng) (g : FltSt → FltSt) :
    (e.modFlt g).fns = e.fns ∧ (e.modFlt g).ctl = e.ctl ∧ (e.modFlt g).dma = e.dma ∧ (e.modFlt g).txqs = e.txqs ∧
    (e.modFlt g).rxqs = e.rxqs ∧ (e.modFlt g).eqs = e.eqs ∧ (e.modFlt g).vecs = e.vecs ∧ (e.modFlt g).irqs = e.irqs ∧
    (e.modFlt g).irqStall = e.irqStall ∧ (e.modFlt g).txHold = e.txHold ∧ (e.modFlt g).ports = e.ports ∧
    (e.modFlt g).slots = e.slots ∧ (e.modFlt g).cages = e.cages ∧ (e.modFlt g).steer = e.steer ∧
    (e.modFlt g).dealer = e.dealer ∧ (e.modFlt g).off = e.off ∧ (e.modFlt g).time = e.time ∧ (e.modFlt g).carry = e.carry ∧
    (e.modFlt g).lcp = e.lcp ∧ (e.modFlt g).pwr = e.pwr ∧ (e.modFlt g).pair = e.pair ∧ (e.modFlt g).tally = e.tally ∧
    (e.modFlt g).start = e.start ∧ (e.modFlt g).nextRx = e.nextRx ∧ (e.modFlt g).free = e.free ∧ (e.modFlt g).outs = e.outs :=
  ⟨rfl, rfl, rfl, rfl, rfl, rfl, rfl, rfl, rfl, rfl, rfl, rfl, rfl, rfl, rfl, rfl, rfl, rfl, rfl, rfl, rfl, rfl, rfl, rfl, rfl, rfl⟩

@[simp] theorem Eng.modFlt_reads (e : Eng) (g : FltSt → FltSt) :
    (∀ f' : Fn, (e.modFlt g).fn f' = e.fn f') ∧ (∀ t' : TxqId, (e.modFlt g).txq t' = e.txq t') ∧
    (∀ r' : RxqId, (e.modFlt g).rxq r' = e.rxq r') ∧ (∀ q' : EqId, (e.modFlt g).eq_ q' = e.eq_ q') ∧
    (∀ v' : Nat, (e.modFlt g).vec v' = e.vec v') ∧ (∀ p' : PortId, (e.modFlt g).slot p' = e.slot p') ∧
    (∀ p' : PortId, (e.modFlt g).port p' = e.port p') ∧ (∀ c' : Cage, (e.modFlt g).cage c' = e.cage c') ∧
    (∀ h' : ChId, (e.modFlt g).chan h' = e.chan h') ∧ (∀ b' : TbId, (e.modFlt g).tb b' = e.tb b') ∧
    (∀ t' : ThreadId, (e.modFlt g).thread t' = e.thread t') ∧ (∀ q' : TxqId, (e.modFlt g).leaf q' = e.leaf q') ∧
    (∀ p' : PortId, (e.modFlt g).root p' = e.root p') ∧ (∀ i' : Fin 4096, (e.modFlt g).policer i' = e.policer i') ∧
    (e.modFlt g).standby = e.standby ∧ (e.modFlt g).journals = e.journals ∧ (e.modFlt g).handing = e.handing ∧
    (e.modFlt g).now = e.now ∧ (e.modFlt g).tb0 = e.tb0 ∧ (e.modFlt g).collecting = e.collecting :=
  ⟨fun _ => rfl, fun _ => rfl, fun _ => rfl, fun _ => rfl, fun _ => rfl, fun _ => rfl, fun _ => rfl, fun _ => rfl, fun _ => rfl, fun _ => rfl, fun _ => rfl, fun _ => rfl, fun _ => rfl, fun _ => rfl, rfl, rfl, rfl, rfl, rfl, rfl⟩

@[simp] theorem Eng.modStat_frame (e : Eng) (s : Nat) (g : SrcStat → SrcStat) :
    (e.modStat s g).fns = e.fns ∧ (e.modStat s g).ctl = e.ctl ∧ (e.modStat s g).dma = e.dma ∧ (e.modStat s g).txqs = e.txqs ∧
    (e.modStat s g).rxqs = e.rxqs ∧ (e.modStat s g).eqs = e.eqs ∧ (e.modStat s g).vecs = e.vecs ∧
    (e.modStat s g).irqs = e.irqs ∧ (e.modStat s g).irqStall = e.irqStall ∧ (e.modStat s g).txHold = e.txHold ∧
    (e.modStat s g).ports = e.ports ∧ (e.modStat s g).slots = e.slots ∧ (e.modStat s g).cages = e.cages ∧
    (e.modStat s g).steer = e.steer ∧ (e.modStat s g).dealer = e.dealer ∧ (e.modStat s g).off = e.off ∧
    (e.modStat s g).time = e.time ∧ (e.modStat s g).carry = e.carry ∧ (e.modStat s g).lcp = e.lcp ∧
    (e.modStat s g).pwr = e.pwr ∧ (e.modStat s g).pair = e.pair ∧ (e.modStat s g).tally = e.tally ∧
    (e.modStat s g).start = e.start ∧ (e.modStat s g).nextRx = e.nextRx ∧ (e.modStat s g).free = e.free ∧
    (e.modStat s g).outs = e.outs :=
  ⟨rfl, rfl, rfl, rfl, rfl, rfl, rfl, rfl, rfl, rfl, rfl, rfl, rfl, rfl, rfl, rfl, rfl, rfl, rfl, rfl, rfl, rfl, rfl, rfl, rfl, rfl⟩

@[simp] theorem Eng.modStat_reads (e : Eng) (s : Nat) (g : SrcStat → SrcStat) :
    (∀ f' : Fn, (e.modStat s g).fn f' = e.fn f') ∧ (∀ t' : TxqId, (e.modStat s g).txq t' = e.txq t') ∧
    (∀ r' : RxqId, (e.modStat s g).rxq r' = e.rxq r') ∧ (∀ q' : EqId, (e.modStat s g).eq_ q' = e.eq_ q') ∧
    (∀ v' : Nat, (e.modStat s g).vec v' = e.vec v') ∧ (∀ p' : PortId, (e.modStat s g).slot p' = e.slot p') ∧
    (∀ p' : PortId, (e.modStat s g).port p' = e.port p') ∧ (∀ c' : Cage, (e.modStat s g).cage c' = e.cage c') ∧
    (∀ h' : ChId, (e.modStat s g).chan h' = e.chan h') ∧ (∀ b' : TbId, (e.modStat s g).tb b' = e.tb b') ∧
    (∀ t' : ThreadId, (e.modStat s g).thread t' = e.thread t') ∧ (∀ q' : TxqId, (e.modStat s g).leaf q' = e.leaf q') ∧
    (∀ p' : PortId, (e.modStat s g).root p' = e.root p') ∧ (∀ i' : Fin 4096, (e.modStat s g).policer i' = e.policer i') ∧
    (e.modStat s g).standby = e.standby ∧ (e.modStat s g).journals = e.journals ∧ (e.modStat s g).handing = e.handing ∧
    (e.modStat s g).now = e.now ∧ (e.modStat s g).tb0 = e.tb0 ∧ (e.modStat s g).collecting = e.collecting :=
  ⟨fun _ => rfl, fun _ => rfl, fun _ => rfl, fun _ => rfl, fun _ => rfl, fun _ => rfl, fun _ => rfl, fun _ => rfl, fun _ => rfl, fun _ => rfl, fun _ => rfl, fun _ => rfl, fun _ => rfl, fun _ => rfl, rfl, rfl, rfl, rfl, rfl, rfl⟩

@[simp] theorem Eng.clear_frame (e : Eng) :
    (e.clear).fns = e.fns ∧ (e.clear).ctl = e.ctl ∧ (e.clear).flt = e.flt ∧ (e.clear).dma = e.dma ∧ (e.clear).txqs = e.txqs ∧
    (e.clear).rxqs = e.rxqs ∧ (e.clear).eqs = e.eqs ∧ (e.clear).vecs = e.vecs ∧ (e.clear).irqs = e.irqs ∧
    (e.clear).irqStall = e.irqStall ∧ (e.clear).txHold = e.txHold ∧ (e.clear).ports = e.ports ∧ (e.clear).slots = e.slots ∧
    (e.clear).cages = e.cages ∧ (e.clear).steer = e.steer ∧ (e.clear).dealer = e.dealer ∧ (e.clear).off = e.off ∧
    (e.clear).time = e.time ∧ (e.clear).carry = e.carry ∧ (e.clear).lcp = e.lcp ∧ (e.clear).pwr = e.pwr ∧
    (e.clear).pair = e.pair ∧ (e.clear).tally = e.tally ∧ (e.clear).start = e.start ∧ (e.clear).nextRx = e.nextRx ∧
    (e.clear).free = e.free :=
  ⟨rfl, rfl, rfl, rfl, rfl, rfl, rfl, rfl, rfl, rfl, rfl, rfl, rfl, rfl, rfl, rfl, rfl, rfl, rfl, rfl, rfl, rfl, rfl, rfl, rfl, rfl⟩

@[simp] theorem Eng.clear_reads (e : Eng) :
    (∀ f' : Fn, (e.clear).fn f' = e.fn f') ∧ (∀ t' : TxqId, (e.clear).txq t' = e.txq t') ∧
    (∀ r' : RxqId, (e.clear).rxq r' = e.rxq r') ∧ (∀ q' : EqId, (e.clear).eq_ q' = e.eq_ q') ∧
    (∀ v' : Nat, (e.clear).vec v' = e.vec v') ∧ (∀ p' : PortId, (e.clear).slot p' = e.slot p') ∧
    (∀ p' : PortId, (e.clear).port p' = e.port p') ∧ (∀ c' : Cage, (e.clear).cage c' = e.cage c') ∧
    (∀ h' : ChId, (e.clear).chan h' = e.chan h') ∧ (∀ b' : TbId, (e.clear).tb b' = e.tb b') ∧
    (∀ t' : ThreadId, (e.clear).thread t' = e.thread t') ∧ (∀ q' : TxqId, (e.clear).leaf q' = e.leaf q') ∧
    (∀ p' : PortId, (e.clear).root p' = e.root p') ∧ (∀ i' : Fin 4096, (e.clear).policer i' = e.policer i') ∧
    (e.clear).standby = e.standby ∧ (e.clear).journals = e.journals ∧ (e.clear).handing = e.handing ∧ (e.clear).now = e.now ∧
    (e.clear).tb0 = e.tb0 ∧ (e.clear).collecting = e.collecting :=
  ⟨fun _ => rfl, fun _ => rfl, fun _ => rfl, fun _ => rfl, fun _ => rfl, fun _ => rfl, fun _ => rfl, fun _ => rfl, fun _ => rfl, fun _ => rfl, fun _ => rfl, fun _ => rfl, fun _ => rfl, fun _ => rfl, rfl, rfl, rfl, rfl, rfl, rfl⟩

@[simp] theorem Eng.modPwr_frame (e : Eng) (g : PwrSt → PwrSt) :
    (e.modPwr g).fns = e.fns ∧ (e.modPwr g).ctl = e.ctl ∧ (e.modPwr g).flt = e.flt ∧ (e.modPwr g).dma = e.dma ∧
    (e.modPwr g).txqs = e.txqs ∧ (e.modPwr g).rxqs = e.rxqs ∧ (e.modPwr g).eqs = e.eqs ∧ (e.modPwr g).vecs = e.vecs ∧
    (e.modPwr g).irqs = e.irqs ∧ (e.modPwr g).irqStall = e.irqStall ∧ (e.modPwr g).txHold = e.txHold ∧
    (e.modPwr g).ports = e.ports ∧ (e.modPwr g).slots = e.slots ∧ (e.modPwr g).cages = e.cages ∧ (e.modPwr g).steer = e.steer ∧
    (e.modPwr g).dealer = e.dealer ∧ (e.modPwr g).off = e.off ∧ (e.modPwr g).time = e.time ∧ (e.modPwr g).carry = e.carry ∧
    (e.modPwr g).lcp = e.lcp ∧ (e.modPwr g).pair = e.pair ∧ (e.modPwr g).tally = e.tally ∧ (e.modPwr g).start = e.start ∧
    (e.modPwr g).nextRx = e.nextRx ∧ (e.modPwr g).free = e.free ∧ (e.modPwr g).outs = e.outs :=
  ⟨rfl, rfl, rfl, rfl, rfl, rfl, rfl, rfl, rfl, rfl, rfl, rfl, rfl, rfl, rfl, rfl, rfl, rfl, rfl, rfl, rfl, rfl, rfl, rfl, rfl, rfl⟩

@[simp] theorem Eng.modPwr_reads (e : Eng) (g : PwrSt → PwrSt) :
    (∀ f' : Fn, (e.modPwr g).fn f' = e.fn f') ∧ (∀ t' : TxqId, (e.modPwr g).txq t' = e.txq t') ∧
    (∀ r' : RxqId, (e.modPwr g).rxq r' = e.rxq r') ∧ (∀ q' : EqId, (e.modPwr g).eq_ q' = e.eq_ q') ∧
    (∀ v' : Nat, (e.modPwr g).vec v' = e.vec v') ∧ (∀ p' : PortId, (e.modPwr g).slot p' = e.slot p') ∧
    (∀ p' : PortId, (e.modPwr g).port p' = e.port p') ∧ (∀ c' : Cage, (e.modPwr g).cage c' = e.cage c') ∧
    (∀ h' : ChId, (e.modPwr g).chan h' = e.chan h') ∧ (∀ b' : TbId, (e.modPwr g).tb b' = e.tb b') ∧
    (∀ t' : ThreadId, (e.modPwr g).thread t' = e.thread t') ∧ (∀ q' : TxqId, (e.modPwr g).leaf q' = e.leaf q') ∧
    (∀ p' : PortId, (e.modPwr g).root p' = e.root p') ∧ (∀ i' : Fin 4096, (e.modPwr g).policer i' = e.policer i') ∧
    (e.modPwr g).standby = e.standby ∧ (e.modPwr g).journals = e.journals ∧ (e.modPwr g).handing = e.handing ∧
    (e.modPwr g).now = e.now ∧ (e.modPwr g).tb0 = e.tb0 :=
  ⟨fun _ => rfl, fun _ => rfl, fun _ => rfl, fun _ => rfl, fun _ => rfl, fun _ => rfl, fun _ => rfl, fun _ => rfl, fun _ => rfl, fun _ => rfl, fun _ => rfl, fun _ => rfl, fun _ => rfl, fun _ => rfl, rfl, rfl, rfl, rfl, rfl⟩

@[simp] theorem Eng.modPair_frame (e : Eng) (g : PairSt → PairSt) :
    (e.modPair g).fns = e.fns ∧ (e.modPair g).ctl = e.ctl ∧ (e.modPair g).flt = e.flt ∧ (e.modPair g).dma = e.dma ∧
    (e.modPair g).txqs = e.txqs ∧ (e.modPair g).rxqs = e.rxqs ∧ (e.modPair g).eqs = e.eqs ∧ (e.modPair g).vecs = e.vecs ∧
    (e.modPair g).irqs = e.irqs ∧ (e.modPair g).irqStall = e.irqStall ∧ (e.modPair g).txHold = e.txHold ∧
    (e.modPair g).ports = e.ports ∧ (e.modPair g).slots = e.slots ∧ (e.modPair g).cages = e.cages ∧
    (e.modPair g).steer = e.steer ∧ (e.modPair g).dealer = e.dealer ∧ (e.modPair g).off = e.off ∧ (e.modPair g).time = e.time ∧
    (e.modPair g).carry = e.carry ∧ (e.modPair g).lcp = e.lcp ∧ (e.modPair g).pwr = e.pwr ∧ (e.modPair g).tally = e.tally ∧
    (e.modPair g).start = e.start ∧ (e.modPair g).nextRx = e.nextRx ∧ (e.modPair g).free = e.free ∧
    (e.modPair g).outs = e.outs :=
  ⟨rfl, rfl, rfl, rfl, rfl, rfl, rfl, rfl, rfl, rfl, rfl, rfl, rfl, rfl, rfl, rfl, rfl, rfl, rfl, rfl, rfl, rfl, rfl, rfl, rfl, rfl⟩

@[simp] theorem Eng.modPair_reads (e : Eng) (g : PairSt → PairSt) :
    (∀ f' : Fn, (e.modPair g).fn f' = e.fn f') ∧ (∀ t' : TxqId, (e.modPair g).txq t' = e.txq t') ∧
    (∀ r' : RxqId, (e.modPair g).rxq r' = e.rxq r') ∧ (∀ q' : EqId, (e.modPair g).eq_ q' = e.eq_ q') ∧
    (∀ v' : Nat, (e.modPair g).vec v' = e.vec v') ∧ (∀ p' : PortId, (e.modPair g).slot p' = e.slot p') ∧
    (∀ p' : PortId, (e.modPair g).port p' = e.port p') ∧ (∀ c' : Cage, (e.modPair g).cage c' = e.cage c') ∧
    (∀ h' : ChId, (e.modPair g).chan h' = e.chan h') ∧ (∀ b' : TbId, (e.modPair g).tb b' = e.tb b') ∧
    (∀ t' : ThreadId, (e.modPair g).thread t' = e.thread t') ∧ (∀ q' : TxqId, (e.modPair g).leaf q' = e.leaf q') ∧
    (∀ p' : PortId, (e.modPair g).root p' = e.root p') ∧ (∀ i' : Fin 4096, (e.modPair g).policer i' = e.policer i') ∧
    (e.modPair g).now = e.now ∧ (e.modPair g).tb0 = e.tb0 ∧ (e.modPair g).collecting = e.collecting :=
  ⟨fun _ => rfl, fun _ => rfl, fun _ => rfl, fun _ => rfl, fun _ => rfl, fun _ => rfl, fun _ => rfl, fun _ => rfl, fun _ => rfl, fun _ => rfl, fun _ => rfl, fun _ => rfl, fun _ => rfl, fun _ => rfl, rfl, rfl, rfl⟩

@[simp] theorem Eng.tal_frame (e : Eng) (t : TEvent) :
    (e.tal t).fns = e.fns ∧ (e.tal t).ctl = e.ctl ∧ (e.tal t).flt = e.flt ∧ (e.tal t).dma = e.dma ∧ (e.tal t).txqs = e.txqs ∧
    (e.tal t).rxqs = e.rxqs ∧ (e.tal t).eqs = e.eqs ∧ (e.tal t).vecs = e.vecs ∧ (e.tal t).irqs = e.irqs ∧
    (e.tal t).irqStall = e.irqStall ∧ (e.tal t).txHold = e.txHold ∧ (e.tal t).ports = e.ports ∧ (e.tal t).slots = e.slots ∧
    (e.tal t).cages = e.cages ∧ (e.tal t).steer = e.steer ∧ (e.tal t).dealer = e.dealer ∧ (e.tal t).off = e.off ∧
    (e.tal t).time = e.time ∧ (e.tal t).carry = e.carry ∧ (e.tal t).lcp = e.lcp ∧ (e.tal t).pwr = e.pwr ∧
    (e.tal t).pair = e.pair ∧ (e.tal t).start = e.start ∧ (e.tal t).nextRx = e.nextRx ∧ (e.tal t).free = e.free ∧
    (e.tal t).outs = e.outs := by
  unfold Eng.tal; split <;> simp

@[simp] theorem Eng.tal_reads (e : Eng) (t : TEvent) :
    (∀ f' : Fn, (e.tal t).fn f' = e.fn f') ∧ (∀ t' : TxqId, (e.tal t).txq t' = e.txq t') ∧
    (∀ r' : RxqId, (e.tal t).rxq r' = e.rxq r') ∧ (∀ q' : EqId, (e.tal t).eq_ q' = e.eq_ q') ∧
    (∀ v' : Nat, (e.tal t).vec v' = e.vec v') ∧ (∀ p' : PortId, (e.tal t).slot p' = e.slot p') ∧
    (∀ p' : PortId, (e.tal t).port p' = e.port p') ∧ (∀ c' : Cage, (e.tal t).cage c' = e.cage c') ∧
    (∀ h' : ChId, (e.tal t).chan h' = e.chan h') ∧ (∀ b' : TbId, (e.tal t).tb b' = e.tb b') ∧
    (∀ t' : ThreadId, (e.tal t).thread t' = e.thread t') ∧ (∀ q' : TxqId, (e.tal t).leaf q' = e.leaf q') ∧
    (∀ p' : PortId, (e.tal t).root p' = e.root p') ∧ (∀ i' : Fin 4096, (e.tal t).policer i' = e.policer i') ∧
    (e.tal t).standby = e.standby ∧ (e.tal t).journals = e.journals ∧ (e.tal t).handing = e.handing ∧ (e.tal t).now = e.now ∧
    (e.tal t).tb0 = e.tb0 ∧ (e.tal t).collecting = e.collecting ∧ (∀ f' n', (e.tal t).txqOf f' n' = e.txqOf f' n') ∧
    (∀ f' n', (e.tal t).rxqOf f' n' = e.rxqOf f' n') ∧ (∀ f' n', (e.tal t).eqOf f' n' = e.eqOf f' n') := by
  unfold Eng.tal; split
  · exact ⟨fun _ => rfl, fun _ => rfl, fun _ => rfl, fun _ => rfl, fun _ => rfl, fun _ => rfl, fun _ => rfl, fun _ => rfl, fun _ => rfl, fun _ => rfl, fun _ => rfl, fun _ => rfl, fun _ => rfl, fun _ => rfl, rfl, rfl, rfl, rfl, rfl, rfl, fun _ _ => rfl, fun _ _ => rfl, fun _ _ => rfl⟩
  · simp

@[simp] theorem Eng.fn_setFn (e : Eng) (i : Fn) (v : FnState) : (e.setFn i v).fn i = v := by
  simp [Eng.fn, Eng.setFn]
theorem Eng.fn_setFn_other (e : Eng) {i j : Fn} (v : FnState) (h : j ≠ i) : (e.setFn i v).fn j = e.fn j := by
  simp only [Eng.fn, Eng.setFn]
  exact Tab.get_put_other _ _ _ v (fun x => h (Fin.ext x))

@[simp] theorem Eng.txq_setTxq (e : Eng) (i : TxqId) (v : Option Txq) : (e.setTxq i v).txq i = v := by
  simp [Eng.txq, Eng.setTxq]
theorem Eng.txq_setTxq_other (e : Eng) {i j : TxqId} (v : Option Txq) (h : j ≠ i) : (e.setTxq i v).txq j = e.txq j := by
  simp only [Eng.txq, Eng.setTxq]
  exact Tab.get_put_other _ _ _ v (fun x => h (Fin.ext x))

@[simp] theorem Eng.rxq_setRxq (e : Eng) (i : RxqId) (v : Option Rxq) : (e.setRxq i v).rxq i = v := by
  simp [Eng.rxq, Eng.setRxq]
theorem Eng.rxq_setRxq_other (e : Eng) {i j : RxqId} (v : Option Rxq) (h : j ≠ i) : (e.setRxq i v).rxq j = e.rxq j := by
  simp only [Eng.rxq, Eng.setRxq]
  exact Tab.get_put_other _ _ _ v (fun x => h (Fin.ext x))

@[simp] theorem Eng.eq__setEq (e : Eng) (i : EqId) (v : Option Evq) : (e.setEq i v).eq_ i = v := by
  simp [Eng.eq_, Eng.setEq]
theorem Eng.eq__setEq_other (e : Eng) {i j : EqId} (v : Option Evq) (h : j ≠ i) : (e.setEq i v).eq_ j = e.eq_ j := by
  simp only [Eng.eq_, Eng.setEq]
  exact Tab.get_put_other _ _ _ v (fun x => h (Fin.ext x))

@[simp] theorem Eng.vec_setVec (e : Eng) (i : Nat) (v : VecState) : (e.setVec i v).vec i = v := by
  simp [Eng.vec, Eng.setVec]
theorem Eng.vec_setVec_other (e : Eng) {i j : Nat} (v : VecState) (h : j ≠ i) : (e.setVec i v).vec j = e.vec j := by
  simp only [Eng.vec, Eng.setVec]
  exact Tab.get_put_other _ _ _ v h

@[simp] theorem Eng.slot_setSlot (e : Eng) (i : PortId) (v : SlotSt) : (e.setSlot i v).slot i = v := by
  simp [Eng.slot, Eng.setSlot]
theorem Eng.slot_setSlot_other (e : Eng) {i j : PortId} (v : SlotSt) (h : j ≠ i) : (e.setSlot i v).slot j = e.slot j := by
  simp only [Eng.slot, Eng.setSlot]
  exact Tab.get_put_other _ _ _ v (fun x => h (Fin.ext x))

@[simp] theorem Eng.port_setPort (e : Eng) (i : PortId) (v : Port) : (e.setPort i v).port i = v := by
  simp [Eng.port, Eng.setPort]
theorem Eng.port_setPort_other (e : Eng) {i j : PortId} (v : Port) (h : j ≠ i) : (e.setPort i v).port j = e.port j := by
  simp only [Eng.port, Eng.setPort]
  exact Tab.get_put_other _ _ _ v (fun x => h (Fin.ext x))

@[simp] theorem Eng.cage_setCage (e : Eng) (i : Cage) (v : CageSt) : (e.setCage i v).cage i = v := by
  simp [Eng.cage, Eng.setCage]
theorem Eng.cage_setCage_other (e : Eng) {i j : Cage} (v : CageSt) (h : j ≠ i) : (e.setCage i v).cage j = e.cage j := by
  simp only [Eng.cage, Eng.setCage]
  exact Tab.get_put_other _ _ _ v (fun x => h (Fin.ext x))

@[simp] theorem Eng.chan_setChan (e : Eng) (i : ChId) (v : Chan) : (e.setChan i v).chan i = v := by
  simp [Eng.chan, Eng.setChan]
theorem Eng.chan_setChan_other (e : Eng) {i j : ChId} (v : Chan) (h : j ≠ i) : (e.setChan i v).chan j = e.chan j := by
  simp only [Eng.chan, Eng.setChan]
  exact Tab.get_put_other _ _ _ v (fun x => h (Fin.ext x))

@[simp] theorem Eng.tb_setTb (e : Eng) (i : TbId) (v : TimeBase) : (e.setTb i v).tb i = v := by
  simp [Eng.tb, Eng.setTb]
theorem Eng.tb_setTb_other (e : Eng) {i j : TbId} (v : TimeBase) (h : j ≠ i) : (e.setTb i v).tb j = e.tb j := by
  simp only [Eng.tb, Eng.setTb]
  exact Tab.get_put_other _ _ _ v (fun x => h (Fin.ext x))

@[simp] theorem Eng.thread_setThread (e : Eng) (i : ThreadId) (v : Thread) : (e.setThread i v).thread i = v := by
  simp [Eng.thread, Eng.setThread]
theorem Eng.thread_setThread_other (e : Eng) {i j : ThreadId} (v : Thread) (h : j ≠ i) : (e.setThread i v).thread j = e.thread j := by
  simp only [Eng.thread, Eng.setThread]
  exact Tab.get_put_other _ _ _ v (fun x => h (Fin.ext x))

@[simp] theorem Eng.chnl_setChnl (e : Eng) (i : ChnId) (v : Chnl) : (e.setChnl i v).chnl i = v := by
  simp [Eng.chnl, Eng.setChnl]
theorem Eng.chnl_setChnl_other (e : Eng) {i j : ChnId} (v : Chnl) (h : j ≠ i) : (e.setChnl i v).chnl j = e.chnl j := by
  simp only [Eng.chnl, Eng.setChnl]
  exact Tab.get_put_other _ _ _ v (fun x => h (Fin.ext x))

@[simp] theorem Eng.leaf_setLeaf (e : Eng) (i : TxqId) (v : DObj) : (e.setLeaf i v).leaf i = v := by
  simp [Eng.leaf, Eng.setLeaf]
theorem Eng.leaf_setLeaf_other (e : Eng) {i j : TxqId} (v : DObj) (h : j ≠ i) : (e.setLeaf i v).leaf j = e.leaf j := by
  simp only [Eng.leaf, Eng.setLeaf]
  exact Tab.get_put_other _ _ _ v (fun x => h (Fin.ext x))

@[simp] theorem Eng.node_setNode (e : Eng) (i : Fin 8192) (v : DObj) : (e.setNode i v).node i = v := by
  simp [Eng.node, Eng.setNode]
theorem Eng.node_setNode_other (e : Eng) {i j : Fin 8192} (v : DObj) (h : j ≠ i) : (e.setNode i v).node j = e.node j := by
  simp only [Eng.node, Eng.setNode]
  exact Tab.get_put_other _ _ _ v (fun x => h (Fin.ext x))

@[simp] theorem Eng.root_setRoot (e : Eng) (i : PortId) (v : Root) : (e.setRoot i v).root i = v := by
  simp [Eng.root, Eng.setRoot]
theorem Eng.root_setRoot_other (e : Eng) {i j : PortId} (v : Root) (h : j ≠ i) : (e.setRoot i v).root j = e.root j := by
  simp only [Eng.root, Eng.setRoot]
  exact Tab.get_put_other _ _ _ v (fun x => h (Fin.ext x))

@[simp] theorem Eng.policer_setPolicer (e : Eng) (i : Fin 4096) (v : Policer) : (e.setPolicer i v).policer i = v := by
  simp [Eng.policer, Eng.setPolicer]
theorem Eng.policer_setPolicer_other (e : Eng) {i j : Fin 4096} (v : Policer) (h : j ≠ i) : (e.setPolicer i v).policer j = e.policer j := by
  simp only [Eng.policer, Eng.setPolicer]
  exact Tab.get_put_other _ _ _ v (fun x => h (Fin.ext x))

@[simp] theorem Eng.fn_modFn (e : Eng) (i : Fn) (g : FnState → FnState) : (e.modFn i g).fn i = g (e.fn i) := by
  simp [Eng.modFn]

@[simp] theorem Eng.port_modPort (e : Eng) (i : PortId) (g : Port → Port) : (e.modPort i g).port i = g (e.port i) := by
  simp [Eng.modPort]

@[simp] theorem Eng.cage_modCage (e : Eng) (i : Cage) (g : CageSt → CageSt) : (e.modCage i g).cage i = g (e.cage i) := by
  simp [Eng.modCage]

@[simp] theorem Eng.chan_modChan (e : Eng) (i : ChId) (g : Chan → Chan) : (e.modChan i g).chan i = g (e.chan i) := by
  simp [Eng.modChan]

@[simp] theorem Eng.tb_modTb (e : Eng) (i : TbId) (g : TimeBase → TimeBase) : (e.modTb i g).tb i = g (e.tb i) := by
  simp [Eng.modTb]

@[simp] theorem Eng.txq_modTxq (e : Eng) (i : TxqId) (g : Txq → Txq) : (e.modTxq i g).txq i = (e.txq i).map g := by
  simp [Eng.modTxq]

@[simp] theorem Eng.rxq_modRxq (e : Eng) (i : RxqId) (g : Rxq → Rxq) : (e.modRxq i g).rxq i = (e.rxq i).map g := by
  simp [Eng.modRxq]

@[simp] theorem Eng.eq__modEq (e : Eng) (i : EqId) (g : Evq → Evq) : (e.modEq i g).eq_ i = (e.eq_ i).map g := by
  simp [Eng.modEq]

end Sys2Proof.Machine
end

