-- ==== Sys2Proof/Laws/Finish.lean ====
section
/-! SUPPORT. Finish.lean: how a command ends in a calm engine, and what the Dealer's round lists leave alone. -/
namespace Sys2Proof.Machine

/-! ### Folds -/

/-- A fold whose every step leaves `m` alone leaves `m` alone. -/
theorem foldEng_keep {α β : Type} (m : Eng → β) (l : List α) (f : Eng → α → Eng) (h : ∀ e a, m (f e a) = m e) (e : Eng) :
    m (foldEng l f e) = m e := by
  unfold foldEng
  induction l generalizing e with
  | nil => rfl
  | cons a t ih => simp only [List.foldl_cons]; rw [ih, h]

/-- A fold whose every step does nothing does nothing. -/
theorem foldEng_id {α : Type} (l : List α) (f : Eng → α → Eng) (h : ∀ e a, f e a = e) (e : Eng) : foldEng l f e = e :=
  foldEng_keep id l f h e

/-- A fold whose steps do nothing in an engine leaves it as it is. -/
theorem foldEng_fix {α : Type} (l : List α) (f : Eng → α → Eng) (e : Eng) (h : ∀ a, f e a = e) : foldEng l f e = e := by
  unfold foldEng
  induction l with
  | nil => rfl
  | cons a t ih => simp only [List.foldl_cons, h]; exact ih

/-! ### The round lists -/

/-- The engine but for the Dealer. -/
def Eng.noDealer (e : Eng) : Eng := { e with dealer := {} }

theorem Eng.noDealer_setDobj (e : Eng) (o : DObjId) (v : DObj) : (e.setDobj o v).noDealer = e.noDealer := by
  cases o <;> rfl

theorem Eng.noDealer_setRound (e : Eng) (o : DObjId) (b : Nat) (l : List DObjId) : (e.setRound o b l).noDealer = e.noDealer := by
  cases o <;> rfl

theorem Eng.noDealer_syncBand (e : Eng) (o : DObjId) (ks : List (DObjId × Bool)) (b : Nat) :
    (e.syncBand o ks b).noDealer = e.noDealer := by
  unfold Eng.syncBand
  rw [foldEng_keep Eng.noDealer, Eng.noDealer_setRound]
  rintro e ⟨c, ok⟩
  cases ok
  · exact Eng.noDealer_setDobj _ _ _
  · simp only [if_true]
    split
    · exact Eng.noDealer_setDobj _ _ _
    · rfl

theorem Eng.noDealer_sync (e : Eng) (o : DObjId) : (e.sync o).noDealer = e.noDealer :=
  foldEng_keep Eng.noDealer _ _ (fun e b => Eng.noDealer_syncBand e o _ b) e

/-- Bringing the round lists up to date changes the Dealer alone. -/
theorem Eng.noDealer_syncAll (e : Eng) : e.syncAll.noDealer = e.noDealer :=
  foldEng_keep Eng.noDealer _ _ (fun e o => Eng.noDealer_sync e o) e

theorem Eng.of_noDealer {e d : Eng} (h : e.noDealer = d.noDealer) : e = { d with dealer := e.dealer } := by
  cases e; cases d; simp_all [Eng.noDealer]

theorem Eng.syncAll_eq (e : Eng) : e.syncAll = { e with dealer := e.syncAll.dealer } := Eng.of_noDealer (Eng.noDealer_syncAll e)

@[simp] theorem Eng.syncAll_frame (e : Eng) :
    e.syncAll.fns = e.fns ∧ e.syncAll.ctl = e.ctl ∧ e.syncAll.flt = e.flt ∧ e.syncAll.dma = e.dma ∧ e.syncAll.txqs = e.txqs ∧
    e.syncAll.rxqs = e.rxqs ∧ e.syncAll.eqs = e.eqs ∧ e.syncAll.vecs = e.vecs ∧ e.syncAll.irqs = e.irqs ∧
    e.syncAll.irqStall = e.irqStall ∧ e.syncAll.txHold = e.txHold ∧ e.syncAll.ports = e.ports ∧ e.syncAll.slots = e.slots ∧
    e.syncAll.cages = e.cages ∧ e.syncAll.steer = e.steer ∧ e.syncAll.off = e.off ∧ e.syncAll.time = e.time ∧
    e.syncAll.carry = e.carry ∧ e.syncAll.lcp = e.lcp ∧ e.syncAll.pwr = e.pwr ∧ e.syncAll.pair = e.pair ∧
    e.syncAll.tally = e.tally ∧ e.syncAll.start = e.start ∧ e.syncAll.nextRx = e.nextRx ∧ e.syncAll.free = e.free ∧
    e.syncAll.outs = e.outs := by
  rw [Eng.syncAll_eq]; simp

@[simp] theorem Eng.syncAll_fn (e : Eng) (i : Fn) : e.syncAll.fn i = e.fn i := by simp [Eng.fn]
@[simp] theorem Eng.syncAll_txq (e : Eng) (i : TxqId) : e.syncAll.txq i = e.txq i := by simp [Eng.txq]
@[simp] theorem Eng.syncAll_rxq (e : Eng) (i : RxqId) : e.syncAll.rxq i = e.rxq i := by simp [Eng.rxq]
@[simp] theorem Eng.syncAll_eq_ (e : Eng) (i : EqId) : e.syncAll.eq_ i = e.eq_ i := by simp [Eng.eq_]
@[simp] theorem Eng.syncAll_vec (e : Eng) (i : Nat) : e.syncAll.vec i = e.vec i := by simp [Eng.vec]
@[simp] theorem Eng.syncAll_slot (e : Eng) (i : PortId) : e.syncAll.slot i = e.slot i := by simp [Eng.slot]
@[simp] theorem Eng.syncAll_port (e : Eng) (i : PortId) : e.syncAll.port i = e.port i := by simp [Eng.port]
@[simp] theorem Eng.syncAll_cage (e : Eng) (i : Cage) : e.syncAll.cage i = e.cage i := by simp [Eng.cage]
@[simp] theorem Eng.syncAll_chan (e : Eng) (i : ChId) : e.syncAll.chan i = e.chan i := by simp [Eng.chan]
@[simp] theorem Eng.syncAll_tb (e : Eng) (i : TbId) : e.syncAll.tb i = e.tb i := by simp [Eng.tb]
@[simp] theorem Eng.syncAll_thread (e : Eng) (i : ThreadId) : e.syncAll.thread i = e.thread i := by simp [Eng.thread]
@[simp] theorem Eng.syncAll_chnl (e : Eng) (i : ChnId) : e.syncAll.chnl i = e.chnl i := by simp [Eng.chnl]
@[simp] theorem Eng.syncAll_policer (e : Eng) (i : Fin 4096) : e.syncAll.policer i = e.policer i := by simp [Eng.policer]

/-- Without leaves and nodes there is no round list to bring up to date. -/
theorem Eng.syncAll_empty (e : Eng) (h : e.dobjs = []) : e.syncAll = e := by
  simp [Eng.syncAll, Eng.parents, h, foldEng]

/-! ### The steps that end a command -/

theorem Eng.settle_calm {e : Eng} (h : e.Calm) (n : Nat) : Eng.settle n e = e := by
  cases n with
  | zero => rfl
  | succ n => simp [Eng.settle, h.raised, h.held]

theorem Eng.thinWatchAll_calm {e : Eng} (h : e.Calm) : e.thinWatchAll = e :=
  foldEng_fix _ _ _ (fun p => by simp [Eng.thinWatch, h.thin p])

theorem Eng.resetsDone_calm {e : Eng} (h : e.Calm) : e.resetsDone = e := by
  refine foldEng_fix _ _ _ (fun f => ?_)
  cases hc : (e.fn f).cmd with
  | none => rfl
  | some c => exact if_neg (fun k => h.answered f c hc ⟨k.1, k.2.1⟩)

theorem Eng.resetStep_calm {e : Eng} (h : e.Calm) : e.resetStep = e := by
  unfold Eng.resetStep
  rw [foldEng_fix _ _ e (fun g => by simp [h.resets g]), Eng.resetsDone_calm h]

theorem Eng.journalDiff_calm {old e : Eng} (h : e.journals = false) : Eng.journalDiff old e = e := by simp [Eng.journalDiff, h]

theorem Eng.handoverStep_calm {e : Eng} (h : e.Calm) : e.handoverStep = e := by simp [Eng.handoverStep, h.handing]

theorem Eng.failoverStep_calm {e : Eng} (h : e.Calm) : e.failoverStep = e := by simp [Eng.failoverStep, h.due]

/-- A command that leaves the engine calm ends by bringing the round lists up to date. -/
theorem Eng.finish_calm {old e : Eng} (h : e.Calm) : Eng.finish old e = e.syncAll := by
  unfold Eng.finish
  rw [Eng.thinWatchAll_calm h, Eng.settle_calm h, Eng.resetStep_calm h, Eng.journalDiff_calm h.journals, Eng.handoverStep_calm h, Eng.failoverStep_calm h]
  simp [Eng.irqStep, h.stall]

/-- A command whose effect leaves the engine calm: what it answers. -/
theorem State.does_calm {s : State} {f : Eng → Eng} (h : (f s.eng.clear).Calm) : s.does f = .next (s.to (f s.eng.clear)) := by
  exact congrArg (fun d => Host.Outcome.next { s with eng := d }) (Eng.finish_calm h)

theorem State.run_calm {s : State} {f : Eng → Eng} (h : (f s.eng.clear).Calm) : s.run f = s.to (f s.eng.clear) := by
  exact congrArg (fun d => { s with eng := d }) (Eng.finish_calm h)

/-! ### What a state reached by `to` holds -/

@[simp] theorem State.to_pending (s : State) (e : Eng) : (s.to e).pending = s.pending := rfl
@[simp] theorem State.to_boot (s : State) (e : Eng) : (s.to e).boot = s.boot := rfl
@[simp] theorem State.to_budget (s : State) (e : Eng) : (s.to e).budget = s.budget := rfl
@[simp] theorem State.to_eng (s : State) (e : Eng) : (s.to e).eng = e.syncAll := rfl

theorem State.run_other (s : State) (f : Eng → Eng) :
    (s.run f).pending = s.pending ∧ (s.run f).boot = s.boot ∧ (s.run f).budget = s.budget := by
  simp only [State.run, and_self]

/-- Whatever a command does to the engine, it completes and leaves the queue, the boot store and the budget alone. -/
theorem State.does_other (s : State) (f : Eng → Eng) :
    ∃ t, s.does f = .next t ∧ t.pending = s.pending ∧ t.boot = s.boot ∧ t.budget = s.budget := ⟨s.run f, rfl, State.run_other s f⟩

/-- An engine that agrees with a calm one in what calmness reads is calm. -/
theorem Eng.Calm.congr {e d : Eng} (h : e.Calm) (h1 : d.flt.raised = e.flt.raised) (h2 : d.flt.held = e.flt.held)
    (h3 : ∀ f, (d.fn f).resetting = (e.fn f).resetting ∧ (d.fn f).cmd = (e.fn f).cmd) (h4 : d.pair = e.pair)
    (h5 : d.start.due = e.start.due) (h6 : d.irqStall = e.irqStall) (h7 : ∀ p, (d.port p).settled = (e.port p).settled) :
    d.Calm where
  raised := h1.trans h.raised
  held := h2.trans h.held
  thin p := (h7 p).trans (h.thin p)
  resets f := (h3 f).1.trans (h.resets f)
  answered f c hc := h.answered f c ((h3 f).2.symm.trans hc)
  journals := by have := h.journals; simpa [Eng.journals, h4] using this
  handing := by have := h.handing; simpa [Eng.handing, h4] using this
  due := h5.trans h.due
  stall := h6.trans h.stall

theorem Eng.Calm.clear {e : Eng} (h : e.Calm) : e.clear.Calm := h.congr rfl rfl (fun _ => ⟨rfl, rfl⟩) rfl rfl rfl (fun _ => rfl)

theorem Eng.Calm.syncAll {e : Eng} (h : e.Calm) : e.syncAll.Calm := by
  refine h.congr ?_ ?_ ?_ ?_ ?_ ?_ ?_ <;> simp [Eng.fn, Eng.port]

end Sys2Proof.Machine
end

