-- ==== Sys2Proof/Laws/Bus.lean ====
section
/-! SUPPORT. Bus.lean: what interrupt messages, requests on the DMA ports and events leave alone: all of the engine but
its DMA state, its messages, Tally's queue, the vectors and the event queues. -/
namespace Sys2Proof.Machine

theorem Eng.core_fields {e d : Eng} (h : e.core = d.core) :
    e.fns = d.fns ∧ e.ctl = d.ctl ∧ e.flt = d.flt ∧ e.txqs = d.txqs ∧ e.rxqs = d.rxqs ∧ e.irqStall = d.irqStall ∧
    e.txHold = d.txHold ∧ e.ports = d.ports ∧ e.slots = d.slots ∧ e.cages = d.cages ∧ e.steer = d.steer ∧
    e.dealer = d.dealer ∧ e.off = d.off ∧ e.time = d.time ∧ e.carry = d.carry ∧ e.lcp = d.lcp ∧ e.pwr = d.pwr ∧
    e.pair = d.pair ∧ e.start = d.start ∧ e.nextRx = d.nextRx ∧ e.free = d.free := by
  cases e; cases d; simp_all [Eng.core]

theorem Eng.Calm.of_core {e d : Eng} (h : e.Calm) (hc : d.core = e.core) : d.Calm := by
  obtain ⟨h1, -, h3, -, -, h6, -, h8, -, -, -, -, -, -, -, -, -, h18, h19, -, -⟩ := Eng.core_fields hc
  exact h.congr (by rw [h3]) (by rw [h3]) (fun f => by simp [Eng.fn, h1]) h18 (by rw [h19]) h6 (fun p => by simp [Eng.port, h8])

/-- An engine that keeps no journal is not the active member of a pair in sync. -/
theorem Eng.not_active {e : Eng} (h : e.journals = false) : e.pair.state ≠ .active := by
  intro h'; simp [Eng.journals, h'] at h

theorem Eng.Calm.solo {e : Eng} (h : e.Calm) : e.pair.state ≠ .active := Eng.not_active h.journals

/-- The member is not the active member of a pair in sync, which holds its records and messages (R443). -/
theorem Eng.core_pair {e d : Eng} (h : e.core = d.core) : e.pair = d.pair := (Eng.core_fields h).2.2.2.2.2.2.2.2.2.2.2.2.2.2.2.2.2.1

@[simp] theorem Eng.emit_core (e : Eng) (o : Out) : (e.emit o).core = e.core := rfl
@[simp] theorem Eng.tal_core (e : Eng) (t : TEvent) : (e.tal t).core = e.core := by unfold Eng.tal; split <;> rfl
@[simp] theorem Eng.xcnt_core (e : Eng) (g : XltCnt → XltCnt) : (e.xcnt g).core = e.core := rfl
@[simp] theorem Eng.setVec_core (e : Eng) (k : Nat) (v : VecState) : (e.setVec k v).core = e.core := rfl
@[simp] theorem Eng.setEq_core (e : Eng) (q : EqId) (v : Option Evq) : (e.setEq q v).core = e.core := rfl
@[simp] theorem Eng.modEq_core (e : Eng) (q : EqId) (g : Evq → Evq) : (e.modEq q g).core = e.core := rfl
@[simp] theorem Eng.newGrp_core (e : Eng) : e.newGrp.2.core = e.core := rfl
@[simp] theorem Eng.clear_core (e : Eng) : e.clear.core = e.core := rfl
@[simp] theorem Eng.dmaSet_core (e : Eng) (x : DmaSt) : ({ e with dma := x } : Eng).core = e.core := rfl

@[simp] theorem Eng.sendIrq_core (e : Eng) (f : Fn) (v : Nat) : (e.sendIrq f v).core = e.core := by
  unfold Eng.sendIrq
  split
  · split <;> rfl
  · split
    · rfl
    · simp

theorem Eng.irqOut_core {e : Eng} (h : e.pair.state ≠ .active) (f : Fn) (v : Nat) : (e.irqOut f v).core = e.core := by
  unfold Eng.irqOut
  split
  · rfl
  · simp

theorem Eng.irq_core {e : Eng} (h : e.pair.state ≠ .active) (f : Fn) (v : Nat) : (e.irq f v).core = e.core := by
  unfold Eng.irq
  dsimp only
  split
  · split
    · rfl
    · exact Eng.irqOut_core h f v
  · rfl

theorem Eng.irqOpt_core {e : Eng} (h : e.pair.state ≠ .active) (f : Fn) (v : Option Nat) : (e.irqOpt f v).core = e.core := by
  cases v
  · rfl
  · exact Eng.irq_core h f _

@[simp] theorem Eng.talReq_core (e : Eng) (a : Acc) : (e.talReq a).core = e.core := by
  unfold Eng.talReq
  dsimp only
  split
  · split <;> simp
  · split <;> simp

@[simp] theorem Eng.issue_core (e : Eng) (a : Acc) : (e.issue a).core = e.core := by
  unfold Eng.issue
  split
  · simp
  · rfl

@[simp] theorem Eng.issueNext_core (e : Eng) : e.issueNext.core = e.core := by
  unfold Eng.issueNext
  split
  · simp
  · split
    · simp
    · rfl

@[simp] theorem Eng.xltAsk_core (e : Eng) (a : Acc) : (e.xltAsk a).1.core = e.core := by
  unfold Eng.xltAsk
  split
  · rfl
  · split
    · rfl
    · rfl

@[simp] theorem Eng.access_core (e : Eng) (a : Acc) : (e.access a).core = e.core := by
  unfold Eng.access
  dsimp only
  split
  · split
    · rfl
    · simp
  · split
    · split
      · simp only [Eng.dmaSet_core, Eng.tal_core, Eng.xcnt_core]
      · simp only [Eng.issue_core, Eng.dmaSet_core, Eng.tal_core, Eng.xcnt_core]
    · split <;> simp only [Eng.dmaSet_core, Eng.xltAsk_core, Eng.tal_core, Eng.xcnt_core]

@[simp] theorem Eng.readRange_core (e : Eng) (o : Owner) (f : Fn) (pasid g addr len pos : Nat) :
    (e.readRange o f pasid g addr len pos).core = e.core :=
  foldEng_keep Eng.core _ _ (fun e _ => Eng.access_core e _) e

@[simp] theorem Eng.writeRange_core (e : Eng) (o : Owner) (f : Fn) (pasid g addr : Nat) (data : List Byte) :
    (e.writeRange o f pasid g addr data).core = e.core :=
  foldEng_keep Eng.core _ _ (fun e _ => Eng.access_core e _) e

/-- A fold whose steps keep the core of an engine that is not an active member. -/
theorem foldEng_core {α : Type} (l : List α) (f : Eng → α → Eng)
    (h : ∀ e a, e.pair.state ≠ .active → (f e a).core = e.core) {e : Eng} (he : e.pair.state ≠ .active) :
    (foldEng l f e).core = e.core := by
  unfold foldEng
  induction l generalizing e with
  | nil => rfl
  | cons a t ih =>
    simp only [List.foldl_cons]
    have h1 := h e a he
    rw [ih (by rw [Eng.core_pair h1]; exact he), h1]

theorem Eng.writeRecord_core {e : Eng} (h : e.pair.state ≠ .active) (o : Owner) (f : Fn) (pasid addr : Nat) (data : List Byte) :
    (e.writeRecord o f pasid addr data).2.core = e.core := by
  unfold Eng.writeRecord
  dsimp only
  rw [foldEng_core _ _ _ (by simpa [Eng.newGrp] using h)]
  · rfl
  · intro e a he
    simp [Eng.heldWrite, he]

theorem Eng.writeEvent_core {e : Eng} (h : e.pair.state ≠ .active) (i : EqId) (ty code object data : Nat) (r : Option RingId)
    (m : Option (Nat × Nat)) : (e.writeEvent i ty code object data r m).2.core = e.core := by
  unfold Eng.writeEvent
  split
  · rfl
  · split
    · rfl
    · split
      · rfl
      · split
        · rfl
        · simp [Eng.writeRecord_core h]

theorem Eng.event_core {e : Eng} (h : e.pair.state ≠ .active) (i : EqId) (ty code object data : Nat) :
    (e.event i ty code object data).core = e.core := Eng.writeEvent_core h i ty code object data none none

theorem Eng.ctlEvent_core {e : Eng} (h : e.pair.state ≠ .active) (f : Fn) (ty code object data : Nat) :
    (e.ctlEvent f ty code object data).core = e.core := by
  unfold Eng.ctlEvent
  split
  · exact Eng.event_core h _ _ _ _ _
  · rfl

theorem Eng.locEvent_core {e : Eng} (h : e.pair.state ≠ .active) (f : Fn) (n ty code object data : Nat) :
    (e.locEvent f n ty code object data).core = e.core := by
  unfold Eng.locEvent
  split
  · exact Eng.event_core h _ _ _ _ _
  · rfl

theorem Eng.ctlEventAll_core {e : Eng} (h : e.pair.state ≠ .active) (ty code object data : Nat) :
    (e.ctlEventAll ty code object data).core = e.core :=
  foldEng_core _ _ (fun _ _ he => Eng.ctlEvent_core he _ _ _ _ _) h

theorem Eng.evRaise_core {e : Eng} (h : e.pair.state ≠ .active) (i : EqId) : (e.evRaise i).core = e.core := by
  unfold Eng.evRaise
  split
  · rfl
  · split
    · rw [Eng.irqOpt_core]
      · simp
      · exact h
    · rfl

theorem Eng.armEq_core {e : Eng} (h : e.pair.state ≠ .active) (i : EqId) : (e.armEq i).core = e.core := by
  unfold Eng.armEq
  split
  · rfl
  · split
    · rfl
    · rw [Eng.evRaise_core]
      · simp
      · exact h

end Sys2Proof.Machine
end

