-- ==== Sys2Proof/Laws/Mailbox.lean ====
section
/-! SUPPORT. Mailbox.lean: how a command of the mailbox is taken up and what its answer does. -/
namespace Sys2Proof.Machine

/-! ### Calm engines -/

theorem Eng.Calm.setFn {e : Eng} (h : e.Calm) (f : Fn) (v : FnState) (hv : v.resetting = none)
    (hw : ∀ c, v.cmd = some c → ¬ (c.opcode = 0x0207 ∧ c.st = .working)) : (e.setFn f v).Calm where
  raised := h.raised
  held := h.held
  thin := h.thin
  resets g := by
    by_cases hg : g = f
    · subst hg; simpa using hv
    · rw [Eng.fn_setFn_other _ _ hg]; exact h.resets g
  answered g c hc := by
    by_cases hg : g = f
    · subst hg; exact hw c (by simpa using hc)
    · rw [Eng.fn_setFn_other _ _ hg] at hc; exact h.answered g c hc
  journals := h.journals
  handing := h.handing
  due := h.due
  stall := h.stall

theorem Eng.Calm.modFn {e : Eng} (h : e.Calm) (f : Fn) (g : FnState → FnState) (hg : (g (e.fn f)).resetting = none)
    (hw : ∀ c, (g (e.fn f)).cmd = some c → ¬ (c.opcode = 0x0207 ∧ c.st = .working)) : (e.modFn f g).Calm := h.setFn f _ hg hw

theorem Eng.Calm.setPort {e : Eng} (h : e.Calm) (p : PortId) (v : Port) (hv : v.settled = true) : (e.setPort p v).Calm where
  raised := h.raised
  held := h.held
  thin r := by
    by_cases hr : r = p
    · subst hr; simpa using hv
    · rw [Eng.port_setPort_other _ _ hr]; exact h.thin r
  resets := h.resets
  answered := h.answered
  journals := h.journals
  handing := h.handing
  due := h.due
  stall := h.stall

theorem Eng.Calm.modPort {e : Eng} (h : e.Calm) (p : PortId) (g : Port → Port) (hg : (g (e.port p)).settled = true) :
    (e.modPort p g).Calm := h.setPort p _ hg

theorem Eng.Calm.ctl {e : Eng} (h : e.Calm) (x : CtlSt) : ({ e with ctl := x } : Eng).Calm :=
  h.congr rfl rfl (fun _ => ⟨rfl, rfl⟩) rfl rfl rfl (fun _ => rfl)

theorem Eng.Calm.irq {e : Eng} (h : e.Calm) (f : Fn) (v : Nat) : (e.irq f v).Calm := h.of_core (Eng.irq_core h.solo f v)
theorem Eng.Calm.irqOpt {e : Eng} (h : e.Calm) (f : Fn) (v : Option Nat) : (e.irqOpt f v).Calm :=
  h.of_core (Eng.irqOpt_core h.solo f v)
theorem Eng.Calm.ctlEvent {e : Eng} (h : e.Calm) (f : Fn) (ty code object data : Nat) : (e.ctlEvent f ty code object data).Calm :=
  h.of_core (Eng.ctlEvent_core h.solo f ty code object data)
theorem Eng.Calm.locEvent {e : Eng} (h : e.Calm) (f : Fn) (n ty code object data : Nat) :
    (e.locEvent f n ty code object data).Calm := h.of_core (Eng.locEvent_core h.solo f n ty code object data)
theorem Eng.Calm.ctlEventAll {e : Eng} (h : e.Calm) (ty code object data : Nat) : (e.ctlEventAll ty code object data).Calm :=
  h.of_core (Eng.ctlEventAll_core h.solo ty code object data)
theorem Eng.Calm.writeRecord {e : Eng} (h : e.Calm) (o : Owner) (f : Fn) (pasid addr : Nat) (data : List Byte) :
    (e.writeRecord o f pasid addr data).2.Calm := h.of_core (Eng.writeRecord_core h.solo o f pasid addr data)
theorem Eng.Calm.tal {e : Eng} (h : e.Calm) (t : TEvent) : (e.tal t).Calm := h.of_core (Eng.tal_core e t)
theorem Eng.Calm.emit {e : Eng} (h : e.Calm) (o : Out) : (e.emit o).Calm := h.of_core rfl
theorem Eng.Calm.touch {e : Eng} (h : e.Calm) (f : Fn) : (e.touch f).Calm := h.clear.tal _

/-! ### Answers -/

theorem Eng.Calm.finishMbx {e : Eng} (h : e.Calm) (f : Fn) (status detail len flags : Nat) (bs : List Byte) :
    (e.finishMbx f status detail len flags bs).Calm := by
  unfold Eng.finishMbx
  dsimp only
  split
  · exact h
  · split
    · exact h
    · split
      · exact ((h.setFn f _ (by simpa using h.resets f) (by simp)).ctl _).irq _ _
      · exact (h.setFn f _ (by simpa using h.resets f) (by simp)).ctl _

theorem Eng.Calm.respond {e : Eng} (h : e.Calm) (f : Fn) (status detail : Nat) (bs : List Byte) :
    (e.respond f status detail bs).Calm := by
  unfold Eng.respond
  dsimp only
  split
  · exact h
  · split
    · exact h.finishMbx _ _ _ _ _ _
    · exact (h.setFn f _ (by simpa using h.resets f) (by rintro c ⟨⟩ ⟨-, hs⟩; cases hs)).writeRecord _ _ _ _ _

theorem Eng.Calm.answer {e : Eng} (h : e.Calm) (f : Fn) (status detail : Nat) : (e.answer f status detail).Calm :=
  h.respond f status detail []

/-- A final response leaves all but the function, the list of commands in flight and the interrupt side alone. -/
theorem Eng.finishMbx_other {e : Eng} (h : e.pair.state ≠ .active) (f : Fn) (status detail len flags : Nat) (bs : List Byte) :
    ({ e.finishMbx f status detail len flags bs with fns := e.fns, ctl := e.ctl } : Eng).core = e.core := by
  unfold Eng.finishMbx
  dsimp only
  split
  · rfl
  · next c _ =>
    split
    · rfl
    split
    · exact congrArg (fun d : Eng => ({ d with fns := e.fns, ctl := e.ctl } : Eng)) (Eng.irq_core (e := { e.setFn f { e.fn f with
          cmd := none, done := true, lastTag := BitVec.ofNat 16 c.tag
          rsp := rspArea c.opcode c.tag status flags detail len 0 bs } with
          ctl := { e.ctl with inflight := e.ctl.inflight.filter (fun g => !decide (g = f)) } }) h f (e.fn f).irqVec.toNat)
    · rfl

/-! ### Taking a command up -/

theorem Eng.Has.clear {e : Eng} {f : Fn} {op : Nat} {c : Cmd} (h : e.Has f op c) : e.clear.Has f op c :=
  ⟨h.cmd, h.opcode, h.ready, h.runs, h.turn, h.alone⟩

/-- Without a journal nothing is taken in. -/
theorem Eng.journalCmd_quiet {e : Eng} (h : e.journals = false) (f : Fn) (c : Cmd) : e.journalCmd f c = e := by
  simp [Eng.journalCmd, h]

theorem Eng.mbxReady_has {e : Eng} {f : Fn} {op : Nat} {c : Cmd} (h : e.Has f op c) : e.mbxReady f op = some c := by
  simp [Eng.mbxReady, h.cmd, h.opcode, h.ready, h.runs, h.turn]

theorem Eng.mbx_has {e : Eng} {f : Fn} {op : Nat} {c : Cmd} (h : e.Has f op c) (body : Eng → Cmd → Eng) :
    e.mbx f op body = (body e c).journalCmd f c := by
  simp [Eng.mbx, Eng.mbxReady_has h, h.alone]

theorem Eng.mbxSlots_asks {e : Eng} {f : Fn} {op n : Nat} {c : Cmd} (h : e.Asks f op n c) (body : Eng → Cmd → Eng) :
    e.mbxSlots f op n body = (body e c).journalCmd f c := by
  unfold Eng.mbxSlots
  rw [Eng.mbx_has h.toHas]
  simp [h.buffer, h.len]

theorem Eng.mbxArgs_asks {e : Eng} {f : Fn} {op n : Nat} {c : Cmd} (h : e.Asks f op n c) (checks : Eng → Cmd → List (Nat × Bool))
    (may : Eng → Cmd → Bool) (body : Eng → Cmd → Eng) (hc : firstBad (checks e c) = none) (hm : may e c = true) :
    e.mbxArgs f op n checks may body = (body e c).journalCmd f c := by
  unfold Eng.mbxArgs
  rw [Eng.mbxSlots_asks h]
  simp [hc, hm]

theorem Eng.mbxSet_sets {e : Eng} {f : Fn} {op : Nat} {c : Cmd} {specs : Nat → List Fld} {obj : Eng → Nat → Bool} {b : SetBlk}
    (h : e.Sets f op specs (obj e) c b) (checks : Eng → SetBlk → List (Nat × Bool)) (may : Eng → SetBlk → Bool)
    (body : Eng → Cmd → SetBlk → Eng) (hc : firstBad (checks e b) = none) (hm : may e b = true) :
    e.mbxSet f op specs obj checks may body = (body e c b).journalCmd f c := by
  unfold Eng.mbxSet
  rw [Eng.mbx_has h.toHas]
  simp [h.block, hc, hm]

end Sys2Proof.Machine
end

