-- ==== Sys2Proof/Laws/Access.lean ====
section
/-! SUPPORT. Access.lean: how an access on CSR_T is taken in RUN. -/
namespace Sys2Proof.Machine

theorem Eng.Up.clear {e : Eng} (h : e.Up) : e.clear.Up := ⟨h.ready, h.run, h.step, h.ctlOn, h.restOn⟩

/-- In RUN an access is neither refused nor stalled. -/
theorem Eng.csrGate_up {e : Eng} (h : e.Up) (w : Bool) (a : Csr) : e.csrGate w a = (.pass, false) := by
  unfold Eng.csrGate
  dsimp only
  split
  · rfl
  · simp [h.ready, Eng.csrState, h.step, h.run]

/-- No access of the function is stalled: none has to keep its place behind another. -/
theorem Eng.heldBehind_free {e : Eng} {a : Csr} (h : ∀ x, x ∈ e.ctl.stalled → x.2.fn ≠ a.fn) (w : Bool) :
    e.heldBehind w a = false := by
  unfold Eng.heldBehind
  split
  · rfl
  · split <;> (rw [List.any_eq_false]; intro x hx; simp [h x hx])

theorem Eng.csr_up {e : Eng} (h : e.Up) (slotB : Bool) (b : Budget) (w : Bool) (a : Csr)
    (hs : ∀ x, x ∈ e.ctl.stalled → x.2.fn ≠ a.fn) :
    e.csr slotB b w a = (e.tal { code := 0x703, fn := some a.fn }).csrRun slotB b w a := by
  unfold Eng.csr
  have hb : (e.tal { code := 0x703, fn := some a.fn }).heldBehind w a = false :=
    Eng.heldBehind_free (by simpa using hs) w
  simp [h.ready, Eng.csrGate_up h, hb]

theorem State.access_up {s : State} (h : s.eng.Up) (w : Bool) (a : Csr) (hs : ∀ x, x ∈ s.eng.ctl.stalled → x.2.fn ≠ a.fn) :
    s.access w a = .next (s.after ((s.eng.touch a.fn).csrRun s.boot.runB s.budget w a)) := by
  unfold State.access State.does State.run State.after
  show Host.Outcome.next { s with eng := Eng.finish s.eng (s.eng.clear.csr s.boot.runB s.budget w a) } = _
  rw [Eng.csr_up h.clear _ _ _ _ hs]
  rfl

/-- A write of an aligned access that no rule of R28 or R40 turns away. -/
theorem Eng.csrRun_write {e : Eng} (slotB : Bool) (b : Budget) {a : Csr} (ha : csrOk a = true)
    (hw : ¬ (a.win = true ∧ a.fn ≠ 0)) : e.csrRun slotB b true a = e.pairWrite b a := by
  unfold Eng.csrRun
  rw [if_neg (by simp [ha]; intro h; simpa [h] using hw)]
  simp

/-- A read of an aligned access. -/
theorem Eng.csrRun_read {e : Eng} (slotB : Bool) (b : Budget) {a : Csr} (ha : csrOk a = true) (hw : ¬ (a.win = true ∧ a.fn ≠ 0)) :
    e.csrRun slotB b false a = (e.regRead slotB b a).2.emit (.csr a.fn (csrPart a (e.regRead slotB b a).1)) := by
  unfold Eng.csrRun
  rw [if_neg (by simp [ha])]
  simp [hw]

/-- A write on a member that is no standby and keeps no journal. -/
theorem Eng.pairWrite_alone {e : Eng} (b : Budget) (a : Csr) (h : e.standby = false) (hj : e.journals = false) :
    e.pairWrite b a = e.regWrite b a := by
  unfold Eng.pairWrite; simp [h, hj]

/-- A write of a register that the journal does not carry. -/
theorem Eng.pairWrite_own {e : Eng} (b : Budget) (a : Csr) (h : e.standby = false) (hc : e.regChanges a = []) :
    e.pairWrite b a = e.regWrite b a := by
  unfold Eng.pairWrite; simp [h, hc]

@[simp] theorem Eng.touch_frame (e : Eng) (f : Fn) :
    (e.touch f).fns = e.fns ∧ (e.touch f).ctl = e.ctl ∧ (e.touch f).flt = e.flt ∧ (e.touch f).dma = e.dma ∧
    (e.touch f).txqs = e.txqs ∧ (e.touch f).rxqs = e.rxqs ∧ (e.touch f).eqs = e.eqs ∧ (e.touch f).vecs = e.vecs ∧
    (e.touch f).ports = e.ports ∧ (e.touch f).slots = e.slots ∧ (e.touch f).time = e.time ∧ (e.touch f).carry = e.carry ∧
    (e.touch f).lcp = e.lcp ∧ (e.touch f).pwr = e.pwr ∧ (e.touch f).pair = e.pair ∧ (e.touch f).start = e.start ∧
    (e.touch f).outs = [] := by
  unfold Eng.touch; simp [Eng.clear]

@[simp] theorem Eng.touch_reads (e : Eng) (f : Fn) :
    (∀ g, (e.touch f).fn g = e.fn g) ∧ (∀ q, (e.touch f).txq q = e.txq q) ∧ (∀ q, (e.touch f).rxq q = e.rxq q) ∧
    (∀ q, (e.touch f).eq_ q = e.eq_ q) ∧ (∀ n, (e.touch f).tb n = e.tb n) ∧ (∀ c, (e.touch f).chan c = e.chan c) ∧
    (∀ t, (e.touch f).thread t = e.thread t) ∧ (e.touch f).standby = e.standby ∧ (e.touch f).journals = e.journals ∧
    (e.touch f).now = e.now ∧ (∀ g n, (e.touch f).txqOf g n = e.txqOf g n) ∧ (∀ g n, (e.touch f).rxqOf g n = e.rxqOf g n) ∧
    (∀ g n, (e.touch f).eqOf g n = e.eqOf g n) ∧ (∀ p, (e.touch f).port p = e.port p) := by
  simp [Eng.fn, Eng.txq, Eng.rxq, Eng.eq_, Eng.tb, Eng.chan, Eng.thread, Eng.standby, Eng.journals, Eng.now, Eng.txqOf, Eng.rxqOf,
    Eng.eqOf, Eng.txqList, Eng.rxqList, Eng.eqList, Eng.port]

end Sys2Proof.Machine
end

