-- ==== Sys2Proof/Tests/Slice0.lean ====
section
/-! SUPPORT. Slice0.lean: what WellFormed refuses, the spec's own worked cases, and for each obligation with hypotheses
concrete states and operands that meet them, clause by clause. -/
namespace Sys2Proof.Tests
open Sys2Proof Sys2Proof.Machine

-- the theorems below are many kernel evaluations: one after another, not each in a thread of its own
set_option Elab.async false

/-! ### Small states -/

/-- An engine in RUN after S8. -/
def upE : Eng :=
  { pwr := { ctlOn := true, restOn := true, retOn := true, pll := true }, start := { phase := .ready }, ctl := { ready := true } }

/-- The state of an engine. -/
def st (e : Eng) : State := { eng := e }

/-- An engine in RUN after S8, its power state changed. -/
def pwrE (g : PwrSt → PwrSt) : Eng := { upE with pwr := g upE.pwr }

/-- A member of a pair, in RUN. -/
def pairE (g : PairSt → PairSt) : Eng := { upE with pair := g {} }

/-- An engine in RUN whose port `p` is changed from its reset. -/
def portE (p : PortId) (g : Port → Port) : Eng := upE.modPort p g

/-- A mailbox command whose parameters are in. -/
def cmd (op len params : Nat) : Cmd :=
  { opcode := op, tag := 0, indReq := false, indRsp := false, reqLen := len, rspMax := 0, reqAddr := 0, rspAddr := 0
    params := params, st := .ready, start := 0 }

/-- 64-bit slots as parameters, the first lowest. -/
def slots : List Nat → Nat
  | [] => 0
  | v :: t => v + 2 ^ 64 * slots t

/-- A command of slots. -/
def sc (op : Nat) (l : List Nat) : Cmd := cmd op (8 * l.length) (slots l)

/-- A SET command: OBJECT, MASK and the slots of the fields present. -/
def setc (op obj mask : Nat) (l : List Nat) : Cmd := cmd op (16 + 8 * l.length) (slots (obj :: mask :: l))

/-- The engine with `c` as function `f`'s command in flight. -/
def ask (e : Eng) (f : Fn) (c : Cmd) : Eng :=
  { e.setFn f { e.fn f with enabled := true, cmd := some c } with ctl := { e.ctl with inflight := e.ctl.inflight ++ [f] } }

/-- The block a SET request holds. -/
def blk (c : Cmd) (specs : Nat → List Fld) (obj : Nat → Bool) : SetBlk :=
  match c.set specs obj with
  | .good b => b
  | .bad _ => { object := 0, start := 0, flds := [], len := 0 }

/-- A commit in which no unit fails. -/
def clean : Commit := { fail := none, rollback := none }

/-! ### The premises of the statements from conditions that can be evaluated -/

theorem up_of {e : Eng} (h : e.start.phase = .ready ∧ e.pwr.state = .run ∧ e.pwr.step = .none ∧ e.pwr.ctlOn = true ∧
    e.pwr.restOn = true) : e.Up := ⟨h.1, h.2.1, h.2.2.1, h.2.2.2.1, h.2.2.2.2⟩

theorem open_of {e : Eng} {f : Fn} (h : e.start.phase = .ready ∧ e.pwr.state = .run ∧ e.pwr.step = .none ∧ e.pwr.ctlOn = true ∧
    e.pwr.restOn = true ∧ e.ctl.stalled = []) : e.Open f :=
  { up_of ⟨h.1, h.2.1, h.2.2.1, h.2.2.2.1, h.2.2.2.2.1⟩ with stalled := by simp [h.2.2.2.2.2] }

theorem has_of {e : Eng} {f : Fn} {op : Nat} {c : Cmd} (h : (e.fn f).cmd = some c ∧ c.opcode = op ∧ c.st = .ready ∧
    e.ctl.ready = true ∧ e.taken f = true ∧ e.standby = false) : e.Has f op c :=
  ⟨h.1, h.2.1, h.2.2.1, h.2.2.2.1, h.2.2.2.2.1, h.2.2.2.2.2⟩

theorem asks_of {e : Eng} {f : Fn} {op n : Nat} {c : Cmd} (h : ((e.fn f).cmd = some c ∧ c.opcode = op ∧ c.st = .ready ∧
    e.ctl.ready = true ∧ e.taken f = true ∧ e.standby = false) ∧ c.reqLen = 8 * n ∧ c.statBuf op = true) : e.Asks f op n c :=
  ⟨has_of h.1, h.2.1, h.2.2⟩

theorem sets_of {e : Eng} {f : Fn} {op : Nat} {specs : Nat → List Fld} {obj : Nat → Bool} {c : Cmd} {b : SetBlk}
    (h : ((e.fn f).cmd = some c ∧ c.opcode = op ∧ c.st = .ready ∧ e.ctl.ready = true ∧ e.taken f = true ∧ e.standby = false) ∧
      c.set specs obj = .good b) : e.Sets f op specs obj c b := ⟨has_of h.1, h.2⟩

theorem calm_of {e : Eng} (h : e.flt.raised = [] ∧ e.flt.held = [] ∧ e.fns = {} ∧ e.journals = false ∧ e.handing = false ∧
    e.start.due = none ∧ e.irqStall = false ∧ ∀ p, (e.port p).settled = true) : e.Calm :=
  have hf : ∀ f, (e.fn f).resetting = none ∧ (e.fn f).cmd = none := fun f => by
    simp only [Eng.fn, h.2.2.1, Tab.get, Tab.look, Option.getD_none, FnState.reset]
    split <;> exact ⟨rfl, rfl⟩
  { raised := h.1, held := h.2.1, thin := h.2.2.2.2.2.2.2, resets := fun f => (hf f).1
    answered := fun f c hc => by rw [(hf f).2] at hc; cases hc
    journals := h.2.2.2.1, handing := h.2.2.2.2.1, due := h.2.2.2.2.2.1, stall := h.2.2.2.2.2.2.1 }

/-- A pool with a free number gives one. -/
theorem pick_some (pool n : Nat) (used : List Nat) (h : 0 < n) (h0 : 0 ∉ used) : ∃ k, pickFree pool n used = some k := by
  have hm : 0 ∈ (upTo n).filter (fun i => !used.contains i) := by
    simp [upTo, h, h0]
  unfold pickFree
  generalize (upTo n).filter (fun i => !used.contains i) = l at hm
  cases l with
  | nil => cases hm
  | cons a t =>
    have hl : Config.poolPick pool used % (a :: t).length < (a :: t).length := Nat.mod_lt _ (Nat.succ_pos _)
    exact ⟨_, by simp only [List.isEmpty_cons, Bool.false_eq_true, if_false]; exact List.getElem?_eq_getElem hl⟩

/-! ### The queue, reset and what every command does -/

theorem witness_StepRunsTheFrontCommand : State.reset.pending = [] := rfl

theorem witness_InvariantKeptByEveryStep : State.reset.budget.wf ∧ State.reset.boot.wf ∧
    ∃ t, step { State.reset with pending := [.budgetCredit] } = .next t :=
  ⟨Nat.le_refl _, fun h => by simp [State.reset] at h, _, rfl⟩

theorem witness_BudgetAndBootStoreChanges :
    (match Instr.tbSnap 0 with | .signingDone _ | .budgetCredit | .resetAssert => true | _ => false) = false ∧
    (match Instr.tbSnap 0 with
      | .fwUpdate .. | .memoryInitDone | .imageLoadDone _ | .startReady | .trialTimeout => true
      | _ => false) = false := ⟨rfl, rfl⟩

/-- F1 enabled with opcode 0x0008 in MBX_REQ: the general group ends at 0x07. -/
def badOp (f : Fn) : Eng := upE.setFn f { upE.fn f with enabled := true, req := 0x0008 }

theorem witness_UnknownOpcodesAreUnsupported :
    ((st (badOp 0)).eng.Open 0 ∧ ((badOp 0).fn 0).enabled = true ∧ (badOp 0).standby = false ∧ (badOp 0).ctl.ready = true ∧
      ((badOp 0).fn 0).cmd = none ∧ opClass (((badOp 0).fn 0).req.toNat % 65536) = none) ∧
    ((st (badOp 1)).eng.Open 1 ∧ ((badOp 1).fn 1).enabled = true ∧ (badOp 1).standby = false ∧ (badOp 1).ctl.ready = true ∧
      ((badOp 1).fn 1).cmd = none ∧ ((badOp 1).ctl.inflight.filter (fun g => decide (g ≠ 0))).length < 63 ∧
      opClass (((badOp 1).fn 1).req.toNat % 65536) = none) ∧
    opClass 0x0B04 = some 0 := by
  and_intros <;> first | decide +kernel | exact open_of (by decide +kernel)

/-- PORT_STATE_GET and FC_CONFIG requests for the order of the checks: P3 in UP for the LOCKED one. -/
def fcE : Eng := portE 3 (fun x => { x with state := .up })
def psg (v : Nat) : Cmd := sc 0x0103 [v]
def fcBad : Cmd := setc 0x010B 3 1 [3]
def fcXon : Cmd := setc 0x010B 3 0x60 [8192, 8192, 8192, 8192, 8192, 8192, 8192, 8192, 4096, 4097, 0, 0, 0, 0, 0, 0]
def fcOk : Cmd := setc 0x010B 3 1 [2]

theorem witness_ChecksInOrder :
    ((ask (pairE (fun x => { x with state := .standby })) 5 (psg 0)).clear.mbxReady 5 0x0103 = some (psg 0) ∧
      (ask (pairE (fun x => { x with state := .standby })) 5 (psg 0)).clear.standby = true ∧ (5 : Fn) ≠ 0) ∧
    ((ask upE 0 (sc 0x0103 [0, 0])).clear.Has 0 0x0103 (sc 0x0103 [0, 0]) ∧ (sc 0x0103 [0, 0]).reqLen ≠ 8) ∧
    ((ask upE 0 (psg 16)).clear.Has 0 0x0103 (psg 16) ∧ (psg 16).reqLen = 8 ∧ (ask upE 0 (psg 16)).clear.portArg ((psg 16).slot 0) = false) ∧
    ((ask upE 5 (psg 15)).clear.Has 5 0x0103 (psg 15) ∧ (psg 15).reqLen = 8 ∧ (ask upE 5 (psg 15)).clear.portArg ((psg 15).slot 0) = true ∧
      (ask upE 5 (psg 15)).clear.ownsOn 5 (psg 15).port = false) ∧
    ((ask fcE 0 fcBad).clear.Has 0 0x010B fcBad ∧ fcBad.set (fun _ => fcFlds) (ask fcE 0 fcBad).clear.portArg = .bad 48) ∧
    ((ask fcE 0 fcXon).clear.Has 0 0x010B fcXon ∧
      fcXon.set (fun _ => fcFlds) (ask fcE 0 fcXon).clear.portArg = .good (blk fcXon (fun _ => fcFlds) (fun _ => true)) ∧
      firstBad ((ask fcE 0 fcXon).clear.fcChecks (blk fcXon (fun _ => fcFlds) (fun _ => true))) = some 48) ∧
    ((ask fcE 5 fcOk).clear.Has 5 0x010B fcOk ∧ (5 : Fn) ≠ 0 ∧
      fcOk.set (fun _ => fcFlds) (ask fcE 5 fcOk).clear.portArg = .good (blk fcOk (fun _ => fcFlds) (fun _ => true)) ∧
      firstBad ((ask fcE 5 fcOk).clear.fcChecks (blk fcOk (fun _ => fcFlds) (fun _ => true))) = none) ∧
    ((ask fcE 0 fcOk).clear.Has 0 0x010B fcOk ∧
      fcOk.set (fun _ => fcFlds) (ask fcE 0 fcOk).clear.portArg = .good (blk fcOk (fun _ => fcFlds) (fun _ => true)) ∧
      firstBad ((ask fcE 0 fcOk).clear.fcChecks (blk fcOk (fun _ => fcFlds) (fun _ => true))) = none ∧
      lockedChange fcFlds (blk fcOk (fun _ => fcFlds) (fun _ => true)) (fun i => nth ((fcE.port 3).fcCfg fcE.start.oversub) i [])
        (fun _ => !decide ((fcE.port 3).state = .adminDown)) = some { idx := 0, off := 48, vals := [2] }) := by
  and_intros <;> first | decide +kernel | exact has_of (by decide +kernel)

theorem witness_SetBlocksParse :
    (setc 0x010B 15 0x1002 [255, 1]).set (fun _ => fcFlds) (fun v => decide (v < 16)) = .good { object := 15, start := 0, len := 32, flds :=
      [{ idx := 1, off := 48, vals := [255] }, { idx := 12, off := 56, vals := [1] }] } := by decide +kernel

/-- Source 43 with no reaction but interrupts at any severity. -/
def quietCfg : SrcCfg := { sevFail := 4, react := [.none, .none, .interrupt, .interrupt, .interrupt], winEn := false, winN := 16, winW := 1000000 }
def quietE : Eng := { upE with pair := { wakeSev := 0 }, flt := { cfg := ⟨[(43, quietCfg)]⟩ } }
def quietEv : FaultEv := { src := 43, cls := .failure, detail := 5, addr := 0, master := 0x8035, access := 0 }
def graded (src : Fin 64) (sev : Nat) : Graded :=
  { ev := { quietEv with src := src }, sev := sev, lasting := false, reaction := .none, sec := 0, ns := 0 }

theorem quiet_react (k : Nat) : nth quietCfg.react k .none = .none ∨ nth quietCfg.react k .none = .interrupt := by
  rcases k with _ | _ | _ | _ | _ | k
  · exact .inl rfl
  · exact .inl rfl
  · exact .inr rfl
  · exact .inr rfl
  · exact .inr rfl
  · exact .inl rfl

theorem witness_FirstErrorCapture :
    (upE.Open 0 ∧ upE.standby = false) ∧
    (quietE.Calm ∧ quietE.collecting = true ∧ quietEv.src.val < 50 ∧ 32 < quietEv.src.val ∧ quietE.flt.shadows = [] ∧ (quietE.srcCfg 43).winEn = false ∧
      quietE.tally.freezeSev = 0 ∧ quietE.pair.wakeSev = 0 ∧ quietE.flt.irqEn = false ∧
      (∀ k, nth (quietE.srcCfg quietEv.src.val).react k .none = .none ∨ nth (quietE.srcCfg quietEv.src.val).react k .none = .interrupt) ∧
      quietE.flt.first.valid = false) ∧
    ({ first := { valid := true } } : FltSt).first.valid = true ∧
    (({} : FltSt).first.valid = false ∧ [graded 24 2, graded 7 3, graded 6 3] ≠ [] ∧ graded 7 3 ∈ [graded 24 2, graded 7 3, graded 6 3]) := by
  refine ⟨⟨open_of (by decide +kernel), by decide +kernel⟩, ⟨calm_of (by decide +kernel), ?_⟩, by decide, by decide +kernel⟩
  refine ⟨by decide, by decide, by decide, by decide, by decide, by decide, by decide, by decide, ?_, by decide⟩
  exact quiet_react

/-! ### Doorbells, head updates and quench -/

/-- F0's transmit queue and receive ring of 64 descriptors with index 3 accepted, and its event queue of head 1 and tail 3. -/
def bellE : Eng :=
  { upE with
    txqs := ⟨[(0, some { fn := 0, loc := 4095, prod := 3 })]⟩, rxqs := ⟨[(0, some { fn := 0, loc := 4095, prod := 3 })]⟩
    eqs := ⟨[(0, some { fn := 0, loc := 511, head := 1, count := 3 })]⟩ }
def bellT : Txq := { fn := 0, loc := 4095, prod := 3 }
def bellR : Rxq := { fn := 0, loc := 4095, prod := 3 }
def bellQ : Evq := { fn := 0, loc := 511, head := 1, count := 3 }

theorem witness_DoorbellsAcceptAnIndexInRange :
    (bellE.Open 0 ∧ (bellE.fn 0).enabled = true ∧ bellE.standby = false) ∧
    (bellE.txqOf 0 4095 = some 0 ∧ bellE.txq 0 = some bellT ∧ bellE.rxqOf 0 4095 = some 0 ∧ bellE.rxq 0 = some bellR) ∧
    ((63 - bellT.cons).toNat ≤ bellT.size - 1 ∧ (bellT.prod - bellT.cons).toNat ≤ (63 - bellT.cons).toNat ∧ (63 : BitVec 16) ≠ bellT.prod) ∧
    ((3 - bellT.cons).toNat ≤ bellT.size - 1 ∧ (bellT.prod - bellT.cons).toNat ≤ (3 - bellT.cons).toNat ∧ 3 = bellT.prod) ∧
    ¬ ((64 - bellT.cons).toNat ≤ bellT.size - 1 ∧ (bellT.prod - bellT.cons).toNat ≤ (64 - bellT.cons).toNat) ∧
    ¬ ((2 - bellT.cons).toNat ≤ bellT.size - 1 ∧ (bellT.prod - bellT.cons).toNat ≤ (2 - bellT.cons).toNat) ∧
    bellE.txqOf 0 4094 = none ∧
    ((63 - bellR.cons).toNat ≤ bellR.size - 1 ∧ (bellR.prod - bellR.cons).toNat ≤ (63 - bellR.cons).toNat ∧ (63 : BitVec 16) ≠ bellR.prod) ∧
    ((3 - bellR.cons).toNat ≤ bellR.size - 1 ∧ (bellR.prod - bellR.cons).toNat ≤ (3 - bellR.cons).toNat ∧ 3 = bellR.prod) ∧
    ¬ ((64 - bellR.cons).toNat ≤ bellR.size - 1 ∧ (bellR.prod - bellR.cons).toNat ≤ (64 - bellR.cons).toNat) ∧
    bellE.rxqOf 0 4094 = none := by
  and_intros <;> first | decide +kernel | exact open_of (by decide +kernel)

theorem witness_HeadUpdatesConsumeAndArm :
    (bellE.Open 0 ∧ (bellE.fn 0).enabled = true ∧ bellE.standby = false ∧ bellE.eqOf 0 511 = some 0 ∧ bellE.eq_ 0 = some bellQ) ∧
    (3 - bellQ.head).toNat ≤ (bellQ.tail - bellQ.head).toNat ∧
    ((1 - bellQ.head).toNat ≤ (bellQ.tail - bellQ.head).toNat ∧ 1 = bellQ.head ∧ bellQ.armed = none) ∧
    (bellQ.tail - bellQ.head).toNat < (4 - bellQ.head).toNat ∧ (bellQ.tail - bellQ.head).toNat < (0 - bellQ.head).toNat := by
  and_intros <;> first | decide +kernel | exact open_of (by decide +kernel)

theorem witness_QuenchBits : upE.Open 0 ∧ (ask upE 1 (psg 0)).Open 1 ∧ ((ask upE 1 (psg 0)).fn 1).enabled = true ∧
    (ask upE 1 (psg 0)).standby = false ∧ upE.standby = false ∧ (2047 : Fn) ≠ 0 := by
  and_intros <;> first | decide +kernel | exact open_of (by decide +kernel)

/-! ### The mailbox's registers -/

/-- F1 enabled, with 63 functions' commands in flight or with none, with a command in flight or without. -/
def goE (inflight : List Fn) (ready : Bool) (c : Option Cmd) : Eng :=
  { upE.setFn 1 { upE.fn 1 with enabled := true, cmd := c } with ctl := { ready := ready, inflight := inflight } }
def others : List Fn := (upTo 63).map (fun i => (fin 2048 (2 + i) : Fn))

theorem witness_MailboxRequests :
    ((goE [] true none).Open 1 ∧ ((goE [] true none).fn 1).enabled = true ∧ (goE [] true none).standby = false) ∧
    (((8 : Nat) = 8 ∧ (248 : Fin 256).val % 8 = 0) ∧ ((4 : Nat) = 4 ∧ (252 : Fin 256).val % 4 = 0)) ∧
    ((goE [] true none).fn 1).cmd = none ∧ ((goE [1] true (some (psg 0))).fn 1).cmd = some (psg 0) ∧
    ((goE [] true none).ctl.ready = true ∧ ((others.drop 1).filter (fun g => decide (g ≠ 0))).length < 63) ∧
    ((1 : Fn) ≠ 0 ∧ 63 ≤ (others.filter (fun g => decide (g ≠ 0))).length) ∧
    ((goE [] false none).Open 1 ∧ ((goE [] false none).fn 1).cmd = none ∧ (goE [] false none).ctl.ready = false) ∧
    ((goE [1] true (some (psg 0))).Open 1 ∧ (goE [1] true (some (psg 0))).standby = false) ∧
    (∀ a : Csr, a = { fn := 1, win := false, off := 0x111F8, size := 8, data := 0 } ∨ a = { fn := 1, win := false, off := 0x11100, size := 4, data := 0 } →
      a.fn = 1 ∧ a.win = false ∧ 0x11100 ≤ a.off.toNat ∧ a.off.toNat < 0x11200 ∧
      (a.size = 8 ∧ a.off.toNat % 8 = 0 ∨ a.size = 4 ∧ a.off.toNat % 4 = 0)) ∧
    (goE [] true none).journals = false := by
  and_intros
  all_goals first | decide +kernel | exact open_of (by decide +kernel) | (rintro a (rfl | rfl) <;> decide)

theorem witness_MailboxRequestAndResponse :
    (∃ k, opClass 0x0103 = some k) ∧
    ((ask upE 2047 (psg 0)).journals = false ∧ (ask upE 2047 (psg 0)).ctl.restarting = false ∧ ((ask upE 2047 (psg 0)).fn 2047).cmd = some (psg 0) ∧ (zeros 240).length ≤ 240 ∧
      ((ask upE 2047 (psg 0)).fn 2047).irqDone = false ∧ (0 : Fn) ≠ 2047) :=
  ⟨⟨0, by decide⟩, by decide +kernel⟩

/-! ### Register accesses and time -/

def csr (f : Fn) (win : Bool) (off : BitVec 22) (size : Nat) : Csr := { fn := f, win := win, off := off, size := size, data := 0 }
def phaseE (p : Phase) : Eng := { start := { phase := p } }

/-- An access is one that R28 accepts. -/
def okSize (a : Csr) : Bool :=
  (decide (a.size = 4) && decide (a.off.toNat % 4 = 0)) || (decide (a.size = 8) && decide (a.off.toNat % 8 = 0))

theorem witness_RegisterAccesses :
    ((∀ f, upE.Open f) ∧ upE.standby = false ∧ upE.journals = false) ∧
    (okSize (csr 7 false 0x11FFC 4) = true ∧ okSize (csr 0 true 0x201FF8 8) = true) ∧
    (okSize (csr 7 false 0x11204 8) = false ∧ okSize (csr 7 false 0x11200 2) = false) ∧
    (okSize (csr 7 true 0x10000 8) = true ∧ (csr 7 true 0x10000 8).win = true ∧ (csr 7 true 0x10000 8).fn ≠ 0) ∧
    ((phaseE .held).start.phase = .held ∧ (phaseE .held).standby = false ∧ (phaseE .held).journals = false) ∧
    (∀ a, a = csr 0 true 0x1FFF8 8 ∨ a = csr 0 true 0x30000 8 →
      (a.win = true → a.fn = 0 → a.off.toNat < 0x20000 ∨ 0x30000 ≤ a.off.toNat)) ∧
    ((phaseE .s1).start.phase = .s1 ∧ (phaseE .s2).start.phase = .s2 ∧ (phaseE .s3).start.phase = .s3) ∧
    upE.ctl.stalled = [] ∧ ({ upE with ctl := { upE.ctl with stalled := [(true, csr 0 true 0x10000 8)] } } : Eng).Up ∧
    (∀ k, k = PwrState.watch ∨ k = .doze ∨ k = .off → (pwrE (fun x => { x with state := k })).start.phase = .ready ∧
      (pwrE (fun x => { x with state := k })).pwr.step = .none ∧ (pwrE (fun x => { x with state := k })).pwr.state = k ∧
      (pwrE (fun x => { x with state := k })).standby = false ∧ (pwrE (fun x => { x with state := k })).journals = false) := by
  and_intros <;> first
    | decide +kernel
    | (intro f; exact open_of (by decide +kernel))
    | exact up_of (by decide +kernel)
    | (rintro a (rfl | rfl) <;> decide)
    | (rintro k (rfl | rfl | rfl) <;> decide +kernel)

/-- Time bases at the edges of their rules: TB1 at the last nanosecond of a second and slewing, TB2 with an offset below zero. -/
def timeE (hold : Option Nat) : Eng := { upE with time := {
  tbs := ⟨[(1, { sec := 5, ns := 999999999, sub := 4294967295, offset := -5999999999, amount := -1, degraded := false }),
    (2, { sec := 5, ns := 0, offset := -5000000001 })]⟩
  holdover := hold, ppo := ⟨[(1, { mode := 2, active := true, next := some 10 }), (2, { mode := 1, active := true, next := some 10 }),
    (3, { next := some 10 }), (4, { width := 5 }), (5, { period := 15 }), (6, { width := 11, period := 16 }), (7, { width := 10, period := 16 })]⟩
  cap := ⟨[(1, { rise := true, queue := [{ sec := 1, ns := 2, frac := 3, rise := true, tb := 3 }] }),
    (2, { fall := true, queue := List.replicate 16 { sec := 1, ns := 2, frac := 3, rise := true, tb := 3 } })]⟩
  ppsEn := true, tsq := ⟨[(15, { ents := [{ sec := 1, ns := 2, frac := 3, tb := 0, degraded := false, port := 15, tsId := 9, fn := 4, added := 0 }] })]⟩ } }

theorem witness_TimeReadsAndControls :
    (upE.Open 0 ∧ (upE.fn 0).enabled = true ∧ (upE.fn 0).timeBase = some 0) ∧
    ((goE [] true none).Open 1 ∧ ((goE [] true none).fn 1).enabled = true ∧ ((goE [] true none).fn 1).timeBase = none) ∧
    ((timeE none).Open 0 ∧ ((timeE none).cap 1).queue = { sec := 1, ns := 2, frac := 3, rise := true, tb := 3 } :: [] ∧
      ((timeE none).cap 0).queue = []) ∧
    ((timeE none).standby = false ∧ (timeE none).journals = false) ∧
    (0 : Int) ≤ ((((timeE none).tb 1).sec * 1000000000 + ((timeE none).tb 1).ns : Nat) : Int) + ((timeE none).tb 1).offset ∧
    ((((timeE none).tb 2).sec * 1000000000 + ((timeE none).tb 2).ns : Nat) : Int) + ((timeE none).tb 2).offset < 0 ∧
    ((timeE none).tb 1).amount ≠ 0 ∧ ((timeE none).tb 2).amount = 0 := by
  and_intros <;> first | decide +kernel | exact open_of (by decide +kernel)

theorem witness_TimeBaseRates :
    ((timeE none).time.holdover = none ∧ (timeE none).pwr.pll = true ∧ ∀ n, ((timeE none).tb n).slewing = false) ∧
    (timeE (some 0)).time.holdover = some 0 := by decide +kernel

theorem witness_PulsesAndCaptures :
    ((timeE none).Open 0 ∧ (timeE none).standby = false ∧ (timeE none).journals = false) ∧
    (((timeE none).ppo 1).mode ≠ 0 ∧ ((timeE none).ppo 1).mode < 4) ∧ ((timeE none).ppo 1).mode < 3 ∧
    (((timeE none).ppo 4).mode < 2 ∧ ((timeE none).ppo 4).width < 6) ∧ (((timeE none).ppo 5).mode < 2 ∧ ((timeE none).ppo 5).period < 16) ∧
    (((timeE none).ppo 6).mode < 2 ∧ ((timeE none).ppo 6).period < ((timeE none).ppo 6).width + 6) ∧
    (((timeE none).ppo 7).mode = 0 ∧ ((timeE none).ppo 7).active = false ∧ 6 ≤ ((timeE none).ppo 7).width ∧ 16 ≤ ((timeE none).ppo 7).period ∧
      ((timeE none).ppo 7).width + 6 ≤ ((timeE none).ppo 7).period ∧ (timeE none).time.holdover = none) ∧
    (((timeE none).ppo 3).next = some 10 ∧ ((timeE none).ppo 3).active = false) ∧
    (((timeE none).ppo 1).next = some 10 ∧ ((timeE none).ppo 1).active = true ∧ ((timeE none).ppo 1).mode = 2) ∧
    (((timeE none).ppo 2).next = some 10 ∧ ((timeE none).ppo 2).active = true ∧ ((timeE none).ppo 2).mode = 1) ∧
    (((timeE none).cap 1).rise = true ∧ ((timeE none).cap 1).queue.length < 16) ∧
    (((timeE none).cap 2).fall = true ∧ 16 ≤ ((timeE none).cap 2).queue.length) ∧
    (timeE none).time.ppsEn = true ∧
    ((timeE none).time.tsq.get {} 15).ents =
      { sec := 1, ns := 2, frac := 3, tb := 0, degraded := false, port := 15, tsId := 9, fn := 4, added := 0 } :: [] := by
  and_intros <;> first | decide +kernel | exact open_of (by decide +kernel)

/-! ### Flow control, transmit starts and frames received -/

/-- P1 in UP in PAUSE mode, paused and in DRAIN or not; P2 in PFC mode with TC7 paused and in XOFF; P3 in TRAINING. -/
def pt : PauseT := { cycles := 8, setAt := 0, since := 0 }
def sevenTh {α : Type} (n v : α) : List α := [n, n, n, n, n, n, n, v]
def fcP (drain : BitVec 8) : Eng :=
  ((portE 1 (fun x => { x with state := .up, fcMode := .pause, pauseP := some pt, drain := drain, restoreAt := List.replicate 8 (some 0) })).setPort 2
    { Port.reset 2 with
      state := .up, fcMode := .pfc, pauseC := sevenTh none (some pt), xoffSt := 0x80, restoreAt := sevenTh none (some 0)
      drain := if drain = 0 then 0 else 0x80 }).setPort 3 { Port.reset 3 with state := .training, wdLimit := 0 }

theorem witness_PauseAndDrainTimers :
    ((fcP 0).pwr.restOn = true ∧ ((fcP 0).port 1).state = .up ∧ ((fcP 0).port 3).state ≠ .up) ∧
    (((fcP 0).port 1).pauseP.isSome = true ∧ (nth ((fcP 0).port 2).pauseC 7 none).isSome = true) ∧
    (((fcP 0).port 2).pauseC.length = 8 ∧ ((fcP 0).port 2).pausedFor.length = 8 ∧ nth ((fcP 0).port 2).pauseC 7 none = some pt ∧ (1 : PortId) ≠ 2) ∧
    (bitAt ((fcP 0).port 2).xoffSt.toNat 7 = true ∧ ((fcP 0).port 2).state = .up ∧ (fcP 0).standby = false ∧ ((fcP 0).port 2).fcMode ≠ .none ∧
      ((fcP 0).port 2).trump = [] ∧ ((fcP 0).port 2).trumpWait = []) ∧
    bitAt ((fcP 0).port 2).xoffSt.toNat 6 = false ∧
    (((fcP 0).port 2).wdLimit ≠ 0 ∧ ((fcP 0).port 2).fcMode = .pfc ∧ bitAt ((fcP 0).port 2).drain.toNat 7 = false) ∧
    (((fcP 0).port 1).wdLimit ≠ 0 ∧ ((fcP 0).port 1).fcMode = .pause ∧ bitAt ((fcP 0).port 1).drain.toNat 0 = false) ∧
    ((fcP 0).port 3).wdLimit = 0 ∧
    (bitAt ((fcP 0xFF).port 2).drain.toNat 7 = true ∧ (nth ((fcP 0xFF).port 2).restoreAt 7 none).isSome = true) ∧
    (bitAt ((fcP 0xFF).port 1).drain.toNat 0 = true ∧ (nth ((fcP 0xFF).port 1).restoreAt 0 none).isSome = true) := by decide +kernel

/-- P0 in UP with a trump store. -/
def trumpE (l : List Trump) : Eng := portE 0 (fun x => { x with state := .up, trump := l })

theorem witness_ControlFramesAndHolds :
    (bitAt ({ upE with txHold := 0x8000 } : Eng).txHold.toNat 15 = true ∧ 0 < (upE.port 15).txLanes ∧
      (upE.port 15).lists = List.replicate 8 []) ∧
    ((upE.port 0).ctSaf = false ∧ 1000000 ≤ ((portE 0 (fun x => { x with ctFrames := 1000000 })).port 0).ctFrames ∧
      ((portE 0 (fun x => { x with ctFrames := 1000000 })).port 0).ct = .bytes 512 ∧ (upE.port 0).ctFloor = 512 ∧
      ((portE 0 (fun x => { x with ct := .bytes 513, ctFrames := 1000000 })).port 0).ct = .bytes 513 ∧
      ((portE 0 (fun x => { x with ct := .saf, ctFrames := 1000000 })).port 0).ct = .saf ∧
      ((portE 0 (fun x => { x with ctFrames := 999999 })).port 0).ctFrames < 1000000) ∧
    ((trumpE []).mayStart 0 = true ∧ ((trumpE []).port 0).nextTrump = none) ∧
    ((trumpE [.fc, .lldp 120]).mayStart 0 = true ∧ ((trumpE [.fc, .lldp 120]).port 0).trump = .fc :: [.lldp 120]) ∧
    ((trumpE [.lldp 120, .lldp 120]).mayStart 0 = true ∧ ((trumpE [.lldp 120, .lldp 120]).port 0).trump = .lldp 120 :: [.lldp 120] ∧
      (∀ u ∈ [Trump.lldp 120], (Trump.lldp 120).rank ≤ u.rank) ∧ ((trumpE []).port 0).fcMode ≠ .pause) ∧
    (∀ u ∈ [Trump.lldp 120], Trump.fc.rank ≤ u.rank) ∧
    ((trumpE [.thin 3 { seq := 1, cur := 8, target := 4, restore := false, cold := false, warm := 4, reason := 0, switch := 0 }]).mayStart 0 = true ∧
      (3 : Nat) < 4) := by decide +kernel

/-- A frame of 60 bytes of F0's queue 0, granted on P0 as `g`, and on the wire as `w`. -/
def txF : TxFrame := { id := 0, first := 0, ndesc := 1, bufs := [(0, 60)], supplied := 60, st := .granted }
def txG (data : Nat) : GFrame := { q := 0, frame := 0, seg := 0, order := 0, len := 64, grp := 1, need := 60, data := zeros data }
def txW (data : Nat) : WireFrame :=
  { g := txG data, egress := [0, 0, 0, 0], sojourn := 0, lateSent := none, trailer := false, tb := 0, deg := false, len := 64, f := txF, fn := 0, tc := 0
    fcsPass := false }
def txX : Txq := { fn := 0, loc := 0, state := .running, frames := [txF] }
def txE (lists : List GFrame) (wire : List WireFrame) (trump : List Trump) : Eng :=
  { portE 0 (fun x => { x with state := .up, lists := [lists, [], [], [], [], [], [], []], wire := wire, trump := trump }) with
    txqs := ⟨[(0, some txX)]⟩ }

/-- A frame whose FCS is good. -/
def sealed (bs : List Byte) : List Byte := bs ++ fcsBytes bs
def rxF (bs : List Byte) (err cut : Bool) : RxFrame :=
  { port := 0, bytes := bs, dp := 0, seg := 0, err := err, cut := cut, badBeat := none, parity := none }
def macHead : List Byte := bytesBE 6 0x0180C2000001 ++ zeros 6 ++ bytesBE 2 0x8808
def thinHead : List Byte := zeros 12 ++ bytesBE 2 0x88B5 ++ bytesBE 3 0x7A5F02 ++ [1]
/-- An LLDPDU's frame without its FCS: chassis ID, port ID, TTL and an end. -/
def lldpBytes (chassis ttl : Nat) : List Byte :=
  bytesBE 6 0x0180C200000E ++ zeros 6 ++ bytesBE 2 0x88CC ++ [2, 2, 4, BitVec.ofNat 8 chassis, 4, 2, 5, 2, 6, 2, 0, BitVec.ofNat 8 ttl] ++ zeros 34
/-- P0 in UP with MAX_FRAME 64; its class TC0 within or at LOSSY_LIMIT. -/
def rxE (shared : Nat) : Eng := portE 0 (fun x => { x with state := .up, maxFrame := 64, shared := [shared, 0, 0, 0, 0, 0, 0, 0] })
/-- Where the frame finds room. -/
def room (e : Eng) (bs : List Byte) : Area ⊕ Nat :=
  let x := e.port 0
  let c := x.ingress bs
  (e.clear.wireBytes 0 .rx (some c) (some .host) bs.length).admission 0 c (linesOf (min bs.length (x.maxFrame + 1)))

theorem witness_FramesStartEndAndArrive :
    (((txE [] [] [.fc]).port 0).drain = 0 ∧ ((txE [] [] [.fc]).port 0).nextTrump.isSome = true ∧ upE.mayStart 0 = false ∧
      (txE [] [] []).freePos 0 1 0 = false ∧ ∀ c, c < 8 → (nth ((txE [] [] [.fc]).port 0).lists c []).head? = none) ∧
    ((txE [txG 60] [] []).mayStart 0 = true ∧ ((txE [txG 60] [] []).port 0).nextTrump = none ∧ (txE [txG 60] [] []).freePos 0 0 0 = true ∧
      nth ((txE [txG 60] [] []).port 0).lists 0 [] = txG 60 :: [] ∧
      (∀ k, k < 8 → k ≠ 0 → nth ((txE [txG 60] [] []).port 0).lists k [] = []) ∧
      (txE [txG 60] [] []).txq (txG 60).q = some txX ∧ txX.frame? (txG 60).frame = some txF ∧ (txG 60).need ≤ (txG 60).data.length ∧
      ((txE [txG 60] [] []).port 0).paused 0 = false ∧ ((txE [txG 60] [] []).port 0).hostDrop (txG 60).data = none ∧
      txX.launch txF (txG 60).seg = none ∧ ((txE [txG 60] [] []).port 0).deck.st = .none ∧ ((txE [txG 60] [] []).port 0).deck.oper = none) ∧
    ((txE [txG 60] [] []).mayStart 0 = true ∧ ((txE [txG 60] [] []).port 0).nextTrump = none ∧
      ((foldEng (upTo 8) (fun e c => e.fitWait 0 (fin 8 c) 0 0) (txE [txG 60] [] []).clear).pickStart 0 0 0).isSome = true ∧
      (nth ((txE [txG 60] [] []).port 0).lists 0 []).head? = some (txG 60) ∧
      (txE [txG 60] [] []).clear.place 0 0 (txG 60) 0 0 = .commit none) ∧
    ((txE [] [] []).mayStart 0 = true ∧ ((txE [] [] []).port 0).nextTrump = none ∧
      (foldEng (upTo 8) (fun e c => e.fitWait 0 (fin 8 c) 0 0) (txE [] [] []).clear).pickStart 0 0 0 = none) ∧
    (((txE [] [txW 60] []).port 0).wire = [txW 60] ∧ (txW 60).g.failed = 0 ∧ (txW 60).g.need ≤ (txW 60).g.data.length ∧
      (txE [] [txW 60] []).pwr.restOn = true ∧ (txW 60).f.tsReq = false ∧ (txW 60).lateSent = none ∧ (txW 60).orphan = false) ∧
    (((txE [] [txW 59] []).port 0).wire = [txW 59] ∧ (txW 59).g.failed = 0 ∧ (txW 59).g.data.length < (txW 59).g.need ∧
      (txW 59).orphan = false) ∧
    ((upE.port (upE.portOf 0)).state ≠ .up) ∧
    (((rxE 0).port ((rxE 0).portOf 0)).state = .up ∧ (rxE 0).pwr.restOn = true ∧ (rxF (zeros 63) false false).badBeat = none ∧
      (rxE 0).pwr.closed = false ∧ (zeros 63).length < 64) ∧
    (64 ≤ (zeros 64).length ∧ room (rxE 16384) (zeros 64) = .inr 64 ∧ fcsBytes ((zeros 64).take 60) ≠ (zeros 64).drop 60) ∧
    (room (rxE 16383) (zeros 65) = .inl .shared ∧ ((rxE 0).port 0).maxFrame < (zeros 65).length) ∧
    (room (rxE 0) (zeros 64) = .inl .shared ∧ (zeros 64).length ≤ ((rxE 0).port 0).maxFrame ∧ (rxF (zeros 64) true false).err = true ∧
      (rxF (zeros 64) false true).cut = true) ∧
    (room (rxE 0) (sealed (zeros 60)) = .inl .shared ∧ (sealed (zeros 60)).length = 64 ∧
      fcsBytes ((sealed (zeros 60)).take 60) = (sealed (zeros 60)).drop 60 ∧ ((rxE 0).port 0).consumer (sealed (zeros 60)) = .none) ∧
    (room (rxE 0) (sealed (macHead ++ zeros 46)) = .inl .shared ∧
      fcsBytes ((sealed (macHead ++ zeros 46)).take 60) = (sealed (macHead ++ zeros 46)).drop 60 ∧
      ((rxE 0).port 0).consumer (sealed (macHead ++ zeros 46)) = .mac) ∧
    (room (rxE 0) (sealed (thinHead ++ zeros 42)) = .inl .shared ∧
      fcsBytes ((sealed (thinHead ++ zeros 42)).take 60) = (sealed (thinHead ++ zeros 42)).drop 60 ∧
      ((rxE 0).port 0).consumer (sealed (thinHead ++ zeros 42)) = .thin) ∧
    (room (rxE 0) (sealed (lldpBytes 1 120)) = .inl .shared ∧ (sealed (lldpBytes 1 120)).length = 64 ∧
      fcsBytes ((sealed (lldpBytes 1 120)).take 60) = (sealed (lldpBytes 1 120)).drop 60 ∧
      ((rxE 0).port 0).consumer (sealed (lldpBytes 1 120)) = .lldp) ∧
    (((rxE 0).port 0).fcMode = .none ∧ (rxE 16383).sharedUse + 1 ≤ (rxE 16383).sharedCap ∧
      64 * nth ((rxE 16383).port 0).shared 0 0 < nth ((rxE 16383).port 0).lossyLimit 0 0) := by
  and_intros <;> decide +kernel

/-! ### LLDP, links, modules and thinning -/

def lldpdu (ttl : BitVec 16) : Lldpdu := { chassis := [1], portId := [2], ttl := ttl, cap := none, pair := none, badTlvs := 0 }
def partnerE : Eng := portE 15 (fun x => { x with state := .up, partner := { st := .present, chassis := [1], portId := [2], ttl := 65535 } })

def thinCap : CapTlv := { version := 1, thin := true, trailerTx := false, trailerRx := false, pair := false, steps := 15, lanes := 4, engineId := 1, portNum := 2 }
/-- A partner that advertises thinning. -/
def thinE : Eng := portE 15 (fun x => { x with
  state := .up, partner := { st := .present, chassis := [1], portId := [2], ttl := 65535, cap := some thinCap } })

theorem witness_PartnerRecords :
    (((rxE 0).port 0).consumer (zeros 64) ≠ .lldp ∧ ((rxE 16383).port 0).consumer (sealed (lldpBytes 1 120)) = .lldp ∧
      ((rxE 16383).port ((rxE 16383).portOf 0)).state = .up ∧ (rxE 16383).pwr.restOn = true ∧ (rxE 16383).pwr.closed = false ∧
      (rxF (sealed (lldpBytes 1 120)) false false).badBeat = none ∧ (sealed (lldpBytes 1 120)).length ≤ ((rxE 16383).port 0).maxFrame ∧
      fcsBytes ((sealed (lldpBytes 1 120)).take 60) = (sealed (lldpBytes 1 120)).drop 60 ∧ ((rxE 16383).port 0).fcMode = .none ∧
      (rxE 16383).sharedUse + linesOf 64 ≤ (rxE 16383).sharedCap ∧
      64 * nth ((rxE 16383).port 0).shared 0 0 < nth ((rxE 16383).port 0).lossyLimit 0 0 ∧
      lldpOf (slice (sealed (lldpBytes 1 120)) 14 46) =
        some { chassis := [1], portId := [2], ttl := 120, cap := none, pair := none, badTlvs := 0 }) ∧
    ((thinE.port 15).partner.st = .present ∧ (thinE.port 15).partner.chassis = (lldpdu 1).chassis ∧ (thinE.port 15).partner.portId = (lldpdu 1).portId ∧
      (thinE.port 15).partner.cap = some thinCap ∧ thinCap.thin = true ∧ ((lldpdu 1).cap.map (·.thin)).getD false = false) ∧
    (partnerE.pwr.ctlOn = true ∧ (pwrE (fun x => { x with ctlOn := false })).pwr.ctlOn = false) ∧
    ((partnerE.port 15).state = .up ∧ (partnerE.port 15).lldpAgent = true) ∧ (partnerE.port 14).state ≠ .up ∧
    ((portE 14 (fun x => { x with lldpAgent := false })).port 14).lldpAgent = false ∧
    ((lldpdu 1).ttl ≠ 0 ∧ (partnerE.port 14).partner.st = .none) ∧ ((lldpdu 0).ttl = 0 ∧ (partnerE.port 15).partner.st ≠ .none) := by decide +kernel

/-- P0 in a state, with MI_CTL commands outstanding. -/
def linkE (k : PState) (up deb lldp : Bool) (mi : Option (MiCmd × Nat)) (gap : Option (Nat × Bool)) : Eng :=
  portE 0 (fun x => { x with state := k, linkUp := up, debouncing := deb, lldpAgent := lldp, miCtl := mi, gap := gap })

theorem witness_LinkStates :
    (((linkE .training false false true none none).port 0).state = .training ∧ ((linkE .up false false true none none).port 0).state ≠ .training) ∧
    (((linkE .training true true false none none).port 0).state = .training ∧ ((linkE .training true true false none none).port 0).debouncing = true ∧
      ((linkE .training true true false none none).port 0).linkUp = true ∧ ((linkE .training true true false none none).port 0).xoffSt = 0 ∧
      ((linkE .training true true false none none).port 0).released = 0 ∧ ((linkE .training true true false none none).port 0).lldpAgent = false) ∧
    (((linkE .training false true true none none).port 0).linkUp = false ∧ ((linkE .training true false true none none).port 0).debouncing = false) ∧
    (((linkE .training false false true none none).port 0).miCtl = none ∧ (linkE .training false false true none none).ctlEq 0 = none ∧
      ((linkE .training false false true none none).port 0).subs = []) ∧
    ((linkE .training true true true none none).portOf 0 = 0 ∧ 0 < ((linkE .training true true true none none).port 0).txLanes ∧
      (linkE .training true true true none none).pwr.restOn = true ∧ (linkE .training true true true none none).laneKept 0 = false) ∧
    (((linkE .up true false true none none).port 0).state = .up ∧ (linkE .up true false true none none).laneKept 0 = false) ∧
    (((linkE .adminDown true false true none none).port 0).state ≠ .up ∧ ((linkE .adminDown true false true none none).port 0).state ≠ .training) ∧
    ((linkE .up true false true (some (.cold, 1)) none).port 0).miCtl = some (.cold, 1) ∧
    (((linkE .up true false true (some (.rxMap, 1)) none).port 0).miCtl = some (.rxMap, 1) ∧ ((linkE .up true false true (some (.rxMap, 1)) none).port 0).state = .up) ∧
    (((linkE .up true false true (some (.txMap, 1)) (some (1, false))).port 0).miCtl = some (.txMap, 1) ∧
      ((linkE .up true false true (some (.txMap, 1)) (some (1, false))).port 0).miQueue = [] ∧
      ((linkE .up true false true (some (.txMap, 1)) (some (1, false))).port 0).gap = some (1, false)) ∧
    (((linkE .training true false true (some (.enable, 1)) none).port 0).miCtl = some (.enable, 1) ∧
      ((linkE .training true false true (some (.enable, 1)) none).port 0).state = .training) := by decide +kernel

/-- Cage 15 in a state; every port is in ADMIN_DOWN. -/
def cageE (k : CageState) (retries : Nat) (pending : Bool) : Eng := upE.setCage 15 { state := k, retries := retries, dpPending := pending }

theorem witness_CagesAndModules :
    (∀ k, k = .empty ∨ k = .mgmtInit → (cageE k 0 false).Up ∧ (cageE k 0 false).mapped 15 = [] ∧ ((cageE k 0 false).cage 15).state = k) ∧
    (((cageE .powerUp 0 false).cage 15).state = .powerUp ∧ ((cageE .ready 0 true).cage 15).state = .ready ∧
      ((cageE .ready 0 true).cage 15).dpPending = true ∧ (cageE .ready 0 true).mapped 15 = []) ∧
    (4 ≤ ((cageE .ready 4 false).cage 15).retries ∧ ((cageE .ready 4 false).cage 15).state ≠ .empty ∧ (cageE .ready 4 false).mapped 15 = []) ∧
    (((cageE .ready 3 false).cage 15).state ≠ .mgmtInit ∧ ((cageE .ready 3 false).cage 15).retries < 4 ∧
      ((cageE .ready 3 false).cage 15).state = .ready ∧ ((cageE .ready 3 false).cage 15).dpPending = false) ∧
    (((cageE .fault 0 false).cage 15).state = .fault ∧ (cageE .fault 0 false).Up) ∧
    (((cageE .identify 0 false).cage 15).state = .identify ∧ ModState.lowPwr ≠ .fault ∧ (cageE .identify 0 false).ctlEq 0 = none ∧ (cageE .identify 0 false).Up ∧
      ((cageE .identify 0 false).cage 15).lanePages = true) ∧
    (((cageE .mgmtInit 3 false).cage 15).state = .mgmtInit ∧ ModState.pwrUp ≠ .fault ∧ (cageE .mgmtInit 3 false).mapped 15 = []) := by
  and_intros <;> first | decide +kernel | exact up_of (by decide +kernel) |
    (rintro k (rfl | rfl) <;> exact ⟨up_of (by decide +kernel), by decide +kernel, by decide +kernel⟩)

/-- P0 of four slots in UP with thinning on, in a handshake or not. -/
def thinP (h : Option Handshake) (last : Option (BitVec 16 × Trump)) (lanes : Nat) (gap : Option (Nat × Bool)) : Eng :=
  portE 0 (fun x => { x with
    state := .up, width := 4, txLanes := lanes, rxLanes := 4, thinAuto := true, hs := h, lastAnswer := last, gap := gap
    lanes := [.inService, .inService, .warm 0, .cold] })
/-- The port as a handshake frame finds it. -/
def heard (e : Eng) : Eng := e.clear.rxControl 0 0x0180C200000E 64
def thinM (seq : BitVec 16) (target : Byte) (restore : Bool) (switch : Byte) : ThinMsg :=
  { seq := seq, cur := 4, target := target, restore := restore, cold := false, warm := 4, reason := 0, switch := switch }
def hsOf (initiator : Bool) (target : Nat) (p : HsPhase) : Handshake := { initiator := initiator, seq := 9, target := target, phase := p }

/-- P0 of four slots in UP with thinning on at both ends, `n` intervals under every threshold behind it. -/
def lowP (n : Nat) : Eng :=
  portE 0 (fun x => { x with
    state := .up, width := 4, txLanes := 4, rxLanes := 4, thinAuto := true, lowCount := [n, n, n]
    partner := { st := .present, chassis := [1], portId := [2], ttl := 65535, cap := some thinCap, count := 2 } })
/-- The counts as such an interval closes. -/
def lowNext (n : Nat) : List Nat :=
  (upTo 3).map (fun k =>
    if (lowP n).clear.mayThin 0 ∧ ((lowP n).port 0).spoiled = false ∧ (lowP n).clear.backlog 0 ≤ 262144 ∧ ((lowP n).port 0).load < 100000 * 2 ^ k then
      min (nth ((lowP n).port 0).lowCount k 0 + 1) 1000 else 0)

theorem witness_ThinningHandshakes :
    (((thinP none none 4 none).port 0).state = .up ∧ (thinP none none 4 none).pwr.restOn = true ∧ ((heard (thinP none none 4 none)).port 0).state = .up ∧
      ((heard (thinP none none 4 none)).port 0).hs = none ∧ ((heard (thinP none none 4 none)).port 0).gap = none) ∧
    ((heard (thinP none (some ((thinM 3 4 true 0).seq, .fc)) 4 none)).port 0).lastAnswer = some ((thinM 3 4 true 0).seq, .fc) ∧
    (((heard (thinP none none 4 none)).port 0).lastAnswer = none ∧ (heard (thinP none none 4 none)).rejectReason 0 (thinM 3 2 false 0) = some 2) ∧
    ((heard (thinP none none 4 none)).rejectReason 0 (thinM 3 4 true 0) = none ∧ (thinM 3 4 true 0).target.toNat ≤ ((heard (thinP none none 4 none)).port 0).txLanes) ∧
    (((heard (thinP (some (hsOf true 4 (.proposed 1))) none 4 none)).port 0).hs = some (hsOf true 4 (.proposed 1)) ∧
      (hsOf true 4 (.proposed 1)).seq = (thinM 9 4 false 0).seq ∧ (hsOf true 4 (.proposed 1)).target ≤ 4) ∧
    (((heard (thinP (some (hsOf true 2 (.proposed 4))) none 4 none)).port 0).hs = some (hsOf true 2 (.proposed 4)) ∧
      (hsOf true 2 (.proposed 4)).target < ((heard (thinP (some (hsOf true 2 (.proposed 4))) none 4 none)).port 0).txLanes) ∧
    (((heard (thinP (some (hsOf true 2 .waitMark)) none 4 none)).port 0).hs = some (hsOf true 2 .waitMark) ∧
      (thinM 9 2 false 1).switch.toNat = (hsOf true 2 .waitMark).switch) ∧
    (upE.port 0).state ≠ .up ∧
    ((portE 0 (fun x => { x with state := .up })).port 0).width ≤ ((portE 0 (fun x => { x with state := .up })).port 0).txLanes ∧
    ((portE 0 (fun x => { x with state := .up })).port 0).narrower = none ∧
    (((thinP (some (hsOf true 2 (.proposed 3))) none 4 none).port 0).pauseP = none ∧
      ((thinP (some (hsOf true 2 (.proposed 3))) none 4 none).port 0).hs = some (hsOf true 2 (.proposed 3)) ∧ 3 < 4) ∧
    ((hsOf true 2 (.proposed 4)).target < ((thinP (some (hsOf true 2 (.proposed 4))) none 4 none).port 0).txLanes ∧
      ((thinP (some (hsOf true 4 (.proposed 4))) none 4 none).port 0).txLanes ≤ (hsOf true 4 (.proposed 4)).target) ∧
    (((thinP (some (hsOf false 2 .sentMark)) none 4 none).port 0).hs = some (hsOf false 2 .sentMark)) ∧
    (((thinP (some (hsOf true 2 .ready)) none 4 none).port 0).hs = some (hsOf true 2 .ready) ∧ (hsOf true 2 .ready).readySent = false) ∧
    (((thinP (some { hsOf true 2 .ready with readySent := true, readyRcvd := true }) none 4 none).port 0).hs =
      some { hsOf true 2 .ready with readySent := true, readyRcvd := true }) ∧
    ((thinP none none 4 none).port 0).hs = none ∧
    nth ((thinP none none 2 none).port 0).lanes 2 .cold = .warm 0 ∧
    (((lowP 998).port 0).state = .up ∧ ((lowP 998).port 0).width ≤ ((lowP 998).port 0).txLanes ∧ ((lowP 998).port 0).narrower = some 2 ∧
      (((lowP 998).clear.setPort 0 { (lowP 998).port 0 with load := 0, lowCount := lowNext 998, spoiled := false }).port 0).lowAt 2 < 1000 ∧
      (((lowP 999).clear.setPort 0 { (lowP 999).port 0 with load := 0, lowCount := lowNext 999, spoiled := false }).port 0).lowAt 2 = 1000 ∧
      ((lowP 999).port 0).narrower = some 2 ∧ ((lowP 999).port 0).hs = none ∧ ((lowP 999).port 0).gap = none ∧
      ((lowP 999).port 0).noNarrow ≤ (lowP 999).now ∧ ((lowP 999).port 0).noPropose ≤ (lowP 999).now) ∧
    (((thinP none none 4 (some (2, true))).port 0).gap = some (2, true) ∧ 2 < ((thinP none none 4 (some (2, true))).port 0).txLanes ∧
      (thinP none none 4 (some (2, true))).tally.bwEn = false) := by and_intros <;> decide +kernel

/-! ### Steering's returns, rings' timers, the Dealer -/

/-- SP_RCIRC with `n` segments of credit; P0 in UP; generation A of serial 7 active, B of serial 6 retiring or not. -/
def rcE (n : Nat) (retiring : Option Nat) : Eng :=
  { portE 0 (fun x => { x with state := .up }) with steer := {
    rcircCredit := n, genA := { serial := 7, count := 1 }, genB := { serial := 6 }, retiring := retiring, credits := ⟨[(15, 65534)]⟩ } }
def rcU (serial : BitVec 16) (pass : BitVec 2) (ret : Bool) (port : PortId) (n : Nat) : RcUnit :=
  { port := port, tc := 7, gen := false, serial := serial, pass := pass, ret := ret, fcsErr := false, len := BitVec.ofNat 14 n, tag := 1
    bytes := zeros n, dp := 0, seg := 0, parity := none }

theorem witness_RecirculationAndRetirement :
    ((rcE 1 none).pwr.restOn = true ∧ (rcE 1 none).pwr.ctlOn = true ∧ (rcE 1 none).steer.rcircOff = false) ∧
    (rcE 1 none).steer.rcircCredit < 2 ∧
    (2 ≤ (rcE 2 none).steer.rcircCredit ∧
      ({ (rcE 2 none).clear with steer := { (rcE 2 none).steer with rcircCredit := (rcE 2 none).steer.rcircCredit - 2 } } : Eng).rcircTopUp.liveGen 5 = none ∧
      ({ (rcE 2 none).clear with steer := { (rcE 2 none).steer with rcircCredit := (rcE 2 none).steer.rcircCredit - 2 } } : Eng).rcircTopUp.liveGen 7 = some false) ∧
    ((rcE 5 none).liveGen (rcU 5 1 true 0 60).serial = none ∧ (rcE 5 none).steer.rcircCredit < (32 + (rcU 5 1 true 0 60).bytes.length + 15) / 16) ∧
    ((rcE 6 none).liveGen (rcU 5 2 true 0 60).serial = none ∧ (32 + (rcU 5 2 true 0 60).bytes.length + 15) / 16 ≤ (rcE 6 none).steer.rcircCredit ∧
      (rcU 5 2 true 0 60).pass = 2) ∧
    ((rcU 5 1 true 1 60).pass = 1 ∧ (rcU 5 1 true 1 60).ret = true ∧ ((rcE 6 none).port ((rcE 6 none).portOf 1)).state ≠ .up) ∧
    ((rcU 5 1 false 0 60).pass = 1 ∧ (rcU 5 1 false 0 60).ret = false) ∧
    ((rcE 6 (some 0)).liveGen (rcU 6 1 true 0 60).serial = some true ∧ (rcU 6 1 true 0 60).pass = 1 ∧ (rcU 6 1 true 0 60).ret = true ∧
      ((rcE 6 (some 0)).port ((rcE 6 (some 0)).portOf 0)).state = .up ∧ 60 ≤ (rcU 6 1 true 0 60).len.toNat ∧
      (rcU 6 1 true 0 60).len.toNat ≤ ((rcE 6 (some 0)).port ((rcE 6 (some 0)).portOf 0)).maxFrame - 4 ∧
      (rcU 6 1 true 0 60).len.toNat = (rcU 6 1 true 0 60).bytes.length ∧
      (32 + (rcU 6 1 true 0 60).bytes.length + 15) / 16 ≤ (((rcE 6 (some 0)).clear.tal
        { code := 0x404, port := some 0, tc := some 7 }).genDown true).steer.rcircCredit) ∧
    ((rcE 0 none).steer.credits.get 0 (creditIdx 1 7) + (1 : BitVec 10).toNat ≤ 65535 ∧
      65535 < (rcE 0 none).steer.credits.get 0 (creditIdx 1 7) + (2 : BitVec 10).toNat) ∧
    ((rcE 0 none).steer.retiring = none ∧ (rcE 0 (some 3)).steer.retiring = some 3) := by and_intros <;> decide +kernel

/-- Rings with timers that run and timers that do not: odd numbers have them. -/
def buf0 : OpenBuf := { buf := { idx := 4, addr := 0, size := 4096 }, fill := 64, started := 0, last := 0 }
def timT (b : Option Batch) (k : QState) : Txq := { fn := 0, loc := 0, batch := b, state := k }
def timR (due : Option Nat) (cur : Option OpenBuf) (ts : Bool) (at_ : Option Nat) (last : Bool) (k : QState) : Rxq :=
  { fn := 0, loc := 0, uncovSince := due, cur := cur, rxTs := ts, anchorAt := at_, anchorLast := last, state := k }
def timQ (armed : Option Nat) (evs : List EvSt) : Evq := { fn := 0, loc := 0, armed := armed, modTime := 1, evs := evs, count := evs.length }
def timE (t : Txq) (r : Rxq) (v : Evq) : Eng :=
  { upE with txqs := ⟨[(32767, some t)]⟩, rxqs := ⟨[(32767, some r)]⟩, eqs := ⟨[(4095, some v)]⟩ }
def seenEv : EvSt := { pos := 0, ring := some (.rx 32767), seen := true }

theorem witness_RingTimersAndStops :
    ((timE (timT none .running) (timR none none false none false .running) (timQ none [])).txq 32767 = some (timT none .running) ∧ (timT none .running).batch = none) ∧
    (timT (some { count := 1, last := 65536, since := 0 }) .running).batch = some { count := 1, last := 65536, since := 0 } ∧
    ((timE (timT none .running) (timR none none false none false .running) (timQ none [])).rxq 32767 = some (timR none none false none false .running) ∧
      (timR none none false none false .running).eventDue true = false ∧ (timR none none false none false .running).cur = none ∧
      (timR none none false none false .running).rxTs = false) ∧
    ((timR (some 0) none false none false .running).eventDue true = true ∧
      (timE (timT none .running) (timR (some 0) none false none false .running) (timQ none [])).eqOf 0 0 = some 4095 ∧
      (timE (timT none .running) (timR (some 0) none false none false .running) (timQ none [])).eq_ 4095 = some (timQ none []) ∧
      (timQ none []).covers (.rx 32767) = false ∧ (timQ none [seenEv]).covers (.rx 32767) = true) ∧
    (({ timR none none false none false .running with packTimeout := 0 } : Rxq).packTimeout = 0 ∧
      (timR none (some buf0) false none false .running).packTimeout ≠ 0 ∧ (timR none (some buf0) false none false .running).cur = some buf0 ∧ (timR none (some buf0) false none false .running).placed = []) ∧
    ((timR none none true (some 0) false .running).rxTs = true ∧ (timR none none true (some 0) false .running).anchorAt.isSome = true ∧
      (timR none none true (some 0) false .running).anchorLast = false ∧ (timR none none true (some 0) false .running).state = .running) ∧
    ((timQ (some 0) [seenEv]).armed.isSome = true ∧ (timQ (some 0) [seenEv]).modTime ≠ 0 ∧ (timQ (some 0) [seenEv]).evs.any (·.seen) = true ∧
      (timQ none []).armed = none) ∧
    ((timT none .running).state ≠ .stopping ∧ (timT none .stopping).state = .stopping ∧ (timT none .stopping).frames = [] ∧ (timT none .stopping).fetching = 0 ∧
      (timT none .stopping).held = [] ∧ (timT none .stopping).batch = none ∧
      (timE (timT none .stopping) (timR none none false none false .stopping) (timQ none [])).busyFor (fun w => decide (w = .txCompl 32767)) = false ∧
      (timT none .stopping).fetched = (timT none .stopping).stopAt ∧
      ((timE (timT none .stopping) (timR none none false none false .stopping) (timQ none [])).port 0).wire = []) ∧
    ((timR none none false none false .running).state ≠ .stopping ∧ (timR none none false none false .stopping).state = .stopping ∧
      (timR none none false none false .stopping).fetching = 0 ∧ (timR none none false none false .stopping).placed = [] ∧ (timR none none false none false .stopping).waiting = [] ∧
      (timR none none false none false .stopping).parked = [] ∧ (timR none none false none false .stopping).held = [] ∧
      (timE (timT none .stopping) (timR none none false none false .stopping) (timQ none [])).busyFor (fun w => decide (w = .rxCompl 32767)) = false) := by
  and_intros <;> decide +kernel

/-- Queue 0 and ring 0 with a read of `n` underway, or none. -/
def readE (n : Nat) : Eng :=
  { upE with txqs := ⟨[(0, some { fn := 0, loc := 0, state := .running, fetching := n, fetchGrp := 5 })]⟩
             rxqs := ⟨[(0, some { fn := 0, loc := 0, state := .running, fetching := n, fetchGrp := 5 })]⟩ }

theorem witness_DescriptorsArrive :
    ((readE 0).txq 0 = some { fn := 0, loc := 0, state := .running, fetching := 0, fetchGrp := 5 } ∧ QState.running ≠ .stopping) ∧
    ((readE 32).txq 0 = some { fn := 0, loc := 0, state := .running, fetching := 32, fetchGrp := 5 } ∧ 32 ≤ (List.replicate 32 (0 : BitVec 128)).length ∧
      (readE 32).unsent 5 = false) ∧
    ((readE 1).rxq 0 = some { fn := 0, loc := 0, state := .running, fetching := 1, fetchGrp := 5 } ∧ (readE 1).unsent 5 = false ∧
      (postBufs 0 ([0x1000] : List (BitVec 64))).2 = true ∧ (postBufs 0 ([0xFFFFFFFFFFFFFFFF] : List (BitVec 64))).2 = false) := by and_intros <;> decide +kernel

/-- P0 in UP with pacing, an offered frame of queue 0 under its root, and the sampler on; node 0 on P0. -/
def dealE (sh : Bool) : Eng :=
  { portE 0 (fun x => { x with state := .up }) with
    txqs := ⟨[(0, some { fn := 0, loc := 0, state := .running, frames := [{ txF with st := .offered }] })]⟩
    dealer := { leaves := ⟨[(0, { live := true })]⟩, nodes := ⟨[(0, { live := true, sh := { en := sh, rate := 1 } })]⟩, sampleEn := sh, roots := ⟨[(0, { pacing := 32768, window := 65536 })]⟩ } }
/-- The same with leaf 0 deeper in debt than any batch takes it. -/
def debtE : Eng := { dealE true with dealer := { (dealE true).dealer with leaves := ⟨[(0, { live := true, deficit := -1000000, quantum := 64 })]⟩ } }
def debtHead : Eng := foldEng (debtE.txqList.filter (fun r => decide (r.2.port = 0))) (fun e r => e.txHead r.1 true) debtE.clear
def headE : Eng := foldEng ((dealE true).txqList.filter (fun r => decide (r.2.port = 0))) (fun e r => e.txHead r.1 true) (dealE true).clear

theorem witness_DealerEvents :
    ((foldEng (upE.txqList.filter (fun r => decide (r.2.port = 0))) (fun e r => e.txHead r.1 true) upE.clear).calTurn ≠ some 0) ∧
    (headE.calTurn = some 0 ∧ (Eng.descend 10 headE.calStep (.root 0) []).1 = some (0, [(.leaf 0, .root 0, 0)]) ∧
      (((((Eng.descend 10 headE.calStep (.root 0) []).2).takeBatch 0).2.2.2.txq 0).isSome = true)) ∧
    (debtHead.calTurn = some 0 ∧ (Eng.descend 10 debtHead.calStep (.root 0) []).1 = none) ∧
    ((∀ p, DObjId.node 0 ≠ .root p) ∧ (dealE true).pwr.restOn = true ∧ (dealE true).pwr.ctlOn = true ∧ ((dealE true).dobj (.node 0)).live = true ∧
      ((dealE true).dobj (.node 0)).shadow = none ∧ ((dealE true).dobj (.node 0)).forgive = false ∧ ((dealE true).dobj (.node 0)).sh.en = true ∧
      ((dealE false).dobj (.node 0)).sh.en = false) ∧
    (dealE true).portOf 0 = 0 ∧ (dealE false).dealer.sampleEn = false ∧
    ((dealE true).dealer.sampleEn = true ∧ (dealE true).clear.sampleQueue = some 0 ∧ ((dealE true).txq 0).isSome = true) := by
  and_intros <;> decide +kernel

/-! ### DMA responses, translation -/

def acc (o : Owner) (k : AccKind) (grp : Nat) (data : List Byte) : Acc :=
  { owner := o, fn := 1, pasid := 0, addr := 0x1000, len := 64, kind := k, data := data, grp := grp }
def outst (a : Acc) : Outst := { port := 3, tag := 1023, acc := a, since := 0 }
/-- One request outstanding on DMA_M3. -/
def outE (a : Acc) : Eng := { upE with dma := { outst := [outst a] } }
/-- That request as a response finds it. -/
def found (a : Acc) (p : AccKind → Bool) : Option (Outst × List Outst) :=
  takeFirst (fun o => decide (o.port = 3 ∧ o.tag = 1023) && p o.acc.kind) (outE a).dma.outst

theorem witness_DmaResponsesAndFailures :
    ((∀ o ∈ (outE (acc (.txCompl 0) .write 1 [])).dma.outst, o.port = 3 → o.tag = 1023 → o.acc.kind.isRead = false) ∧
      (∀ o ∈ (outE (acc (.txData 0 0) .read 1 [])).dma.outst, o.port = 3 → o.tag = 1023 → o.acc.kind.isRead = true) ∧
      (∀ o ∈ (outE (acc (.txData 0 0) .read 1 [])).dma.outst, o.port ≠ 3 ∨ o.tag ≠ 1022)) ∧
    (∀ o, o = Owner.txData 0 0 ∨ o = .carryRead 63 ∨ o = .carryList 63 → found (acc o .read 0 []) AccKind.isRead = some (outst (acc o .read 0 []), []) ∧
      found (acc o .read 1 []) AccKind.isRead = some (outst (acc o .read 1 []), []) ∧ (acc o .read 1 []).grp ≠ 0 ∧ (acc o .read 1 []).owner = o) ∧
    (∀ o, o = Owner.txCompl 0 ∨ o = .rxCompl 0 ∨ o = .rxData 0 0 ∨ o = .event 4095 →
      found (acc o .write 1 [1]) (fun k => !k.isRead) = some (outst (acc o .write 1 [1]), []) ∧
      found (acc o .write 0 []) (fun k => !k.isRead) = some (outst (acc o .write 0 []), [])) ∧
    u8 (acc (.rxCompl 0) .write 1 [1]).data 0 / 2 % 4 = 0 ∧
    (∀ o, o = Owner.txDesc 0 ∨ o = .txCompl 0 ∨ o = .txData 0 0 ∨ o = .rxPost 0 ∨ o = .rxCompl 0 ∨ o = .rxData 0 0 ∨ o = .event 0 ∨ o = .mbxReq 0 ∨ o = .mbxRsp 0 →
      takeFirst (fun o => decide (o.port = 3 ∧ o.tag = 1023)) (outE (acc o .read 1 [])).dma.outst = some (outst (acc o .read 1 []), []) ∧
      takeFirst (fun o => decide (o.port = 3 ∧ o.tag = 1023)) (outE (acc o .read 0 [])).dma.outst = some (outst (acc o .read 0 []), [])) := by
  refine ⟨by decide +kernel, ?_, ?_, by decide +kernel, ?_⟩
  · rintro o (rfl | rfl | rfl) <;> decide +kernel
  · rintro o (rfl | rfl | rfl | rfl) <;> decide +kernel
  · rintro o (rfl | rfl | rfl | rfl | rfl | rfl | rfl | rfl | rfl) <;> decide +kernel

/-- A TRANSLATE message of tag 511, page request group 511 of ring 0, or of none, and ring 0's fault wait. -/
def xreq : XReq := { tag := 511, fn := 1, pasid := 0, vpn := 1, write := true, carry := false, since := 0 }
def grp (o : Option FObj) : PageGrp := { group := 511, obj := o }
def wait (run : Option Nat) : FWait := { obj := .rxq 0, va := 0x1010, pasid := 0, access := 2, began := 0, run := run }
def xltE (g : Option FObj) (w : List FWait) (b : List Blocked) (clk : Nat) (iv : List Inval) : Eng :=
  { upE with dma := { xreqs := [xreq], groups := [grp g], waits := w, blocked := b, invals := iv }, time := { clk := clk, holdover := none } }
def blocked : Blocked := { acc := acc (.rxData 0 0) .write 1 [], st := .missing }

/-- A ring whose quench holds the drain of an ended fault. -/
def quenE : Eng := { xltE none [wait (some 0)] [] 3906250 [] with rxqs := ⟨[(0, some { fn := 1, loc := 0, state := .running })]⟩ }

theorem witness_TranslationAndInvalidation :
    (upE.dma.xreqs.find? (fun x => decide (x.tag = 511)) = none ∧ upE.dma.groups.find? (fun x => decide (x.group = 511)) = none) ∧
    ((xltE none [] [] 0 []).dma.xreqs.find? (fun x => decide (x.tag = 511)) = some xreq ∧ (xltE none [] [] 0 []).dma.blocked = [] ∧
      (xltE none [] [] 0 []).dma.waits = []) ∧
    ((xltE none [] [] 0 []).dma.groups.find? (fun x => decide (x.group = 511)) = some (grp none) ∧ (grp none).obj = none) ∧
    ((xltE (some (.rxq 0)) [] [blocked] 0 []).dma.groups.find? (fun x => decide (x.group = 511)) = some (grp (some (.rxq 0))) ∧
      (xltE (some (.rxq 0)) [] [blocked] 0 []).dma.waits = [] ∧
      (grp (some (.rxq 0))).obj = some (.rxq 0) ∧
      ({ (xltE (some (.rxq 0)) [] [blocked] 0 []).clear with dma := { (xltE (some (.rxq 0)) [] [blocked] 0 []).dma with groups := [] } } : Eng).unitOf (.rxq 0) = blocked :: []) ∧
    ((xltE (some (.rxq 0)) [] [] 0 []).dma.waits = [] ∧ (xltE (some (.rxq 0)) [] [] 0 []).dma.blocked = []) ∧
    ((∀ a ∈ (outE (acc (.rxData 0 0) .write 1 [])).dma.queue, (a.pa.isSome &&
      (InvScope.hits (.func 1) a.fn a.pasid (a.addr / 4096) 1 || (([] : List XEnt).any (fun x => x.covers a.fn a.pasid a.addr)))) = false) ∧
      (acc (.rxData 0 0) .write 1 []).pa = none) ∧
    ((quenE).waitOf (.rxq 0) = some (wait (some 0)) ∧ quenE.unitOf (.rxq 0) = [] ∧ quenE.rxq 0 = some { fn := 1, loc := 0, state := .running } ∧
      (wait (some 0)).run.isSome = true ∧ 10 * 1000000 * 25 ≤ (wait (some 0)).elapsed quenE.now * 64) ∧
    (takeFirst (fun (i : Inval) => decide (i.tag = 31) && i.waits.isEmpty) [{ tag := 31, waits := [] }] = some ({ tag := 31, waits := [] }, []) ∧
      (∀ i ∈ [({ tag := 31, waits := [(0, 0)] } : Inval), { tag := 30, waits := [] }], i.tag ≠ 31 ∨ i.waits ≠ [])) ∧
    ((∀ f, FObj.rxq 0 ≠ .mbx f) ∧ (xltE none [wait (some 0)] [blocked] 3906250 []).waitOf (.rxq 0) = some (wait (some 0)) ∧
      (xltE none [wait (some 0)] [blocked] 3906250 []).unitOf (.rxq 0) = blocked :: [] ∧ (wait (some 0)).run.isSome = true ∧
      10 * 1000000 * 25 ≤ (wait (some 0)).elapsed (xltE none [wait (some 0)] [blocked] 3906250 []).now * 64) ∧
    ((wait (some 0)).elapsed (xltE none [wait (some 0)] [blocked] 3906249 []).now * 64 < 10 * 1000000 * 25 ∧ (wait none).run = none) := by
  and_intros <;> first | decide +kernel | exact fun f h => nomatch h

/-! ### Decks and Carry -/

def list1 : GateList := { tb := 0, base := 0, cycle := 1000, ext := 0, entries := [(1000, 0xFF)] }
def deckE (k : DeckSt) (oper admin : Option GateList) : Eng := portE 15 (fun x => { x with deck := { st := k, oper := oper, admin := admin } })

theorem witness_DeckEvents :
    ((deckE .none none none).port 15).deck.admin = none ∧
    (((deckE .pending none (some list1)).port 15).deck.admin = some list1 ∧ ((deckE .pending none (some list1)).port 15).deck.oper = none) ∧
    ((deckE .clearing (some list1) none).port 15).deck.st = .clearing ∧ ((deckE .none none none).port 15).deck.st ≠ .clearing := by decide +kernel

/-- CH63 in a state, claimed by a function, Carry stopped or not. -/
def chanE (x : Chan) (stopped auto : Bool) : Eng := { upE with carry := { chans := ⟨[(63, x)]⟩, stopped := stopped, autoResume := auto } }
def elem1 : CElem := { op := 0, len := 64, src := 0, dst := 0x1000 }
def chan (k : CState) (enable : Bool) : Chan := { state := k, enable := enable, claimed := true, elems := [elem1], rdElem := 1 }
/-- CH63 with an element to read, or its beat to write; CH62 idle. -/
def chanRd : Chan := { state := .active, claimed := true, elems := [{ elem1 with len := 128 }], grp := 1, lines := [(0, 1)], linesRead := 1 }
def chanWr : Chan :=
  { state := .active, claimed := true, elems := [elem1], rdElem := 1, grp := 1, buf := [{ pos := 0, elem := 0, off := 0, a := some (zeros 64) }] }
/-- The channels' reads brought on, as a slot finds them. -/
def filled (e : Eng) : Eng := foldEng allChans (fun e c => e.carryFill c) e.clear
/-- No channel but CH63 is ACTIVE. -/
theorem alone (x : Chan) (stopped auto : Bool) : ∀ d, d ≠ 63 → ((chanE x stopped auto).chan d).state ≠ .active := by
  intro d h
  have hd : d.val ≠ 63 := fun e => h (Fin.ext e)
  show ((if d.val = 63 then some x else none).getD {}).state ≠ .active
  rw [if_neg hd]; decide
/-- The last element of a list: a COPY of 64 bytes, or of none. -/
def lastW (len : Nat) : BitVec 256 := BitVec.ofNat 256 (4 + len * 2 ^ 32)
def valE (ws : List (BitVec 256)) : Eng := chanE { chan .validate true with words := ws } false true

theorem witness_CarryEventsAndRegisters :
    (((chanE (chan .fencing true) false true).chan 63).state = .fencing ∧ ((chanE (chan .fencing true) false true).chan 63).writes = [] ∧
      ((chanE (chan .fencing true) false true).chan 63).ending = none ∧ (chanE (chan .fencing true) false true).carry.stopped = false) ∧
    (((chanE (chan .active true) false true).chan 63).state = .active ∧ ((chanE (chan .active true) false true).chan 63).drained = true ∧
      (chanE (chan .active true) false true).carryUnsent 63 = false ∧ ((chanE (chan .active true) false true).chan 63).fence = false ∧
      ((chanE (chan .active true) false true).chan 63).ending = none) ∧
    (((chanE { chan .fencing true with writes := [0] } false true).chan 63).state = .fencing ∧
      ((chanE { chan .fencing true with writes := [0] } false true).chan 63).writes ≠ []) ∧
    (upE.chan 63).state = .idle ∧ (chanE (chan .idle true) false true).carry.autoResume = true ∧
    (chanE (chan .idle true) false false).carry.autoResume = false ∧
    ((chanE (chan .idle true) true true).carry.stopped = true ∧ (∀ c, (upE.chan c).state ≠ .active) ∧ State.reset.eng.dataOn = false) ∧
    ((chanE chanRd false true).dataOn = true ∧ (chanE chanRd false true).carry.stopped = false ∧ (filled (chanE chanRd false true)).carryPick false = some 63 ∧
      ((filled (chanE chanRd false true)).chan (filled (chanE chanRd false true)).carry.lastSlot).prio ≤ ((filled (chanE chanRd false true)).chan 63).prio) ∧
    ((chanE chanWr false true).dataOn = true ∧ (filled (chanE chanWr false true)).carryPick true = some 63) ∧
    (((chanE (chan .wait true) false true).chan 63).state ≠ .validate ∧ ((chanE { chan .validate true with ending := some 4 } false true).chan 63).ending.isSome = true) ∧
    (((valE []).chan 63).state = .validate ∧ ((valE []).chan 63).ending = none ∧ ((valE []).chan 63).words = [] ∧
      ((valE [3]).chan 63).checked = .reading ∧ ((valE [lastW 0]).chan 63).checked = .fail (elemCheck (lastW 0) true) 0 ∧
      ((valE [lastW 64]).chan 63).checked = .pass [elemOf (lastW 64)] ∧ ((valE [lastW 64]).chan 63).words = [lastW 64] ∧
      (elemOf (lastW 64)).op ≠ 3 ∧ (lastW 64).getLsbD 2 = true ∧ elemCheck (lastW 64) true = 0 ∧
      ((valE [lastW 0]).chan 63).words = [lastW 0] ∧ (elemOf (lastW 0)).op ≠ 3 ∧ (lastW 0).getLsbD 2 = true ∧ elemCheck (lastW 0) true ≠ 0) ∧
    ((chanE chanWr false true).carry.stopped = false ∧ ((chanE chanWr false true).chan 63).enable = true ∧ ((chanE chanWr false true).chan 63).prio < 4 ∧
      ((chanE chanWr false true).chan 63).rdSecond = false ∧ (chanE chanWr false true).carryWaits 63 = 0 ∧
      (∀ d, d ≠ 63 → ((chanE chanWr false true).chan d).state ≠ .active) ∧
      ((chanE chanWr false true).chan 63).buf = { pos := 0, elem := 0, off := 0, a := some (zeros 64) } :: [] ∧
      ((chanE chanWr false true).chan 63).elems[0]? = some elem1 ∧ elem1.op = 0 ∧ ((chanE chanWr false true).chan 63).elem? 1 = none) ∧
    ((chanE chanRd false true).carry.stopped = false ∧ ((chanE chanRd false true).chan 63).enable = true ∧ ((chanE chanRd false true).chan 63).prio < 4 ∧
      ((chanE chanRd false true).chan 63).rdSecond = false ∧ (chanE chanRd false true).carryWaits 63 = 0 ∧
      (∀ d, d ≠ 63 → ((chanE chanRd false true).chan d).state ≠ .active) ∧ ((chanE chanRd false true).chan 63).buf = [] ∧
      ((chanE chanRd false true).chan 63).elem? 0 = some { elem1 with len := 128 } ∧ ((chanE chanRd false true).chan 63).rdOff + 64 < 128) ∧
    (∀ k en, (k = CState.idle ∨ k = .active) → (en = true ∨ en = false) → (chanE (chan k en) false true).Open 0 ∧ (chanE (chan k en) false true).standby = false ∧
      (chanE (chan k en) false true).journals = false ∧ ((chanE (chan k en) false true).chan 63).claimed = true ∧
      0 < ((chanE (chan k en) false true).chan 63).prio ∧ ((chanE (chan k en) false true).chan 63).prio < 4 ∧
      ((chanE (chan k en) false true).chan 63).state = k ∧ ((chanE (chan k en) false true).chan 63).enable = en) ∧
    (upE.Open 0 ∧ (upE.chan 63).claimed = false ∧ upE.carry.stopped = false) ∧
    ((chanE (chan .idle true) true true).Open 0 ∧ (chanE (chan .idle true) true true).carry.stopped = true) := by
  and_intros <;> first | decide +kernel | exact alone _ _ _ | exact open_of (by decide +kernel) |
    (rintro k en (rfl | rfl) (rfl | rfl) <;> exact ⟨open_of (by decide +kernel), by decide +kernel⟩)

/-! ### The control processor -/

/-- Thread 7 in a state, channel 31 with messages and a partial message; debug enabled or not. -/
def thrE (t : Thread) (msgs : List (List Word)) (part : Option (ThreadId × List Word)) (en : Bool) : Eng :=
  { upE with lcp := { threads := ⟨[(7, t)]⟩, chnls := ⟨[(31, { msgs := msgs, part := part })]⟩, enable := en } }
def thr (k : TState) : Thread := { state := k }

theorem witness_DebugAndChannels :
    ((thrE (thr .running) [] none true).Open 0 ∧ (thrE (thr .running) [] none true).standby = false ∧ (thrE (thr .running) [] none true).lcp.enable = true ∧
      ((thrE (thr .running) [] none true).thread 7).state = .running) ∧
    (((thrE (thr .haltedDebug) [] none true).thread 7).state = .haltedDebug ∧ ((thrE (thr .faulted) [] none true).thread 7).state = .faulted ∧
      ((thrE (thr .faulted) [] none true).thread 7).state ≠ .haltedDebug) ∧
    ((thrE (thr .running) [] none false).Open 0 ∧ (thrE (thr .running) [] none false).lcp.enable = false) ∧
    State.reset.eng.pwr.ctlOn = false ∧ ((0x1FFFF8 : BitVec 22).toNat % 8 = 0 ∧ (0x1FFFF8 : BitVec 22).toNat < 0x200000) ∧
    ((thrE (thr .running) [] none true).pwr.ctlOn = true ∧ ((thrE (thr .running) [[1], [2], [3]] none true).chnl 31).part = none ∧
      ((thrE (thr .running) [[1], [2], [3]] none true).chnl 31).msgs.length < 4) ∧
    (((thrE (thr .running) [] (some (7, [1, 2, 3, 4, 5, 6, 7])) true).chnl 31).part = some (7, [1, 2, 3, 4, 5, 6, 7]) ∧ [1, 2, 3, 4, 5, 6, 7] ≠ ([] : List Nat) ∧
      ([1, 2, 3, 4, 5, 6, 7] : List Nat).length < 8) ∧
    (((thrE (thr .running) [] (some (0, [1])) true).chnl 31).part = some (0, [1]) ∧ (0 : ThreadId) ≠ 7) ∧
    (((thrE (thr .running) [[1], [2], [3], [4]] none true).chnl 31).part = none ∧ 4 ≤ ((thrE (thr .running) [[1], [2], [3], [4]] none true).chnl 31).msgs.length) ∧
    (((thrE (thr .running) [] none true).chnl 31).msgs = [] ∧ ((thrE (thr .running) [[1], [2]] none true).chnl 31).msgs = [1] :: [[2]]) ∧
    ((((thrE (thr .running) [] (some (7, [1])) true).thread 7).holdSince = none) ∧
      ((thrE { thr .running with holdSince := some 0 } [] (some (7, [1])) true).thread 7).holdSince.isSome = true) := by
  and_intros <;> first | decide +kernel | exact open_of (by decide +kernel)

/-- All threads in one state. -/
def allThr (k : TState) : Eng := { upE with lcp := { threads := ⟨(upTo 8).map (fun t => (t, thr k))⟩ } }

/-- The watchdog at the edge of a deadlock's restart. -/
def edgeE : Eng := { upE with ctl := { ready := false, restarting := true }, lcp := { lastCause := 1, lastRestart := upE.tb0 } }

theorem witness_RestartsAndThreadFaults :
    ((upE.thread 0).state ≠ .haltedDebug ∧ upE.pwr.ctlOn = true ∧ upE.ctl.restarting = false ∧ edgeE.ctl.restarting = true ∧
      edgeE.lcp.lastCause = 1 ∧ edgeE.lcp.lastRestart = edgeE.tb0 ∧ (edgeE.thread 0).state ≠ .haltedDebug ∧ edgeE.pwr.ctlOn = true) ∧ ((allThr .haltedDebug).thread 0).state = .haltedDebug ∧ upE.deadlock = false ∧
    ((allThr .waitChannel).deadlock = true ∧ (allThr .waitChannel).pwr.ctlOn = true) ∧
    (((allThr .running).thread 7).state ≠ .reset ∧ ((allThr .running).thread 7).state ≠ .faulted ∧ ((allThr .running).thread 0).state ≠ .reset ∧ (7 : ThreadId) ≠ 0) ∧
    ¬ (upE.pwr.ctlOn = true ∧ (upE.thread 7).state ≠ .reset ∧ (upE.thread 7).state ≠ .faulted) ∧
    ((upE.thread 7).state = .reset ∧ ((allThr .faulted).thread 7).state = .faulted) ∧
    (({ upE with ctl := { ready := false, restarting := true } } : Eng).ctl.restarting = true ∧ upE.ctl.restarting = false) := by decide +kernel

/-! ### Fault collection -/

def lastE (lasting : Bool) : Eng := { quietE with flt := { quietE.flt with lasting := if lasting then srcBit 43 else 0, first := { valid := lasting } } }

/-- A failure event of a source, its master the receive pipeline. -/
def failEv (n : Fin 64) (detail : Nat) : FaultEv := mkEv n .failure detail 0x8030 0 0
def xent : XEnt := { fn := 0, pasid := 0, vpn := 0, size := 0, ppn := 0, rd := true, wr := true }

theorem witness_FaultEventsAreGraded :
    (∀ l, l = true ∨ l = false → (lastE l).Calm ∧ (lastE l).collecting = true ∧ quietEv.src.val < 50 ∧ (lastE l).flt.shadows = [] ∧
      ((lastE l).srcCfg 43).winEn = false ∧ (lastE l).tally.freezeSev = 0 ∧ (lastE l).pair.wakeSev = 0 ∧ (lastE l).flt.irqEn = false ∧
      nth ((lastE l).srcCfg 43).react 4 .none = .interrupt) ∧
    ((∀ v ∈ [quietEv], v.cls = .info ∨ v.cls = .corrected ∧ v.src.val ≠ 7 ∨ 32 < v.src.val) ∧
      (failEv 28 15).cls = .failure ∧ (failEv 29 4095).src = 29 ∧ (failEv 29 4095).cls = .failure ∧ (failEv 29 4095).master = 0x8030 ∧
      (failEv 7 0).cls ≠ .info ∧ ({ upE with dma := { cache := [xent] } } : Eng).dma.cache.length = 1) ∧
    (upE.Open 0 ∧ upE.standby = false) ∧ ¬ (((49 : Fin 50) = 4 ∨ (49 : Fin 50) = 6 ∨ (49 : Fin 50) = 39 ∨ (49 : Fin 50) = 41) ∧ upE.flt.factory = false) ∧
    (((41 : Fin 50) = 4 ∨ (41 : Fin 50) = 6 ∨ (41 : Fin 50) = 39 ∨ (41 : Fin 50) = 41) ∧ upE.flt.factory = false) := by
  refine ⟨?_, by decide +kernel, ⟨open_of (by decide +kernel), by decide⟩, by decide, by decide⟩
  rintro l (rfl | rfl) <;> exact ⟨calm_of (by decide +kernel), by decide +kernel⟩

/-- A shadow of a PORT_DOWN reaction on P15, or of a QUIESCE_FUNCTION reaction on F1. -/
def shadow (r : Reaction) (t : Target) (rel : Option Nat) : Shadow := { reaction := r, src := 8, target := t, released := rel }
def shadE (x : Shadow) : Eng :=
  { ((portE 15 (fun y => { y with state := .portFault })).modPort 14 (fun y => { y with state := .up })).setFn 1 { upE.fn 1 with enabled := true, admin := true } with flt := { shadows := [x] } }

theorem witness_CollectorAndScrubber :
    ((shadE (shadow .portDown (.port 15) (some 9))).flt.shadows[0]? = some (shadow .portDown (.port 15) (some 9)) ∧ (shadow .portDown (.port 15) (some 9)).released.isSome = true) ∧
    ((shadE (shadow .portDown (.port 15) none)).flt.shadows[0]? = some (shadow .portDown (.port 15) none) ∧ (shadow .portDown (.port 15) none).released = none ∧
      ((shadE (shadow .portDown (.port 15) none)).port 15).state = .portFault ∧ ((shadE (shadow .portDown (.port 15) none)).port 15).wire = []) ∧
    (shadow .portDown (.port 14) none).target = .port 14 ∧ ((shadE (shadow .portDown (.port 14) none)).port 14).state ≠ .portFault ∧
    ((shadE (shadow .portDown (.port 14) none)).port 14).state ≠ .adminDown ∧
    (((shadE (shadow .portDown (.port 13) none)).port 13).state = .adminDown ∧ ((shadE (shadow .portDown (.port 13) none)).port 13).wire = []) ∧
    ((shadow .quiesce (.fn 1) none).reaction = .quiesce ∧ (shadE (shadow .quiesce (.fn 1) none)).txStopped 1 = true ∧
      (shadE (shadow .quiesce (.fn 1) none)).rxStopped 1 = true) ∧
    upE.flt.shadows[0]? = none ∧ (upE.Open 0 ∧ upE.standby = false) ∧
    (bitAt ({ upE with flt := { retiring := 0x80000000 } } : Eng).flt.retiring.toNat 31 = true ∧ bitAt upE.flt.retiring.toNat 31 = false) ∧
    (({ upE with irqStall := true } : Eng).irqStall = true ∧ upE.irqStall = false) ∧
    State.reset.eng.scrubs (.dealerTree 0) = false ∧
    (upE.scrubs (.packetBuffer 31) = true ∧ upE.scrubs (.retention 27) = true ∧ upE.scrubs (.tcam 16383 3) = true ∧ upE.scrubs (.gateList 15) = true ∧
      upE.scrubs (.dealerTree 15) = true ∧ upE.scrubs (.tokens (.leaf 32767)) = true ∧ upE.scrubs (.policer 4095) = true ∧ upE.scrubs (.offloadProfile 255) = true ∧ 4 ≤ 27 ∧
      ∀ p, (upE.port p).lists = List.replicate 8 [] ∧ (upE.port p).wire = []) ∧
    (∀ p, ScrubMem.policer 4095 ≠ .dealerTree p) ∧ (∀ p, DObjId.leaf 32767 ≠ .root p) ∧
    ((upE.setRoot 15 { broken := true }).root 15).broken = true ∧ (upE.root 15).broken = false := by
  and_intros <;> first | decide +kernel | exact open_of (by decide +kernel) | exact fun p h => nomatch h

/-! ### Tally -/

def talE (g : TallySt → TallySt) : Eng := { upE with tally := g {} }
/-- Counter 255 enabled, one event short of a wrap. -/
def talFull : Eng := talE (fun x => { x with cnts := ⟨[(255, { value := 0xFFFFFFFFFFFF, enable := true })]⟩ })

theorem witness_TallyControlsAndCounts :
    (∀ e, e = talE (fun x => { x with vector := 4095, freezeSev := 4 }) ∨ e = talE (fun x => { x with freeze := true, freezeSev := 2 }) →
      e.Open 0 ∧ e.standby = false ∧ e.tally.freezeSev ≠ 1 ∧ e.tally.freezeSev ≤ 4 ∧ e.tally.vector < 4096) ∧
    ((talE id).tally.freeze = false ∧ (talE (fun x => { x with freeze := true })).tally.freeze = true) ∧
    (0 < (talE (fun x => { x with bwWindow := 1000000 })).tally.bwWindow ∧ (talE (fun x => { x with bwWindow := 1000000 })).tally.bwWindow ≤ 1000000) ∧
    (upE.tally.bwEn = false ∧ (talE (fun x => { x with bwEn := true })).tally.bwEn = true) ∧
    State.reset.eng.pwr.ctlOn = false ∧ (upE.pwr.ctlOn = true ∧ upE.tally.bwEn = false) ∧
    ((talE (fun x => { x with bwEn := true })).pwr.ctlOn = true ∧
      upE.portList.filter (fun p => bitAt (talE (fun x => { x with bwEn := true })).tally.bwMaskNow.toNat p.val) = []) ∧
    ((talFull.tcnt 255).enable = true ∧ (talFull.tcnt 255).value.toNat + 1 = 2 ^ 48 ∧ (talE (fun x => { x with cnts := ⟨[(255, { enable := true })]⟩ })).tcnt 255 ≠ {}) := by
  and_intros <;> first | decide +kernel | exact open_of (by decide +kernel) |
    (rintro e (rfl | rfl) <;> exact ⟨open_of (by decide +kernel), by decide +kernel⟩)

/-! ### Power -/

/-- A queue of F0 paused by a fault; a channel of CH8 to CH63 at work. -/
def pausedE : Eng := { upE with txqs := ⟨[(0, some { fn := 0, loc := 0, state := .paused })]⟩ }
def busyE : Eng := chanE (chan .active true) false true
def stepE (k : PwrStep) (tgt : PwrState) : Eng := pwrE (fun x => { x with step := k, target := tgt })

theorem witness_PowerRequestsAndSwitches :
    ((15 : Fin 16) ∈ (pwrE (fun x => { x with tags := [15] })).pwr.tags ∧ (15 : Fin 16) ∉ upE.pwr.tags ∧ State.reset.eng.start.phase ≠ .ready) ∧
    (upE.start.phase = .ready ∧ upE.pwr.step = .none ∧ upE.pwr.state = PwrState.ofCode 0) ∧
    (upE.pwr.state = .run ∧ PwrState.ofCode 3 ≠ .run ∧ upE.pair.state = .unpaired ∧ upE.anyPaused = false ∧ upE.carryBusy = false ∧ upE.pwr.wakeAt = 0 ∧
      0 < (st upE).budget.credits ∧ ({ eng := upE, budget := { credits := 0 } } : State).budget.credits = 0) ∧
    (pausedE.anyPaused = true ∧ PwrState.ofCode 1 ≠ .off ∧ pausedE.pair.state = .unpaired) ∧ (busyE.carryBusy = true ∧ busyE.pair.state = .unpaired) ∧
    ((pairE (fun x => { x with state := .active })).pair.state = .active ∧ (pairE (fun x => { x with state := .active })).pwr.step = .none) ∧
    ((stepE .waking .run).pwr.step = .waking ∧ PwrState.ofCode 0 = .run) ∧
    (∀ k, k = .e1 ∨ k = .e2 ∨ k = .e3 ∨ k = .e4 → (stepE k .off).pwr.step = k ∧ (stepE k .off).pwr.pend = none ∧ (stepE k .off).pwr.target ≠ .run ∧
      (stepE k .off).pwr.abort = none) ∧
    upE.pwr.step ≠ .e5 ∧
    ((stepE .e5 .doze).pwr.step = .e5 ∧ (stepE .e5 .doze).pwr.waiters = [] ∧ (stepE .e5 .doze).pwr.late = none ∧ (stepE .e5 .doze).pwr.pend = none ∧
      (stepE .e5 .doze).pwr.target = .doze) ∧
    ((stepE .e5 .watch).pwr.target = .watch ∧ (stepE .e5 .watch).pwr.state = .run ∧
      (pwrE (fun x => { x with step := .e5, target := .watch, state := .doze })).pwr.state = .doze ∧ (stepE .e5 .off).pwr.target = .off) ∧
    upE.pwr.step ≠ .waking := by
  and_intros <;> first | decide +kernel | (rintro k (rfl | rfl | rfl | rfl) <;> decide)

/-- An entry to DOZE at a step. -/
def entE (g : PwrSt → PwrSt) : Eng := pwrE (fun x => g { x with target := .doze })
def dueE (g : PwrSt → PwrSt) : Eng := { entE g with start := { phase := .ready, due := some .graceful } }

/-- An access that no fault wait covers. -/
def flushE : Eng := { entE (fun x => { x with step := .e3 }) with dma := { blocked := [blocked] } }

theorem witness_EntryStepsToSigning :
    ((entE (fun x => { x with step := .e1 })).pwr.step = .e1 ∧ (entE (fun x => { x with step := .e1 })).pwr.begun = false ∧ upE.steer.retiring = none) ∧
    (upE.pwr.step ≠ .e1 ∧ (entE (fun x => { x with step := .e1, begun := true })).pwr.begun = true) ∧
    ((entE (fun x => { x with step := .e1, begun := true })).steer.retiring = none ∧ ∀ p, ((entE (fun x => { x with step := .e1, begun := true })).port p).hs = none) ∧
    (rcE 0 (some 3)).steer.retiring.isSome = true ∧ (txE [] [txW 60] []).drained = false ∧
    (upE.drained = true ∧ upE.start.due = none ∧ upE.pwr.step ≠ .e2) ∧
    ((entE (fun x => { x with step := .e2 })).drained = true ∧ (entE (fun x => { x with step := .e2 })).start.due = none ∧
      (entE (fun x => { x with step := .e2 })).pwr.step = .e2) ∧
    ((dueE id).drained = true ∧ (dueE id).start.due = some .graceful ∧ (dueE id).bufferEmpty = true ∧ (dueE id).dma.outst = [] ∧ (dueE id).dma.queue = []) ∧
    ((rxE 1).bufferEmpty = false ∧ (outE (acc .sample .write 1 [])).dma.outst ≠ []) ∧
    ((entE (fun x => { x with step := .e3 })).bufferEmpty = true ∧ (entE (fun x => { x with step := .e3 })).dma.outst = [] ∧
      (entE (fun x => { x with step := .e3 })).dma.queue = [] ∧ (entE (fun x => { x with step := .e3 })).start.due = none ∧
      (entE (fun x => { x with step := .e3 })).pwr.step = .e3 ∧ (entE (fun x => { x with step := .e3 })).pwr.abort = none ∧
      (entE (fun x => { x with step := .e3 })).pwr.watchUp = false) ∧
    ((∃ b ∈ flushE.dma.blocked, ∀ w ∈ flushE.dma.waits, (flushE.unitOf w.obj).contains b = false) ∧
      (∀ b ∈ quenE.dma.blocked, ∃ w ∈ quenE.dma.waits, (quenE.unitOf w.obj).contains b = true) ∧
      (∀ b ∈ (xltE none [wait (some 0)] [blocked] 0 []).dma.blocked, ∃ w ∈ (xltE none [wait (some 0)] [blocked] 0 []).dma.waits,
        ((xltE none [wait (some 0)] [blocked] 0 []).unitOf w.obj).contains b = true) ∧
      (xltE none [wait (some 0)] [blocked] 0 []).dma.blocked ≠ []) ∧
    (entE (fun x => { x with step := .e3, abort := some { cause := 1 } })).pwr.abort = some { cause := 1 } ∧
    (upE.pwr.step ≠ .e4 ∧ (entE (fun x => { x with step := .e4, abort := some { cause := 2 } })).pwr.step = .e4) ∧
    ((entE (fun x => { x with step := .e4 })).Calm ∧ (entE (fun x => { x with step := .e4 })).pwr.step = .e4 ∧ (entE (fun x => { x with step := .e4 })).pwr.abort = none ∧
      (entE (fun x => { x with step := .e4 })).pwr.target = .doze ∧ (entE (fun x => { x with step := .e4 })).pair.state = .unpaired) ∧
    ((entE id).pwr.state = .run ∧ (entE id).pwr.target = .doze ∧ (4 ≤ 22 ∧ 22 < 23) ∧ (3 < 4 ∧ 23 ≤ 23)) := by
  and_intros <;> first | decide +kernel | exact calm_of (by decide +kernel)

/-- Asleep in DOZE, or in WATCH with the watch lane kept up and its window open. -/
def dozeE (g : PwrSt → PwrSt) : Eng := { portE 15 (fun x => { x with state := .up }) with pwr := g { upE.pwr with state := .doze } }
def watchE (g : PwrSt → PwrSt) : Eng :=
  { portE 0 (fun x => { x with state := .up }) with pwr := g { upE.pwr with state := .watch, watchUp := true, window := true, wakeEn := 0x3F } }
/-- A pattern on byte 0 that a frame of zeros hits. -/
def patOf : WakePat := { enable := true, mask := 1, check := crc32c [0] }
def wakeAtE (k : WakeStep) (g : PwrSt → PwrSt) : Eng := dozeE (fun x => g { x with step := .waking, wakeStep := some k, recover := [3, 24] })

theorem witness_WakeSourcesAndSteps :
    (upE.pwr.step = .none ∧ upE.pwr.state = .run ∧ upE.pwr.window = false) ∧
    ((dozeE id).pwr.step = .none ∧ (dozeE id).pwr.state = .doze ∧ (dozeE id).armed 7 = true ∧
      (dozeE (fun x => { x with wakeEn := 0 })).armed 7 = false) ∧
    ((dozeE (fun x => { x with wakeAt := 1 })).armed 6 = true ∧ (dozeE (fun x => { x with wakeAt := 1 })).pwr.wakeAt ≠ 0 ∧
      (dozeE (fun x => { x with wakeEn := 0, wakeAt := 1 })).armed 6 = false ∧ (dozeE id).pwr.wakeAt = 0) ∧
    ((dozeE (fun x => { x with wakeEn := 0x3F })).laneKept 15 = true ∧ (dozeE (fun x => { x with wakeEn := 0x3F })).armed 2 = true ∧
      (dozeE id).laneKept 14 = false ∧ (dozeE id).armed 2 = false) ∧
    ((watchE id).pwr.step = .none ∧ (watchE id).pwr.state = .watch ∧ (watchE id).pwr.watchUp = true ∧ upE.pwr.watchUp = false) ∧
    ((pwrE (fun x => { x with windowUs := 100000 })).pwr.windowUs = (pwrE (fun x => { x with windowUs := 100000 })).pwr.periodMs * 1000 ∧
      upE.pwr.windowUs ≠ upE.pwr.periodMs * 1000) ∧
    ((zeros 63).length < 64 ∧ upE.pwr.window = false ∧ (∀ i, i < 32 → (nth upE.pwr.patterns i {}).hits (zeros 64) = false)) ∧
    ((watchE (fun x => { x with patterns := List.replicate 31 {} ++ [patOf] })).pwr.window = true ∧ 64 ≤ (sealed (zeros 60)).length ∧
      fcsBytes ((sealed (zeros 60)).take ((sealed (zeros 60)).length - 4)) = (sealed (zeros 60)).drop ((sealed (zeros 60)).length - 4) ∧
      (upTo 32).find? (fun i => (nth (watchE (fun x => { x with patterns := List.replicate 31 {} ++ [patOf] })).pwr.patterns i {}).hits (sealed (zeros 60))) = some 31 ∧
      (watchE (fun x => { x with patterns := List.replicate 31 {} ++ [patOf] })).armed 3 = true) ∧
    (State.reset.eng.start.phase = .s1 ∧ upE.start.phase ≠ .s1 ∧ (wakeAtE .pll id).pwr.wakeStep = some .pll ∧ upE.pwr.wakeStep ≠ some .pll) ∧
    ((phaseE .s2).start.phase = .s2 ∧ upE.start.phase ≠ .s2 ∧ (wakeAtE .power id).pwr.wakeStep = some .power ∧ upE.pwr.wakeStep ≠ some .power) ∧
    ((wakeAtE .control id).pwr.wakeStep = some .control ∧ (wakeAtE .control id).badSigs [23, 24] (fun b => nth ([] : List (BitVec 32)) (b - 23) 0) = []) ∧
    ((wakeAtE .check id).pwr.wakeStep = some .check ∧ (wakeAtE .check id).pwr.state = .doze ∧
      (wakeAtE .check id).badSigs ((upTo 19).map (· + 4)) (fun b => nth ([] : List (BitVec 32)) b 0) = [] ∧
      (wakeAtE .check (fun x => { x with sigs := ⟨[(22, some 1)]⟩ })).badSigs ((upTo 19).map (· + 4)) (fun b => nth ([] : List (BitVec 32)) b 0) = [22] ∧ 22 < 28) ∧
    ((4 : BankId) ≠ 23 ∧ (23 : BankId) ∈ (wakeAtE .start (fun x => { x with recover := [23] })).pwr.recover ∧ (3 : BankId) ∈ (wakeAtE .start id).pwr.recover ∧ (24 : BankId) ∈ (wakeAtE .start id).pwr.recover ∧ (4 : BankId) ∉ (wakeAtE .start id).pwr.recover ∧
      (wakeAtE .start id).paired = false ∧ ({ wakeAtE .start id with pair := { state := .standby } } : Eng).paired = true) ∧
    (({ wakeAtE .start id with fns := ⟨[(0, {})]⟩ } : Eng).enabledFns = []) ∧
    ((wakeAtE .start (fun x => { x with recover := [] })).pwr.wakeStep = some .start ∧ (wakeAtE .start (fun x => { x with recover := [] })).pwr.recover = [] ∧
      (wakeAtE .start (fun x => { x with recover := [] })).pwr.state = .doze ∧ (wakeAtE .start id).pwr.recover ≠ []) := by
  and_intros <;> decide +kernel

/-! ### Start-up and resets -/

theorem witness_ResetsAndTheirDrain :
    ((phaseE .held).start.phase = .held ∧ upE.start.phase ≠ .held) ∧
    (upE.pwr.pll = true ∧ (phaseE .s1).start.phase = .s1 ∧ (wakeAtE .pll id).pwr.wakeStep = some .pll) ∧
    ((pwrE (fun x => { x with pll := false })).pwr.pll = false ∧ upE.start.phase ≠ .s1 ∧ upE.pwr.wakeStep ≠ some .pll) ∧
    (upE.start.phase ≠ .x2 ∧ (phaseE .x2).start.phase = .x2) := by decide

def bootSt (p : Phase) (a b : ImgState) (runB trying : Bool) : State :=
  { eng := { start := { phase := p, trying := trying } }, boot := { a := { state := a }, b := { state := b }, runB := runB } }
def img (sig sec : Bool) (len : BitVec 32) : ImageInfo := { version := 1, secVersion := 1, codeLen := len, sigOk := sig, secOk := sec }

theorem witness_ImagesAndStartUp :
    (upE.start.phase ≠ .s3 ∧ (bootSt .s3 .pending .active false false).eng.start.phase = .s3 ∧ (bootSt .s3 .pending .active false false).boot.a.state = .pending) ∧
    ((bootSt .s3 .active .pending false false).boot.a.state ≠ .pending ∧ (bootSt .s3 .active .pending false false).boot.b.state = .pending) ∧
    ((bootSt .s3 .active .previous false false).boot.a.state = .active ∧ (bootSt .s3 .active .previous false false).boot.b.state ≠ .pending) ∧
    ((bootSt .s3 .previous .active false false).boot.a.state ≠ .pending ∧ (bootSt .s3 .previous .active false false).boot.a.state ≠ .active ∧
      (bootSt .s3 .previous .active false false).boot.b.state = .active) ∧
    ((bootSt .s3 .bad .empty false false).boot.a.state ≠ .pending ∧ (bootSt .s3 .bad .empty false false).boot.a.state ≠ .active ∧
      (bootSt .s3 .bad .empty false false).boot.b.state ≠ .pending ∧ (bootSt .s3 .bad .empty false false).boot.b.state ≠ .active) ∧
    (upE.start.phase ≠ .s4 ∧ (bootSt .s4 .active .empty false false).eng.start.phase = .s4 ∧ (bootSt .s4 .active .empty false false).boot.runB = false) ∧
    ((img true true 2097152).sigOk = true ∧ (img true true 2097152).secOk = true ∧ (img true true 2097152).codeLen.toNat ≤ 2097152) ∧
    ¬ ((img true true 2097153).sigOk = true ∧ (img true true 2097153).secOk = true ∧ (img true true 2097153).codeLen.toNat ≤ 2097152) ∧
    ((bootSt .s4 .pending .active false true).eng.start.trying = true ∧ (bootSt .s4 .active .empty false false).eng.start.trying = false) ∧
    ((bootSt .s4 .previous .active true false).boot.runB = true ∧ (bootSt .s4 .previous .active true false).eng.start.phase = .s4) ∧
    ((bootSt .stopped .active .pending true true).eng.start.phase = .stopped ∧ (bootSt .stopped .active .pending true true).eng.start.trying = true ∧
      (bootSt .stopped .active .pending true true).boot.runB = true) ∧ upE.start.phase = .ready ∧
    (upE.start.phase ≠ .s6 ∧ (phaseE .s6).start.phase = .s6) ∧
    (upE.start.phase ≠ .s7 ∧ (bootSt .s7 .active .empty false false).eng.start.phase = .s7 ∧ (bootSt .s7 .active .empty false false).eng.start.trying = false) ∧
    ((bootSt .s7 .active .pending true true).eng.start.trying = true ∧ (bootSt .s7 .active .pending true true).boot.runB = true ∧
      (∀ c, ((bootSt .s7 .active .pending true true).eng.cage c).seen = none ∧ ((bootSt .s7 .active .pending true true).eng.cage c).irqSeen = none ∧
        ((bootSt .s7 .active .pending true true).eng.cage c).prs = false) ∧ ((bootSt .s7 .active .pending true true).eng.thread 7).state = .reset ∧
      (bootSt .s7 .active .pending true true).eng.pwr.waiters = [] ∧ (bootSt .s7 .active .pending true true).eng.pwr.pend = none ∧ (7 : ThreadId) ≠ 0) := by decide

/-! ### Pairs -/

def pst (k : PairState) : Eng := pairE (fun x => { x with state := k })
/-- A standby that has seen the lease word, 50 µs before and more, and whose partner's heartbeats came last at time 0. -/
def leaseE (clk : Nat) (seen : Option Nat) (hb : Option (BitVec 32 × Nat)) : Eng :=
  { pairE (fun x => { x with state := .standby, seenAt := seen, hbLast := hb }) with time := { clk := clk, holdover := none } }

/-- An active alone whose standby's heartbeats had stopped. -/
def aloneE (auto woken : Bool) : Eng := pairE (fun x => { x with state := .activeAlone, lostLink := true, autoResync := auto, wakeSent := woken })

theorem witness_HeartbeatsAndLease :
    ((pst .active).beats = true ∧ upE.beats = false) ∧
    ((pst .active).pair.lostLink = false ∧ (pst .active).standby = false ∧ (pst .standby).standby = true ∧ (pst .standby).beats = true) ∧
    ((pst .active).pair.state = .active ∧ (pst .standby).pair.state = .standby ∧ (pst .activeAlone).pair.state = .activeAlone ∧ (pst .activeAlone).beats = true ∧
      (pst .standbyStale).pair.state = .standbyStale ∧ (pst .standbyStale).beats = true) ∧
    ((∀ a w, (a = true ∧ w = false) ∨ (a = false ∧ w = true) ∨ (a = false ∧ w = false) → (aloneE a w).beats = true ∧ (aloneE a w).pair.state = .activeAlone ∧
      (aloneE a w).pair.lostLink = true ∧ (aloneE a w).pair.resync = false ∧ (aloneE a w).pair.hbLast = none ∧ (aloneE a w).pair.partnerGated = false ∧
      (aloneE a w).pair.autoResync = a ∧ (aloneE a w).pair.wakeSent = w)) ∧
    (BitVec.ofNat 32 ((0 : BitVec 64).toNat) = BitVec.ofNat 32 (upE.pair.epoch.toNat) ∧ BitVec.ofNat 32 ((1 : BitVec 64).toNat) ≠ BitVec.ofNat 32 (upE.pair.epoch.toNat)) ∧
    ((pst .active).pwr.ctlOn = true ∧ (pst .active).pair.op = none) ∧
    ((pairE (fun x => { x with op := some .renew })).pair.op.isSome = true ∧ upE.pair.state = .unpaired ∧ State.reset.eng.pwr.ctlOn = false) ∧
    (upE.pair.state ≠ .active ∧ upE.pair.state ≠ .activeAlone ∧ upE.pair.op = none) ∧
    ((pairE (fun x => { x with state := .active, op := some .renew })).pair.op = some .renew ∧ (1 : BitVec 64) ≠ upE.pair.word ∧
      (pairE (fun x => { x with state := .standby, op := some .claim })).pair.op = some .claim) ∧
    (upE.standby = false ∧ (pst .standby).standby = true ∧ (pst .standby).pwr.ctlOn = true ∧ (pst .standby).pair.seenAt = none) ∧
    ((leaseE 19531249 (some 19511719) none).pair.seenAt = some 19511719 ∧ (leaseE 19531249 (some 19511719) none).passed 19511719 50000 = false) ∧
    ((leaseE 19532 (some 0) (some (1, 0))).pair.seenAt = some 0 ∧ (leaseE 19532 (some 0) (some (1, 0))).passed 0 50000 = true ∧
      (leaseE 19532 (some 0) (some (1, 0))).heartsLost = true ∧ (leaseE 19532 (some 0) (some (1, 0))).pair.state = .standby ∧
      (leaseE 19532 (some 0) (some (1, 0))).pwr.step = .none ∧ (leaseE 19532 (some 0) (some (1, 0))).pair.op = none ∧ (leaseE 19532 (some 0) (some (1, 0))).pair.tries = 0 ∧
      (BitVec.ofNat 32 ((0 : BitVec 64).toNat) = BitVec.ofNat 32 (upE.pair.word.toNat) ∧
        BitVec.ofNat 16 ((0 : BitVec 64).toNat >>> 32) = BitVec.ofNat 16 (upE.pair.word.toNat >>> 32))) ∧
    ((leaseE 19532 (some 0) (some (1, 19531))).heartsLost = false) ∧
    (upE.pair.state ≠ .standby ∧ upE.armed 7 = false ∧ (dozeE id).armed 7 = true ∧ (dozeE id).pwr.step = .none ∧ (dozeE id).pwr.state = .doze) := by
  and_intros <;> first | decide +kernel | (rintro a w (⟨rfl, rfl⟩ | ⟨rfl, rfl⟩ | ⟨rfl, rfl⟩) <;> decide +kernel)

/-- A member that forms a pair, at a step, as the active or the standby. -/
def formE (n : Nat) (active : Bool) (next : Nat) : Eng :=
  pairE (fun x => { x with state := .forming, pairId := 7, formStep := n, roleActive := active, copyNext := next })
def hello (id : BitVec 64) (active : Bool) : Hello :=
  { pairId := id, active := active, rev := 0x000100B0, fwVersion := 0, grouping := bytesLE 16 0x0F0E0D0C0B0A09080706050403020100, engineId := 1 }

theorem witness_PairsFormAndJournal :
    ((formE 2 true 0).pair.state = .forming ∧ (formE 2 true 0).pair.formStep ≤ 2 ∧ (formE 2 true 0).pwr.ctlOn = true) ∧
    (upE.pair.state ≠ .forming ∧ 2 < (formE 3 true 0).pair.formStep ∧ State.reset.eng.pwr.ctlOn = false) ∧
    ((formE 1 true 0).pair.formStep ≤ 1 ∧ 1 < (formE 2 true 0).pair.formStep) ∧
    ((hello 8 false).pairId.toNat ≠ (formE 2 true 0).pair.pairId ∧ (hello 7 false).pairId.toNat = (formE 2 true 0).pair.pairId) ∧
    ((formE 2 true 0).agrees 0 (hello 7 true) = false ∧ (formE 2 true 0).agrees 0 (hello 7 false) = true ∧ (formE 2 true 0).pair.roleActive = true) ∧
    ((formE 2 false 0).agrees 0 (hello 7 true) = true ∧ (formE 2 false 0).pair.roleActive = false) ∧
    ((pst .active).pair.state = .active ∧ (pst .standby).pair.state = .standby ∧ upE.pair.state = .unpaired) ∧
    ((formE 5 true 26).pair.formStep = 5 ∧ (formE 5 true 26).pair.roleActive = true ∧ (26 : BankId).val = (formE 5 true 26).pair.copyNext ∧ (26 : BankId).val ≠ 24 ∧
      (26 : BankId).val < 27) ∧
    ((formE 5 true 24).pair.copyNext = 24 ∧ (24 : BankId).val = 24) ∧ ((formE 4 true 0).pair.formStep ≠ 5 ∧ (5 : BankId).val ≠ (formE 5 true 4).pair.copyNext) ∧
    (upE.journals = false ∧ (pst .active).pair.changes = [] ∧ (pst .active).pair.held = [] ∧ (pst .active).pair.heldIrq = []) ∧
    ((pairE (fun x => { x with state := .active, changes := [.quench 1 true false] })).journals = true ∧
      (pairE (fun x => { x with state := .active, changes := [.quench 1 true false] })).pair.changes ≠ []) ∧
    ((pairE (fun x => { x with state := .active, unacked := [(4294967295, 0)] })).pair.unacked ≠ [] ∧ (pst .active).pair.unacked = []) ∧
    ((∀ r ∈ (pst .active).pair.unacked, r.1 ≠ 0) ∧
      (∃ r ∈ (pairE (fun x => { x with state := .active, unacked := [(4294967295, 0)] })).pair.unacked, r.1 = 4294967295)) ∧
    ((pairE (fun x => { x with state := .standby, applied := 4294967295 })).pair.buffered = [] ∧
      (0 : BitVec 32) = (pairE (fun x => { x with state := .standby, applied := 4294967295 })).pair.applied + 1 ∧
      (0 : BitVec 32) = (pst .standby).pair.applied ∧ 1 < ((2 : BitVec 32) - (pst .standby).pair.applied).toNat ∧
      ((0x7FFFFFFF : BitVec 32) - (pst .standby).pair.applied).toNat < 2147483648) ∧
    ((formE 5 false 0).copying = true ∧ (formE 5 false 0).pwr.ctlOn = true ∧ (formE 5 false 0).pair.buffered = [] ∧ 1 = (formE 5 false 0).pair.applied + 1) ∧
    (upE.copying = false ∧ (3 : BankId).val < 4 ∧ 24 < (25 : BankId).val) ∧ (4 ≤ (4 : BankId).val ∧ (24 : BankId).val ≤ 24 ∧ (4 : BankId).val ≠ 24) := by
  and_intros <;> decide +kernel


/-! ### The mailbox's commands -/

/-- The engine in RUN with `c` as F0's command. -/
def f0 (c : Cmd) : Eng := ask upE 0 c
/-- The block of a port command. -/
def pblk (e : Eng) (fs : List Fld) (c : Cmd) : SetBlk := blk c (fun _ => fs) e.portArg

/-- Slots 0 and 1 as port 0, the others as they are. -/
def grpC : Cmd := cmd 0x0101 16 ((upTo 16).foldl (fun a p => a + (if p = 1 then 0 else p) * 256 ^ p) 0)
def grpUp : Eng := ask (portE 1 (fun x => { x with state := .up })) 0 grpC
/-- R536's worked request: ADMIN 1, MAX_FRAME 0x2400, THIN_MODE AUTO. -/
def pcC : Cmd := setc 0x0102 8 0x8081 [1, 0x2400, 1]
def pcOff : Cmd := setc 0x0102 8 1 [0]
def pcFix : Cmd := setc 0x0102 8 0x8000 [0]
def pcUp : Eng := ask (portE 8 (fun x => { x with state := .up })) 0 pcC
def pcBad : Eng := ask ((portE 8 id).setSlot 8 { upE.slot 8 with failed := true }) 0 pcOff
def pcNarrow : Eng := ask (portE 8 (fun x => { x with state := .up, txLanes := 0 })) 0 pcFix
def fcC : Cmd := setc 0x010B 3 1 [1]
def fcOver : Cmd := setc 0x010B 3 0x1001 [1, 1]
def fcSame : Cmd := setc 0x010B 3 0x0010 [100]
def kitC (v : Nat) : Cmd := setc 0x010C objEngine 1 [v]
def kitE (c : Cmd) : Eng := ask (portE 3 (fun x => { x with fcMode := .pause })) 0 c

theorem witness_PortSetCommands :
    clean.fail = none ∧
    ((f0 grpC).Has 0 0x0101 grpC ∧ grpC.reqLen = 16 ∧ firstBad ((f0 grpC).groupChecks grpC) = none ∧ (0 : Fn) = 0 ∧
      (∀ p, (f0 grpC).groupKept grpC p = false → ((f0 grpC).port ((f0 grpC).portOf p)).state = .adminDown)) ∧
    (grpUp.Has 0 0x0101 grpC ∧ firstBad (grpUp.groupChecks grpC) = none ∧ grpUp.groupKept grpC 1 = false ∧
      (grpUp.port (grpUp.portOf 1)).state ≠ .adminDown ∧
      (∀ q, q < 1 → grpUp.groupKept grpC q = false → (grpUp.port (grpUp.portOf q)).state = .adminDown)) ∧
    ((f0 grpC).groupKept grpC 0 = false ∧ (f0 grpC).groupKept grpC 1 = false ∧ (f0 grpC).groupKept grpC 15 = true) ∧
    (pcUp.Sets 0 0x0102 (fun _ => portFlds) pcUp.portArg pcC (pblk pcUp portFlds pcC) ∧ firstBad (pcUp.portChecks (pblk pcUp portFlds pcC)) = none ∧
      (lockedChange portFlds (pblk pcUp portFlds pcC) (fun i => nth (pcUp.port 8).cfg i []) (fun _ => !decide ((pcUp.port 8).state = .adminDown))).map (·.off) = some 56) ∧
    (∀ c, c = pcC ∨ c = pcOff → (f0 c).Sets 0 0x0102 (fun _ => portFlds) (f0 c).portArg c (pblk (f0 c) portFlds c) ∧
      firstBad ((f0 c).portChecks (pblk (f0 c) portFlds c)) = none ∧
      lockedChange portFlds (pblk (f0 c) portFlds c) (fun i => nth ((f0 c).port 8).cfg i []) (fun _ => !decide (((f0 c).port 8).state = .adminDown)) = none ∧
      (∀ q, (f0 c).portOf q = 8 → ((f0 c).slot q).failed = false)) ∧
    (pcBad.Sets 0 0x0102 (fun _ => portFlds) pcBad.portArg pcOff (pblk pcBad portFlds pcOff) ∧ (pblk pcBad portFlds pcOff).bool 0 false = false) ∧
    (pcNarrow.Sets 0 0x0102 (fun _ => portFlds) pcNarrow.portArg pcFix (pblk pcNarrow portFlds pcFix) ∧ firstBad (pcNarrow.portChecks (pblk pcNarrow portFlds pcFix)) = none ∧
      (pblk pcNarrow portFlds pcFix).has 15 = true ∧ (pblk pcNarrow portFlds pcFix).bool 15 true = false ∧ (pcNarrow.port 8).txLanes < (pcNarrow.port 8).width) ∧
    (∀ c, c = fcC ∨ c = fcOver ∨ c = fcSame → (f0 c).Sets 0 0x010B (fun _ => fcFlds) (f0 c).portArg c (pblk (f0 c) fcFlds c) ∧
      firstBad ((f0 c).fcChecks (pblk (f0 c) fcFlds c)) = none ∧
      lockedChange fcFlds (pblk (f0 c) fcFlds c) (fun i => nth (((f0 c).port 3).fcCfg (f0 c).start.oversub) i []) (fun _ => !decide (((f0 c).port 3).state = .adminDown)) = none) ∧
    ((f0 fcC).start.kittySize < ((f0 fcC).setPort 3 (((f0 fcC).port 3).setFc (pblk (f0 fcC) fcFlds fcC))).headroom ∧ (pblk (f0 fcC) fcFlds fcC).bool 12 false = false) ∧
    ((pblk (f0 fcOver) fcFlds fcOver).bool 12 false = true ∧ (((f0 fcOver).port 3).setFc (pblk (f0 fcOver) fcFlds fcOver)).fcMode ≠ ((f0 fcOver).port 3).fcMode) ∧
    (((f0 fcSame).setPort 3 (((f0 fcSame).port 3).setFc (pblk (f0 fcSame) fcFlds fcSame))).headroom ≤ (f0 fcSame).start.kittySize ∧
      (((f0 fcSame).port 3).setFc (pblk (f0 fcSame) fcFlds fcSame)).fcMode = ((f0 fcSame).port 3).fcMode ∧
      (((f0 fcSame).port 3).setFc (pblk (f0 fcSame) fcFlds fcSame)).lossless = ((f0 fcSame).port 3).lossless) ∧
    (∀ v, v = 0 ∨ v = 65536 → (kitE (kitC v)).Sets 0 0x010C (fun _ => kittyFlds) (fun v => v == objEngine) (kitC v) (blk (kitC v) (fun _ => kittyFlds) (fun v => v == objEngine)) ∧
      lockedChange kittyFlds (blk (kitC v) (fun _ => kittyFlds) (fun v => v == objEngine)) (fun i => if i = 0 then [(kitE (kitC v)).start.kittySize] else [])
        (fun _ => (kitE (kitC v)).portList.any (fun p => !decide (((kitE (kitC v)).port p).state = .adminDown))) = none) ∧
    (0 < (kitE (kitC 0)).headroom ∧ (kitE (kitC 65536)).headroom ≤ 65536) := by
  and_intros <;> first
    | decide +kernel
    | exact has_of (by decide +kernel)
    | exact sets_of (by decide +kernel)
    | (rintro x (rfl | rfl) <;> and_intros <;> first | decide +kernel | exact sets_of (by decide +kernel))
    | (rintro x (rfl | rfl | rfl) <;> and_intros <;> first | decide +kernel | exact sets_of (by decide +kernel))

/-- The engine in RUN with objects of F5: transmit queue 2 on port 3, receive ring 4, and the event queues 1 that they name
and 6 that nothing names. -/
def ownB : Eng :=
  (((upE.setTxq 0 (some { fn := 5, loc := 2, port := 3, eq := 1 })).setRxq 0 (some { fn := 5, loc := 4, eq := 1 })).setEq 0
    (some { fn := 5, loc := 1 })).setEq 9 (some { fn := 5, loc := 6 })
/-- That engine with a command of F5. -/
def own (c : Cmd) : Eng := ask ownB 5 c
def subC : Cmd := sc 0x0104 [8, 1, 1]
def lldpC : Cmd := cmd 0x0109 19 (slots [2, 3, 0x030201])
def trE (c : Cmd) : Eng :=
  ask { upE with off := { upE.off with rings := upE.off.rings.put none 4 (some { fn := 7, pasid := 0, base := 0, size := 64 }) } } 0 c
def trObj (e : Eng) (v : Nat) : Bool := v == objEngine || e.portArg v
def trEngine : Cmd := setc 0x010E objEngine 2 [9]
def trPort : Cmd := setc 0x010E 6 7 [1, 0xFF, 4]
def trPaired : Eng := { trE (setc 0x010E objEngine 1 [2]) with pair := { upE.pair with state := .active } }
def ringC : Cmd := sc 0x010F [7, 5, 0x4000, 128]
def ringsE : Eng :=
  ask { upE with off := { upE.off with rings := (upTo 16).foldl (fun t r => t.put none r (some { fn := 7, pasid := 0, base := 0, size := 64 })) upE.off.rings } }
    0 ringC
def namedE (c : Cmd) : Eng := (trE c).modPort 2 (fun x => { x with reportRing := some 4 })

theorem witness_PortStatusCommands :
    ((f0 (sc 0x0103 [15])).Asks 0 0x0103 1 (sc 0x0103 [15]) ∧ (f0 (sc 0x0103 [15])).portArg 15 = true) ∧
    ((own (sc 0x0103 [3])).Asks 5 0x0103 1 (sc 0x0103 [3]) ∧ (own (sc 0x0103 [3])).ownsOn 5 3 = true) ∧
    ((own subC).Asks 5 0x0104 3 subC ∧ (∀ q, q < 16 → bitAt (subC.slot 0) q = true → (own subC).portArg q = true) ∧
      ((own subC).eqOf 5 (subC.slot 1)).isSome = true ∧ (∀ q, q < 16 → bitAt (subC.slot 0) q = true → (own subC).ownsOn 5 (fin 16 q) = true)) ∧
    ((f0 lldpC).Has 0 0x0109 lldpC ∧ lldpC.slot 1 ≤ 512 ∧ lldpC.reqLen = 16 + lldpC.slot 1 ∧ (f0 lldpC).portArg (lldpC.slot 0) = true) ∧
    ((f0 (sc 0x010A [0])).Asks 0 0x010A 1 (sc 0x010A [0]) ∧ (f0 (sc 0x010A [0])).portArg 0 = true ∧ (upE.port 0).statsOwner = 0) ∧
    (∀ v, v = 0 ∨ v = 1 → (f0 (sc 0x010D [9, v])).Asks 0 0x010D 2 (sc 0x010D [9, v]) ∧ (f0 (sc 0x010D [9, v])).portArg 9 = true) ∧
    (∀ c, c = trEngine ∨ c = trPort → (trE c).Sets 0 0x010E trailerFlds (trObj (trE c)) c (blk c trailerFlds (trObj (trE c)))) ∧
    ((blk trEngine trailerFlds (trObj (trE trEngine))).object = objEngine ∧ (trE trEngine).paired = false) ∧
    (trPaired.Sets 0 0x010E trailerFlds (trObj trPaired) (setc 0x010E objEngine 1 [2]) (blk (setc 0x010E objEngine 1 [2]) trailerFlds (trObj trPaired)) ∧
      trPaired.paired = true ∧ (blk (setc 0x010E objEngine 1 [2]) trailerFlds (trObj trPaired)).val 1 trPaired.off.engineId = trPaired.off.engineId) ∧
    ((blk trPort trailerFlds (trObj (trE trPort))).object ≠ objEngine ∧ slotOpt ((blk trPort trailerFlds (trObj (trE trPort))).val 2 vNone) = some 4 ∧
      ((trE trPort).off.rings.get none 4).isSome = true) ∧
    ((f0 ringC).Asks 0 0x010F 4 ringC ∧ ringC.slot 0 < 2048 ∧ ringC.slot 1 < 2 ^ 20 ∧ ringC.slot 2 % 4096 = 0 ∧ sizeOk (ringC.slot 3) = true ∧
      (∃ r, pickFree 5 16 ((upTo 16).filter (fun r => ((f0 ringC).off.rings.get none r).isSome)) = some r)) ∧
    (ringsE.Asks 0 0x010F 4 ringC ∧ (∀ r, r < 16 → (ringsE.off.rings.get none r).isSome = true)) ∧
    ((trE (sc 0x0110 [4])).Asks 0 0x0110 1 (sc 0x0110 [4]) ∧ ((trE (sc 0x0110 [4])).off.rings.get none 4).isSome = true ∧
      (∀ q, q ∈ (trE (sc 0x0110 [4])).portList → ((trE (sc 0x0110 [4])).port q).reportRing ≠ some (fin 16 4))) ∧
    ((namedE (sc 0x0110 [4])).Asks 0 0x0110 1 (sc 0x0110 [4]) ∧ ((namedE (sc 0x0110 [4])).off.rings.get none 4).isSome = true ∧
      2 ∈ (namedE (sc 0x0110 [4])).portList ∧ ((namedE (sc 0x0110 [4])).port 2).reportRing = some (fin 16 4)) := by
  and_intros <;> first
    | decide +kernel
    | exact has_of (by decide +kernel)
    | exact asks_of (by decide +kernel)
    | exact sets_of (by decide +kernel)
    | exact pick_some 5 16 _ (by decide) (by decide +kernel)
    | (rintro x (rfl | rfl) <;> and_intros <;> first | decide +kernel | exact asks_of (by decide +kernel) | exact sets_of (by decide +kernel))

/-- The engine in RUN with cage 2 in a state and `c` as F0's command. -/
def mcageE (k : CageState) (c : Cmd) : Eng := ask (upE.modCage 2 (fun x => { x with state := k })) 0 c
/-- A read of 128 bytes, and a write of one, of cage 2. -/
def modRd : Cmd := sc 0x0108 [2, 0, 0x10, 255, 128, 0]
def modWr : Cmd := cmd 0x0108 49 (slots [2, 255, 255, 255, 1, 1, 0xA5])
/-- Port 2 of cage 2 is up. -/
def modUp : Eng := ask ((upE.modCage 2 (fun x => { x with state := .ready })).modPort 2 (fun x => { x with state := .up })) 0 modWr

theorem witness_ModuleCommands : (0 : Fn) = 0 ∧
    ((f0 (setc 0x0105 15 1 [2])).Sets 0 0x0105 (fun _ => cageFlds) (fun v => decide (v < 16)) (setc 0x0105 15 1 [2])
      (blk (setc 0x0105 15 1 [2]) (fun _ => cageFlds) (fun v => decide (v < 16)))) ∧
    (∀ k, k = CageState.fault ∨ k = CageState.unsupported ∨ k = CageState.ready →
      (mcageE k (sc 0x0106 [2])).Asks 0 0x0106 1 (sc 0x0106 [2]) ∧ ((mcageE k (sc 0x0106 [2])).cage (sc 0x0106 [2]).cage).state = k) ∧
    (∀ v, v = 0 ∨ v = 1 → (f0 (sc 0x0107 [15, v])).Asks 0 0x0107 2 (sc 0x0107 [15, v])) ∧
    (∀ k, k = CageState.ready ∨ k = CageState.empty ∨ k = CageState.identify → (mcageE k modRd).Has 0 0x0108 modRd ∧
      ((mcageE k modRd).cage modRd.cage).state = k ∧ (mcageE k modWr).Has 0 0x0108 modWr ∧ ((mcageE k modWr).cage modWr.cage).state = k ∧
      (∀ p, p ∈ (mcageE k modWr).portList → ((mcageE k modWr).port p).cage = modWr.cage → ((mcageE k modWr).port p).state = .adminDown)) ∧
    (modRd.slot 0 < 16 ∧ modRd.slot 1 < 256 ∧ modRd.slot 2 < 256 ∧ modRd.slot 3 < 256 ∧ 1 ≤ modRd.slot 4 ∧ modRd.slot 4 ≤ 128 ∧ modRd.slot 5 = 0 ∧
      modRd.reqLen = 48) ∧
    (modWr.slot 0 < 16 ∧ modWr.slot 1 < 256 ∧ modWr.slot 2 < 256 ∧ modWr.slot 3 < 256 ∧ 1 ≤ modWr.slot 4 ∧ modWr.slot 4 ≤ 128 ∧ modWr.slot 5 = 1 ∧
      modWr.reqLen = 48 + modWr.slot 4) ∧
    (modUp.Has 0 0x0108 modWr ∧ (modUp.cage modWr.cage).state ≠ .empty ∧ 2 ∈ modUp.portList ∧ (modUp.port 2).cage = modWr.cage ∧
      (modUp.port 2).state ≠ .adminDown) := by
  and_intros <;> first
    | decide +kernel
    | exact has_of (by decide +kernel)
    | exact sets_of (by decide +kernel)
    | (rintro x (rfl | rfl) <;> and_intros <;> first | decide +kernel | exact asks_of (by decide +kernel))
    | (rintro x (rfl | rfl | rfl) <;> and_intros <;> first | decide +kernel | exact has_of (by decide +kernel) | exact asks_of (by decide +kernel))

/-- F5 with a quota of `n` of each kind, ports and vectors, its event queue 1, and root 3 open to `a`. -/
def mkE (n : Nat) (a : Scope) (c : Cmd) : Eng :=
  ask (((upE.setEq 0 (some { fn := 5, loc := 1 })).setFn 5 { upE.fn 5 with txqQuota := n, rxqQuota := n, eqQuota := 2 * n, portMask := 0xFFFF }).setRoot 3
    { upE.root 3 with attach := a }) 5 c
def txC : Cmd := setc 0x0201 7 0x97 [64, 0x1000, 0x2000, 3, 1]
def rxC : Cmd := setc 0x0202 7 0x80F [64, 0x1000, 128, 0x2000, 1]
def eqC : Cmd := setc 0x0203 7 3 [64, 0x1000]
def txObj (e : Eng) (f : Fn) (v : Nat) : Bool := decide (v < 4096) && (e.txqOf f v).isNone
def rxObj (e : Eng) (f : Fn) (v : Nat) : Bool := decide (v < 4096) && (e.rxqOf f v).isNone
def eqObj (e : Eng) (f : Fn) (v : Nat) : Bool := decide (v < 512) && (e.eqOf f v).isNone
def txB : SetBlk := blk txC (fun _ => txFlds) (fun _ => true)
def rxB : SetBlk := blk rxC (fun _ => rxFlds) (fun _ => true)
def eqB : SetBlk := blk eqC (fun _ => eqFlds) (fun _ => true)

theorem witness_QueueCreations : clean.fail = none ∧
    (∀ n, n = 1 ∨ n = 0 → (mkE n .all txC).Sets 5 0x0201 (fun _ => txFlds) (txObj (mkE n .all txC) 5) txC txB ∧
      firstBad ((mkE n .all txC).txChecks 5 (((mkE n .all txC).txBlank 5 txB.object).setCfg txB) txB) = none ∧
      ((mkE n .all txC).attachOf ((dobjOf (txB.val 10 (dobjCode (.root 3)))).getD (.root 3))).allows 5 = true) ∧
    (((mkE 0 .all txC).fn 5).txqQuota ≤ (mkE 0 .all txC).heldTx 5 ∧ (mkE 1 .all txC).heldTx 5 < ((mkE 1 .all txC).fn 5).txqQuota) ∧
    (∃ n, pickFree 0 32768 ((mkE 1 .all txC).txqList.map (·.1.val)) = some n) ∧
    (∀ n, n = 1 ∨ n = 0 → (mkE n .all rxC).Sets 5 0x0202 (fun _ => rxFlds) (rxObj (mkE n .all rxC) 5) rxC rxB ∧
      firstBad ((mkE n .all rxC).rxChecks 5 (((mkE n .all rxC).rxBlank 5 rxB.object).setCfg rxB) rxB) = none) ∧
    (((mkE 0 .all rxC).fn 5).rxqQuota ≤ (mkE 0 .all rxC).heldRx 5 ∧ (mkE 1 .all rxC).heldRx 5 < ((mkE 1 .all rxC).fn 5).rxqQuota) ∧
    (∃ n, pickFree 1 32768 ((mkE 1 .all rxC).rxqList.map (·.1.val)) = some n) ∧
    (∀ n, n = 1 ∨ n = 0 → (mkE n .all eqC).Sets 5 0x0203 (fun _ => eqFlds) (eqObj (mkE n .all eqC) 5) eqC eqB ∧
      firstBad ((mkE n .all eqC).eqChecks 5 (((mkE n .all eqC).eqBlank 5 eqB.object).setCfg eqB) eqB) = none) ∧
    (((mkE 0 .all eqC).fn 5).eqQuota ≤ (mkE 0 .all eqC).heldEq 5 ∧ (mkE 1 .all eqC).heldEq 5 < ((mkE 1 .all eqC).fn 5).eqQuota) ∧
    (∃ n, pickFree 2 4096 ((f0 eqC).eqList.map (·.1.val)) = some n) := by
  and_intros <;> first
    | decide +kernel
    | exact pick_some _ _ _ (by decide) (by decide +kernel)
    | (rintro x (rfl | rfl) <;> and_intros <;> first | decide +kernel | exact sets_of (by decide +kernel))

/-- F5 with its objects, its receive ring in a state. -/
def modE (st : QState) (c : Cmd) : Eng :=
  ask ((ownB.setRxq 0 (some { fn := 5, loc := 4, eq := 1, state := st })).setFn 5 { upE.fn 5 with portMask := 0xFFFF }) 5 c
def mdObj (e : Eng) (v : Nat) : Bool := (e.objOf 5 v).isSome
def mdB (c : Cmd) : SetBlk := blk c modifyFlds (fun _ => true)
/-- COAL_FRAMES, then TC, of transmit queue 2. -/
def mdTx : Cmd := setc 0x0204 2 0x100 [9]
def mdTc : Cmd := setc 0x0204 2 0x20 [7]
/-- COAL_FRAMES, then PASID, of receive ring 4. -/
def mdRx : Cmd := setc 0x0204 65540 0x1000 [9]
def mdRxPasid : Cmd := setc 0x0204 65540 0x20 [3]
/-- MOD_EVENTS, then PASID, of event queue 1. -/
def mdEq : Cmd := setc 0x0204 131073 0x20 [9]
def mdEqPasid : Cmd := setc 0x0204 131073 4 [3]
def ownTx : Txq := { fn := 5, loc := 2, port := 3, eq := 1 }
def ownRx (st : QState) : Rxq := { fn := 5, loc := 4, eq := 1, state := st }
def mdTxRun : Eng := (modE .stopped mdTc).setTxq 0 (some { ownTx with state := .running })

theorem witness_QueueModify :
    (∀ c, c = mdTx ∨ c = mdTc → (modE .stopped c).Sets 5 0x0204 modifyFlds (mdObj (modE .stopped c)) c (mdB c) ∧
      firstBad ((modE .stopped c).modifyChecks 5 (mdB c)) = none ∧ (modE .stopped c).objOf 5 (mdB c).object = some (.txq 0) ∧
      (modE .stopped c).txq 0 = some ownTx ∧
      lockedChange txFlds (mdB c) (fun i => nth ((modE .stopped c).txCfg 0 ownTx) i []) (fun _ => !decide (ownTx.state = .stopped)) = none) ∧
    (mdTxRun.Sets 5 0x0204 modifyFlds (mdObj mdTxRun) mdTc (mdB mdTc) ∧ firstBad (mdTxRun.modifyChecks 5 (mdB mdTc)) = none ∧
      mdTxRun.objOf 5 (mdB mdTc).object = some (.txq 0) ∧ mdTxRun.txq 0 = some { ownTx with state := .running } ∧
      (lockedChange txFlds (mdB mdTc) (fun i => nth (mdTxRun.txCfg 0 { ownTx with state := .running }) i []) (fun _ => true)).isSome = true) ∧
    (∀ c, c = mdRx ∨ c = mdRxPasid → (modE .running c).Sets 5 0x0204 modifyFlds (mdObj (modE .running c)) c (mdB c) ∧
      firstBad ((modE .running c).modifyChecks 5 (mdB c)) = none ∧ (modE .running c).objOf 5 (mdB c).object = some (.rxq 0) ∧
      (modE .running c).rxq 0 = some (ownRx .running)) ∧
    (lockedChange rxFlds (mdB mdRx) (fun i => nth (ownRx .running).cfg i []) (fun _ => !decide ((ownRx .running).state = .stopped)) = none ∧
      (lockedChange rxFlds (mdB mdRxPasid) (fun i => nth (ownRx .running).cfg i []) (fun _ => !decide ((ownRx .running).state = .stopped))).isSome = true) ∧
    (∀ c, c = mdEq ∨ c = mdEqPasid → (modE .running c).Sets 5 0x0204 modifyFlds (mdObj (modE .running c)) c (mdB c) ∧
      firstBad ((modE .running c).modifyChecks 5 (mdB c)) = none ∧ (modE .running c).objOf 5 (mdB c).object = some (.eq 0) ∧
      (modE .running c).eq_ 0 = some { fn := 5, loc := 1 }) ∧
    (lockedChange eqFlds (mdB mdEq) (fun i => nth ({ fn := 5, loc := 1 } : Evq).cfg i []) (fun _ => true) = none ∧
      (lockedChange eqFlds (mdB mdEqPasid) (fun i => nth ({ fn := 5, loc := 1 } : Evq).cfg i []) (fun _ => true)).isSome = true) := by
  and_intros <;> first
    | decide +kernel
    | exact sets_of (by decide +kernel)
    | (rintro x (rfl | rfl) <;> and_intros <;> first | decide +kernel | exact sets_of (by decide +kernel))

def xfC (v : Nat) : Cmd := setc 0x020C 5 1 [v]
/-- F5 enabled, as F0 asks. -/
def enE (c : Cmd) : Eng := ask (upE.setFn 5 { upE.fn 5 with enabled := true }) 0 c
def fnObj (v : Nat) : Bool := decide (v < 2048)
def engObj (v : Nat) : Bool := v == objEngine
def xcC : Cmd := setc 0x020D objEngine 7 [65536, 4096, 1]
def xcUp : Eng := ask (portE 0 (fun x => { x with state := .noModule })) 0 xcC
def opC : Cmd := setc 0x020E 255 3 [vAll, 1]

theorem witness_TranslationCommands :
    (∀ v, v = 0 ∨ v = 1 → (enE (xfC v)).Sets 0 0x020C (fun _ => xltFnFlds) fnObj (xfC v) (blk (xfC v) (fun _ => xltFnFlds) fnObj)) ∧
    (lockedChange xltFnFlds (blk (xfC (b2n ((enE (xfC 0)).fn 5).translated)) (fun _ => xltFnFlds) fnObj) (fun _ => [b2n (!((enE (xfC 0)).fn 5).translated)])
        (fun _ => ((enE (xfC 0)).fn 5).enabled)).isSome = true ∧
    lockedChange xltFnFlds (blk (xfC (b2n (!((enE (xfC 0)).fn 5).translated))) (fun _ => xltFnFlds) fnObj) (fun _ => [b2n (!((enE (xfC 0)).fn 5).translated)])
        (fun _ => ((enE (xfC 0)).fn 5).enabled) = none ∧
    (xcUp.Sets 0 0x020D (fun _ => xltFlds) engObj xcC (blk xcC (fun _ => xltFlds) engObj) ∧
      (lockedChange xltFlds (blk xcC (fun _ => xltFlds) engObj) (fun _ => [xcUp.dma.parkSize])
        (fun _ => xcUp.portList.any (fun p => !decide ((xcUp.port p).state = .adminDown)))).isSome = true) ∧
    ((f0 xcC).Sets 0 0x020D (fun _ => xltFlds) engObj xcC (blk xcC (fun _ => xltFlds) engObj) ∧
      lockedChange xltFlds (blk xcC (fun _ => xltFlds) engObj) (fun _ => [(f0 xcC).dma.parkSize])
        (fun _ => (f0 xcC).portList.any (fun p => !decide (((f0 xcC).port p).state = .adminDown))) = none) ∧
    ((f0 opC).Sets 0 0x020E (fun _ => profileFlds) (fun v => decide (1 ≤ v ∧ v < 256)) opC (blk opC (fun _ => profileFlds) (fun v => decide (1 ≤ v ∧ v < 256)))) := by
  and_intros <;> first
    | decide +kernel
    | exact sets_of (by decide +kernel)
    | (rintro x (rfl | rfl) <;> exact sets_of (by decide +kernel))

/-- F5 with its transmit queue and its receive ring in a state. -/
def runE (t : QState) (c : Cmd) : Eng :=
  ask ((ownB.setTxq 0 (some { fn := 5, loc := 2, port := 3, eq := 1, state := t })).setRxq 0 (some { fn := 5, loc := 4, eq := 1, state := t })) 5 c
/-- Each command of one object, and of one object and a flag. -/
def runOne : List Nat := [0x0205, 0x0207, 0x0208, 0x0209]
def runTwo : List Nat := [0x0206, 0x020A]

theorem witness_QueueRunCommands : clean.fail = none ∧
    (∀ t v op, op ∈ runOne → (runE t (sc op [v])).Asks 5 op 1 (sc op [v])) ∧
    (∀ t v w op, op ∈ runTwo → (runE t (sc op [v, w])).Asks 5 op 2 (sc op [v, w])) ∧
    (∀ t c, (runE t c).txq 0 = some { fn := 5, loc := 2, port := 3, eq := 1, state := t } ∧ (runE t c).rxq 0 = some { fn := 5, loc := 4, eq := 1, state := t } ∧
      (runE t c).eq_ 0 = some { fn := 5, loc := 1 } ∧ (runE t c).eq_ 9 = some { fn := 5, loc := 6 }) ∧
    (∀ t, t ∈ [QState.stopped, .running, .stopping, .paused, .error] →
      (runE t (sc 0x0205 [2])).objOf 5 2 = some (.txq 0) ∧ (runE t (sc 0x0205 [65540])).objOf 5 65540 = some (.rxq 0) ∧
      (runE t (sc 0x0205 [131073])).objOf 5 131073 = some (.eq 0) ∧ (runE t (sc 0x0205 [131078])).objOf 5 131078 = some (.eq 9)) ∧
    ((runE .stopped (sc 0x0208 [65540])).ringNamed 0 { fn := 5, loc := 4, eq := 1, state := .stopped } = false ∧
      (runE .stopped (sc 0x0208 [131078])).eqBound 5 6 = false ∧ (runE .stopped (sc 0x0208 [131073])).eqBound 5 1 = true) ∧
    (∀ v, v = 0 ∨ v = 1 → (f0 (sc 0x020B [60, 4, v])).Asks 0 0x020B 3 (sc 0x020B [60, 4, v]) ∧ (sc 0x020B [60, 4, v]).slot 0 + (sc 0x020B [60, 4, v]).slot 1 ≤
      ((f0 (sc 0x020B [60, 4, v])).fn 0).vecCount) ∧
    ((own (sc 0x020B [0, 1, 0])).Asks 5 0x020B 3 (sc 0x020B [0, 1, 0]) ∧ ((own (sc 0x020B [0, 1, 0])).fn 5).vecCount < 0 + 1) := by
  and_intros <;> first
    | decide +kernel
    | (intro t v op h; simp only [runOne, List.mem_cons, List.not_mem_nil, or_false] at h
       rcases h with rfl | rfl | rfl | rfl <;> exact asks_of ⟨⟨rfl, rfl, rfl, rfl, rfl, rfl⟩, rfl, rfl⟩)
    | (intro t v w op h; simp only [runTwo, List.mem_cons, List.not_mem_nil, or_false] at h
       rcases h with rfl | rfl <;> exact asks_of ⟨⟨rfl, rfl, rfl, rfl, rfl, rfl⟩, rfl, rfl⟩)
    | exact fun t c => ⟨rfl, rfl, rfl, rfl⟩
    | exact asks_of (by decide +kernel)
    | (rintro x (rfl | rfl) <;> and_intros <;> first | decide +kernel | exact asks_of (by decide +kernel))

def spC : Cmd := setc 0x0301 12 3 [2, refSlot 5 4]
def spE : Eng := ask ownB 0 spC
/-- STEER_GEN_SET of a profile, of a port with its MISS_ACTION a drop that marks, of a port without, and of the ports VXLAN and GENEVE. -/
def gsC (n : Nat) : Cmd :=
  if n = 0 then setc 0x0302 7 1 [0x203] else if n = 1 then setc 0x0302 256 6 [7, 0x55 * 2 ^ 48, 0] else if n = 2 then setc 0x0302 271 1 [7]
    else setc 0x0302 512 3 [4789, 6081]
def retE (c : Cmd) : Eng := ask { upE with steer := { upE.steer with retiring := some 0 } } 0 c
/-- A batch of one record: of entry 16383, valid, KEY 1, MASK 3, ACTION drop. -/
def batC : Cmd := cmd 0x0303 176 (1 + 2 ^ 64 * (16383 + 2 ^ 16 * 2 + 2 ^ 64 * 1 + 2 ^ 640 * 3))
def batRs : List RuleRec := [{ entry := 16383, validOnly := false, valid := true, key := 1, mask := 3, action := {} }]
/-- The entry is valid in the active generation with another KEY. -/
def lockE : Eng := ask { upE with steer := { upE.steer with tcam := upE.steer.tcam.put {} 16383 { key := 2, mask := 3, action := {}, validA := true, validB := true } } } 0 batC
def stcC : Cmd := setc 0x0306 objEngine 3 [65536, 1, 2, 3, 4, 5]

theorem witness_SteeringRuleCommands : (0 : Fn) = 0 ∧ clean.fail = none ∧
    (spE.Sets 0 0x0301 (fun _ => steerPortFlds) spE.portArg spC (pblk spE steerPortFlds spC) ∧ firstBad (spE.steerPortChecks (pblk spE steerPortFlds spC)) = none) ∧
    (∀ n, n < 4 → (f0 (gsC n)).Sets 0 0x0302 genFlds (f0 (gsC n)).genObj (gsC n) (blk (gsC n) genFlds (f0 (gsC n)).genObj) ∧
      (retE (gsC n)).Sets 0 0x0302 genFlds (retE (gsC n)).genObj (gsC n) (blk (gsC n) genFlds (retE (gsC n)).genObj)) ∧
    (∀ n, n = 0 ∨ n = 2 → (blk (gsC n) genFlds (f0 (gsC n)).genObj).object / 256 ≠ 1 ∨ (blk (gsC n) genFlds (f0 (gsC n)).genObj).has 2 = false) ∧
    ((retE (gsC 0)).steer.retiring ≠ none ∧ (f0 (gsC 0)).steer.retiring = none ∧ (f0 (gsC 1)).steer.retiring = none) ∧
    ((blk (gsC 1) genFlds (f0 (gsC 1)).genObj).object / 256 = 1 ∧ (blk (gsC 1) genFlds (f0 (gsC 1)).genObj).has 2 = true ∧
      (f0 (gsC 1)).missIn (blk (gsC 1) genFlds (f0 (gsC 1)).genObj) = .inr { ty := 0, target := 0, policer := none, mark := 0x55 }) ∧
    (∀ e, e = f0 batC ∨ e = retE batC ∨ e = lockE → e.Has 0 0x0303 batC ∧ e.rulesIn batC (batC.slot 0) 8 = .inr batRs) ∧
    (1 ≤ batC.slot 0 ∧ batC.slot 0 ≤ 4096 ∧ batC.reqLen = 8 + 168 * batC.slot 0) ∧
    ((retE batC).steer.retiring ≠ none ∧ (f0 batC).steer.retiring = none ∧ (∀ r, r ∈ batRs → (f0 batC).ruleLocked r = none)) ∧
    (lockE.steer.retiring = none ∧ (batRs[0]?).bind lockE.ruleLocked = some 8) ∧
    ((f0 (sc 0x0304 [])).Asks 0 0x0304 0 (sc 0x0304 []) ∧ (f0 (sc 0x0304 [])).steer.retiring = none ∧
      (retE (sc 0x0304 [])).Asks 0 0x0304 0 (sc 0x0304 []) ∧ (retE (sc 0x0304 [])).steer.retiring ≠ none) ∧
    ((retE (sc 0x0305 [])).Asks 0 0x0305 0 (sc 0x0305 [])) ∧
    ((f0 stcC).Sets 0 0x0306 (fun _ => steerFlds) engObj stcC (blk stcC (fun _ => steerFlds) engObj)) := by
  and_intros <;> first
    | decide +kernel
    | exact asks_of (by decide +kernel)
    | exact sets_of (by decide +kernel)
    | (intro n h; match n, h with
        | 0, _ | 1, _ | 2, _ | 3, _ => exact ⟨sets_of (by decide +kernel), sets_of (by decide +kernel)⟩)
    | (rintro x (rfl | rfl) <;> decide +kernel)
    | (rintro x (rfl | rfl | rfl) <;> exact ⟨has_of (by decide +kernel), by decide +kernel⟩)

/-- Stream group 63 given two members, and none. -/
def sgC : Cmd := sc 0x0307 [63, 2, 0x701, 0]
def sgNone : Cmd := sc 0x0307 [63, 0]
/-- An entry valid in a generation whose action names stream group 63, or table 9. -/
def actE (ty t : Nat) (c : Cmd) : Eng :=
  ask { upE with steer := { upE.steer with
    spreads := upE.steer.spreads.put none 9 (some { owner := 5, size := 16 })
    tcam := upE.steer.tcam.put {} 3 { key := 0, mask := 0, action := { ty := ty, target := t, policer := none, mark := 0 }, validA := true, validB := false } } } 0 c
def fullSp : Eng := ask { upE with steer := { upE.steer with spreads := upE.steer.spreads.put none 9 (some { owner := 5, size := 32768 }) } } 0 (sc 0x0308 [5, 16])
/-- SPREAD_SET of table 9: FIRST 15 and one entry, the local ring 4, and IP4T; then none of its parts. -/
def ssC : Cmd := sc 0x030A [9, 10, 1, 15, 1, 4]
def ssNone : Cmd := sc 0x030A [9, 0]
def ssE (f : Fn) (c : Cmd) : Eng := ask { ownB with steer := { ownB.steer with spreads := ownB.steer.spreads.put none 9 (some { owner := 5, size := 16 }) } } f c

theorem witness_StreamsAndSpreading :
    (∀ c, c = sgC ∨ c = sgNone → (f0 c).Has 0 0x0307 c ∧ c.slot 0 < 64 ∧ c.slot 1 ≤ 16 ∧ c.reqLen = 16 + 8 * c.slot 1 ∧
      (∀ i, i < c.slot 1 → c.slot (2 + i) = fld (c.slot (2 + i)) 0 1 + 256 * fld (c.slot (2 + i)) 8 3)) ∧
    (sgC.slot 1 ≠ 0 ∧ sgNone.slot 1 = 0 ∧ (f0 sgNone).groupNamed 63 = false ∧ (actE 3 63 sgNone).groupNamed 63 = true ∧ (actE 3 63 sgNone).Has 0 0x0307 sgNone) ∧
    ((f0 (sc 0x0308 [5, 16])).Asks 0 0x0308 2 (sc 0x0308 [5, 16]) ∧ (f0 (sc 0x0308 [5, 16])).spreadUse + 16 ≤ 32768 ∧
      (∃ n, pickFree 4 256 ((upTo 256).filter (fun n => ((f0 (sc 0x0308 [5, 16])).steer.spreads.get none n).isSome)) = some n)) ∧
    (fullSp.Asks 0 0x0308 2 (sc 0x0308 [5, 16]) ∧ 32768 < fullSp.spreadUse + 16) ∧
    (∀ t, t = 9 ∨ t = 8 → (actE 2 t (sc 0x0309 [9])).Asks 0 0x0309 1 (sc 0x0309 [9]) ∧ ((actE 2 t (sc 0x0309 [9])).steer.spreads.get none 9).isSome = true) ∧
    ((actE 2 9 (sc 0x0309 [9])).liveActions.any (fun a => a.ty == 2 && a.target == 9) = true ∧
      (actE 2 8 (sc 0x0309 [9])).liveActions.any (fun a => a.ty == 2 && a.target == 9) = false) ∧
    (∀ f, f = 0 ∨ f = 5 ∨ f = 6 → (ssE f ssC).Has f 0x030A ssC ∧ (ssE f ssC).steer.spreads.get none 9 = some { owner := 5, size := 16 } ∧
      (ssE f ssNone).Has f 0x030A ssNone) ∧
    (ssC.slot 0 < 256 ∧ ssC.slot 1 < 16 ∧ bitAt (ssC.slot 1) 1 = true ∧ bitAt (ssC.slot 1) 3 = true ∧ ssC.at_ 32 64 = 1 ∧ ssC.reqLen = 24 + (16 + alignUp (2 * 1) 8) ∧
      ssC.at_ 16 64 < 2 ∧ ssC.at_ 24 64 + 1 ≤ 16 ∧ (∀ i, i < 1 → ((ssE 0 ssC).rxqOf 5 (ssC.at_ (24 + 16 + 2 * i) 16)).isSome = true) ∧
      ssC.at_ (24 + 16 + 2 * 1) (8 * (alignUp (2 * 1) 8 - 2 * 1)) = 0) ∧
    (ssNone.slot 1 = 0 ∧ ssNone.reqLen = 16) := by
  and_intros <;> first
    | decide +kernel
    | exact has_of (by decide +kernel)
    | exact asks_of (by decide +kernel)
    | exact pick_some _ _ _ (by decide) (by decide +kernel)
    | (rintro x (rfl | rfl) <;> and_intros <;> first | decide +kernel | exact has_of (by decide +kernel) | exact asks_of (by decide +kernel))
    | (rintro x (rfl | rfl | rfl) <;> and_intros <;> first | decide +kernel | exact has_of (by decide +kernel))

/-- POLICER_SET of policers 0 and 4095; of one that exists and one that does not; of none that exists. -/
def plC (a b : Nat) : Cmd := cmd 0x030B 40 (slots [a, 1, 1600000, b, 0])
def plBs (c : Cmd) : List (Nat ⊕ SetBlk) := itemBlocks c policerFlds (fun v => decide (v < 4096)) 64 0
/-- WAKE_PATTERN_SET of pattern 31 of port 15, and of pattern 0 of port 15 with an all-zero MASK. -/
def wkC (a b : Nat) : Cmd := cmd 0x030C 96 (slots [0x1F0F, 2, a, 0, 0, 0, 0x000F, 2, b, 0, 0, 0])
def wkR (c : Cmd) : Nat × Option Nat := ((f0 c).items Eng.wakeApply (itemBlocks c wakeFlds (f0 c).wakeObj 32 0)).2

theorem witness_PolicersAndPatterns :
    (∀ a b, (a, b) = (0, 4095) ∨ (a, b) = (0, 4096) ∨ (a, b) = (4097, 4096) → (f0 (plC a b)).Has 0 0x030B (plC a b) ∧
      spansOk (plC a b) (fun _ => policerFlds) 64 0 = true) ∧
    ((plBs (plC 0 4095)).all Sum.isRight = true ∧ (plBs (plC 0 4095)).length = 2) ∧
    (((f0 (plC 0 4096)).items Eng.policerApply (plBs (plC 0 4096))).2 = (1, some 56) ∧
      ((f0 (plC 4097 4096)).items Eng.policerApply (plBs (plC 4097 4096))).2 = (0, some 32)) ∧
    (∀ a b, (a, b) = (1, 1) ∨ (a, b) = (1, 0) ∨ (a, b) = (0, 0) → (f0 (wkC a b)).Has 0 0x030C (wkC a b) ∧ spansOk (wkC a b) (fun _ => wakeFlds) 32 0 = true) ∧
    (wkR (wkC 1 1) = (3, none) ∧ wkR (wkC 1 0) = (1, some 96) ∧ wkR (wkC 0 0) = (0, some 48)) ∧
    (∀ v, v = 0 ∨ v = 1 → (f0 (sc 0x030D [4095, v])).Asks 0 0x030D 2 (sc 0x030D [4095, v]) ∧ (f0 (sc 0x030E [15, v])).Asks 0 0x030E 2 (sc 0x030E [15, v]) ∧
      (f0 (sc 0x030E [15, v])).portArg 15 = true) := by
  and_intros <;> first
    | decide +kernel
    | (rintro a b (h | h | h) <;> cases h <;> exact ⟨has_of (by decide +kernel), by decide +kernel⟩)
    | (rintro x (rfl | rfl) <;> exact ⟨asks_of (by decide +kernel), asks_of (by decide +kernel), by decide +kernel⟩)

/-- A node of port 3 under its root; a node under node 8191. -/
def ndC : Cmd := setc 0x0401 objEngine 1 [3]
def ndUnder : Cmd := setc 0x0401 objEngine 5 [3, 65536 + 8191]
/-- A node whose PORT is left out. -/
def ndAny : Cmd := setc 0x0401 objEngine 0 []
/-- Nodes 8191, and 0 below it, are live on port 3. -/
def ndB : Eng := (upE.setNode 8191 { live := true, port := 3 }).setNode 0 { live := true, port := 3, parent := some 8191 }
def ndE (c : Cmd) : Eng := ask ndB 0 c
/-- Every node is live. -/
def allNodes : List (Nat × DObj) := (upTo 8192).map (fun n => (n, { live := true, port := 3 }))
def ndFull : Eng := ask { upE with dealer := { upE.dealer with nodes := { rows := allNodes } } } 0 ndC
def ndBlk (_ : Eng) (c : Cmd) : SetBlk := blk c (fun _ => dealerFlds) engObj
def usedOf (e : Eng) : List Nat := (e.dealer.nodes.rows.filter (fun r => r.2.live)).map (·.1)

theorem full_used : usedOf ndFull = upTo 8192 := by
  simp only [usedOf, ndFull, ask, Eng.setFn, allNodes, List.filter_map, List.map_map]
  rw [List.filter_eq_self.mpr (by intro a _; rfl)]
  exact List.map_id' (upTo 8192)

/-- A pool of which all numbers are in use gives none. -/
theorem pick_none (pool n : Nat) (used : List Nat) (h : ∀ i, i ∈ upTo n → i ∈ used) : pickFree pool n used = none := by
  have hm : (upTo n).filter (fun i => !used.contains i) = [] := by
    rw [List.filter_eq_nil_iff]; intro a ha; simp [h a ha]
  simp only [pickFree, hm, List.isEmpty_nil, if_true]

theorem witness_NodePool : (∃ n, pickFree 3 8192 (usedOf (f0 ndC)) = some n) ∧ pickFree 3 8192 (usedOf ndFull) = none ∧
    (ndFull.Sets 0 0x0401 (fun _ => dealerFlds) engObj ndC (ndBlk ndFull ndC) ∧ ndFull.isPort (fin 16 ((ndBlk ndFull ndC).val 0 0)) = true ∧
      (ndBlk ndFull ndC).has 2 = false) := by
  and_intros
  · exact pick_some _ _ _ (by decide) (by decide +kernel)
  · rw [full_used]; exact pick_none _ _ _ (fun _ h => h)
  · exact sets_of (by decide +kernel)
  · decide +kernel
  · decide +kernel

/-- DEALER_SET by F5 of its leaf 2's QUANTUM; of its PARENT to root 3; of a node; of the leaf's PARENT's field PORT by F0. -/
def dsC (n : Nat) : Cmd :=
  if n = 0 then setc 0x0403 2 0x10 [64] else if n = 1 then setc 0x0403 2 4 [131075] else setc 0x0403 65536 8 [7]
def dsE (a : Scope) (c : Cmd) : Eng :=
  ask ((((ownB.setLeaf 0 { live := true, port := 3, parent := none, band := 0, quantum := 4096 }).setNode 8191 { live := true, port := 3 }).setNode 0
    { live := true, port := 3, parent := some 8191 }).setRoot 3 { upE.root 3 with attach := a }) 5 c
def dsBs (e : Eng) (f : Fn) (c : Cmd) : List SetBlk :=
  match parseBlocks c (fun _ => dealerFlds) (fun v => (e.dealerObj f v).isSome) 64 with
  | .good l => l
  | .bad _ => []
def dsOs (e : Eng) (f : Fn) (c : Cmd) : List (DObjId × SetBlk) := (dsBs e f c).filterMap (fun b => (e.dealerObj f b.object).map (fun o => (o, b)))
def dsMay (e : Eng) (f : Fn) (c : Cmd) : Bool := (dsOs e f c).all (fun r => e.dealerMay f r.1 r.2 &&
  (lockedChange dealerFlds r.2 (fun i => nth (e.dealerCfg r.1) i []) (fun _ => true)).isNone)
/-- Two blocks of F0: of node 8191's shaper, and of node 0's BAND and PARENT. -/
def dsTwo : Cmd := cmd 0x0403 64 (slots [65536 + 8191, 0x60, 1, 9, 65536, 0x0C, 131075, 7])
def smC (m : Nat) (l : List Nat) : Cmd := setc 0x0405 objEngine m l
def smE (on : Bool) (c : Cmd) : Eng := ask { upE with dealer := { upE.dealer with sampleEn := on } } 0 c
def smRing : Cmd := smC 15 [1, 32767, 1, 7, 0, 4096, 64]
def smFirst : Cmd := smC 2 [5]

theorem witness_DealerCommands : (0 : Fn) = 0 ∧ clean.fail = none ∧
    (∀ c, c = ndC ∨ c = ndUnder → (ndE c).Sets 0 0x0401 (fun _ => dealerFlds) engObj c (ndBlk (ndE c) c) ∧ (ndE c).isPort (fin 16 ((ndBlk (ndE c) c).val 0 0)) = true) ∧
    ((ndE ndAny).Sets 0 0x0401 (fun _ => dealerFlds) engObj ndAny (ndBlk (ndE ndAny) ndAny) ∧ (ndBlk (ndE ndAny) ndAny).has 0 = false ∧
      (ndBlk (ndE ndC) ndC).has 0 = true ∧ ∀ p, (ndE ndAny).isPort p = true) ∧
    ((ndBlk (ndE ndUnder) ndUnder).has 2 = true ∧ (ndE ndUnder).parentOk 3 ((ndBlk (ndE ndUnder) ndUnder).val 2 0) = true ∧
      dobjOf ((ndBlk (ndE ndUnder) ndUnder).val 2 0) = some (.node 8191) ∧ (ndE ndUnder).level 10 (.node 8191) < 8) ∧
    (∀ n, n = 0 ∨ n = 8191 ∨ n = 1 → (ndE (sc 0x0402 [n])).Asks 0 0x0402 1 (sc 0x0402 [n])) ∧
    (((ndE (sc 0x0402 [0])).node 0).live = true ∧ (ndE (sc 0x0402 [0])).kids (.node 0) = [] ∧ (ndE (sc 0x0402 [8191])).kids (.node 8191) ≠ [] ∧
      ((ndE (sc 0x0402 [1])).node 1).live = false) ∧
    (∀ n, n = 0 ∨ n = 1 ∨ n = 2 → (dsE .none (dsC n)).Has 5 0x0403 (dsC n) ∧
      parseBlocks (dsC n) (fun _ => dealerFlds) (fun v => ((dsE .none (dsC n)).dealerObj 5 v).isSome) 64 = .good (dsBs (dsE .none (dsC n)) 5 (dsC n)) ∧
      Eng.dealerStage 5 (dsBs (dsE .none (dsC n)) 5 (dsC n)) (dsE .none (dsC n)) = none ∧ dsMay (dsE .none (dsC n)) 5 (dsC n) = decide (n = 0)) ∧
    (dsMay (dsE .all (dsC 1)) 5 (dsC 1) = true ∧ (dsE .all (dsC 1)).Has 5 0x0403 (dsC 1)) ∧
    ((ndE dsTwo).Has 0 0x0403 dsTwo ∧ parseBlocks dsTwo (fun _ => dealerFlds) (fun v => ((ndE dsTwo).dealerObj 0 v).isSome) 64 = .good (dsBs (ndE dsTwo) 0 dsTwo) ∧
      Eng.dealerStage 0 (dsBs (ndE dsTwo) 0 dsTwo) (ndE dsTwo) = none ∧ dsMay (ndE dsTwo) 0 dsTwo = true ∧ (dsOs (ndE dsTwo) 0 dsTwo).length = 2) ∧
    (∀ p, DObjId.leaf 0 ≠ .root p ∧ DObjId.node 0 ≠ .root p) ∧
    (∀ v, v = 0 ∨ v = 1 → (f0 (sc 0x0404 [131072, v])).Asks 0 0x0404 2 (sc 0x0404 [131072, v]) ∧ (dsE .none (sc 0x0404 [2, v])).Asks 5 0x0404 2 (sc 0x0404 [2, v])) ∧
    ((f0 (sc 0x0404 [131072, 1])).dealerObj 0 131072 = some (.root 0) ∧ (dsE .none (sc 0x0404 [2, 0])).dealerObj 5 2 = some (.leaf 0) ∧
      (sc 0x0404 [2, 0]).fits ((dsE .none (sc 0x0404 [2, 0])).queryBytes 5 2 (.leaf 0)).length = true ∧
      (sc 0x0404 [131072, 1]).fits ((f0 (sc 0x0404 [131072, 1])).queryBytes 0 131072 (.root 0)).length = true) ∧
    (∀ c, c = smRing ∨ c = smFirst → (smE false c).Sets 0 0x0405 (fun _ => samplerFlds) engObj c (blk c (fun _ => samplerFlds) engObj) ∧
      (blk c (fun _ => samplerFlds) engObj).val 1 0 + (blk c (fun _ => samplerFlds) engObj).val 2 1 ≤ 32768 ∧
      lockedChange samplerFlds (blk c (fun _ => samplerFlds) engObj) (fun i => nth (smE false c).dealer.samplerCfg i []) (fun _ => (smE false c).dealer.sampleEn) = none) ∧
    ((smE true smRing).Sets 0 0x0405 (fun _ => samplerFlds) engObj smRing (blk smRing (fun _ => samplerFlds) engObj) ∧
      (lockedChange samplerFlds (blk smRing (fun _ => samplerFlds) engObj) (fun i => nth (smE true smRing).dealer.samplerCfg i []) (fun _ => (smE true smRing).dealer.sampleEn)).isSome =
        true) := by
  and_intros <;> first
    | decide +kernel
    | exact has_of (by decide +kernel)
    | exact sets_of (by decide +kernel)
    | (rintro x (rfl | rfl) <;> and_intros <;> first | decide +kernel | exact asks_of (by decide +kernel) | exact sets_of (by decide +kernel))
    | (rintro x (rfl | rfl | rfl) <;> and_intros <;> first | decide +kernel | exact has_of (by decide +kernel) | exact asks_of (by decide +kernel))

/-- A leaf's parent with 64 children has too much to say for MBX_RSP. -/
def wideC : Cmd := sc 0x0404 [65536 + 8191, 0]
def wideE : Eng :=
  ask ((upTo 40).foldl (fun e n => e.setNode (fin 8192 n) { live := true, port := 3, parent := some 8191 }) (upE.setNode 8191 { live := true, port := 3 })) 0 wideC
theorem witness_LongQuery : wideE.Asks 0 0x0404 2 wideC ∧ wideE.dealerObj 0 (65536 + 8191) = some (.node 8191) ∧
    wideC.fits (wideE.queryBytes 0 (65536 + 8191) (.node 8191)).length = false := by
  and_intros <;> first | decide +kernel | exact asks_of (by decide +kernel)

/-! Deck and time -/

/-- A list of `n` entries of 64 ns on port 9, a cycle of 1,000 ns from time 0 on. -/
def dkC (n : Nat) : Cmd :=
  cmd 0x0501 (32 + 8 * n) (9 + 2 ^ 16 * n + 2 ^ 128 * 1000 + (upTo n).foldl (fun a i => a + 2 ^ (8 * (32 + 8 * i)) * (64 + 2 ^ 32 * 255)) 0)
def dkL : GateList := { tb := 0, base := 0, cycle := 1000, ext := 0, entries := [(64, 0xFF)] }
def dkE (s : DeckSt) (c : Cmd) : Eng := ask (upE.modPort 9 (fun x => { x with deck := { x.deck with st := s, oper := some dkL } })) 0 c
def dkStat (ind : Bool) (v : Nat) : Cmd := { sc 0x0503 [9, v] with indRsp := ind, rspMax := 4096 }
/-- A list in force of 600 entries, whose answer needs more than 4,096 bytes. -/
def dkLong : Eng := ask (upE.modPort 9 (fun x => { x with deck := { x.deck with st := .operational, oper := some { dkL with entries := List.replicate 600 (64, 0) } } })) 0 (dkStat true 0)
def tqC (m a : Nat) : Cmd := sc 0x0504 [3, m, a]

theorem witness_DeckAndTimeStampCommands : 0 < dkL.cycle ∧
    ((f0 (dkC 1)).Has 0 0x0501 (dkC 1) ∧ firstBad ((f0 (dkC 1)).deckChecks (dkC 1)) = none ∧ (dkE .operational (dkC 1)).Has 0 0x0501 (dkC 1) ∧
      firstBad ((dkE .operational (dkC 1)).deckChecks (dkC 1)) = none) ∧
    ((ask upE 5 (dkC 1)).Has 5 0x0501 (dkC 1) ∧ firstBad ((ask upE 5 (dkC 1)).deckChecks (dkC 1)) = none ∧ (5 : Fn) ≠ 0) ∧
    ((f0 (sc 0x0502 [9])).Asks 0 0x0502 1 (sc 0x0502 [9]) ∧ ((f0 (sc 0x0502 [9])).port 9).deck.oper = none) ∧
    (∀ s, s = DeckSt.operational ∨ s = DeckSt.clearing → (dkE s (sc 0x0502 [9])).Asks 0 0x0502 1 (sc 0x0502 [9]) ∧ (dkE s (sc 0x0502 [9])).portArg 9 = true ∧
      ((dkE s (sc 0x0502 [9])).port (sc 0x0502 [9]).port).deck.oper = some dkL ∧ ((dkE s (sc 0x0502 [9])).port (sc 0x0502 [9]).port).deck.st = s) ∧
    (∀ v, v = 0 ∨ v = 1 → (dkE .operational (dkStat false v)).Asks 0 0x0503 2 (dkStat false v) ∧ (dkE .operational (dkStat false v)).portArg 9 = true ∧
      (dkStat false v).fits ((dkE .operational (dkStat false v)).deckBytes 9 false).length = true ∧ (dkE .operational (dkStat true v)).Asks 0 0x0503 2 (dkStat true v) ∧
      (dkStat true v).fits ((dkE .operational (dkStat true v)).deckBytes 9 true).length = true) ∧
    (dkLong.Asks 0 0x0503 2 (dkStat true 0) ∧ (dkStat true 0).fits (dkLong.deckBytes 9 true).length = false) ∧
    (∀ a, a = 0 ∨ a = 1 → (f0 (tqC 15 a)).Asks 0 0x0504 3 (tqC 15 a) ∧ (own (tqC 1 a)).Asks 5 0x0504 3 (tqC 1 a) ∧ (own (tqC 1 a)).portArg 3 = true ∧
      (own (tqC 1 a)).txOwner 5 (tqC 1 a).port = true ∧ (ask upE 5 (tqC 1 a)).Asks 5 0x0504 3 (tqC 1 a) ∧ (ask upE 5 (tqC 1 a)).txOwner 5 (tqC 1 a).port = false) := by
  and_intros <;> first
    | decide +kernel
    | exact has_of (by decide +kernel)
    | exact asks_of (by decide +kernel)
    | (rintro x (rfl | rfl) <;> and_intros <;> first | decide +kernel | exact asks_of (by decide +kernel))

/-! General, firmware, power and pair -/

/-- F5 enabled or not, its VEC_BASE, ENABLED, quota and TIME_BASE asked for. -/
def fcgE (on : Bool) (c : Cmd) : Eng := ask (upE.setFn 5 { upE.fn 5 with enabled := on }) 0 c
def fcgB (c : Cmd) : SetBlk := blk c (fun _ => fnFlds) fnObj
def fcgVec : Cmd := setc 0x0001 5 0x10 [100]
def fcgOff : Cmd := setc 0x0001 5 1 [0]
def fcgQuota : Cmd := setc 0x0001 5 3 [1, 9]
def fcgTime : Cmd := setc 0x0001 5 0x40 [2]
def cgC (op v : Nat) : Cmd := sc 0x0003 [op, v]
/-- A long reject log, asked for into a short buffer. -/
def rjC : Cmd := { sc 0x0004 [] with indRsp := true, rspMax := 256 }
def rjE : Eng :=
  ask { upE with ctl := { upE.ctl with rejects := List.replicate 9 { time := 1, fn := 0, what := 0x0102, isReg := false, field := 7, status := 2 } } } 0 rjC
def actP (c : Cmd) : Eng := ask (pst .active) 0 c

theorem witness_GeneralCommands : (0 : Fn) = 0 ∧
    (∀ on c, (on, c) = (true, fcgVec) ∨ (on, c) = (true, fcgOff) ∨ (on, c) = (false, fcgQuota) ∨ (on, c) = (true, fcgTime) →
      (fcgE on c).Sets 0 0x0001 (fun _ => fnFlds) fnObj c (fcgB c) ∧ firstBad ((fcgE on c).fnChecks (fcgB c)) = none ∧ ((fcgE on c).fn 5).enabled = on ∧
      (lockedChange fnFlds (fcgB c) (fun i => nth ((fcgE on c).fn 5).cfg i []) (fun _ => ((fcgE on c).fn 5).enabled)).isSome = decide (c = fcgVec)) ∧
    ((fcgB fcgOff).bool 0 true = false ∧ (fcgB fcgTime).bool 0 true = true ∧
      (((fcgE true fcgTime).fn 5).setCfg (fcgB fcgTime)).timeBase ≠ ((fcgE true fcgTime).fn 5).timeBase) ∧
    (∀ n, n = 0 ∨ n = 1 ∨ n = 2047 → (f0 (sc 0x0002 [n])).Asks 0 0x0002 1 (sc 0x0002 [n])) ∧
    (∀ op, op = 0x0102 ∨ op = 0x010B → (f0 (cgC op 3)).Asks 0 0x0003 2 (cgC op 3) ∧ setOps.contains op = true ∧
      ((f0 (cgC op 3)).configOf 0 op 3).isSome = true ∧ configMay 0 op 3 = true) ∧
    ((own (cgC 0x0102 3)).Asks 5 0x0003 2 (cgC 0x0102 3) ∧ ((own (cgC 0x0102 3)).configOf 5 0x0102 3).isSome = true ∧ configMay 5 0x0102 3 = false) ∧
    ((own (cgC 1 5)).Asks 5 0x0003 2 (cgC 1 5) ∧ ((own (cgC 1 5)).configOf 5 1 5).isSome = true ∧ configMay 5 1 5 = true) ∧
    ((f0 (sc 0x0004 [])).Asks 0 0x0004 0 (sc 0x0004 []) ∧ rjE.Asks 0 0x0004 0 rjC ∧ rjC.fits (32 * (rjE.ctl.rejects.take 64).length) = false) ∧
    ((f0 (sc 0x0005 [])).Asks 0 0x0005 0 (sc 0x0005 [])) ∧
    (∀ v, v = 0 ∨ v = 1 → (f0 (sc 0x0006 [v])).Asks 0 0x0006 1 (sc 0x0006 [v]) ∧ (f0 (sc 0x0006 [v])).pair.state ≠ .active ∧
      (actP (sc 0x0006 [v])).Asks 0 0x0006 1 (sc 0x0006 [v]) ∧ (actP (sc 0x0006 [v])).pair.state = .active) ∧
    ((f0 (sc 0x0007 [])).Asks 0 0x0007 0 (sc 0x0007 [])) := by
  and_intros <;> first
    | decide +kernel
    | exact asks_of (by decide +kernel)
    | (rintro on c (h | h | h | h) <;> cases h <;> exact ⟨sets_of (by decide +kernel), by decide +kernel⟩)
    | (rintro x (rfl | rfl) <;> and_intros <;> first | decide +kernel | exact asks_of (by decide +kernel))
    | (rintro x (rfl | rfl | rfl) <;> exact asks_of (by decide +kernel))

/-- A command of opcode `op` at work, on thread 2. -/
def wkc (op : Nat) : Cmd := { sc op [] with st := .working, thread := some 2 }
/-- Thread 2 is halted for debug. -/
def dbgE (c : Cmd) : Eng := ask { upE with lcp := { upE.lcp with threads := upE.lcp.threads.put {} 2 { state := .haltedDebug } } } 0 c
/-- A handover before its lease write. -/
def handE (c : Cmd) : Eng := ask (pairE (fun x => { x with state := .active, handover := some false })) 0 c
def copyE : Eng := ask (formE 5 true 0) 0 (wkc 0x0802)
/-- An image of 64 bytes of code. -/
def fwC (n : Nat) (ind : Bool) (code : Nat) : Cmd := { cmd 0x0B02 n (7 + 2 ^ 64 * 3 + 2 ^ 96 * code) with indReq := ind }
def noDbg (c : Cmd) : Eng := ask { upE with lcp := { upE.lcp with policy := false } } 0 c

theorem witness_FirmwareCommands :
    (((upE.fn 5).cmd = none ∧ (phaseE .s7).ctl.ready = false) ∧
    (∀ op, op ∈ [0x0102, 0x0206, 0x0304, 0x0601, 0x0802, 0x0804, 0x0805, 0x0B02] → ((f0 (wkc op)).fn 0).cmd = some (wkc op) ∧ (f0 (wkc op)).ctl.ready = true ∧ (f0 (wkc op)).waitOf (.mbx 0) = none ∧
      (wkc op).undo = none ∧ (f0 (wkc op)).heldByDebug 0 = false ∧ (wkc op).st = .working) ∧
    ((dbgE (wkc 0x0102)).heldByDebug 0 = true ∧ 0x0102 ∉ [0x0206, 0x0304, 0x0601, 0x0802, 0x0804, 0x0805]) ∧
    ((handE (wkc 0x0804)).pair.handover = some false ∧ (handE (wkc 0x0804)).pair.state = .active ∧ (handE (wkc 0x0804)).pair.op = none ∧
      ((handE (wkc 0x0804)).fn 0).cmd = some (wkc 0x0804) ∧ (handE (wkc 0x0804)).ctl.ready = true ∧ (handE (wkc 0x0804)).waitOf (.mbx 0) = none) ∧
    ((copyE.fn 0).cmd = some (wkc 0x0802) ∧ copyE.pair.formStep = 5 ∧ 0 < (7 : BitVec 32).toNat ∧ (3 : BitVec 32).toNat < (7 : BitVec 32).toNat) ∧
    ((own (sc 0x0B01 [])).Asks 5 0x0B01 0 (sc 0x0B01 [])) ∧
    ((f0 (fwC 512 true 64)).Has 0 0x0B02 (fwC 512 true 64) ∧ (fwC 512 true 64).indReq = true ∧ 512 ≤ (fwC 512 true 64).reqLen ∧ (fwC 512 true 64).at_ 12 32 = 64) ∧
    (∀ n i k, (n, i, k) = (512, false, 64) ∨ (n, i, k) = (511, true, 64) ∨ (n, i, k) = (512, true, 2097153) → (f0 (fwC n i k)).Has 0 0x0B02 (fwC n i k) ∧
      (firstBad [(4, (fwC n i k).indReq), (8, decide (512 ≤ (fwC n i k).reqLen)), (40, true), (44, decide ((fwC n i k).at_ 12 32 ≤ 2097152)), (288, true)]).isSome = true) ∧
    ((f0 (sc 0x0B03 [])).Asks 0 0x0B03 0 (sc 0x0B03 [])) ∧
    (∀ v, v = 0 ∨ v = 1 → (f0 (sc 0x0B04 [v])).Asks 0 0x0B04 1 (sc 0x0B04 [v]) ∧ (f0 (sc 0x0B04 [v])).lcp.policy = true ∧
      (noDbg (sc 0x0B04 [v])).Asks 0 0x0B04 1 (sc 0x0B04 [v]) ∧ (noDbg (sc 0x0B04 [v])).lcp.policy = false)) := by
  and_intros <;> first
    | decide +kernel
    | exact asks_of (by decide +kernel)
    | exact has_of (by decide +kernel)
    | (rintro n i k (h | h | h) <;> cases h <;> exact ⟨has_of (by decide +kernel), by decide +kernel⟩)
    | (rintro x (rfl | rfl) <;> and_intros <;> first | decide +kernel | exact asks_of (by decide +kernel))

def psC (v : Nat) : Cmd := sc 0x0601 [v]
/-- A receive ring of F5 is PAUSED. -/
def psHeld : Eng := ask (upE.setRxq 0 (some { fn := 5, loc := 4, state := .paused })) 0 (psC 1)
/-- Channel 8 is not IDLE. -/
def psCarry : Eng := ask (upE.modChan 8 (fun x => { x with state := .active })) 0 (psC 3)
def stP (k : PairState) (c : Cmd) : Eng := ask (pst k) 0 c
def dozing : Eng := ask (dozeE id) 0 (psC 1)

theorem witness_PowerAndFaultCommands :
    (∀ v, v = 0 ∨ v = 1 ∨ v = 3 → (f0 (psC v)).Asks 0 0x0601 1 (psC v) ∧ ((f0 (psC v)).working 0).pwr.step = .none ∧ ((f0 (psC v)).working 0).pwr.state = .run ∧
      ((f0 (psC v)).working 0).pair.state = .unpaired ∧ ((f0 (psC v)).working 0).anyPaused = false ∧ ((f0 (psC v)).working 0).carryBusy = false ∧
      ((f0 (psC v)).working 0).pwr.wakeAt = 0) ∧
    (PwrState.ofCode 0 = .run ∧ PwrState.ofCode 1 ≠ .run ∧ PwrState.ofCode 3 = .off) ∧
    (dozing.Asks 0 0x0601 1 (psC 1) ∧ (dozing.working 0).pwr.state = PwrState.ofCode 1 ∧ (dozing.working 0).pwr.step = .none) ∧
    (psHeld.Asks 0 0x0601 1 (psC 1) ∧ (psHeld.working 0).anyPaused = true ∧ psCarry.Asks 0 0x0601 1 (psC 3) ∧ (psCarry.working 0).carryBusy = true) ∧
    ((stP .active (psC 1)).Asks 0 0x0601 1 (psC 1) ∧ ((stP .active (psC 1)).working 0).pair.state ≠ .unpaired ∧ ((stP .active (psC 1)).working 0).pair.state ≠ .standby ∧
      ((stP .active (psC 1)).working 0).pair.state ≠ .standbyStale) ∧
    ((State.reset.budget.credits = 0 ∨ 0 < State.reset.budget.credits) ∧ ({ State.reset with budget := { State.reset.budget with credits := 0 } } : State).budget.credits = 0 ∧
      0 < ({ State.reset with budget := { State.reset.budget with credits := 1 } } : State).budget.credits) ∧
    (∀ v, v = 0 ∨ v = 1 → (f0 (sc 0x0602 [v])).Asks 0 0x0602 1 (sc 0x0602 [v]) ∧ (own (sc 0x0602 [v])).Asks 5 0x0602 1 (sc 0x0602 [v]) ∧ (5 : Fn) ≠ 0) ∧
    ((f0 (sc 0x0701 [])).Asks 0 0x0701 0 (sc 0x0701 [])) := by
  and_intros <;> first
    | decide +kernel
    | exact asks_of (by decide +kernel)
    | (rintro x (rfl | rfl) <;> and_intros <;> first | decide +kernel | exact asks_of (by decide +kernel))
    | (rintro x (rfl | rfl | rfl) <;> and_intros <;> first | decide +kernel | exact asks_of (by decide +kernel))

def pcfC : Cmd := setc 0x0801 objEngine 0x3F [7, 1, 1, 64, 0, 0x00FF, 1, 4]
def pcfB : SetBlk := blk pcfC (fun _ => pairFlds) engObj
def syncE (k : PairState) (c : Cmd) : Eng := ask (pairE (fun x => { x with state := k, resync := true })) 0 c
/-- Heartbeats come in. -/
def beatE (c : Cmd) : Eng := ask (pairE (fun x => { x with state := .activeAlone, hbLast := some (1, 0) })) 0 c
def gatedE (c : Cmd) : Eng := ask (pairE (fun x => { x with state := .activeAlone, partnerGated := true })) 0 c

theorem witness_PairCommands : (0 : Fn) = 0 ∧
    ((f0 pcfC).Sets 0 0x0801 (fun _ => pairFlds) engObj pcfC pcfB ∧ lockedChange pairFlds pcfB (fun i => nth (f0 pcfC).pair.cfg i []) (fun _ => (f0 pcfC).paired) = none) ∧
    ((actP pcfC).Sets 0 0x0801 (fun _ => pairFlds) engObj pcfC pcfB ∧
      (lockedChange pairFlds pcfB (fun i => nth (actP pcfC).pair.cfg i []) (fun _ => (actP pcfC).paired)).isSome = true) ∧
    (∀ op, op = 0x0802 ∨ op = 0x0803 → (f0 (sc op [])).Asks 0 op 0 (sc op []) ∧ (f0 (sc op [])).paired = false ∧
      (actP (sc op [])).Asks 0 op 0 (sc op []) ∧ (actP (sc op [])).paired = true) ∧
    (∀ e, e = actP (sc 0x0804 []) ∨ e = handE (sc 0x0804 []) ∨ e = f0 (sc 0x0804 []) → e.Asks 0 0x0804 0 (sc 0x0804 [])) ∧
    ((actP (sc 0x0804 [])).pair.state = .active ∧ (actP (sc 0x0804 [])).pair.resync = false ∧ (actP (sc 0x0804 [])).handing = false ∧
      (handE (sc 0x0804 [])).handing = true ∧ (f0 (sc 0x0804 [])).pair.state = .unpaired ∧ (f0 (sc 0x0804 [])).pair.resync = false ∧ (f0 (sc 0x0804 [])).handing = false ∧
      (syncE .activeAlone (sc 0x0804 [])).Asks 0 0x0804 0 (sc 0x0804 []) ∧ (syncE .activeAlone (sc 0x0804 [])).pair.resync = true) ∧
    (∀ e, e = beatE (sc 0x0805 []) ∨ e = gatedE (sc 0x0805 []) ∨ e = f0 (sc 0x0805 []) → e.Asks 0 0x0805 0 (sc 0x0805 []) ∧ e.pair.resync = false ∧ e.pair.formStep = 0 ∧
      e.handing = false) ∧
    ((beatE (sc 0x0805 [])).heartsLost = false ∧ (gatedE (sc 0x0805 [])).heartsLost = true ∧ (gatedE (sc 0x0805 [])).pair.state = .activeAlone) ∧
    ((gatedE (sc 0x0806 [])).Asks 0 0x0806 0 (sc 0x0806 []) ∧ (gatedE (sc 0x0806 [])).pair.partnerGated = true ∧ (f0 (sc 0x0806 [])).Asks 0 0x0806 0 (sc 0x0806 [])) ∧
    (∀ v, v = 0 ∨ v = 1 → (f0 (sc 0x0807 [v])).Asks 0 0x0807 1 (sc 0x0807 [v]) ∧ (own (sc 0x0807 [v])).Asks 5 0x0807 1 (sc 0x0807 [v])) := by
  and_intros <;> first
    | decide +kernel
    | exact asks_of (by decide +kernel)
    | exact sets_of (by decide +kernel)
    | (rintro x (rfl | rfl) <;> and_intros <;> first | decide +kernel | exact asks_of (by decide +kernel))
    | (rintro x (rfl | rfl | rfl) <;> and_intros <;> first | decide +kernel | exact asks_of (by decide +kernel))

/-! Statistics and Carry -/

def stR : Cmd := { sc 0x0901 [15] with indRsp := true, rspMax := 1024 }
def stPk : Cmd := { sc 0x0902 [15] with indRsp := true, rspMax := 1024 }
def cfC : Cmd := setc 0x0A01 2047 1 [56]
/-- Channel 63 in a state, with request 9 of F5's. -/
def chE (k : CState) (f : Fn) (c : Cmd) : Eng := ask (upE.modChan 63 (fun x => { x with state := k, grp := 4, curReq := 9, owner := 5, submitted := true })) f c
def csC : Cmd := sc 0x0A04 [64, 1, 2 ^ 20 - 1, 16, 65535, 3, 1, vNone, 4095]
def quotaE (n : Nat) : Eng := ask (upE.setFn 5 { upE.fn 5 with chQuota := n }) 5 csC

theorem witness_StatisticsAndCarryCommands :
    ((f0 stR).Asks 0 0x0901 1 stR ∧ (f0 stR).portArg 15 = true ∧ (f0 stPk).Asks 0 0x0902 1 stPk) ∧
    (∀ v, v = 0 ∨ v = 1 → (f0 (sc 0x0903 [15, v])).Asks 0 0x0903 2 (sc 0x0903 [15, v]) ∧ (f0 (sc 0x0904 [v])).Asks 0 0x0904 1 (sc 0x0904 [v]) ∧
      (f0 (sc 0x0A07 [v])).Asks 0 0x0A07 1 (sc 0x0A07 [v])) ∧
    ((f0 cfC).Sets 0 0x0A01 (fun _ => [.num 0 56]) fnObj cfC (blk cfC (fun _ => [.num 0 56]) fnObj)) ∧
    (∀ op, op = 0x0A02 ∨ op = 0x0A03 → (f0 (sc op [8, 56])).Asks 0 op 2 (sc op [8, 56]) ∧
      (∀ k, k ∈ (sc op [8, 56]).chans → ((f0 (sc op [8, 56])).chan k).state = .idle) ∧
      (chE .active 0 (sc op [63, 1])).Asks 0 op 2 (sc op [63, 1]) ∧ 63 ∈ (sc op [63, 1]).chans ∧ ((chE .active 0 (sc op [63, 1])).chan 63).state ≠ .idle) ∧
    ((quotaE 1).Asks 5 0x0A04 9 csC ∧ (quotaE 0).Asks 5 0x0A04 9 csC ∧ ((quotaE 0).fn 5).chQuota ≤ (quotaE 0).carryHeld 5 ∧ (quotaE 1).carryHeld 5 < ((quotaE 1).fn 5).chQuota) ∧
    (csC.slot 0 % 64 = 0 ∧ csC.slot 1 < 2 ^ 20 ∧ csC.slot 2 < 2 ^ 20 ∧ csC.slot 3 % 16 = 0 ∧ csC.slot 4 < 65536 ∧ csC.slot 5 < 4 ∧ csC.slot 6 < 2 ∧
      vecSlotOk (csC.slot 7) = true ∧ vecSlotOk (csC.slot 8) = true) ∧
    (∃ i, i < 64 ∧ i ∉ (quotaE 1).carryTaken) ∧
    (∀ k, k = CState.idle ∨ k = CState.active → (chE k 5 (sc 0x0A05 [63, 9])).Asks 5 0x0A05 2 (sc 0x0A05 [63, 9]) ∧
      (chE k 5 (sc 0x0A06 [63, 9])).Asks 5 0x0A06 2 (sc 0x0A06 [63, 9]) ∧ ((chE k 5 (sc 0x0A06 [63, 9])).chan 63).grp ≠ 0 ∧
      ((chE k 5 (sc 0x0A06 [63, 9])).chan 63).curReq = 9 ∧ ((chE k 5 (sc 0x0A06 [63, 9])).chan 63).owner = 5 ∧ ((chE k 5 (sc 0x0A06 [63, 9])).chan 63).submitted = true ∧
      ((chE k 5 (sc 0x0A06 [63, 9])).chan 63).state = k ∧ (chE k 0 (sc 0x0A05 [63, 9])).Asks 0 0x0A05 2 (sc 0x0A05 [63, 9])) := by
  and_intros <;> first
    | decide +kernel
    | exact asks_of (by decide +kernel)
    | exact sets_of (by decide +kernel)
    | exact ⟨63, by decide +kernel⟩
    | (rintro x (rfl | rfl) <;> and_intros <;> first | decide +kernel | exact asks_of (by decide +kernel))

/-! ### Commands that complete -/

/-- CH63 with the read of a beat outstanding, or its write. -/
def beatOut (a : Acc) : Eng := { outE a with carry := { chans := ⟨[(63, { state := .active, grp := 1, buf := [{ pos := 0, elem := 0, off := 0 }] })]⟩ } }
/-- A counter of one kind of event, every mask open. -/
def one : TCnt := { enable := true, event := 0xF01, portMask := 0xFFFF, tcMask := 0xFF, value := 0xFFFFFFFFFFFE }

theorem witness_CommandsComplete :
    (upE.Open 0 ∧ upE.standby = false ∧ upE.journals = false) ∧
    (({ upE with ctl := { upE.ctl with stalled := [(true, f0Write 0x40028 1)] } } : Eng).Up ∧
      ({ upE with ctl := { upE.ctl with stalled := [(true, f0Write 0x40028 1)] } } : Eng).ctl.stalled = (true, f0Write 0x40028 1) :: []) ∧
    (((txE [txG 60] [] []).port 0).drain = 0 ∧ (txE [txG 60] [] []).mayStart 0 = true ∧ ((txE [txG 60] [] []).port 0).nextTrump = none ∧
      (txE [txG 60] [] []).freePos 0 0 0 = true ∧ nth ((txE [txG 60] [] []).port 0).lists 0 [] = txG 60 :: [] ∧
      (∀ k, k < 8 → k ≠ 0 → nth ((txE [txG 60] [] []).port 0).lists k [] = []) ∧
      (txE [txG 60] [] []).txq (txG 60).q = some txX ∧ txX.frame? (txG 60).frame = some txF ∧ (txG 60).need ≤ (txG 60).data.length ∧
      ((txE [txG 60] [] []).port 0).paused 0 = false ∧ ((txE [txG 60] [] []).port 0).hostDrop (txG 60).data = none ∧
      txX.launch txF (txG 60).seg = none ∧ ((txE [txG 60] [] []).port 0).deck.st = .none ∧ ((txE [txG 60] [] []).port 0).deck.oper = none) ∧
    (((txE [] [txW 60] []).port 0).wire = txW 60 :: [] ∧ (txW 60).g.failed = 0 ∧ (txW 60).orphan = false ∧ (txW 60).g.need ≤ (txW 60).g.data.length ∧
      (txE [] [txW 60] []).pwr.restOn = true ∧ (txW 60).f.tsReq = false ∧ (txW 60).lateSent = none) ∧
    ((txW 59).g.data.length < (txW 59).g.need ∧ ((txE [] [txW 59] []).port 0).ctNow = .bytes 512) ∧
    ((trumpE [.fc, .lldp 120]).mayStart 0 = true ∧ ((trumpE [.fc, .lldp 120]).port 0).trump = .fc :: [.lldp 120] ∧
      (∀ u ∈ [Trump.lldp 120], Trump.fc.rank ≤ u.rank) ∧ ((trumpE [.fc, .lldp 120]).port 0).trumpWait = []) ∧
    (((rxE 0).port ((rxE 0).portOf 0)).state = .up ∧ (rxE 0).pwr.restOn = true ∧ (rxF (sealed (zeros 60)) false false).badBeat = none ∧
      (rxE 0).pwr.closed = false ∧ (sealed (zeros 60)).length = 64 ∧ ((rxE 0).port 0).maxFrame = 64 ∧
      fcsBytes ((sealed (zeros 60)).take 60) = (sealed (zeros 60)).drop 60 ∧ room (rxE 0) (sealed (zeros 60)) = .inl .shared ∧
      ((rxE 0).port 0).consumer (sealed (zeros 60)) = .none ∧ ((rxE 0).port 0).consumer (sealed (macHead ++ zeros 46)) = .mac ∧
      u16 (sealed (macHead ++ zeros 46)) 14 ≠ 0x0001 ∧ u16 (sealed (macHead ++ zeros 46)) 14 ≠ 0x0101) ∧
    ((upE.port 15).ctSaf = false ∧ ((portE 15 (fun x => { x with ct := .bytes 513, ctFrames := 1000000 })).port 15).ct = .bytes 513 ∧
      1000000 ≤ ((portE 15 (fun x => { x with ct := .bytes 513, ctFrames := 1000000 })).port 15).ctFrames ∧ (upE.port 15).ctFloor < 513) ∧
    ((timE (timT (some { count := 1, last := 65536, since := 0 }) .running) (timR none (some buf0) true (some 0) false .running) (timQ (some 0) [seenEv])).txq
        32767 = some (timT (some { count := 1, last := 65536, since := 0 }) .running) ∧
      (timT (some { count := 1, last := 65536, since := 0 }) .running).state ≠ .error) ∧
    ((timE (timT none .running) (timR none (some buf0) true (some 0) false .running) (timQ (some 0) [seenEv])).rxq 32767 =
        some (timR none (some buf0) true (some 0) false .running) ∧ (timR none (some buf0) true (some 0) false .running).packTimeout ≠ 0 ∧
      (timR none (some buf0) true (some 0) false .running).placed = [] ∧ (timR none (some buf0) true (some 0) false .running).state = .running ∧
      (upE.fn 0).timeBase = some 0) ∧
    ((timQ (some 0) [seenEv]).armed.isSome = true ∧ (timQ (some 0) [seenEv]).modTime ≠ 0 ∧ (timQ (some 0) [seenEv]).evs.any (·.seen) = true) ∧
    (∀ o, (o = Owner.carryRead 63 ∨ o = .carryWrite 63) → (beatOut (acc o .read 1 [])).dma.outst = outst (acc o .read 1 []) :: [] ∧
      (beatOut (acc o .read 1 [])).dma.queue = [] ∧ (outst (acc o .read 1 [])).port = 3 ∧ (outst (acc o .read 1 [])).tag = 1023 ∧
      (acc o .read 1 []).grp ≠ 0 ∧ (acc o .read 0 []).grp = 0 ∧ (acc o .read 1 []).grp = ((beatOut (acc o .read 1 [])).chan 63).grp ∧
      ((beatOut (acc o .read 1 [])).chan 63).buf = [{ pos := 0, elem := 0, off := 0 }] ∧ (acc o .read 1 []).pos = 0 ∧ (acc o .write 1 []).kind = .write ∧
      ((beatOut (acc o .read 1 [])).chan 63).ending = none) ∧
    ((xltE none [] [] 0 []).dma.xreqs.find? (fun x => decide (x.tag = 511)) = some xreq ∧
      (xltE none [] [] 0 []).dma.groups.find? (fun x => decide (x.group = 511)) = some (grp none) ∧ (xltE none [] [] 0 []).dma.blocked = [] ∧
      (xltE none [] [] 0 []).dma.waits = [] ∧ (xltE none [] [] 0 []).dma.queue = [] ∧ (xltE none [] [] 0 []).dma.outst = [] ∧
      (xltE none [] [] 0 [{ tag := 31, waits := [] }]).dma.invals = { tag := 31, waits := [] } :: []) ∧
    (((deckE .none none none).port 15).deck.st = .none ∧ ((deckE .none none none).port 15).deck.oper = none ∧
      ((deckE .pending none (some list1)).port 15).deck.admin = some list1 ∧ ((deckE .pending none (some list1)).port 15).deck.oper = none ∧
      ((deckE .clearing (some list1) none).port 15).deck.st = .clearing) ∧
    ((chanE (chan .idle true) true true).Open 0 ∧ ((chanE (chan .idle true) true true).chan 63).claimed = true ∧
      0 < ((chanE (chan .idle true) true true).chan 63).prio ∧ ((chanE (chan .idle true) true true).chan 63).prio < 4 ∧
      ((chanE (chan .idle true) true true).chan 63).enable = true ∧ (chanE (chan .idle true) true true).carry.stopped = true ∧
      (∀ c, ((chanE (chan .idle true) true true).chan c).state = .idle ∧ ((chanE (chan .idle true) true true).chan c).heldRec = none) ∧
      (chanE (chan .idle true) true true).carry.autoResume = true) ∧
    (((valE [lastW 64]).chan 63).state = .validate ∧ ((valE [lastW 64]).chan 63).ending = none ∧
      ((valE [lastW 64]).chan 63).checked = .pass [elemOf (lastW 64)]) ∧
    (((chanE (chan .fencing true) false true).chan 63).state = .fencing ∧ ((chanE (chan .fencing true) false true).chan 63).writes = [] ∧
      ((chanE (chan .fencing true) false true).chan 63).ending = none ∧ (chanE (chan .fencing true) false true).carry.stopped = false ∧
      (chanE (chan .fencing true) false true).journals = false ∧ (chanE (chan .fencing true) false true).ctl.inflight = []) ∧
    ((chanE chanRd false true).carry.stopped = false ∧ (chanE chanRd false true).dataOn = true ∧ ((chanE chanRd false true).chan 63).state = .active ∧
      (∀ d, d ≠ 63 → ((chanE chanRd false true).chan d).state ≠ .active) ∧ ((chanE chanRd false true).chan 63).ending = none ∧
      ((chanE chanRd false true).chan 63).enable = true ∧ ((chanE chanRd false true).chan 63).prio < 4 ∧ ((chanE chanRd false true).chan 63).rdSecond = false ∧
      (chanE chanRd false true).carryWaits 63 = 0 ∧ ((chanE chanRd false true).chan 63).buf = [] ∧
      ((chanE chanRd false true).chan 63).elem? 0 = some { elem1 with len := 128 } ∧ ((chanE chanRd false true).chan 63).rdOff + 64 < 128) ∧
    upE.Up ∧
    ((talE (fun x => { x with freeze := true })).pwr.ctlOn = true ∧ (talE (fun x => { x with freeze := true })).tally.freeze = true ∧
      (talE (fun x => { x with cnts := ⟨[(254, one)]⟩ })).tally.freeze = false ∧ (talE (fun x => { x with cnts := ⟨[(254, one)]⟩ })).tally.queue = [] ∧
      (talE (fun x => { x with cnts := ⟨[(254, one)]⟩ })).tally.cnts.rows = [(2 * 127, one)] ∧ one.dir = 0 ∧ one.funcEn = false ∧ one.origin = 0 ∧
      one.addrEn = false ∧ one.value.toNat + 1 < 2 ^ 48 ∧ (talE (fun x => { x with bwEn := true })).tally.bwEn = true) ∧
    ((entE (fun x => { x with step := .e2 })).drained = true ∧ (entE (fun x => { x with step := .e2 })).start.due = none ∧
      (entE (fun x => { x with step := .e2 })).pwr.step = .e2 ∧ (entE (fun x => { x with step := .e2 })).txqList = [] ∧
      (entE (fun x => { x with step := .e2 })).pwr.abort = none ∧ (entE (fun x => { x with step := .e2 })).pwr.state = .run ∧
      (entE (fun x => { x with step := .e2 })).pwr.waiters = [] ∧ (entE (fun x => { x with step := .e2 })).pwr.runWaiters = [] ∧
      (entE (fun x => { x with step := .e2 })).pwr.pend = none) ∧
    ((phaseE .held).start.phase = .held ∧ upE.start.phase ≠ .held ∧ upE.pwr.pll = true) ∧
    (({ phaseE .x2 with time := { holdover := none } } : Eng).start.phase = .x2 ∧ ({ phaseE .x2 with time := { holdover := none } } : Eng).time.holdover = none) ∧
    ((phaseE .s7).start.phase = .s7 ∧ (phaseE .s7).start.trying = false ∧ (phaseE .s7).pwr.waiters = [] ∧ (phaseE .s7).pwr.pend = none ∧
      ∀ c, ((phaseE .s7).cage c).seen = none ∧ ((phaseE .s7).cage c).irqSeen = none ∧ ((phaseE .s7).cage c).prs = false) ∧
    upE.scrubs (.dealerTree 15) = true ∧
    ((pairE (fun x => { x with state := .standby, applied := 4294967295 })).pair.buffered = [] ∧ (pst .standby).pair.state = .standby ∧
      (pst .standby).pwr.ctlOn = true) ∧
    ((formE 5 false 0).copying = true ∧ (formE 5 false 0).pwr.ctlOn = true ∧ 4 ≤ (23 : BankId).val ∧ (23 : BankId).val < 24) := by
  and_intros <;> first
    | decide +kernel
    | exact alone _ _ _
    | exact open_of (by decide +kernel)
    | exact up_of (by decide +kernel)
    | (rintro o (rfl | rfl) <;> decide +kernel)

/-! ### What WellFormed refuses: an ill-formed command for each check -/

theorem test_wf_mbxReqWrite : (Instr.mbxReqWrite 0 255 1 0).wf = true ∧ (Instr.mbxReqWrite 0 255 2 0).wf = false ∧
    (Instr.mbxReqWrite 0 0 0 0).wf = false ∧ (Instr.mbxReqWrite 0 0 9 0).wf = false := by decide
theorem test_wf_moduleAccess : (Instr.moduleAccess 0 (.done (zeros 128))).wf = true ∧ (Instr.moduleAccess 0 (.done (zeros 129))).wf = false := by decide +kernel
theorem test_wf_rxFrame :
    (Instr.rxFrame { port := 0, bytes := [], dp := 0, seg := 0, err := false, cut := false, badBeat := none, parity := none }).wf = false := by decide
theorem test_wf_rxPfc : (Instr.rxPfc 0 1 (List.replicate 8 0)).wf = true ∧ (Instr.rxPfc 0 1 (List.replicate 7 0)).wf = false := by decide
theorem test_wf_rxLldpdu :
    (Instr.rxLldpdu 0 { port := 0, bytes := [], dp := 0, seg := 0, err := false, cut := false, badBeat := none, parity := none }).wf = false := by decide
theorem test_wf_txDescriptorsRead : (Instr.txDescriptorsRead 0 [] []).wf = false ∧ (Instr.txDescriptorsRead 0 (List.replicate 33 0) []).wf = false := by
  decide +kernel
theorem test_wf_rxPostEntriesRead : (Instr.rxPostEntriesRead 0 []).wf = false ∧ (Instr.rxPostEntriesRead 0 (List.replicate 65 0)).wf = false := by
  decide +kernel
theorem test_wf_moduleBusTransactionDone :
    (Instr.moduleBusTransactionDone 0 (.identity {
      cmisId := true, rev := 0x50, flat := false, media := 0, vendor := zeros 60, apps := []
      maxPwrUp := none, maxPwrDown := none, maxDpInit := none, maxDpDeinit := none, pages := true })).wf = false := by decide +kernel
theorem test_wf_faultEvent : (Instr.faultEvent []).wf = false := by decide
theorem test_wf_signingDone : (Instr.signingDone (List.replicate 27 0)).wf = false := by decide +kernel
theorem test_wf_controlStateRestored : (Instr.controlStateRestored [0]).wf = false := by decide
theorem test_wf_retentionCheckDone : (Instr.retentionCheckDone (List.replicate 29 0) []).wf = false := by decide +kernel
theorem test_wf_rxHeartbeat :
    (∀ t, t = ({ sec := 0, ns := 1000000000, sub := 0 } : TimeVal) ∨ t = { sec := 0, ns := 0, sub := 4294967296 } →
      (Instr.rxHeartbeat { seq := 0, epoch := 0, tb0 := { sec := 0, ns := 0, sub := 0 }, tb1 := t, tb2 := t, tb3 := t, delay := 0, engineId := 0 }).wf = false) := by
  rintro t (rfl | rfl) <;> decide
theorem test_wf_rxHello : (Instr.rxHello { pairId := 7, active := true, rev := 0, fwVersion := 0, grouping := zeros 15, engineId := 0 }).wf = false := by decide +kernel
theorem test_wf_carryValidateDone : (Instr.carryValidateDone 0 []).wf = false ∧ (Instr.carryValidateDone 0 [0]).wf = true := by decide
theorem test_wf_dmaReadData : (Instr.dmaReadData 0 0 (zeros 512)).wf = true ∧ (Instr.dmaReadData 0 0 (zeros 513)).wf = false := by decide +kernel

/-! ### The spec's worked cases -/

/-- What one step of `e`'s engine with command `i` in front leaves, where it is a next state. -/
def run {α : Type} (i : Instr) (e : Eng) (d : α) (g : Eng → α) : α :=
  match step { st e with pending := [i] } with
  | .next t => g t.eng
  | .fault _ => d
  | .refused _ => d
/-- STATUS and DETAIL of F0's response (R48). -/
def answered (e : Eng) : Nat × Nat := (fld (e.fn 0).rsp.toNat 32 8, fld (e.fn 0).rsp.toNat 48 16)

/-- R536's worked case: the port is down, so the request completes with OK and all three fields take effect. -/
theorem test_portConfig_down : run (.portConfig 0 clean) (f0 pcC) none (fun e => some (answered e, (e.port 8).admin, (e.port 8).maxFrame, (e.port 8).thinAuto)) =
    some ((0, 0), true, 9216, true) := by decide +kernel
/-- The same request while the port is in UP: LOCKED, DETAIL 56, and a reject log entry of WHAT 0x0102, FIELD 7. -/
theorem test_portConfig_up : run (.portConfig 0 clean) pcUp none
      (fun e => some (answered e, (e.port 8).maxFrame, e.ctl.rejects.map (fun x => (x.what, x.field, x.status)))) =
    some ((2, 56), 9600, [(0x0102, 7, 2)]) := by decide +kernel
/-- A MAX_FRAME of 20,000 is INVALID, DETAIL 56, whatever the port's state. -/
theorem test_portConfig_range : run (.portConfig 0 clean) (ask (portE 8 (fun x => { x with state := .up })) 0 (setc 0x0102 8 0x8081 [1, 20000, 1])) none
      (fun e => some (answered e)) = some (3, 56) := by decide +kernel

/-- R122's worked case: P8 and P0 are 1,600 Gb/s wide, P8 with TC3 and TC4 lossless and P0 with TC3. -/
def kittyE (size flag : Nat) : Eng :=
  ask ((upE.modPort 8 (fun x => { x with width := 8, fcMode := .pfc, lossless := 0x18, cableDelay := 500, partnerResp := 1000 })).modPort 0 (fun x =>
    { x with width := 8, fcMode := .pfc, lossless := 8, cableDelay := 500, partnerResp := 1000 })) 0 (setc 0x010C objEngine 3 [size, flag])
theorem test_headroom : (kittyE 0 0).headroom = 1257984 ∧ ((kittyE 0 0).port 8).headroom = 419328 := by decide +kernel
theorem test_kittyConfig : run (.kittyConfig 0) (kittyE 1310720 0) none (fun e => some (answered e, e.start.kittySize, e.start.oversub)) = some ((0, 0), 1310720, false) ∧
    run (.kittyConfig 0) (kittyE 1245184 0) none (fun e => some (answered e)) = some (4, 0) ∧
    run (.kittyConfig 0) (kittyE 1245184 1) none (fun e => some (answered e, e.start.oversub)) = some ((0, 0), true) := by decide +kernel

/-- R342's worked case: a base 3.2 cycles in the past gives N 4 and the cut 5 s 320,000 ns. -/
theorem test_deckCut : ({ tb := 2, base := 4999320000, cycle := 250000, ext := 50000, entries := [] } : GateList).cutAfter 5000120000 = (4, 5000320000) := by
  decide +kernel

/-- R404's worked case at 0 ns: source 46 is graded 3 and captured by severity over source 12, graded 1; FLT_MULTI is set. -/
theorem test_faultEvents : run (.faultEvent
      [{ src := 12, cls := .corrected, detail := 4, addr := 0, master := 0x8024, access := 0 },
       { src := 46, cls := .failure, detail := 4, addr := 0, master := 0x8024, access := 0 }])
      (portE 4 (fun x => { x with state := .up })) none (fun e => some (e.flt.first.src, e.flt.first.sev, e.flt.multi, e.flt.status)) =
    some (46, 3, true, 0x400000001000) := by decide +kernel

/-- R433's worked case at 360 µs: an entry to WATCH that a MODULE wake aborts at A3 answers ROLLED_BACK, DETAIL 0x57. -/
theorem test_signingDone : run (.signingDone (List.replicate 28 0))
      (ask (pwrE (fun x => { x with step := .e4, target := .watch, closed := true, waiters := [.powerSet], abort := some { cause := 1, code := 5 } })) 0
        { psC 2 with st := .working }) none (fun e => some (answered e, e.pwr.state, e.pwr.step)) = some ((7, 0x57), .run, .none) := by decide +kernel
/-- Had the wake come later, POWER_SET would have completed with OK as E5 begins. -/
theorem test_signingDone_late : run (.signingDone (List.replicate 28 0))
      (ask (pwrE (fun x => { x with step := .e4, target := .watch, closed := true, waiters := [.powerSet] })) 0 { psC 2 with st := .working }) none
      (fun e => some (answered e, e.pwr.step)) = some ((0, 0), .e5) := by decide +kernel
end Sys2Proof.Tests
end

section
/-! PROOF. From a command's effect on the engine to its outcome: for every command, for one of a SET block, and for one that
commits in two phases (R61, R513). -/
namespace Sys2Proof.Machine

/-- A command whose effect on the cleared engine is `d`. -/
theorem State.does_eq_after {s : State} {g : Eng → Eng} {d : Eng} (h : g s.eng.clear = d) : s.does g = .next (s.after d) := by
  subst h; rfl

/-! ### A command of one SET block -/

/-- A command of one SET block that passes, by the effect `d` that its body has. -/
theorem Eng.mbxSet_eq {e : Eng} {f : Fn} {op : Nat} {c : Cmd} {specs : Nat → List Fld} {obj : Eng → Nat → Bool} {b : SetBlk}
    {checks : Eng → SetBlk → List (Nat × Bool)} {may : Eng → SetBlk → Bool} {body : Eng → Cmd → SetBlk → Eng} {d : Eng}
    (h : e.Sets f op specs (obj e) c b) (hc : firstBad (checks e b) = none) (hm : may e b = true) (hb : body e c b = d) :
    e.mbxSet f op specs obj checks may body = d.journalCmd f c := by
  rw [Eng.mbxSet_sets h _ _ _ hc hm, hb]

/-- A two-phase command none of whose units fails is applied in full (R61). -/
theorem Eng.twoPhase_commits (e : Eng) (f : Fn) {cf : Commit} (h : cf.fail = none) (units : List Nat) (source : Nat → Nat × Nat)
    (stop : Eng → Nat → Eng) (commit : Eng → Eng) : e.twoPhase f cf units source stop commit = commit e := by
  simp [Eng.twoPhase, h]

/-- The answer LOCKED to a command of opcode `op`. -/
theorem Eng.lockedAt_of_opcode (e : Eng) (f : Fn) {c : Cmd} {op : Nat} (h : c.opcode = op) (field off : Nat) :
    e.lockedAt f c field off = (e.reject f op false field).answer f 0x02 off := by
  subst h; rfl

end Sys2Proof.Machine
end

section
/-! PROOF. How an access on CSR_T is taken outside RUN, and what register accesses do (R9, R28, R29, R422, R424, R475). -/
namespace Sys2Proof.Machine

/-! ### Where an access is let through -/

/-- An access that is not one of F0's to the PWR_ block's offsets in the engine window. -/
theorem pwrReg_eq_false {a : Csr} (h : a.win = true → a.fn = 0 → a.off.toNat < 0x20000 ∨ 0x30000 ≤ a.off.toNat) :
    pwrReg a = false := by
  unfold pwrReg csrReg
  cases hw : a.win with
  | false => rfl
  | true =>
    simp only [Bool.true_and, decide_eq_false_iff_not]
    rintro ⟨hf, hlo, hhi⟩
    have := h hw hf
    omega

section
variable {e : Eng} {a : Csr} (hp : pwrReg a = false)
include hp

/-- S1 and S2 answer zero (R475). -/
theorem Eng.csrGate_unreached (w : Bool) (h : e.start.phase = .s1 ∨ e.start.phase = .s2) : e.csrGate w a = (.zero, false) := by
  rcases h with h | h <;> simp [Eng.csrGate, hp, h]

/-- S3 stalls (R475). -/
theorem Eng.csrGate_s3 (w : Bool) (h : e.start.phase = .s3) : e.csrGate w a = (.stall, false) := by
  simp [Eng.csrGate, hp, h]

variable (hr : e.start.phase = .ready) (hs : e.pwr.step = .none)
include hr hs

/-- WATCH stalls every access and wakes (R422). -/
theorem Eng.csrGate_watch (w : Bool) (h : e.pwr.state = .watch) : e.csrGate w a = (.stall, true) := by
  simp [Eng.csrGate, Eng.csrState, hp, hr, hs, h]

/-- DOZE stalls a write and wakes (R422). -/
theorem Eng.csrGate_doze_write (h : e.pwr.state = .doze) : e.csrGate true a = (.stall, true) := by
  simp [Eng.csrGate, Eng.csrState, hp, hr, hs, h]

/-- OFF answers zero and wakes (R424). -/
theorem Eng.csrGate_off (w : Bool) (h : e.pwr.state = .off) : e.csrGate w a = (.zero, true) := by
  simp [Eng.csrGate, Eng.csrState, hp, hr, hs, h]

end

/-! ### What becomes of an access by its gate -/

/-- The engine once an access of function `f` has come: counted, and a wake source where `host` says so (R457, R421). -/
def Eng.accessed (e : Eng) (host : Bool) (f : Fn) : Eng := if host then (e.touch f).wake 1 0 0 else e.touch f

@[simp] theorem Eng.accessed_true (e : Eng) (f : Fn) : e.accessed true f = (e.touch f).wake 1 0 0 := rfl
@[simp] theorem Eng.accessed_false (e : Eng) (f : Fn) : e.accessed false f = e.touch f := rfl

/-- The engine with an access put behind those that wait (R29). -/
def Eng.stall (e : Eng) (w : Bool) (a : Csr) : Eng := { e with ctl := { e.ctl with stalled := e.ctl.stalled ++ [(w, a)] } }

/-- While BLK_RST_N is low an access does nothing (the model's choice, log entry 13). -/
theorem State.access_held {s : State} (w : Bool) (a : Csr) (h : s.eng.start.phase = .held) :
    s.access w a = .next (s.after s.eng.clear) :=
  State.does_eq_after (if_pos h)

section
variable {s : State} {host : Bool} {a : Csr} (hh : s.eng.start.phase ≠ .held)
include hh

theorem State.access_stall {w : Bool} (hg : s.eng.csrGate w a = (.stall, host)) :
    s.access w a = .next (s.after ((s.eng.accessed host a.fn).stall w a)) := by
  refine State.does_eq_after ?_
  have hg' : s.eng.clear.csrGate w a = (.stall, host) := hg
  unfold Eng.csr
  rw [if_neg (by exact hh), hg']
  simp [Eng.accessed, Eng.stall, Eng.touch]

theorem State.access_zero {w : Bool} (hg : s.eng.csrGate w a = (.zero, host)) :
    s.access w a = .next (s.after
      (if w then s.eng.accessed host a.fn else (s.eng.accessed host a.fn).emit (.csr a.fn 0))) := by
  refine State.does_eq_after ?_
  have hg' : s.eng.clear.csrGate w a = (.zero, host) := hg
  unfold Eng.csr
  rw [if_neg (by exact hh), hg']
  simp [Eng.accessed, Eng.touch]

end

/-! ### Accesses that reach the register target -/

/-- A write that the register target turns away: of another size or alignment, or another function's to the engine window
(R28, R40; for the latter log entry 12). -/
theorem Eng.csrRun_write_refused {e : Eng} (slotB : Bool) (b : Budget) {a : Csr}
    (h : csrOk a = false ∨ a.win = true ∧ a.fn ≠ 0) : e.csrRun slotB b true a = e.badAccess a.fn a.off.toNat := by
  unfold Eng.csrRun
  rw [if_pos (h.imp_right fun ⟨hw, hf⟩ => ⟨hw, hf, rfl⟩), if_pos rfl]

/-- A read of another size or alignment (R28). -/
theorem Eng.csrRun_read_refused {e : Eng} (slotB : Bool) (b : Budget) {a : Csr} (h : csrOk a = false) :
    e.csrRun slotB b false a = (e.badAccess a.fn a.off.toNat).emit (.csr a.fn 0) := by
  unfold Eng.csrRun
  rw [if_pos (.inl h), if_neg Bool.false_ne_true]

/-- A read of another function's in the engine window (R40, log entry 12). -/
theorem Eng.csrRun_read_window {e : Eng} (slotB : Bool) (b : Budget) {a : Csr} (ha : csrOk a = true) (hw : a.win = true)
    (hf : a.fn ≠ 0) : e.csrRun slotB b false a = e.emit (.csr a.fn 0) := by
  unfold Eng.csrRun
  simp [ha, hw, hf]

/-- In RUN the accesses of a function that no other holds up run at once. -/
theorem State.access_open {s : State} {a : Csr} (h : s.eng.Open a.fn) (w : Bool) :
    s.access w a = .next (s.after ((s.eng.touch a.fn).csrRun s.boot.runB s.budget w a)) :=
  State.access_up h.toUp w a h.stalled

/-! ### STALLED_ACCESS_COMPLETE -/

section
variable {e : Eng} (slotB : Bool) (b : Budget) {w : Bool} {a : Csr} {l : List (Bool × Csr)}

theorem Eng.stalledDone_nil (h : e.ctl.stalled = []) : e.stalledDone slotB b = e := by
  unfold Eng.stalledDone; rw [h]

theorem Eng.stalledDone_pass (h : e.ctl.stalled = (w, a) :: l) (hg : (e.csrGate w a).1 = .pass) :
    e.stalledDone slotB b = ({ e with ctl := { e.ctl with stalled := l } } : Eng).csrRun slotB b w a := by
  unfold Eng.stalledDone; simp [h, hg]

theorem Eng.stalledDone_stall (h : e.ctl.stalled = (w, a) :: l) (hg : (e.csrGate w a).1 = .stall) :
    e.stalledDone slotB b = e := by
  unfold Eng.stalledDone; simp [h, hg]

end

/-! ### The commands -/

theorem exec_registerWrite (a : Csr) (s : State) : exec (.registerWrite a) s = s.access true a := rfl
theorem exec_registerRead (a : Csr) (s : State) : exec (.registerRead a) s = s.access false a := rfl
theorem exec_stalledAccessComplete (s : State) :
    exec .stalledAccessComplete s = s.does (fun e => e.stalledDone s.boot.runB s.budget) := rfl

/-- Settles O15: the gate of each phase and power state decides how an access is taken, and an access let through is judged
by its size, its alignment and its window. -/
theorem registerAccesses : Obligations.RegisterAccesses := by
  unfold Obligations.RegisterAccesses
  refine ⟨fun s a hsb hj => ?_, fun s => ⟨fun h => ?_, fun w a l h => ⟨fun hup => ?_, fun hs3 hout => ?_⟩⟩⟩
  · intro ok
    have hok : ok = csrOk a := rfl
    simp only [exec_registerWrite, exec_registerRead, hok]
    refine ⟨fun ho => ⟨fun ha hwin => ?_, fun hbad => ?_, fun hbad => ?_, fun ha hw hf => ?_⟩, fun hh => ?_, fun hout => ?_⟩
    · have hwin' : ¬ (a.win = true ∧ a.fn ≠ 0) := by rintro ⟨hw, hf⟩; simp [hw, hf] at hwin
      rw [State.access_open ho, State.access_open ho, Eng.csrRun_write _ _ ha hwin', Eng.csrRun_read _ _ ha hwin',
        Eng.pairWrite_alone _ _ (by simpa using hsb) (by simpa using hj)]
      exact ⟨rfl, rfl⟩
    · rw [State.access_open ho, Eng.csrRun_write_refused _ _ hbad]
    · rw [State.access_open ho, Eng.csrRun_read_refused _ _ hbad]
    · rw [State.access_open ho, Eng.csrRun_read_window _ _ ha hw hf]
    · exact ⟨State.access_held _ _ hh, State.access_held _ _ hh⟩
    · have hp := pwrReg_eq_false hout
      refine ⟨fun hph => ?_, fun hph w => ?_, fun hph hst => ?_⟩
      · have hh : s.eng.start.phase ≠ .held := by rcases hph with h | h <;> simp [h]
        have hg (w) := Eng.csrGate_unreached hp w hph
        rw [State.access_zero hh (hg true), State.access_zero hh (hg false), Eng.accessed_false, if_pos rfl, if_neg Bool.false_ne_true]
        exact ⟨rfl, rfl⟩
      · have hh : s.eng.start.phase ≠ .held := by simp [hph]
        have hg := State.access_stall hh (Eng.csrGate_s3 hp w hph)
        rw [Eng.accessed_false] at hg
        cases w
        · exact hg
        · exact hg
      · have hh : s.eng.start.phase ≠ .held := by simp [hph]
        refine ⟨fun hpw => ?_, fun hpw => ?_, fun hpw => ?_⟩
        · have hg (w) := Eng.csrGate_watch hp hph hst w hpw
          rw [State.access_stall hh (hg true), State.access_stall hh (hg false), Eng.accessed_true]
          exact ⟨rfl, rfl⟩
        · rw [State.access_stall hh (Eng.csrGate_doze_write hp hph hst hpw), Eng.accessed_true]
          rfl
        · have hg (w) := Eng.csrGate_off hp hph hst w hpw
          rw [State.access_zero hh (hg true), State.access_zero hh (hg false), Eng.accessed_true, if_pos rfl, if_neg Bool.false_ne_true]
          exact ⟨rfl, rfl⟩
  · exact State.does_eq_after (Eng.stalledDone_nil _ _ h)
  · exact State.does_eq_after (Eng.stalledDone_pass _ _ h (by rw [Eng.csrGate_up hup.clear]))
  · exact State.does_eq_after (Eng.stalledDone_stall _ _ h (by rw [Eng.csrGate_s3 (e := s.eng.clear) (pwrReg_eq_false hout) _ hs3]))

end Sys2Proof.Machine
end

section
/-! PROOF. The creation and modification of queues, rings and event queues, the translation settings and the offload
profiles (R154, R161, R172, R181, R196, R205, R256, R526). -/
namespace Sys2Proof.Machine

/-! ### Creation -/

section
variable {e : Eng} {f : Fn} {c : Cmd} {b : SetBlk}

section
variable (h : e.Sets f 0x0201 (fun _ => txFlds) (fun v => decide (v < 4096) && (e.txqOf f v).isNone) c b)
  (hc : firstBad (e.txChecks f ((e.txBlank f b.object).setCfg b) b) = none)
  (hm : (e.attachOf ((dobjOf (b.val 10 (dobjCode (.root ((e.txBlank f b.object).setCfg b).port)))).getD
    (.root ((e.txBlank f b.object).setCfg b).port))).allows f = true)
include h hc hm

theorem Eng.txqCreate_full (cf : Commit) (hq : (e.fn f).txqQuota ≤ e.heldTx f) :
    e.txqCreate f cf = (e.answer f 0x04 0).journalCmd f c :=
  Eng.mbxSet_eq h hc hm (if_pos hq)

theorem Eng.txqCreate_makes {cf : Commit} (hcf : cf.fail = none) (hq : e.heldTx f < (e.fn f).txqQuota) {n : Nat}
    (hn : pickFree 0 32768 (e.txqList.map (·.1.val)) = some n) :
    e.txqCreate f cf =
      ((e.made b txDash).txMake f (fin 32768 n) ((e.txBlank f b.object).setCfg b) b).journalCmd f c := by
  refine Eng.mbxSet_eq h hc hm ?_
  simp only [if_neg (Nat.not_le.mpr hq), hn, Eng.twoPhase_commits _ _ hcf]

end

section
variable (h : e.Sets f 0x0202 (fun _ => rxFlds) (fun v => decide (v < 4096) && (e.rxqOf f v).isNone) c b)
  (hc : firstBad (e.rxChecks f ((e.rxBlank f b.object).setCfg b) b) = none)
include h hc

theorem Eng.rxqCreate_full (hq : (e.fn f).rxqQuota ≤ e.heldRx f) :
    e.rxqCreate f = (e.answer f 0x04 0).journalCmd f c :=
  Eng.mbxSet_eq h hc rfl (if_pos hq)

theorem Eng.rxqCreate_makes (hq : e.heldRx f < (e.fn f).rxqQuota) {n : Nat}
    (hn : pickFree 1 32768 (e.rxqList.map (·.1.val)) = some n) :
    e.rxqCreate f = (((e.made b rxDash).setRxq (fin 32768 n) (some ((e.rxBlank f b.object).setCfg b))).respond f 0x00 0
      (slotBytes [n])).journalCmd f c := by
  refine Eng.mbxSet_eq h hc rfl ?_
  simp only [if_neg (Nat.not_le.mpr hq), hn]
  rfl

end

section
variable (h : e.Sets f 0x0203 (fun _ => eqFlds) (fun v => decide (v < 512) && (e.eqOf f v).isNone) c b)
  (hc : firstBad (e.eqChecks f ((e.eqBlank f b.object).setCfg b) b) = none)
include h hc

theorem Eng.eqCreate_full (hq : (e.fn f).eqQuota ≤ e.heldEq f) :
    e.eqCreate f = (e.answer f 0x04 0).journalCmd f c :=
  Eng.mbxSet_eq h hc rfl (if_pos hq)

theorem Eng.eqCreate_makes (hq : e.heldEq f < (e.fn f).eqQuota) {n : Nat}
    (hn : pickFree 2 4096 (e.eqList.map (·.1.val)) = some n) :
    e.eqCreate f = (((e.made b eqDash).setEq (fin 4096 n) (some ((e.eqBlank f b.object).setCfg b))).respond f 0x00 0
      (slotBytes [n])).journalCmd f c := by
  refine Eng.mbxSet_eq h hc rfl ?_
  simp only [if_neg (Nat.not_le.mpr hq), hn]
  rfl

end

end

/-! ### QUEUE_MODIFY -/

/-- The SET layout of an object that QUEUE_MODIFY names, by its kind. -/
def objFlds : FObj → List Fld
  | .txq _ => txFlds
  | .rxq _ => rxFlds
  | .eq _ => eqFlds
  | .carry _ | .mbx _ => []

/-- The kind in OBJECT gives the layout of the object it names. -/
theorem Eng.modifyFlds_of_objOf {e : Eng} {f : Fn} {v : Nat} {o : FObj} (h : e.objOf f v = some o) : modifyFlds v = objFlds o := by
  unfold Eng.objOf at h
  dsimp only at h
  unfold modifyFlds
  split at h
  · next hk => obtain ⟨q, -, rfl⟩ := Option.map_eq_some_iff.mp h; simp [hk, objFlds]
  · split at h
    · next hk => obtain ⟨q, -, rfl⟩ := Option.map_eq_some_iff.mp h; simp [hk, objFlds]
    · split at h
      · next hk => obtain ⟨q, -, rfl⟩ := Option.map_eq_some_iff.mp h; simp [hk, objFlds]
      · cases h

/-- The first LOCKED field of an object that QUEUE_MODIFY would change while the object runs (R59). -/
def Eng.lockedField (e : Eng) (o : FObj) (b : SetBlk) : Option SetFld :=
  lockedChange (objFlds o) b (fun i => nth (e.objCfg o) i []) (fun _ => e.objRuns o)

section
variable {e : Eng} {f : Fn} {c : Cmd} {b : SetBlk} {o : FObj}
  (h : e.Sets f 0x0204 modifyFlds (fun v => (e.objOf f v).isSome) c b) (hc : firstBad (e.modifyChecks f b) = none)
  (ho : e.objOf f b.object = some o)
include h hc ho

theorem Eng.queueModify_locked {l : SetFld} (hl : e.lockedField o b = some l) :
    e.queueModify f = ((e.reject f 0x0204 false l.idx).answer f 0x02 l.off).journalCmd f c := by
  unfold Eng.lockedField at hl
  refine Eng.mbxSet_eq h hc rfl ?_
  simp only [ho, Eng.modifyFlds_of_objOf ho, hl, Eng.lockedAt_of_opcode _ _ h.opcode]

theorem Eng.queueModify_applies (hl : e.lockedField o b = none) :
    e.queueModify f = ((e.modifyApply o b).answer f 0x00 0).journalCmd f c := by
  unfold Eng.lockedField at hl
  refine Eng.mbxSet_eq h hc rfl ?_
  simp only [ho, Eng.modifyFlds_of_objOf ho, hl]
  rfl

end

section
variable {e : Eng} (b : SetBlk)

theorem Eng.lockedField_txq {q : TxqId} {x : Txq} (hx : e.txq q = some x) : e.lockedField (.txq q) b =
    lockedChange txFlds b (fun i => nth (e.txCfg q x) i []) (fun _ => !decide (x.state = .stopped)) := by
  simp only [Eng.lockedField, objFlds, Eng.objCfg, Eng.objRuns, hx]

theorem Eng.lockedField_rxq {q : RxqId} {x : Rxq} (hx : e.rxq q = some x) : e.lockedField (.rxq q) b =
    lockedChange rxFlds b (fun i => nth x.cfg i []) (fun _ => !decide (x.state = .stopped)) := by
  simp only [Eng.lockedField, objFlds, Eng.objCfg, Eng.objRuns, hx]

/-- An event queue always runs (R187). -/
theorem Eng.lockedField_eq {i : EqId} {x : Evq} (hx : e.eq_ i = some x) : e.lockedField (.eq i) b =
    lockedChange eqFlds b (fun k => nth x.cfg k []) (fun _ => true) := by
  simp only [Eng.lockedField, objFlds, Eng.objCfg, Eng.objRuns, hx]

theorem Eng.modifyApply_txq {q : TxqId} {x : Txq} (hx : e.txq q = some x) :
    e.modifyApply (.txq q) b = e.setTxq q (some (x.setCfg b)) := by
  simp only [Eng.modifyApply, Eng.modTxq, hx, Option.map_some]

theorem Eng.modifyApply_rxq {q : RxqId} {x : Rxq} (hx : e.rxq q = some x) :
    e.modifyApply (.rxq q) b = e.setRxq q (some (x.setCfg b)) := by
  simp only [Eng.modifyApply, Eng.modRxq, hx, Option.map_some]

theorem Eng.modifyApply_eq {i : EqId} {x : Evq} (hx : e.eq_ i = some x) :
    e.modifyApply (.eq i) b = e.setEq i (some (x.setCfg b)) := by
  simp only [Eng.modifyApply, Eng.modEq, hx, Option.map_some]

end

/-! ### Translation settings and offload profiles -/

/-- The translation settings that XLT_CONFIG writes (R205). -/
def Eng.setXlt (e : Eng) (b : SetBlk) : Eng :=
  { e with dma := { e.dma with
      parkSize := b.val 0 e.dma.parkSize, parkRing := b.val 1 e.dma.parkRing, faultTimeout := b.val 2 e.dma.faultTimeout } }

/-- The fault waits that are already as long as the FAULT_TIMEOUT a block gives (R205). -/
def Eng.overdue (e : Eng) (b : SetBlk) : List FWait :=
  e.dma.waits.filter (fun w => w.run.isSome && decide (b.val 2 e.dma.faultTimeout * 1000000 ≤ edgesNs (w.elapsed e.now)))

/-- The engine with the fields that a block gives written to the offload profile it names, the others kept (R256). -/
def Eng.setProfile (e : Eng) (b : SetBlk) : Eng :=
  let x := e.profile b.object
  let y : OffProfile :=
    { grant := Scope.ofSlot (b.val 0 x.grant.slot), l3 := b.bool 1 x.l3, l4 := b.bool 2 x.l4, inL3 := b.bool 3 x.inL3
      inL4 := b.bool 4 x.inL4, lso := b.bool 5 x.lso, outerIdInc := !b.bool 6 (!x.outerIdInc), ts80 := !b.bool 7 (!x.ts80) }
  { e with off := { e.off with profiles := e.off.profiles.put (OffProfile.reset b.object) b.object y } }

section
variable {e : Eng} {f : Fn} {c : Cmd} {b : SetBlk} (hf : f = 0)

section
variable (h : e.Sets f 0x020C (fun _ => xltFnFlds) (fun v => decide (v < 2048)) c b)
include hf h

theorem Eng.xltFuncConfig_locked {l : SetFld} (hl : lockedChange xltFnFlds b (fun _ => [b2n (!(e.fn (fin 2048 b.object)).translated)])
      (fun _ => (e.fn (fin 2048 b.object)).enabled) = some l) :
    e.xltFuncConfig f = ((e.reject f 0x020C false l.idx).answer f 0x02 l.off).journalCmd f c := by
  refine Eng.mbxSet_eq h rfl (decide_eq_true hf) ?_
  simp only [hl, Eng.lockedAt_of_opcode _ _ h.opcode]

theorem Eng.xltFuncConfig_applies (hl : lockedChange xltFnFlds b (fun _ => [b2n (!(e.fn (fin 2048 b.object)).translated)])
      (fun _ => (e.fn (fin 2048 b.object)).enabled) = none) :
    e.xltFuncConfig f = ((e.modFn (fin 2048 b.object) (fun x => { x with translated := !b.bool 0 (!x.translated) })).answer
      f 0x00 0).journalCmd f c := by
  refine Eng.mbxSet_eq h rfl (decide_eq_true hf) ?_
  simp only [hl]
  rfl

end

section
variable (h : e.Sets f 0x020D (fun _ => xltFlds) (fun v => v == objEngine) c b)
include hf h

theorem Eng.xltConfig_locked {l : SetFld} (hl : lockedChange xltFlds b (fun _ => [e.dma.parkSize])
      (fun _ => e.portList.any (fun p => !decide ((e.port p).state = .adminDown))) = some l) :
    e.xltConfig f = ((e.reject f 0x020D false l.idx).answer f 0x02 l.off).journalCmd f c := by
  refine Eng.mbxSet_eq h rfl (decide_eq_true hf) ?_
  simp only [hl, Eng.lockedAt_of_opcode _ _ h.opcode]

theorem Eng.xltConfig_applies (hl : lockedChange xltFlds b (fun _ => [e.dma.parkSize])
      (fun _ => e.portList.any (fun p => !decide ((e.port p).state = .adminDown))) = none) :
    e.xltConfig f = ((foldEng (e.overdue b) (fun d w => d.faultExpiry w.obj) (e.setXlt b)).answer f 0x00 0).journalCmd f c := by
  refine Eng.mbxSet_eq h rfl (decide_eq_true hf) ?_
  simp only [hl]
  rfl

end

include hf in
theorem Eng.offloadProfileSet_applies (h : e.Sets f 0x020E (fun _ => profileFlds) (fun v => decide (1 ≤ v ∧ v < 256)) c b) :
    e.offloadProfileSet f = ((e.setProfile b).answer f 0x00 0).journalCmd f c :=
  Eng.mbxSet_sets h _ _ _ rfl (decide_eq_true hf)

end

/-! ### The commands -/

theorem exec_txqCreate (f : Fn) (cf : Commit) (s : State) : exec (.txqCreate f cf) s = s.does (fun e => e.txqCreate f cf) := rfl
theorem exec_rxqCreate (f : Fn) (s : State) : exec (.rxqCreate f) s = s.does (fun e => e.rxqCreate f) := rfl
theorem exec_eqCreate (f : Fn) (s : State) : exec (.eqCreate f) s = s.does (fun e => e.eqCreate f) := rfl
theorem exec_queueModify (f : Fn) (s : State) : exec (.queueModify f) s = s.does (fun e => e.queueModify f) := rfl
theorem exec_xltFuncConfig (f : Fn) (s : State) : exec (.xltFuncConfig f) s = s.does (fun e => e.xltFuncConfig f) := rfl
theorem exec_xltConfig (f : Fn) (s : State) : exec (.xltConfig f) s = s.does (fun e => e.xltConfig f) := rfl
theorem exec_offloadProfileSet (f : Fn) (s : State) :
    exec (.offloadProfileSet f) s = s.does (fun e => e.offloadProfileSet f) := rfl

/-- Settles O49: each command's SET block and issuer pass, and its own branch decides between the refusal, the locked field
and the effect. -/
theorem queueCreationAndTranslation : Obligations.QueueCreationAndTranslation := by
  unfold Obligations.QueueCreationAndTranslation
  refine ⟨fun s f c b => ⟨fun cf hcf h hc hm => ?_, fun h hc => ?_, fun h hc => ?_, fun h hc => ⟨?_, ?_, ?_⟩⟩,
    fun s f c b hf => ⟨fun h => ?_, fun h => ?_, fun h => ?_⟩⟩
  · exact ⟨fun hq => State.does_eq_after (Eng.txqCreate_full h hc hm cf hq),
      fun n hq hn => State.does_eq_after (Eng.txqCreate_makes h hc hm hcf hq hn)⟩
  · exact ⟨fun hq => State.does_eq_after (Eng.rxqCreate_full h hc hq),
      fun n hq hn => State.does_eq_after (Eng.rxqCreate_makes h hc hq hn)⟩
  · exact ⟨fun hq => State.does_eq_after (Eng.eqCreate_full h hc hq),
      fun n hq hn => State.does_eq_after (Eng.eqCreate_makes h hc hq hn)⟩
  · intro q x ho hx
    rw [← Eng.lockedField_txq b hx, ← Eng.modifyApply_txq b hx]
    exact ⟨fun l hl => State.does_eq_after (Eng.queueModify_locked h hc ho hl),
      fun hl => State.does_eq_after (Eng.queueModify_applies h hc ho hl)⟩
  · intro q x ho hx
    rw [← Eng.lockedField_rxq b hx, ← Eng.modifyApply_rxq b hx]
    exact ⟨fun hl => State.does_eq_after (Eng.queueModify_applies h hc ho hl),
      fun l hl => State.does_eq_after (Eng.queueModify_locked h hc ho hl)⟩
  · intro i x ho hx
    rw [← Eng.lockedField_eq b hx, ← Eng.modifyApply_eq b hx]
    exact ⟨fun hl => State.does_eq_after (Eng.queueModify_applies h hc ho hl),
      fun l hl => State.does_eq_after (Eng.queueModify_locked h hc ho hl)⟩
  · exact ⟨fun l hl => State.does_eq_after (Eng.xltFuncConfig_locked hf h hl),
      fun hl => State.does_eq_after (Eng.xltFuncConfig_applies hf h hl)⟩
  · exact ⟨fun l hl => State.does_eq_after (Eng.xltConfig_locked hf h hl),
      fun hl => State.does_eq_after (Eng.xltConfig_applies hf h hl)⟩
  · exact State.does_eq_after (Eng.offloadProfileSet_applies hf h)

end Sys2Proof.Machine
end

section
/-! PROOF. The Dealer group's commands: nodes made and given back, DEALER_SET, DEALER_QUERY and the sampler's settings
(R284 to R287, R305, R310, R529). -/
namespace Sys2Proof.Machine

/-! ### A command of slots -/

/-- A command of slots that passes its checks, by the effect `d` that its body has. -/
theorem Eng.mbxArgs_eq {e : Eng} {f : Fn} {op n : Nat} {c : Cmd} {checks : Eng → Cmd → List (Nat × Bool)}
    {may : Eng → Cmd → Bool} {body : Eng → Cmd → Eng} {d : Eng} (h : e.Asks f op n c)
    (hc : firstBad (checks e c) = none) (hm : may e c = true)
    (hb : body e c = d) : e.mbxArgs f op n checks may body = d.journalCmd f c := by
  rw [Eng.mbxArgs_asks h _ _ _ hc hm, hb]

/-- A command of slots whose first offending one is at byte `k` (R53). -/
theorem Eng.mbxArgs_invalid {e : Eng} {f : Fn} {op n k : Nat} {c : Cmd} {checks : Eng → Cmd → List (Nat × Bool)}
    (h : e.Asks f op n c) (hc : firstBad (checks e c) = some k) (may : Eng → Cmd → Bool) (body : Eng → Cmd → Eng) :
    e.mbxArgs f op n checks may body = (e.answer f 0x03 k).journalCmd f c := by
  unfold Eng.mbxArgs
  rw [Eng.mbxSlots_asks h]
  simp only [hc]
  rfl

/-! ### DEALER_NODE_CREATE -/

/-- A block that gives PORT names the port of the node to be made. -/
theorem Eng.nodePort_given (e : Eng) {b : SetBlk} (h : b.has 0 = true) : e.nodePort b = fin 16 (b.val 0 0) := if_pos h

/-- The checks of DEALER_NODE_CREATE after its SET block's own: PORT, then PARENT. -/
def Eng.nodeChecks (e : Eng) (b : SetBlk) : List (Nat × Bool) :=
  [(b.off 0, e.isPort (e.nodePort b)),
   (b.off 2, !b.has 2 || (e.parentOk (e.nodePort b) (b.val 2 0) && (match dobjOf (b.val 2 0) with
     | some o => decide (e.level 10 o < 8)
     | none => false)))]

/-- The numbers of the nodes in use. -/
def Eng.nodesInUse (e : Eng) : List Nat := (e.dealer.nodes.rows.filter (fun r => r.2.live)).map (·.1)

/-- The checks of DEALER_NODE_CREATE pass for a port that is there and a parent of it above level 8 (R18, R286). -/
theorem Eng.firstBad_nodeChecks {e : Eng} {b : SetBlk} (hp : e.isPort (e.nodePort b) = true)
    (hup : b.has 2 = true → e.parentOk (e.nodePort b) (b.val 2 0) = true ∧
      ∀ o, dobjOf (b.val 2 0) = some o → e.level 10 o < 8) :
    firstBad (e.nodeChecks b) = none := by
  cases h2 : b.has 2 with
  | false => simp [firstBad, Eng.nodeChecks, hp, h2]
  | true =>
    obtain ⟨hpar, hlev⟩ := hup h2
    cases ho : dobjOf (b.val 2 0) with
    | none => simp [Eng.parentOk, ho] at hpar
    | some o => simp [firstBad, Eng.nodeChecks, hp, ho, hpar, hlev o ho]

section
variable {e : Eng} {f : Fn} {c : Cmd} {b : SetBlk} (h : e.Sets f 0x0401 (fun _ => dealerFlds) (fun v => v == objEngine) c b)
  (hf : f = 0) (hp : e.isPort (e.nodePort b) = true)
  (hup : b.has 2 = true → e.parentOk (e.nodePort b) (b.val 2 0) = true ∧
    ∀ o, dobjOf (b.val 2 0) = some o → e.level 10 o < 8)
include h hf hp hup

/-- No number is free. -/
theorem Eng.nodeCreate_full (hq : pickFree 3 8192 e.nodesInUse = none) :
    e.nodeCreate f = (e.answer f 0x04 0).journalCmd f c := by
  refine Eng.mbxSet_eq h (Eng.firstBad_nodeChecks hp hup) (decide_eq_true hf) ?_
  simp only [Eng.nodesInUse] at hq
  simp only [hq]
  rfl

theorem Eng.nodeCreate_makes {n : Nat} (hq : pickFree 3 8192 e.nodesInUse = some n) :
    e.nodeCreate f = (((e.made b [0]).setNode (fin 8192 n) (({ live := true, port := e.nodePort b } : DObj).set b)).respond f 0x00 0
      (slotBytes [n])).journalCmd f c := by
  refine Eng.mbxSet_eq h (Eng.firstBad_nodeChecks hp hup) (decide_eq_true hf) ?_
  simp only [Eng.nodesInUse] at hq
  simp only [hq]
  rfl

end

/-! ### DEALER_NODE_DESTROY -/

section
variable {e : Eng} {f : Fn} {c : Cmd} (h : e.Asks f 0x0402 1 c)
include h

theorem Eng.nodeDestroy_removes (hf : f = 0) (hs : c.slot 0 < 8192)
    (hl : (e.node (fin 8192 (c.slot 0))).live = true) (hk : e.kids (.node (fin 8192 (c.slot 0))) = []) :
    e.nodeDestroy f = (((e.leaveRounds (.node (fin 8192 (c.slot 0)))).setNode (fin 8192 (c.slot 0)) {}).answer f 0x00 0).journalCmd
      f c :=
  Eng.mbxArgs_eq h (by simp [firstBad, hs, hl, hk]) (decide_eq_true hf) rfl

/-- A number that is no node's, or a node with children (R286). -/
theorem Eng.nodeDestroy_refused
    (hn : (e.node (fin 8192 (c.slot 0))).live = false ∨ e.kids (.node (fin 8192 (c.slot 0))) ≠ []) :
    e.nodeDestroy f = (e.answer f 0x03 32).journalCmd f c := by
  refine Eng.mbxArgs_invalid h ?_ _ _
  rcases hn with hl | hk
  · simp [firstBad, hl]
  · simp [firstBad, hk]

end

/-! ### DEALER_SET -/

/-- The objects that the blocks of a DEALER_SET name, each with its block. -/
def Eng.dealerTargets (e : Eng) (f : Fn) (bs : List SetBlk) : List (DObjId × SetBlk) :=
  bs.filterMap (fun b => (e.dealerObj f b.object).map (fun o => (o, b)))

section
variable {e : Eng} {f : Fn} {c : Cmd} {bs : List SetBlk} (h : e.Has f 0x0403 c)
  (hb : parseBlocks c (fun _ => dealerFlds) (fun v => (e.dealerObj f v).isSome) 64 = .good bs)
  (hs : Eng.dealerStage f bs e = none)
include h hb hs

theorem Eng.dealerSet_denied (hm : ∃ r, r ∈ e.dealerTargets f bs ∧ e.dealerMay f r.1 r.2 = false) (cf : Commit) :
    e.dealerSet f cf = (e.answer f 0x05 0).journalCmd f c := by
  have hany : (e.dealerTargets f bs).any (fun r => !e.dealerMay f r.1 r.2) = true :=
    List.any_eq_true.mpr (hm.imp fun r ⟨hr, hmay⟩ => ⟨hr, by simp [hmay]⟩)
  unfold Eng.dealerTargets at hany
  unfold Eng.dealerSet
  rw [Eng.mbx_has h]
  simp only [hb, hs, hany, if_true]
  rfl

/-- A DEALER_SET whose commit no unit fails. -/
theorem Eng.dealerSet_applies
    (hm : ∀ r, r ∈ e.dealerTargets f bs → e.dealerMay f r.1 r.2 = true ∧
      lockedChange dealerFlds r.2 (fun i => nth (e.dealerCfg r.1) i []) (fun _ => true) = none)
    {cf : Commit} (hcf : cf.fail = none) :
    e.dealerSet f cf =
      ((foldEng (e.dealerTargets f bs) (fun d r => d.dealerApply r.1 r.2) e).answer f 0x00 0).journalCmd f c := by
  have hany : (e.dealerTargets f bs).any (fun r => !e.dealerMay f r.1 r.2) = false :=
    List.any_eq_false.mpr fun r hr => by simp [(hm r hr).1]
  have hlock : (e.dealerTargets f bs).findSome? (fun r =>
      lockedChange dealerFlds r.2 (fun i => nth (e.dealerCfg r.1) i []) (fun _ => true)) = none :=
    List.findSome?_eq_none_iff.mpr fun r hr => (hm r hr).2
  unfold Eng.dealerTargets at hany hlock
  unfold Eng.dealerSet
  rw [Eng.mbx_has h]
  simp only [hb, hs, hany, hlock, Eng.twoPhase_commits _ _ hcf, Bool.false_eq_true, if_false]
  rfl

end

/-- What a block writes on a leaf or node: one whose PARENT and BAND it leaves keeps its place in its round (R287). -/
theorem Eng.dealerApply_below (e : Eng) {o : DObjId} (b : SetBlk) (h : ∀ p, o ≠ .root p) :
    e.dealerApply o b = if ((e.dobj o).set b).parent = (e.dobj o).parent ∧ ((e.dobj o).set b).band = (e.dobj o).band
      then e.setDobj o ((e.dobj o).set b)
      else (e.leaveRounds o).setDobj o { (e.dobj o).set b with deficit := 0, turn := false } := by
  cases o with
  | root p => exact absurd rfl (h p)
  | leaf q => rfl
  | node n => rfl

/-! ### DEALER_QUERY -/

/-- The engine with the Dealer's two counters at 0. -/
def Eng.dealerCountsCleared (e : Eng) : Eng := { e with dealer := { e.dealer with samplerDrops := 0, shaperResets := 0 } }

/-- The Dealer's two counters, to be added back (R518). -/
def Eng.dealerCounts (e : Eng) : Undo :=
  { opcode := 0x0404, object := 0, counts := [e.dealer.samplerDrops, e.dealer.shaperResets] }

section
variable {e : Eng} {f : Fn} {c : Cmd} {o : DObjId} (h : e.Asks f 0x0404 2 c) (hv : c.slot 0 < 2 ^ 32)
  (ho : e.dealerObj f (c.slot 0) = some o) (hl : c.slot 1 < 2) (hm : f = 0 ∨ c.slot 0 < 32768)
include h hv ho hl hm

/-- A DEALER_QUERY of an object, by the effect that its body has. -/
theorem Eng.dealerQuery_eq {d : Eng}
    (hb : (if !c.fits (e.queryBytes f (c.slot 0) o).length then e.answer f 0x03 4
      else if c.slot 1 = 1 ∧ f = 0 then
        e.dealerCountsCleared.respondClear f 0x00 0 (e.queryBytes f (c.slot 0) o) e.dealerCounts
      else e.respond f 0x00 0 (e.queryBytes f (c.slot 0) o)) = d) :
    e.dealerQuery f = d.journalCmd f c := by
  refine Eng.mbxArgs_eq h ?_ ?_ ?_
  · simp only [hv, ho, hl, firstBad, flagOk, decide_true, Option.isSome_some, Bool.and_self, if_true]
  · simpa using hm
  · simp only [ho]
    exact hb

theorem Eng.dealerQuery_tooLong (hn : c.fits (e.queryBytes f (c.slot 0) o).length = false) :
    e.dealerQuery f = (e.answer f 0x03 4).journalCmd f c :=
  Eng.dealerQuery_eq h hv ho hl hm (if_pos (by rw [hn]; rfl))

section
variable (hn : c.fits (e.queryBytes f (c.slot 0) o).length = true)
include hn

theorem Eng.dealerQuery_reads (hk : c.slot 1 = 0 ∨ f ≠ 0) :
    e.dealerQuery f = (e.respond f 0x00 0 (e.queryBytes f (c.slot 0) o)).journalCmd f c := by
  refine Eng.dealerQuery_eq h hv ho hl hm ?_
  have hno : ¬ (c.slot 1 = 1 ∧ f = 0) := by
    rintro ⟨h1, hf⟩
    rcases hk with h0 | hf0
    · omega
    · exact hf0 hf
  rw [if_neg (by simp [hn]), if_neg hno]

/-- F0's query with CLEAR takes the engine's two counters back to 0 (R518). -/
theorem Eng.dealerQuery_clears (hk : c.slot 1 = 1) (hf : f = 0) :
    e.dealerQuery f = (e.dealerCountsCleared.respondClear f 0x00 0 (e.queryBytes f (c.slot 0) o) e.dealerCounts).journalCmd
      f c := by
  refine Eng.dealerQuery_eq h hv ho hl hm ?_
  rw [if_neg (by simp [hn]), if_pos ⟨hk, hf⟩]

end
end

/-! ### The sampler -/

/-- The sampler as DEALER_SAMPLER_CONFIG leaves it (R305). -/
def DealerSt.setSampler (d : DealerSt) (b : SetBlk) : DealerSt :=
  let l := b.list 3 (nth d.samplerCfg 3 [])
  let starts := b.bool 0 d.sampleEn && !d.sampleEn
  { d with
    sampleEn := b.bool 0 d.sampleEn, sampleFirst := b.val 1 d.sampleFirst, sampleCount := b.val 2 d.sampleCount
    ring := if l = nth d.samplerCfg 3 [] then d.ring
      else { fn := fin 2048 (nth l 0 0), pasid := nth l 1 0, base := nth l 2 0, size := nth l 3 64 }
    sampleSeq := if starts then 0 else d.sampleSeq
    sampleNext := if starts then b.val 1 d.sampleFirst else d.sampleNext }

/-- A range that is checked only where a block gives one of its ends. -/
theorem firstBad_range {x y : Bool} {m n : Nat} (h : x = true ∨ y = true → m ≤ n) (k : Nat) :
    firstBad [(k, !(x || y) || decide (m ≤ n))] = none := by
  by_cases hp : x = true ∨ y = true
  · simp [firstBad, h hp]
  · simp [firstBad, by simpa using hp]

section
variable {e : Eng} {f : Fn} {c : Cmd} {b : SetBlk} (h : e.Sets f 0x0405 (fun _ => samplerFlds) (fun v => v == objEngine) c b)
  (hf : f = 0)
  (hr : b.has 1 = true ∨ b.has 2 = true → b.val 1 e.dealer.sampleFirst + b.val 2 e.dealer.sampleCount ≤ 32768)
include h hf hr

theorem Eng.samplerConfig_locked {l : SetFld}
    (hl : lockedChange samplerFlds b (fun i => nth e.dealer.samplerCfg i []) (fun _ => e.dealer.sampleEn) = some l) :
    e.samplerConfig f = ((e.reject f 0x0405 false l.idx).answer f 0x02 l.off).journalCmd f c := by
  refine Eng.mbxSet_eq h (firstBad_range hr _) (decide_eq_true hf) ?_
  simp only [hl, Eng.lockedAt_of_opcode _ _ h.opcode]

theorem Eng.samplerConfig_applies
    (hl : lockedChange samplerFlds b (fun i => nth e.dealer.samplerCfg i []) (fun _ => e.dealer.sampleEn) = none) :
    e.samplerConfig f = (({ e with dealer := e.dealer.setSampler b } : Eng).answer f 0x00 0).journalCmd f c := by
  refine Eng.mbxSet_eq h (firstBad_range hr _) (decide_eq_true hf) ?_
  simp only [hl]
  rfl

end

/-! ### The commands -/

theorem exec_dealerNodeCreate (f : Fn) (s : State) : exec (.dealerNodeCreate f) s = s.does (fun e => e.nodeCreate f) := rfl
theorem exec_dealerNodeDestroy (f : Fn) (s : State) : exec (.dealerNodeDestroy f) s = s.does (fun e => e.nodeDestroy f) := rfl
theorem exec_dealerSet (f : Fn) (cf : Commit) (s : State) : exec (.dealerSet f cf) s = s.does (fun e => e.dealerSet f cf) := rfl
theorem exec_dealerQuery (f : Fn) (s : State) : exec (.dealerQuery f) s = s.does (fun e => e.dealerQuery f) := rfl
theorem exec_dealerSamplerConfig (f : Fn) (s : State) :
    exec (.dealerSamplerConfig f) s = s.does (fun e => e.samplerConfig f) := rfl

/-- Settles O53: each command's request and issuer pass, and its own branch decides between the refusal and the effect. -/
theorem dealerCommands : Obligations.DealerCommands := by
  unfold Obligations.DealerCommands
  refine fun s f c => ⟨fun b h hf => ⟨fun h0 => Eng.nodePort_given _ h0, fun hp hup => ⟨fun hq => ?_, fun n hq => ?_⟩⟩,
    fun h hf hs => ⟨fun hl hk => ?_, fun hn => ?_⟩, fun bs h hb hs => ⟨fun hm cf => ?_, fun hm cf hcf => ?_⟩,
    fun o b ho => Eng.dealerApply_below _ b ho, fun o h hv ho hl hm => ⟨fun hn => ?_, fun hn hk => ?_, fun hn hk hf => ?_⟩,
    fun b h hf hr => ⟨fun l hl => ?_, fun hl => ?_⟩⟩
  · exact State.does_eq_after (Eng.nodeCreate_full h hf hp hup hq)
  · exact State.does_eq_after (Eng.nodeCreate_makes h hf hp hup hq)
  · exact State.does_eq_after (Eng.nodeDestroy_removes h hf hs hl hk)
  · exact State.does_eq_after (Eng.nodeDestroy_refused h hn)
  · exact State.does_eq_after (Eng.dealerSet_denied h hb hs hm cf)
  · exact State.does_eq_after (Eng.dealerSet_applies h hb hs hm hcf)
  · exact State.does_eq_after (Eng.dealerQuery_tooLong h hv ho hl hm hn)
  · exact State.does_eq_after (Eng.dealerQuery_reads h hv ho hl hm hn hk)
  · exact State.does_eq_after (Eng.dealerQuery_clears h hv ho hl hm hn hk hf)
  · exact State.does_eq_after (Eng.samplerConfig_locked h hf hr hl)
  · exact State.does_eq_after (Eng.samplerConfig_applies h hf hr hl)

end Sys2Proof.Machine
end

section
/-! PROOF. Frames that start, end and run dry, and a frame's receipt up to steering (R25, R74, R99, R100, R104, R106, R107,
R113, R117, R123, R124, R166, R220, R350). -/
namespace Sys2Proof.Machine

/-! ### The heads at a start position -/

/-- Without a head that ends or is discarded at the position, none leaves its list without a start. -/
theorem Eng.settleHeads_quiet {e : Eng} {p : PortId} {dp seg : Nat} {cls : Nat → Bool}
    (h : ∀ c g, c < 8 → cls c = true → (nth (e.port p).lists c []).head? = some g → ∀ st d i,
      e.place p (fin 8 c) g dp seg ≠ .done st d ∧ e.place p (fin 8 c) g dp seg ≠ .discard i) (n : Nat) :
    Eng.settleHeads p dp seg cls n e = e := by
  cases n with
  | zero => rfl
  | succ n =>
    unfold Eng.settleHeads
    dsimp only
    rw [List.find?_eq_none.mpr]
    rintro ⟨c, g⟩ hmem
    simp only [List.mem_filterMap, List.mem_filter, Option.map_eq_some_iff, Prod.mk.injEq] at hmem
    obtain ⟨k, ⟨hk, hcls⟩, g', hg, rfl, rfl⟩ := hmem
    have hplace := h k g' (List.mem_range.mp hk) hcls hg
    cases hp : e.place p (fin 8 k) g' dp seg with
    | wait => simp
    | commit late => simp
    | done st d => exact absurd hp (hplace st d 0).1
    | discard i => exact absurd hp (hplace 0 0 i).2

/-- No class is in DRAIN. -/
theorem drains_false {x : Port} (h : x.drain = 0) (c : Nat) : bitAt x.drain.toNat c = false := by
  simp [h, bitAt]

section
variable {e : Eng} {p : PortId} {dp seg : Nat} (hd : (e.port p).drain = 0)
include hd

/-- Without a class in DRAIN no frame is discarded before the position is looked at (R353). -/
theorem Eng.settleHeads_drained (n : Nat) :
    Eng.settleHeads p dp seg (fun c => bitAt (e.port p).drain.toNat c) n e = e :=
  Eng.settleHeads_quiet (fun c g _ hc => by simp [drains_false hd c] at hc) n

theorem Eng.startAt_blocked (h : (e.port p).nextTrump.isSome = true ∨ e.mayStart p = false ∨ e.freePos p dp seg = false) :
    e.startAt p dp seg = e := by
  unfold Eng.startAt
  dsimp only
  rw [Eng.settleHeads_drained hd, if_pos]
  rcases h with h | h | h <;> simp [h]

/-- At a free position of a port that may start, none of whose heads leaves its list without a start. -/
theorem Eng.startAt_open (hm : e.mayStart p = true) (ht : (e.port p).nextTrump = none) (hf : e.freePos p dp seg = true)
    (h : ∀ c g, c < 8 → (nth (e.port p).lists c []).head? = some g → ∀ st d i,
      e.place p (fin 8 c) g dp seg ≠ .done st d ∧ e.place p (fin 8 c) g dp seg ≠ .discard i) {d : Eng}
    (hw : foldEng (upTo 8) (fun e c => e.fitWait p (fin 8 c) dp seg) e = d) :
    (d.pickStart p dp seg = none → e.startAt p dp seg = d) ∧
    ∀ c g late, d.pickStart p dp seg = some (c, g, late) → e.startAt p dp seg = d.commitStart p c g late dp seg := by
  have hfence : e.fenced = false := by
    simp only [Eng.mayStart, Bool.and_eq_true, Bool.not_eq_true'] at hm
    exact hm.1.2
  have hpass : ¬ (e.mayStart p = false ∨ e.fenced = true ∨ (e.port p).nextTrump.isSome = true ∨
      e.freePos p dp seg = false) := by
    simp [hm, hfence, ht, hf]
  unfold Eng.startAt
  dsimp only
  rw [Eng.settleHeads_drained hd, if_neg hpass, Eng.settleHeads_quiet (fun c g hc _ => h c g hc), hw]
  exact ⟨fun hp => by rw [hp], fun c g late hp => by rw [hp]⟩

end

/-! ### A port without a Deck -/

/-- All gates open for good. -/
def Sched.allOpen : Sched := { first := none, hold := none, turn := none, second := none }

theorem Eng.sched_bare {e : Eng} {p : PortId} (hs : (e.port p).deck.st = .none) (ho : (e.port p).deck.oper = none) :
    e.sched p = (Sched.allOpen, 0) := by
  simp only [Eng.sched, ho, hs]
  rfl

theorem Sched.allOpen_close (c : Nat) (t : Int) : Sched.allOpen.close c t = none := rfl

/-- Without a Deck no head waits for an open run. -/
theorem Eng.fitWait_bare {e : Eng} {p : PortId} (hs : (e.port p).deck.st = .none) (ho : (e.port p).deck.oper = none)
    (c : Tc) (dp seg : Nat) : e.fitWait p c dp seg = e := by
  unfold Eng.fitWait
  dsimp only
  split
  · rfl
  · split
    · rfl
    · split
      · rfl
      · rw [Eng.sched_bare hs ho]
        simp [Sched.allOpen_close]

/-- A frame whose data is whole may start under every threshold (R106). -/
theorem GFrame.enough_whole {g : GFrame} (h : g.need ≤ g.data.length) (whole : Bool) (l : CtLevel) : g.enough whole l = true := by
  cases whole with
  | true => exact decide_eq_true h
  | false => cases l with
    | saf => exact decide_eq_true h
    | bytes n => exact decide_eq_true (Nat.le_trans (Nat.min_le_left _ _) h)

/-- The head of a port without a Deck that is whole, not paused, without a launch time and none that R117 discards starts. -/
theorem Eng.place_bare {e : Eng} {p : PortId} {c : Tc} {g : GFrame} {x : Txq} {f : TxFrame} (hd : (e.port p).drain = 0)
    (hx : e.txq g.q = some x) (hf : x.frame? g.frame = some f) (hw : g.need ≤ g.data.length)
    (hp : (e.port p).paused c = false) (hh : (e.port p).hostDrop g.data = none) (hl : x.launch f g.seg = none)
    (hs : (e.port p).deck.st = .none) (ho : (e.port p).deck.oper = none) (dp seg : Nat) :
    e.place p c g dp seg = .commit none := by
  have hgo : ¬ ((e.port p).paused c = true ∨ (!g.enough f.wholeFirst (e.port p).ctStart) = true ∨
      g.data.length < 30 ∧ g.data.length < g.need) := by
    simp [hp, GFrame.enough_whole hw]
    omega
  have hdrop : (if f.isLso then none else (e.port p).hostDrop g.data) = none := by simp [hh]
  unfold Eng.place
  simp only [hx, hf, drains_false hd, if_neg hgo, hdrop, hl, ho, hs]
  simp

/-! ### The frame that starts -/

/-- A filter that keeps one number of a range alone. -/
theorem filterMap_range_only {α : Type} {f : Nat → Option α} {a : α} {n i : Nat} (hi : i < n) (hf : f i = some a)
    (hn : ∀ k, k < n → k ≠ i → f k = none) : (List.range n).filterMap f = [a] := by
  induction n with
  | zero => omega
  | succ n ih =>
    rw [List.range_succ, List.filterMap_append]
    by_cases h : i = n
    · subst h
      rw [List.filterMap_eq_nil_iff.mpr fun k hk => hn k (by simp at hk; omega) (by simp at hk; omega)]
      simp [hf]
    · rw [ih (by omega) fun k hk hne => hn k (by omega) hne]
      simp [hn n (by omega) (Ne.symm h)]

theorem fin_val {n : Nat} [NeZero n] (i : Fin n) : fin n i.val = i := Fin.ofNat_val_eq_self i

/-- Where only one class has a head, and that starts, it is picked. -/
theorem Eng.pickStart_only {e : Eng} {p : PortId} {c : Tc} {g : GFrame} {l : List GFrame} {late : Option Nat} {dp seg : Nat}
    (hg : nth (e.port p).lists c.val [] = g :: l) (hn : ∀ k, k < 8 → k ≠ c.val → nth (e.port p).lists k [] = [])
    (hc : e.place p c g dp seg = .commit late) : e.pickStart p dp seg = some (c, g, late) := by
  unfold Eng.pickStart upTo
  dsimp only
  rw [filterMap_range_only c.isLt (a := (c, g, late))]
  · rfl
  · simp [hg, fin_val, hc]
  · intro k hk hne
    simp [hn k hk hne]

theorem nth_modNth {α : Type} (l : List α) (i : Nat) (f : α → α) {d : α} (h : i < l.length) :
    nth (modNth l i f) i d = f (nth l i d) := by
  induction l generalizing i with
  | nil => simp at h
  | cons a t ih => cases i with
    | zero => rfl
    | succ i => exact ih i (by simpa using h)

/-- What a start does to the port's lists and its committed frames, and that it leaves the other ports alone (R113). -/
theorem Eng.commitStart_spec {e : Eng} {p : PortId} {c : Tc} {g : GFrame} {x : Txq} {f : TxFrame} {l : List GFrame}
    (hx : e.txq g.q = some x) (hf : x.frame? g.frame = some f) (hg : nth (e.port p).lists c.val [] = g :: l)
    (late : Option Nat) (dp seg : Nat) :
    ∃ w : WireFrame, nth ((e.commitStart p c g late dp seg).port p).lists c.val [] = l ∧
      ((e.commitStart p c g late dp seg).port p).wire = (e.port p).wire ++ [w] ∧ w.g = g ∧ w.f = f ∧ w.lateSent = late ∧
      w.len = (e.port p).txLen f x.fcsPass g.seg ∧ Out.txStart p g.q w.len ∈ (e.commitStart p c g late dp seg).outs ∧
      ∀ r, r ≠ p → (e.commitStart p c g late dp seg).port r = e.port r := by
  have hlen : c.val < (e.port p).lists.length :=
    Nat.lt_of_not_le fun hge => by simp [nth, List.getElem?_eq_none hge] at hg
  unfold Eng.commitStart
  simp only [hx, hf]
  -- the first segment of a frame notes its lateness in the queue: neither case touches a port beyond the start itself
  split <;>
  · refine ⟨_, ?_, by simp [Eng.takePos, Eng.wireBytes]; rfl, rfl, rfl, rfl, rfl, by simp [Eng.emit], ?_⟩
    · simp [Eng.takePos, Eng.wireBytes, nth_modNth _ _ _ hlen, hg]
    · intro r hr
      simp [Eng.takePos, Eng.wireBytes, Eng.modPort, Eng.port_setPort_other _ _ hr]

/-- The one head of a port without a Deck, of a frame that `Eng.place_bare` lets start, is committed. -/
theorem Eng.startAt_only {e : Eng} {p : PortId} {c : Tc} {g : GFrame} {l : List GFrame} {dp seg : Nat} (hd : (e.port p).drain = 0)
    (hm : e.mayStart p = true) (ht : (e.port p).nextTrump = none) (hf : e.freePos p dp seg = true)
    (hg : nth (e.port p).lists c.val [] = g :: l) (hn : ∀ k, k < 8 → k ≠ c.val → nth (e.port p).lists k [] = [])
    (hs : (e.port p).deck.st = .none) (ho : (e.port p).deck.oper = none) (hc : e.place p c g dp seg = .commit none) :
    e.startAt p dp seg = e.commitStart p c g none dp seg := by
  have hplace : ∀ k h, k < 8 → (nth (e.port p).lists k []).head? = some h → ∀ st d i,
      e.place p (fin 8 k) h dp seg ≠ .done st d ∧ e.place p (fin 8 k) h dp seg ≠ .discard i := by
    intro k h hk hh st d i
    by_cases hkc : k = c.val
    · subst hkc
      simp only [hg, List.head?_cons, Option.some.injEq] at hh
      subst hh
      simp [fin_val, hc]
    · simp [hn k hk hkc] at hh
  have hw := foldEng_fix (upTo 8) (fun e k => e.fitWait p (fin 8 k) dp seg) e fun k => Eng.fitWait_bare hs ho _ _ _
  exact (Eng.startAt_open hd hm ht hf hplace hw).2 c g none (Eng.pickStart_only hg hn hc)

/-! ### Ends -/

/-- The threshold after an underrun: one level up, counted where it was not yet SAF (R108). -/
def Eng.ctRaise (e : Eng) (p : PortId) : Eng :=
  match (e.port p).ctNow with
  | .bytes n => (e.modPort p (fun y => { y with ct := if n < 8192 then .bytes (2 * n) else .saf, ctFrames := 0 })).stat p 84 1
  | .saf => e.modPort p (fun y => { y with ctFrames := 0 })

section
variable {e : Eng} {p : PortId} {w : WireFrame} {l : List WireFrame} (hw : (e.port p).wire = w :: l)
include hw

/-- A frame whose data is not whole does not end. -/
theorem Eng.frameEnd_waits (hn : w.g.data.length < w.g.need) : e.frameEnd p = e := by
  simp only [Eng.frameEnd, hw, if_pos (Or.inl hn)]

variable (hfail : w.g.failed = 0) (ho : w.orphan = false)
include hfail ho

/-- A host frame whose data is whole, without a time-stamp and not late, ends as its last byte leaves, and is sent (R166). -/
theorem Eng.frameEnd_whole (hn : w.g.need ≤ w.g.data.length) (hon : e.pwr.restOn = true) (hts : w.f.tsReq = false)
    (hl : w.lateSent = none) :
    e.frameEnd p = ((((e.popWire p w).emit (.txEnd p false (e.txBytes p w).1)).countSent p w (e.txBytes p w).1
      (e.txBytes p w).2).slotSent p w).sentWhole w false := by
  have hend : ¬ (w.g.data.length < w.g.need ∨ w.g.failed ≠ 0 ∨ e.macOn = false) := by
    simp [hn, hfail, Eng.macOn, hon]
  simp only [Eng.frameEnd, hw, if_neg hend, hts, hl, ho]
  rfl

/-- A frame that runs dry is stomped and counted, the threshold rises, and it goes back to its queue (R107, R108). -/
theorem Eng.underrun_dry (hn : w.g.data.length < w.g.need) :
    e.underrun p = (((e.stomp p w).stat p 70 1).ctRaise p).retryFrame p w.g := by
  have hdry : ¬ (w.g.need ≤ w.g.data.length ∨ w.g.failed ≠ 0) := by
    simp only [hfail]
    omega
  simp only [Eng.underrun, hw, if_neg hdry, ho]
  rfl

end

/-! ### Receipt -/

/-- The FCS of a frame received is that of its bytes (R99). -/
def rxFcsOk (r : RxFrame) : Bool :=
  fcsBytes (r.bytes.take (r.bytes.length - 4)) == r.bytes.drop (r.bytes.length - 4)

/-- The ingress class of a frame received at its port (R123). -/
def Eng.rxClass (e : Eng) (r : RxFrame) : Tc := (e.port (e.portOf r.port)).ingress r.bytes

/-- Lines of a frame received: no more than the longest frame takes (R104). -/
def Eng.rxLines (e : Eng) (r : RxFrame) : Nat := linesOf (min r.bytes.length ((e.port (e.portOf r.port)).maxFrame + 1))

/-- A frame of 64 bytes or more has come over the wire. -/
def Eng.rxSeen (e : Eng) (r : RxFrame) : Eng :=
  e.wireBytes (e.portOf r.port) .rx (some (e.rxClass r)) (some .host) r.bytes.length

/-- A frame on the wire takes no lines yet, and leaves the power state and the ports alone. -/
theorem Eng.rxSeen_frame (e : Eng) (r : RxFrame) :
    (e.rxSeen r).pwr = e.pwr ∧ (e.rxSeen r).sharedUse = e.sharedUse ∧ (e.rxSeen r).sharedCap = e.sharedCap ∧
      ∀ p, (e.rxSeen r).port p = e.port p := by
  unfold Eng.rxSeen Eng.wireBytes Eng.tal
  split <;> exact ⟨rfl, rfl, rfl, fun _ => rfl⟩

/-- An admitted frame counted in an error counter of R104. -/
def Eng.rxErr (e d : Eng) (r : RxFrame) (i : Nat) : Eng :=
  (d.rxBad (e.portOf r.port) i).slotFrame (e.portOf r.port) .rx clWasted (r.bytes.length + 20)

/-- An admitted frame counted as good. -/
def Eng.rxOk (e d : Eng) (r : RxFrame) : Eng :=
  (d.rxGood (e.portOf r.port) (some (e.rxClass r)) r.bytes r.bytes.length).slotFrame (e.portOf r.port) .rx clRetired
    (r.bytes.length + 20)

/-- An admitted frame leaves the packet buffer. -/
def Eng.rxDone (e d : Eng) (r : RxFrame) (a : Area) : Eng := d.freeRx (e.portOf r.port) (e.rxClass r) a (e.rxLines r)

/-- An admitted frame goes on to steering (R220). -/
def Eng.rxOnward (e d : Eng) (r : RxFrame) (a : Area) (fcsErr : Bool) : Eng :=
  d.rxSteer r (e.portOf r.port) (e.rxClass r) (e.rxLines r) a fcsErr ((e.port (e.portOf r.port)).hasTrailer (e.rxClass r))

/-- What becomes of an admitted frame that came to the engine `e`, its lines charged in `d`: the tests of R104 in turn, then
its consumer (R220). -/
def Eng.rxJudge (e d : Eng) (r : RxFrame) (a : Area) : Eng :=
  let x := e.port (e.portOf r.port)
  if x.maxFrame < r.bytes.length then e.rxDone (e.rxErr d r 61) r a
  else if r.err || r.cut then e.rxDone (e.rxErr d r 63) r a
  else if !(rxFcsOk r) then if x.badFcsDeliver then e.rxOnward (e.rxErr d r 62) r a true else e.rxDone (e.rxErr d r 62) r a
  else
    let k := x.consumer r.bytes
    let d := (e.rxOk d r).consume (e.portOf r.port) r.bytes k
    if k = .none ∨ (k = .lldp ∧ x.lldpMirror) then e.rxOnward d r a false else e.rxDone d r a

section
variable {e : Eng} {r : RxFrame}

/-- A port not in UP receives nothing (R74). -/
theorem Eng.rxFrame_down (h : (e.port (e.portOf r.port)).state ≠ .up) :
    e.rxFrame r = if e.pwr.restOn then e.stat (e.portOf r.port) 66 1 else e := by
  have hno : (!e.mayReceive (e.portOf r.port)) = true := by simp [Eng.mayReceive, h]
  unfold Eng.rxFrame
  exact if_pos hno

section
variable (hup : (e.port (e.portOf r.port)).state = .up) (hon : e.pwr.restOn = true) (hb : r.badBeat = none)
include hup hon

theorem Eng.mayReceive_up : e.mayReceive (e.portOf r.port) = true := by simp [Eng.mayReceive, Eng.macOn, hup, hon]

include hb

theorem Eng.rxFrame_runt (h : r.bytes.length < 64) :
    e.rxFrame r = ((e.wireBytes (e.portOf r.port) .rx none (some .host) r.bytes.length).rxBad (e.portOf r.port) 60).slotFrame
      (e.portOf r.port) .rx clWasted (r.bytes.length + 20) := by
  simp only [Eng.rxFrame, Eng.mayReceive_up hup hon, hb, if_pos h]
  rfl

variable (hc : e.pwr.closed = false) (hlen : 64 ≤ r.bytes.length)
include hc hlen

/-- A frame with a bad FCS that finds no room is dropped and counted (R123). -/
theorem Eng.rxFrame_dropped {i : Nat} (ha : (e.rxSeen r).admission (e.portOf r.port) (e.rxClass r) (e.rxLines r) = .inr i)
    (hbad : rxFcsOk r = false) :
    e.rxFrame r = ((e.rxSeen r).stat (e.portOf r.port) i 1).slotFrame (e.portOf r.port) .rx clStarvedFront
      (r.bytes.length + 20) := by
  have hclosed : (e.rxSeen r).pwr.closed = false := by rw [(Eng.rxSeen_frame e r).1, hc]
  unfold Eng.rxSeen Eng.rxClass Eng.rxLines rxFcsOk at *
  simp only [Eng.rxFrame, Eng.mayReceive_up hup hon, hb, if_neg (Nat.not_lt.mpr hlen), hclosed, ha, hbad, Bool.and_false,
    Bool.false_eq_true, if_false, Bool.not_true]

/-- A frame that finds room is charged its lines and judged. -/
theorem Eng.rxFrame_admitted {a : Area} (ha : (e.rxSeen r).admission (e.portOf r.port) (e.rxClass r) (e.rxLines r) = .inl a) :
    e.rxFrame r = e.rxJudge ((e.rxSeen r).chargeRx (e.portOf r.port) (e.rxClass r) a (e.rxLines r)) r a := by
  have hclosed : (e.rxSeen r).pwr.closed = false := by rw [(Eng.rxSeen_frame e r).1, hc]
  unfold Eng.rxSeen Eng.rxClass Eng.rxLines at *
  simp only [Eng.rxFrame, Eng.mayReceive_up hup hon, hb, if_neg (Nat.not_lt.mpr hlen), hclosed, ha,
    Option.isSome_none, Bool.or_false]
  rfl

end

/-- A frame of a lossy class below its limit, with room in the shared area, is admitted there (R123). -/
theorem Eng.admission_lossy {p : PortId} {c : Tc} {n : Nat} (hfc : (e.port p).fcMode = .none)
    (hcap : e.sharedUse + n ≤ e.sharedCap) (hl : 64 * nth (e.port p).shared c.val 0 < nth (e.port p).lossyLimit c.val 0) :
    e.admission p c n = .inl .shared := by
  simp [Eng.admission, Port.lossless?, hfc, hl, hcap]

theorem Eng.admission_rxSeen_lossy (hfc : (e.port (e.portOf r.port)).fcMode = .none)
    (hcap : e.sharedUse + e.rxLines r ≤ e.sharedCap)
    (hl : 64 * nth (e.port (e.portOf r.port)).shared (e.rxClass r).val 0 <
      nth (e.port (e.portOf r.port)).lossyLimit (e.rxClass r).val 0) :
    (e.rxSeen r).admission (e.portOf r.port) (e.rxClass r) (e.rxLines r) = .inl .shared := by
  obtain ⟨-, huse, hsize, hport⟩ := Eng.rxSeen_frame e r
  refine Eng.admission_lossy ?_ ?_ ?_
  · rw [hport, hfc]
  · rw [huse, hsize]; exact hcap
  · rw [hport]; exact hl

/-! ### An admitted frame -/

section
variable (d : Eng) (a : Area)

theorem Eng.rxJudge_long (h : (e.port (e.portOf r.port)).maxFrame < r.bytes.length) :
    e.rxJudge d r a = e.rxDone (e.rxErr d r 61) r a := if_pos h

variable (hlen : r.bytes.length ≤ (e.port (e.portOf r.port)).maxFrame)
include hlen

theorem Eng.rxJudge_phy (h : r.err = true ∨ r.cut = true) : e.rxJudge d r a = e.rxDone (e.rxErr d r 63) r a := by
  have hphy : (r.err || r.cut) = true := by simpa using h
  simp only [Eng.rxJudge, if_neg (Nat.not_lt.mpr hlen), hphy, if_true]

variable (he : r.err = false) (hk : r.cut = false)
include he hk

theorem Eng.rxJudge_badFcs (h : rxFcsOk r = false) :
    e.rxJudge d r a = if (e.port (e.portOf r.port)).badFcsDeliver then e.rxOnward (e.rxErr d r 62) r a true
      else e.rxDone (e.rxErr d r 62) r a := by
  simp [Eng.rxJudge, Nat.not_lt.mpr hlen, he, hk, h]

section
variable (hg : rxFcsOk r = true)
include hg

/-- A good frame is consumed, and then freed or, where nothing consumed it or LLDP_MIRROR is ON for an LLDPDU, steered
(R88, R220). -/
theorem Eng.rxJudge_good {k : Consume} (h : (e.port (e.portOf r.port)).consumer r.bytes = k) :
    e.rxJudge d r a = if k = .none ∨ (k = .lldp ∧ (e.port (e.portOf r.port)).lldpMirror)
      then e.rxOnward ((e.rxOk d r).consume (e.portOf r.port) r.bytes k) r a false
      else e.rxDone ((e.rxOk d r).consume (e.portOf r.port) r.bytes k) r a := by
  subst h
  simp only [Eng.rxJudge, if_neg (Nat.not_lt.mpr hlen), he, hk, hg, Bool.or_self, Bool.not_true, Bool.false_eq_true, if_false]

theorem Eng.rxJudge_steered (h : (e.port (e.portOf r.port)).consumer r.bytes = .none) :
    e.rxJudge d r a = e.rxOnward (e.rxOk d r) r a false :=
  (Eng.rxJudge_good d a hlen he hk hg h).trans (if_pos (.inl rfl))

theorem Eng.rxJudge_lldp (h : (e.port (e.portOf r.port)).consumer r.bytes = .lldp) :
    e.rxJudge d r a = if (e.port (e.portOf r.port)).lldpMirror
      then e.rxOnward ((e.rxOk d r).consume (e.portOf r.port) r.bytes .lldp) r a false
      else e.rxDone ((e.rxOk d r).consume (e.portOf r.port) r.bytes .lldp) r a := by
  rw [Eng.rxJudge_good d a hlen he hk hg h]
  simp only [reduceCtorEq, true_and, false_or]

theorem Eng.rxJudge_control (h : (e.port (e.portOf r.port)).consumer r.bytes = .mac ∨
      (e.port (e.portOf r.port)).consumer r.bytes = .thin) :
    e.rxJudge d r a = e.rxDone ((e.rxOk d r).consume (e.portOf r.port) r.bytes ((e.port (e.portOf r.port)).consumer r.bytes)) r a :=
  (Eng.rxJudge_good d a hlen he hk hg rfl).trans (if_neg (by rcases h with h | h <;> simp [h]))

end
end
end

/-! ### The commands -/

theorem exec_txFrameStart (p : PortId) (dp : Fin 4) (seg : Fin 16) (s : State) :
    exec (.txFrameStart p dp seg) s = s.does (fun e => e.startAt p dp.val seg.val) := rfl
theorem exec_txFrameEnd (p : PortId) (s : State) : exec (.txFrameEnd p) s = s.does (fun e => (e.frameEnd p).stompAll p) := rfl
theorem exec_txUnderrun (p : PortId) (s : State) : exec (.txUnderrun p) s = s.does (fun e => (e.underrun p).stompAll p) := rfl
theorem exec_rxFrame (r : RxFrame) (s : State) : exec (.rxFrame r) s = s.does (fun e => e.rxFrame r) := rfl

/-- Settles O21: a start position is closed, or its heads are tested and one is committed; the frame on the wire ends or runs
dry; and a frame received is turned away, or admitted and judged. -/
theorem framesStartEndAndArrive : Obligations.FramesStartEndAndArrive := by
  unfold Obligations.FramesStartEndAndArrive
  refine ⟨⟨fun s p dp seg hd => ⟨fun h => ?_, fun hm ht hf c g l x f hg hn hx hfr hneed hpa hh hl hs ho => ?_,
    fun hq hm ht hf => ?_⟩, fun s p w l hw => ⟨fun hfail hn hon hts hl ho => ?_, fun hfail hn ho => ⟨?_, ?_⟩⟩⟩,
    fun s r => ⟨fun hst => ?_, fun hup hon hb hc => ⟨fun hlen => ?_, fun hlen i ha hbad => ?_,
      fun hlen hfc hcap hlim hmax he hk hgood hcons => ?_, fun hlen a ha => ?_⟩⟩⟩
  · exact State.does_eq_after (Eng.startAt_blocked hd h)
  · have hplace := Eng.place_bare (e := s.eng.clear) hd hx hfr hneed hpa hh hl hs ho dp.val seg.val
    obtain ⟨w, hw⟩ := Eng.commitStart_spec (e := s.eng.clear) hx hfr hg none dp.val seg.val
    exact ⟨_, w, State.does_eq_after (Eng.startAt_only hd hm ht hf hg hn hs ho hplace), rfl, hw⟩
  · have hstart := Eng.startAt_open (e := s.eng.clear) hd hm ht hf hq rfl
    exact ⟨fun hp => State.does_eq_after (hstart.1 hp), fun c g late hp => State.does_eq_after (hstart.2 c g late hp)⟩
  · exact State.does_eq_after (congrArg (·.stompAll p) (Eng.frameEnd_whole (e := s.eng.clear) hw hfail ho hn hon hts hl))
  · exact State.does_eq_after (congrArg (·.stompAll p) (Eng.frameEnd_waits (e := s.eng.clear) hw hn))
  · exact State.does_eq_after (congrArg (·.stompAll p) (Eng.underrun_dry (e := s.eng.clear) hw hfail ho hn))
  · exact State.does_eq_after (Eng.rxFrame_down (e := s.eng.clear) hst)
  · exact State.does_eq_after (Eng.rxFrame_runt (e := s.eng.clear) hup hon hb hlen)
  · exact State.does_eq_after (Eng.rxFrame_dropped (e := s.eng.clear) hup hon hb hc hlen ha hbad)
  · have hadm := Eng.admission_rxSeen_lossy (e := s.eng.clear) (r := r) hfc hcap hlim
    exact State.does_eq_after ((Eng.rxFrame_admitted (e := s.eng.clear) hup hon hb hc hlen hadm).trans
      (Eng.rxJudge_steered _ _ hmax he hk hgood hcons))
  · have hj := Eng.rxFrame_admitted (e := s.eng.clear) hup hon hb hc hlen ha
    refine ⟨fun hmax => ?_, fun hmax hphy => ?_, fun hmax he hk => ⟨fun hbad => ?_,
      fun hgood => ⟨fun h => ?_, fun h => ?_, fun h => ?_⟩⟩⟩
    · exact State.does_eq_after (hj.trans (Eng.rxJudge_long _ _ hmax))
    · exact State.does_eq_after (hj.trans (Eng.rxJudge_phy _ _ hmax hphy))
    · exact State.does_eq_after (hj.trans (Eng.rxJudge_badFcs _ _ hmax he hk hbad))
    · exact State.does_eq_after (hj.trans (Eng.rxJudge_steered _ _ hmax he hk hgood h))
    · exact State.does_eq_after (hj.trans (Eng.rxJudge_lldp _ _ hmax he hk hgood h))
    · exact State.does_eq_after (hj.trans (Eng.rxJudge_control _ _ hmax he hk hgood h))

end Sys2Proof.Machine
end

section
/-! PROOF. Pause and PFC frames received, the timers they load, the refresh of a pause, and DRAIN (R109, R110, R111, R115,
R116, R118, R125, R126, R128). -/
namespace Sys2Proof.Machine

/-! ### Frames received -/

@[simp] theorem Eng.port_modBw (e : Eng) (p q : PortId) (d : TDir) (g : BwAcc → BwAcc) : (e.modBw p d g).port q = e.port q := by
  unfold Eng.modBw; split <;> rfl

@[simp] theorem Eng.port_slotTime (e : Eng) (p q : PortId) (d : TDir) (cls n : Nat) : (e.slotTime p d cls n).port q = e.port q := by
  unfold Eng.slotTime
  split
  · rfl
  · exact Eng.port_modBw _ _ _ _ _

@[simp] theorem Eng.port_slotFrame (e : Eng) (p q : PortId) (d : TDir) (cls n : Nat) :
    (e.slotFrame p d cls n).port q = e.port q := by
  unfold Eng.slotFrame
  split
  · rfl
  · exact Eng.port_slotTime _ _ _ _ _ _

/-- A statistic counts; the port's flow-control mode stays. -/
@[simp] theorem Eng.fcMode_stat (e : Eng) (p : PortId) (i n : Nat) : ((e.stat p i n).port p).fcMode = (e.port p).fcMode := by
  simp [Eng.stat]

/-- A control frame received changes no port's flow-control mode. -/
@[simp] theorem Eng.fcMode_rxControl (e : Eng) (p : PortId) (da len : Nat) :
    ((e.rxControl p da len).port p).fcMode = (e.port p).fcMode := by
  simp [Eng.rxControl, Eng.rxGood, Eng.frameOk, Eng.wireBytes]

/-- A PAUSE frame, by whether the port is in PAUSE mode (R109, R110). -/
theorem Eng.macPause_eq {e : Eng} {p : PortId} {m : FcMode} (hm : (e.port p).fcMode = m) (q : Nat) :
    e.macPause p q =
      let d := (e.stat p 32 1).tal { code := 0x004, port := some p, dir := some .rx }
      if m = .pause then d.setPause p q else d.stat p 50 1 := by
  unfold Eng.macPause
  simp only [Eng.tal_reads, Eng.fcMode_stat, hm]
  cases m <;> rfl

/-- A PFC frame, by whether the port is in PFC mode (R109, R111). -/
theorem Eng.macPfc_eq {e : Eng} {p : PortId} {m : FcMode} (hm : (e.port p).fcMode = m) (en : Nat) (times : List Nat) :
    e.macPfc p en times =
      let cs := (upTo 8).filter (bitAt en)
      let d := (foldEng cs (fun e c => e.stat p (34 + c) 1) e).tal { code := 0x004, port := some p, dir := some .rx }
      if m = .pfc then foldEng cs (fun e c => e.setPfc p c (nth times c 0)) d else d.stat p 50 1 := by
  have hfold : ((foldEng ((upTo 8).filter (bitAt en)) (fun e c => e.stat p (34 + c) 1) e).port p).fcMode = m :=
    (foldEng_keep (fun e => (e.port p).fcMode) _ _ (fun e c => Eng.fcMode_stat e p _ _) e).trans hm
  unfold Eng.macPfc
  simp only [Eng.tal_reads, hfold]
  cases m <;> rfl

section
variable {e : Eng} {p : PortId}

theorem Eng.mayReceive_of_up (hup : (e.port p).state = .up) (hon : e.pwr.restOn = true) : e.mayReceive p = true := by
  simp [Eng.mayReceive, Eng.macOn, hup, hon]

theorem Eng.mayReceive_of_not_up (h : (e.port p).state ≠ .up) : e.mayReceive p = false := by
  simp [Eng.mayReceive, h]

theorem Eng.rxPause_up (hup : (e.port p).state = .up) (hon : e.pwr.restOn = true) (q : Nat) :
    e.rxPause p q = (e.rxControl p 0x0180C2000001 64).macPause p q := if_pos (Eng.mayReceive_of_up hup hon)

theorem Eng.rxPfc_up (hup : (e.port p).state = .up) (hon : e.pwr.restOn = true) (en : Nat) (times : List Nat) :
    e.rxPfc p en times = (e.rxControl p 0x0180C2000001 64).macPfc p en times := if_pos (Eng.mayReceive_of_up hup hon)

theorem Eng.rxPause_down (h : (e.port p).state ≠ .up) (q : Nat) : e.rxPause p q = e :=
  if_neg (by simp [Eng.mayReceive_of_not_up h])

theorem Eng.rxPfc_down (h : (e.port p).state ≠ .up) (en : Nat) (times : List Nat) : e.rxPfc p en times = e :=
  if_neg (by simp [Eng.mayReceive_of_not_up h])

end

/-! ### Timers -/

theorem nth_setNth {α : Type} (l : List α) (i : Nat) (v : α) {d : α} (h : i < l.length) : nth (setNth l i v) i d = v := by
  induction l generalizing i with
  | nil => simp at h
  | cons a t ih => cases i with
    | zero => rfl
    | succ i => exact ih i (by simpa using h)

section
variable (e : Eng) (p : PortId)

theorem Eng.setPause_timers (q : Nat) :
    ((e.setPause p q).port p).pauseP = setTimer e (e.port p).pauseP q (e.port p).txLanes ∧
      ((e.setPause p q).port p).pauseC = (e.port p).pauseC := by
  simp [Eng.setPause]

theorem Eng.setPfc_timers (c q : Nat) :
    ((e.setPfc p c q).port p).pauseC =
        setNth (e.port p).pauseC c (setTimer e (nth (e.port p).pauseC c none) q (e.port p).txLanes) ∧
      ((e.setPfc p c q).port p).pauseP = (e.port p).pauseP := by
  simp [Eng.setPfc]

/-- A time of zero adds the time of the timer it ends to the class's count (R128). -/
theorem Eng.setPfc_zero_pausedFor {c : Nat} {t : PauseT} (hlen : c < (e.port p).pausedFor.length)
    (ht : nth (e.port p).pauseC c none = some t) :
    nth ((e.setPfc p c 0).port p).pausedFor c 0 = nth (e.port p).pausedFor c 0 + ((e.now : Int) - t.since) := by
  simp [Eng.setPfc, pausedAdd, ht, nth_modNth _ _ _ hlen]

theorem Eng.setPause_other {r : PortId} (q : Nat) (h : r ≠ p) : (e.setPause p q).port r = e.port r :=
  Eng.port_setPort_other _ _ h

theorem Eng.setPfc_other {r : PortId} (c q : Nat) (h : r ≠ p) : (e.setPfc p c q).port r = e.port r :=
  Eng.port_setPort_other _ _ h

end

/-! ### The refresh of a pause -/

@[simp] theorem length_bytesLE (n v : Nat) : (bytesLE n v).length = n := by
  induction n generalizing v with
  | zero => rfl
  | succ n ih => simp [bytesLE, ih]

@[simp] theorem length_bytesBE (n v : Nat) : (bytesBE n v).length = n := by simp [bytesBE]

/-- Values written one behind the other, each in `n` bytes. -/
theorem length_flatMap_bytesBE (l : List Nat) (n : Nat) (g : Nat → Nat) :
    (l.flatMap (fun i => bytesBE n (g i))).length = n * l.length := by
  induction l with
  | nil => rfl
  | cons a t ih =>
    rw [List.flatMap_cons, List.length_append, ih, length_bytesBE, List.length_cons, Nat.mul_succ, Nat.add_comm]

/-- Bytes padded with zeros to `n`. -/
theorem length_padded {bs : List Byte} {n : Nat} (h : bs.length ≤ n) : (bs ++ zeros (n - bs.length)).length = n := by
  rw [List.length_append, zeros, List.length_replicate, Nat.add_sub_cancel' h]

/-- A flow-control frame without its FCS has the length of the shortest frame (R109). -/
theorem Port.length_fcBytes (x : Port) : x.fcBytes.length = 60 := by
  unfold Port.fcBytes
  refine length_padded ?_
  cases x.fcMode with
  | pause => simp only [List.length_append, length_bytesBE, length_bytesLE, Nat.reduceAdd, Nat.reduceLeDiff]
  | none | pfc =>
    simp only [List.length_append, length_bytesBE, length_bytesLE, length_flatMap_bytesBE, upTo, List.length_range,
      Nat.reduceAdd, Nat.reduceMul, Nat.reduceLeDiff]

/-- A flow-control frame finds room in an empty trump store (R118). -/
theorem Eng.trumpFits_fc (e : Eng) (p : PortId) : e.trumpFits p [] .fc = true := by
  simp [Eng.trumpFits, Eng.trumpBytes, Port.length_fcBytes]

section
variable {e : Eng} {p : PortId} {c : Tc}

theorem Eng.pushTrump_fc_empty (ht : (e.port p).trump = []) (hw : (e.port p).trumpWait = []) :
    e.pushTrump p .fc = e.setPort p { e.port p with trump := [.fc] } := by
  simp [Eng.pushTrump, ht, hw, Eng.trumpFits_fc]

theorem Eng.fcRefresh_xoff (hx : bitAt (e.port p).xoffSt.toNat c.val = true) (hup : (e.port p).state = .up)
    (hs : e.standby = false) (hm : (e.port p).fcMode ≠ .none) : e.fcRefresh p c = e.pushTrump p .fc :=
  (if_pos hx).trans (if_pos ⟨hup, hs, hm⟩)

theorem Eng.fcRefresh_xon (hx : bitAt (e.port p).xoffSt.toNat c.val = false) : e.fcRefresh p c = e :=
  if_neg (by simp [hx])

/-! ### DRAIN -/

theorem Eng.pfcWatchdog_off (h : (e.port p).wdLimit = 0) : e.pfcWatchdog p c = e := if_pos (.inl h)

theorem Eng.pfcWatchdog_pfc (hw : (e.port p).wdLimit ≠ 0) (hm : (e.port p).fcMode = .pfc)
    (ht : (nth (e.port p).pauseC c.val none).isSome = true) (hd : bitAt (e.port p).drain.toNat c.val = false) :
    e.pfcWatchdog p c = (e.setPort p { e.port p with drain := (e.port p).drain ||| BitVec.ofNat 8 (2 ^ c.val) }).fail 33
      (p.val + 16 * c.val) (mSlot p.val) := by
  simp [Eng.pfcWatchdog, hw, hm, ht, hd]

/-- In PAUSE mode every class goes into DRAIN. -/
theorem Eng.pfcWatchdog_pause (hw : (e.port p).wdLimit ≠ 0) (hm : (e.port p).fcMode = .pause)
    (ht : (e.port p).pauseP.isSome = true) (hd : bitAt (e.port p).drain.toNat 0 = false) :
    e.pfcWatchdog p c = (e.setPort p { e.port p with drain := 0xFF }).fail 33 p.val (mSlot p.val) := by
  have hall : (e.port p).drain ||| 0xFF = 0xFF := BitVec.or_allOnes
  have hon : ¬ ((e.port p).wdLimit = 0 ∨ ((e.port p).pauseP.isSome && !bitAt (e.port p).drain.toNat 0) = false) := by
    simp [hw, ht, hd]
  unfold Eng.pfcWatchdog
  simp only [hm, if_neg hon, hall, Nat.mul_zero, Nat.add_zero]

theorem Eng.drainRestore_pfc (hm : (e.port p).fcMode = .pfc) (hd : bitAt (e.port p).drain.toNat c.val = true)
    (hr : (nth (e.port p).restoreAt c.val none).isSome = true) :
    e.drainRestore p c = e.setPort p { e.port p with
      drain := (e.port p).drain &&& ~~~ BitVec.ofNat 8 (2 ^ c.val), restoreAt := setNth (e.port p).restoreAt c.val none } := by
  unfold Eng.drainRestore
  simp only [hm]
  exact if_pos ⟨hd, hr⟩

theorem Eng.drainRestore_pause (hm : (e.port p).fcMode = .pause) (hd : bitAt (e.port p).drain.toNat 0 = true)
    (hr : (nth (e.port p).restoreAt 0 none).isSome = true) :
    e.drainRestore p c = e.setPort p { e.port p with drain := 0, restoreAt := List.replicate 8 none } := by
  unfold Eng.drainRestore
  simp only [hm]
  exact if_pos ⟨hd, hr⟩

end

/-- Settles O19: a frame received loads the timers of its mode, a timer's expiry is a time of zero, and the refresh, the
watchdog and the restore each act where their class is in the state they name. -/
theorem pauseAndDrainTimers : Obligations.PauseAndDrainTimers := by
  unfold Obligations.PauseAndDrainTimers
  refine ⟨⟨fun s p hon => ⟨fun hup => ⟨fun q => ?_, fun en times => ?_⟩, fun hdown => ⟨fun q => ?_, fun en times => ?_⟩⟩,
    fun s p => ⟨fun h => ?_, fun c h => ?_⟩, fun e p c q => ?_⟩, fun s p c => ?_⟩
  · exact State.does_eq_after ((Eng.rxPause_up (e := s.eng.clear) hup hon _).trans
      (Eng.macPause_eq (Eng.fcMode_rxControl _ _ _ _) _))
  · exact State.does_eq_after ((Eng.rxPfc_up (e := s.eng.clear) hup hon _ _).trans
      (Eng.macPfc_eq (Eng.fcMode_rxControl _ _ _ _) _ _))
  · exact State.does_eq_after (Eng.rxPause_down (e := s.eng.clear) hdown _)
  · exact State.does_eq_after (Eng.rxPfc_down (e := s.eng.clear) hdown _ _)
  · exact State.does_eq_after (if_pos h)
  · exact State.does_eq_after (if_pos h)
  · obtain ⟨hp, hpc⟩ := Eng.setPause_timers e p q
    obtain ⟨hc, hcp⟩ := Eng.setPfc_timers e p c.val q
    refine ⟨hp, hpc, fun hlen => ?_, hcp, fun t hlen ht hq => ?_, fun r hr => ⟨?_, ?_⟩⟩
    · rw [hc, nth_setNth _ _ _ (by omega)]
      rfl
    · subst hq
      exact Eng.setPfc_zero_pausedFor e p (by omega) ht
    · exact Eng.setPause_other e p q hr
    · exact Eng.setPfc_other e p c.val q hr
  · refine ⟨fun hx hup hs hm ht hw => ?_, fun hx => ?_, fun hw => ⟨fun hm ht hd => ?_, fun hm ht hd => ?_⟩, fun hw => ?_,
      fun hm hd hr => ?_, fun hm hd hr => ?_⟩
    · exact State.does_eq_after ((Eng.fcRefresh_xoff (e := s.eng.clear) hx hup hs hm).trans (Eng.pushTrump_fc_empty ht hw))
    · exact State.does_eq_after (Eng.fcRefresh_xon (e := s.eng.clear) hx)
    · exact State.does_eq_after (Eng.pfcWatchdog_pfc (e := s.eng.clear) hw hm ht hd)
    · exact State.does_eq_after (Eng.pfcWatchdog_pause (e := s.eng.clear) hw hm ht hd)
    · exact State.does_eq_after (Eng.pfcWatchdog_off (e := s.eng.clear) hw)
    · exact State.does_eq_after (Eng.drainRestore_pfc (e := s.eng.clear) hm hd hr)
    · exact State.does_eq_after (Eng.drainRestore_pause (e := s.eng.clear) hm hd hr)

end Sys2Proof.Machine
end

section
/-! PROOF. The reads of descriptors and of post entries that have come back (R97, R159, R164, R173, R174). -/
namespace Sys2Proof.Machine

/-- Where a read of `n` descriptors or entries is underway, `m` have come and every request of it was sent, none of what
keeps the read from ending holds. -/
theorem Eng.read_ends {e : Eng} {n m g : Nat} (hn : 0 < n) (hm : n ≤ m) (hu : e.unsent g = false) :
    ¬ (n = 0 ∨ m < n ∨ e.unsent g = true) := by
  simp only [hu, Bool.false_eq_true, or_false]
  omega

/-! ### Descriptors -/

/-- The requests of a queue's descriptor read end (R159). -/
def Eng.descsRead (e : Eng) (q : TxqId) (x : Txq) : Eng :=
  (e.endReads (fun a => a.grp == x.fetchGrp && decide (a.owner = .txDesc q))).talDescs .tx x.fn
    (x.base + 16 * (x.fetched.toNat % x.size)) x.fetching

/-- The queue with the descriptors of a read behind those not yet parsed, each with its profile's values as it was read (R97). -/
def Eng.joinDescs (e : Eng) (x : Txq) (ds : List (BitVec 128)) : Txq :=
  { x with
    partials := x.partials ++ (ds.take x.fetching).map (fun d => (d, e.profile (fld d.toNat 88 8)))
    fetched := x.fetched + BitVec.ofNat 16 x.fetching, fetching := 0 }

section
variable {e : Eng} {q : TxqId} {x : Txq} (hx : e.txq q = some x) {ds : List (BitVec 128)} (hs : List (List Byte))
include hx

theorem Eng.txDescs_idle (h : x.fetching = 0) : e.txDescs q ds hs = e := by
  unfold Eng.txDescs
  simp only [hx]
  exact if_pos (.inl h)

/-- Descriptors of a read join the queue's, the whole chains are parsed, and the next read starts (R164). -/
theorem Eng.txDescs_arrive (hn : 0 < x.fetching) (hm : x.fetching ≤ ds.length) (hu : e.unsent x.fetchGrp = false) :
    e.txDescs q ds hs =
      let y := (e.descsRead q x).joinDescs x ds
      ((Eng.parseChains q (y.partials.length + 1) hs ((e.descsRead q x).setTxq q (some y))).modTxq q Txq.pruneBells).txFetch q := by
  unfold Eng.txDescs
  simp only [hx]
  exact if_neg (Eng.read_ends hn hm hu)

end

/-! ### Post entries -/

/-- The requests of a ring's post entry read end (R159). -/
def Eng.postsRead (e : Eng) (q : RxqId) (x : Rxq) : Eng :=
  (e.endReads (fun a => a.grp == x.fetchGrp && decide (a.owner = .rxPost q))).talDescs .rx x.fn
    (x.base + 8 * (x.fetched.toNat % x.size)) x.fetching

/-- The ring with the posted buffers `l` of a read (R173). -/
def Rxq.joinPosts (x : Rxq) (l : List PostBuf) : Rxq :=
  { x with posted := x.posted ++ l, fetched := x.fetched + BitVec.ofNat 16 x.fetching, fetching := 0 }

section
variable {e : Eng} {q : RxqId} {x : Rxq} (hx : e.rxq q = some x) {ws : List (BitVec 64)}
include hx

theorem Eng.rxPosts_idle (h : x.fetching = 0) : e.rxPosts q ws = e := by
  unfold Eng.rxPosts
  simp only [hx]
  exact if_pos (.inl h)

/-- Post entries of a read join the ring's up to the first that breaks a rule, which ends the ring in ERROR (R173, R174). -/
theorem Eng.rxPosts_arrive (hn : 0 < x.fetching) (hm : x.fetching ≤ ws.length) (hu : e.unsent x.fetchGrp = false) :
    e.rxPosts q ws =
      let l := (postBufs x.fetched (ws.take x.fetching)).1
      let d := (e.postsRead q x).setRxq q (some (x.joinPosts l))
      if (postBufs x.fetched (ws.take x.fetching)).2 then (((d.lookPosts q x l).rxFetch q).rxPlaceNext q).rxDrainNext q
      else d.rxError q 4 := by
  unfold Eng.rxPosts
  simp only [hx]
  exact if_neg (Eng.read_ends hn hm hu)

end

/-- Settles O28: where no read is underway nothing joins; else what was read joins the queue or ring, and its parsing decides
what comes of it. -/
theorem descriptorsArrive : Obligations.DescriptorsArrive := by
  unfold Obligations.DescriptorsArrive
  refine ⟨fun s q x ds hs hx _ => ⟨fun h => ?_, fun hn hm hu => ?_⟩, fun s q x ws hx => ⟨fun h => ?_, fun hn hm hu => ?_⟩⟩
  · exact State.does_eq_after (congrArg (·.flushAgain q) (Eng.txDescs_idle (e := s.eng.clear) hx hs h))
  · exact State.does_eq_after (congrArg (·.flushAgain q) (Eng.txDescs_arrive (e := s.eng.clear) hx hs hn hm hu))
  · exact State.does_eq_after (Eng.rxPosts_idle (e := s.eng.clear) hx h)
  · have harrive := Eng.rxPosts_arrive (e := s.eng.clear) hx hn hm hu
    exact ⟨fun hok => State.does_eq_after (harrive.trans (if_pos hok)),
      fun hbad => State.does_eq_after (harrive.trans (if_neg (by simp [hbad])))⟩

end Sys2Proof.Machine
end

section
/-! PROOF. The wake sources of DOZE and WATCH, and the steps of a wake (R129, R411, R421, R422, R423, R425, R426, R427,
R428). -/
namespace Sys2Proof.Machine

/-! ### Where a wake source is armed -/

/-- The engine is in DOZE or WATCH, in no power transition (R411). -/
def Eng.Asleep (e : Eng) : Prop := e.pwr.step = .none ∧ (e.pwr.state = .doze ∨ e.pwr.state = .watch)

/-- The engine as a wake from DOZE or WATCH begins, with the wake record of its source (R421, R422). -/
def Eng.woken (e : Eng) (code pattern port : Nat) : Eng :=
  { e with pwr := {
      e.pwr with
        step := .waking, target := .run, window := false
        wakeStep := if e.pwr.state = .doze then some .power else some .pll
        last := { source := code, from_ := if e.pwr.state = .doze then 1 else 2, pattern := pattern, port := port, abort := 0
                  holdover := e.time.holdover.isSome, time := e.tb0 } } }

section
variable {e : Eng}

/-- In RUN the state in which a source would be armed is RUN itself. -/
theorem Eng.sleepState_run (hs : e.pwr.step = .none) (hr : e.pwr.state = .run) : e.sleepState = .run := by
  simp [Eng.sleepState, hs, hr]

theorem Eng.armed_run (h : e.sleepState = .run) (code : Nat) : e.armed code = false := by simp [Eng.armed, h]

theorem Eng.laneKept_run (h : e.sleepState = .run) (p : PortId) : e.laneKept p = false := by simp [Eng.laneKept, h]

theorem Eng.wakeEvent_unarmed {code : Nat} (h : e.armed code = false) (pattern port : Nat) : e.wakeEvent code pattern port = e :=
  if_neg (by simp [h])

/-- A wake in DOZE or WATCH begins at once (R416, R422). -/
theorem Eng.wake_asleep (h : e.Asleep) (code pattern port : Nat) : e.wake code pattern port = e.woken code pattern port := by
  obtain ⟨hstep, hst | hst⟩ := h <;>
    simp [Eng.wake, Eng.beginWake, Eng.wakeRecord, Eng.woken, PwrState.code, hstep, hst]

theorem Eng.wakeEvent_asleep (h : e.Asleep) {code : Nat} (ha : e.armed code = true) (pattern port : Nat) :
    e.wakeEvent code pattern port = e.woken code pattern port :=
  (if_pos ha).trans (Eng.wake_asleep h code pattern port)

/-! ### The sources -/

/-- The wake timer does nothing where it is not armed or at 0 (R421). -/
theorem Eng.wakeTimer_idle (h : e.armed 6 = false ∨ e.pwr.wakeAt = 0) : e.wakeTimer = e :=
  if_neg fun ⟨hat, ha⟩ => h.elim (by simp [ha]) hat

/-- The wake timer clears as it fires (R421). -/
theorem Eng.wakeTimer_fires (h : e.Asleep) (ha : e.armed 6 = true) (hat : e.pwr.wakeAt ≠ 0) :
    e.wakeTimer = (e.modPwr (fun x => { x with wakeAt := 0 })).woken 6 0 0 :=
  (if_pos ⟨hat, ha⟩).trans (Eng.wake_asleep (e := e.modPwr (fun x => { x with wakeAt := 0 })) h 6 0 0)

theorem Eng.linkActivity_ignored {p : PortId} (h : e.laneKept p = false ∨ e.armed 2 = false) : e.linkActivity p = e := by
  unfold Eng.linkActivity
  split
  · next hk => exact Eng.wakeEvent_unarmed (h.resolve_left (by simp [hk])) _ _
  · rfl

theorem Eng.linkActivity_wakes (h : e.Asleep) {p : PortId} (hk : e.laneKept p = true) (ha : e.armed 2 = true) :
    e.linkActivity p = e.woken 2 0 (e.portOf p).val :=
  (if_pos hk).trans (Eng.wakeEvent_asleep h ha _ _)

/-! ### The watch window -/

theorem Eng.windowOpen_opens (hs : e.pwr.step = .none) (hw : e.pwr.state = .watch) (hu : e.pwr.watchUp = true) :
    e.windowOpen = e.modPwr (fun x => { x with window := true, windowAt := e.now }) := if_pos ⟨hw, hs, hu⟩

/-- The window opens in WATCH alone, with the watch lane kept up (R425). -/
theorem Eng.windowOpen_ignored (h : e.pwr.state ≠ .watch ∨ e.pwr.watchUp = false) : e.windowOpen = e :=
  if_neg fun ⟨hw, _, hu⟩ => h.elim (· hw) (by simp [hu])

/-- A frame outside a window, with an error or shorter than a frame wakes nothing (R426). -/
theorem Eng.watchFrame_unseen {bs : List Byte} {b : Bool} (h : e.pwr.window = false ∨ b = true ∨ bs.length < 64) :
    e.watchFrame bs b = e :=
  if_pos (by rcases h with h | h | h <;> simp [h])

/-- A frame that no pattern hits wakes nothing (R426). -/
theorem Eng.watchFrame_missed {bs : List Byte} {b : Bool} (h : ∀ i, i < 32 → (nth e.pwr.patterns i {}).hits bs = false) :
    e.watchFrame bs b = e := by
  have hnone : (upTo 32).find? (fun i => (nth e.pwr.patterns i {}).hits bs) = none :=
    List.find?_eq_none.mpr fun i hi => by simp [h i (List.mem_range.mp hi)]
  unfold Eng.watchFrame
  split
  · rfl
  · simp only [hnone]

/-- A good frame that a pattern hits within a window wakes, and is counted at the watch port (R426). -/
theorem Eng.watchFrame_hits (h : e.Asleep) {bs : List Byte} {n : Nat} (hw : e.pwr.window = true) (hlen : 64 ≤ bs.length)
    (hfcs : fcsBytes (bs.take (bs.length - 4)) = bs.drop (bs.length - 4))
    (hn : (upTo 32).find? (fun i => (nth e.pwr.patterns i {}).hits bs) = some n) (ha : e.armed 3 = true) :
    e.watchFrame bs false = (e.woken 3 n (e.portOf e.pwr.watchPort).val).stat (e.portOf e.pwr.watchPort) 0 1 := by
  have hseen : ¬ ((!e.pwr.window) = true ∨ false = true ∨ bs.length < 64 ∨
      fcsBytes (bs.take (bs.length - 4)) ≠ bs.drop (bs.length - 4)) := by
    simp [hw, hfcs]
    omega
  unfold Eng.watchFrame
  simp only [if_neg hseen, hn, ha, if_true, Eng.wakeEvent_asleep h ha]

end

/-! ### The PLL and the domains -/

section
variable {e : Eng}

theorem Eng.pllLocked_wake (hp : e.start.phase ≠ .s1) (hw : e.pwr.wakeStep = some .pll) :
    e.pllLocked = e.modPwr (fun x => { x with pll := true, wakeStep := some .power }) := (if_neg hp).trans (if_pos hw)

theorem Eng.pllLocked_ignored (hp : e.start.phase ≠ .s1) (hw : e.pwr.wakeStep ≠ some .pll) : e.pllLocked = e :=
  (if_neg hp).trans (if_neg hw)

/-- With the domains powered, a wake from DOZE goes on to the check of the banks and one from WATCH to PD_CTL's state (R423). -/
theorem Eng.powerDone_wake (hp : e.start.phase ≠ .s2) (hw : e.pwr.wakeStep = some .power) :
    e.powerDone = (e.modPwr (fun x => { x with
      ctlOn := true, restOn := true, retOn := true, lost := 0, restored := 0, recover := []
      wakeStep := some (if e.pwr.state = .doze then .check else .control) })).dealerWake := by
  unfold Eng.powerDone
  simp only [if_neg hp, if_pos hw, decide_eq_true_eq]

theorem Eng.powerDone_ignored (hp : e.start.phase ≠ .s2) (hw : e.pwr.wakeStep ≠ some .power) : e.powerDone = e :=
  (if_neg hp).trans (if_neg hw)

/-! ### The signatures -/

theorem Eng.controlRestored_ignored {sigs : List (BitVec 32)} (hw : e.pwr.wakeStep ≠ some .control) : e.controlRestored sigs = e :=
  if_pos hw

/-- PD_CTL's state is back, the signatures of its banks as stored (R423, R428). -/
theorem Eng.controlRestored_intact {sigs : List (BitVec 32)} (hw : e.pwr.wakeStep = some .control)
    (hs : e.badSigs [23, 24] (fun b => nth sigs (b - 23) 0) = []) :
    e.controlRestored sigs = (e.modPwr (fun x => { x with wakeStep := some .check })).holdEnd := by
  unfold Eng.controlRestored
  simp only [if_neg (not_not_intro hw), hs]
  rfl

theorem Eng.retentionChecked_ignored {sigs : List (BitVec 32)} {ecc : List BankId} (hw : e.pwr.wakeStep ≠ some .check) :
    e.retentionChecked sigs ecc = e := if_pos hw

/-- RB4 to RB22 are signed for DOZE, RB23 and RB24 not among them (R411, R427). -/
theorem signedBanks_doze_checked : (signedBanks .run .doze).filter (fun b => b ≠ 23 ∧ b ≠ 24) = (upTo 19).map (· + 4) := by decide

/-- Of the banks in order, those that a list of one bank or none names. -/
theorem filter_upTo_contains {n : Nat} {l : List Nat} (hl : l = [] ∨ ∃ b, b < n ∧ l = [b]) :
    (upTo n).filter (fun b => l.contains b) = l := by
  rcases hl with rfl | ⟨b, hb, rfl⟩
  · simp
  · simp only [List.contains_cons, List.contains_nil, Bool.or_false, upTo]
    rw [List.filter_beq, List.count_range, if_pos hb]
    rfl

/-- The check of a wake from DOZE that finds no word of a bank bad: the banks of a signature not as stored are LOST (R427). -/
theorem Eng.retentionChecked_doze {sigs : List (BitVec 32)} (hw : e.pwr.wakeStep = some .check) (hd : e.pwr.state = .doze)
    {l : List Nat} (hs : e.badSigs ((upTo 19).map (· + 4)) (fun b => nth sigs b 0) = l) (hl : l = [] ∨ ∃ b, b < 28 ∧ l = [b]) :
    e.retentionChecked sigs [] = (e.markLost l).modPwr (fun x => { x with wakeStep := some .start }) := by
  unfold Eng.retentionChecked
  simp only [if_neg (not_not_intro hw), if_pos hd, signedBanks_doze_checked, hs, List.map_nil, List.filter_nil, List.contains_nil,
    Bool.or_false, filter_upTo_contains hl]

end

/-! ### The recovery of a bank -/

/-- Every port's statistics set restarted (R129). -/
theorem Eng.statsLost_eq (d : Eng) :
    d.statsLost = foldEng allSlots (fun d p => d.setPort p { d.port p with
      stats := {}, pausedFor := List.replicate 8 0, statsReset := true }) d := rfl

/-- A fold whose every step passes over a change of the engine passes over it as a whole. -/
theorem foldEng_comm {α : Type} (g : Eng → Eng) (l : List α) (f : Eng → α → Eng) (h : ∀ e a, f (g e) a = g (f e a)) (e : Eng) :
    foldEng l f (g e) = g (foldEng l f e) := by
  unfold foldEng
  induction l generalizing e with
  | nil => rfl
  | cons a t ih => simp only [List.foldl_cons, h, ih]

/-- The power controller once bank `b` has its state back (R428). -/
def PwrSt.restore (x : PwrSt) (b : Nat) : PwrSt :=
  { x with restored := x.restored ||| BitVec.ofNat 28 (2 ^ b), cnt := addCnt x.cnt 5 1 }

/-- The power controller with bank `b` no longer to be recovered. -/
def PwrSt.settleBank (x : PwrSt) (b : BankId) : PwrSt := { x with recover := x.recover.filter (fun c => !decide (c = b)) }

/-- The statistics sets restart, whatever the power controller's state (R129). -/
theorem Eng.statsLost_modPwr (e : Eng) (g : PwrSt → PwrSt) : (e.modPwr g).statsLost = e.statsLost.modPwr g :=
  foldEng_comm (·.modPwr g) _ _ (fun _ _ => rfl) e

section
variable {e : Eng} {b : BankId}

/-- A bank that is not to be recovered, or a way that R428 does not give for it. -/
theorem Eng.bankRecovered_ignored {r : Recovery} (h : b ∉ e.pwr.recover ∨ e.recoverOk b.val r = false) :
    e.bankRecovered b r = e :=
  if_pos (h.imp_left fun hb => by simpa using hb)

variable (hb : b ∈ e.pwr.recover)
include hb

/-- A bank to be recovered, in a way that R428 gives for it. -/
theorem Eng.recoverable {r : Recovery} (hr : e.recoverOk b.val r = true) :
    ¬ (e.pwr.recover.contains b = false ∨ e.recoverOk b.val r = false) := by
  simp [hb, hr]

theorem Eng.bankRecovered_loss (h : 4 ≤ b.val) : e.bankRecovered b .loss = (e.modPwr (·.settleBank b)).loseBank b.val := by
  have hok : e.recoverOk b.val .loss = true := decide_eq_true h
  exact if_neg (Eng.recoverable hb hok)

/-- From the partner: RB23's state restarts the statistics sets (R129). -/
theorem Eng.bankRecovered_partner (h4 : 4 ≤ b.val) (h24 : b.val ≤ 24) (hp : e.paired = true) {d : Eng}
    (hd : e.modPwr (fun x => (x.settleBank b).restore b.val) = d) :
    e.bankRecovered b .partner = if b.val = 23 then d.statsLost else d := by
  have hok : e.recoverOk b.val .partner = true := by simp [Eng.recoverOk, h4, h24, hp]
  have hback : ∀ x : Eng, (x.modPwr (fun y => { y with restored := y.restored ||| BitVec.ofNat 28 (2 ^ b.val) })).pwrCnt 5 1 =
      x.modPwr (·.restore b.val) := fun _ => rfl
  have hd' : (e.modPwr (fun x => { x with recover := x.recover.filter (fun c => !decide (c = b)) })).modPwr (·.restore b.val) = d :=
    hd
  unfold Eng.bankRecovered
  rw [if_neg (Eng.recoverable hb hok)]
  simp only [hback]
  split
  · rw [← hd']
    simp only [Eng.statsLost_modPwr]
  · exact hd'

/-- From the boot store: what a bank of RB0 to RB3 then holds is a free value. -/
theorem Eng.bankRecovered_bootStore (h : b.val < 4) (hf : e.enabledFns = []) :
    e.bankRecovered b .bootStore = { e with
      free := e.free + 1, lcp := { e.lcp with banks := setNth e.lcp.banks b.val (Config.freeValue e.free) }
      pwr := (e.pwr.settleBank b).restore b.val } := by
  have hfold : ∀ d : Eng, foldEng e.enabledFns (fun e f => e.ctlEvent f 6 0 0 0) d = d := fun d => by rw [hf]; rfl
  have hok : e.recoverOk b.val .bootStore = true := decide_eq_true h
  exact (if_neg (Eng.recoverable hb hok)).trans (hfold _)

end

/-! ### The start -/

section
variable {e : Eng} (credits : Nat)

theorem Eng.wakeStarted_ignored (h : e.pwr.wakeStep ≠ some .start ∨ e.pwr.recover ≠ []) : e.wakeStarted credits = e := if_pos h

/-- The engine in RUN and READY, as the last step of a wake from DOZE leaves it before the work that waited (R423). -/
def Eng.running (e : Eng) : Eng :=
  let d := e.modPwr (fun x => { x with state := .run, step := .none, wakeStep := none, waiters := [], window := false })
  { d with ctl := { d.ctl with ready := true }, lcp := { d.lcp with readyAt := d.now } }

/-- The start after a wake from DOZE: the work that waited for it is done in the running engine `d` (R423, R450). -/
theorem Eng.wakeStarted_doze {d : Eng} (hw : e.pwr.wakeStep = some .start) (hr : e.pwr.recover = [])
    (hd : e.pwr.state = .doze) (h : e.running = d) :
    e.wakeStarted credits = (
      let d := d.lateCages.lateTtls.fastStartAll.reopen
      let d : Eng := { d with pwr := { d.pwr with wasUp := [], watchUp := false } }
      let d : Eng :=
        if d.pair.state = .standbyStale then { d with pair := { d.pair with lostLink := true, wakeSent := true } } else d
      (d.pwrAnswerAll e.pwr.waiters 0 0).pwrNext credits) := by
  have hgo : ¬ (e.pwr.wakeStep ≠ some .start ∨ e.pwr.recover ≠ []) := by simp [hw, hr]
  have hwatch : decide (e.pwr.state = .watch) = false := by simp [hd]
  unfold Eng.running at h
  unfold Eng.wakeStarted
  simp only [if_neg hgo, hwatch, Bool.false_eq_true, if_false, h]
  -- what the work that waited leaves is the same engine on both sides, whatever it is
  generalize d.lateCages.lateTtls.fastStartAll.reopen = x
  rfl

end

/-- Settles O41: a source that is armed begins a wake where the engine sleeps, and each step of a wake acts in its place
alone. -/
theorem wakeSourcesAndSteps : Obligations.WakeSourcesAndSteps := by
  unfold Obligations.WakeSourcesAndSteps
  refine ⟨fun s => ⟨fun hrun => ?_, fun hsleep => ⟨fun ha => ?_, fun ha => ?_, fun ha hat => ?_, fun h => ?_, fun p hk ha => ?_,
      fun p h => ?_⟩, fun hs hw hu => ?_, fun hu => ?_, fun h => ?_, fun h => ?_,
      fun bs => ⟨?_, fun h => ?_, fun h => ?_, fun h => ?_, fun n hsleep hw hlen hfcs hn ha => ?_⟩⟩,
    fun s => ⟨fun hp => ?_, fun hp hw => ?_, fun hp hw => ?_, fun hp => ?_, fun hp hw => ?_, fun hp hw => ?_,
      fun sigs => ⟨fun hw => ?_, fun hw hs => ?_⟩, fun sigs ecc => ⟨fun hw => ?_, fun hw hd hs => ?_, fun b hw hd hs hb => ?_⟩,
      fun b r => ⟨fun hb => ?_, fun hb => ⟨fun h4 => ?_, fun h4 => ⟨?_, ?_⟩, fun h4 h24 hp => ⟨fun hne => ?_, fun heq => ?_⟩,
        fun hp => ?_, fun h4 hf => ?_⟩⟩, fun h => ?_, fun hw hr hd => ?_⟩⟩
  · have hst := Eng.sleepState_run (e := s.eng.clear) hrun.1 hrun.2
    have hno := Eng.armed_run hst
    refine ⟨?_, ?_, ?_, fun p => ?_, fun bs b hwin => ?_⟩
    · exact State.does_eq_after (Eng.wakeEvent_unarmed (hno 7) 0 0)
    · exact State.does_eq_after (Eng.wakeTimer_idle (.inl (hno 6)))
    · exact State.does_eq_after (Eng.windowOpen_ignored (e := s.eng.clear) (.inl (by simp [hrun.2])))
    · exact State.does_eq_after (Eng.linkActivity_ignored (.inl (Eng.laneKept_run hst p)))
    · exact State.does_eq_after (Eng.watchFrame_unseen (e := s.eng.clear) (.inl hwin))
  · exact State.does_eq_after (Eng.wakeEvent_asleep (e := s.eng.clear) hsleep ha 0 0)
  · exact State.does_eq_after (Eng.wakeEvent_unarmed (e := s.eng.clear) ha 0 0)
  · exact State.does_eq_after (Eng.wakeTimer_fires (e := s.eng.clear) hsleep ha hat)
  · exact State.does_eq_after (Eng.wakeTimer_idle (e := s.eng.clear) h)
  · exact State.does_eq_after (Eng.linkActivity_wakes (e := s.eng.clear) hsleep hk ha)
  · exact State.does_eq_after (Eng.linkActivity_ignored (e := s.eng.clear) h)
  · exact State.does_eq_after (Eng.windowOpen_opens (e := s.eng.clear) hs hw hu)
  · exact State.does_eq_after (Eng.windowOpen_ignored (e := s.eng.clear) (.inr hu))
  · exact State.does_eq_after (if_pos h)
  · exact State.does_eq_after (if_neg h)
  · exact State.does_eq_after (Eng.watchFrame_unseen (.inr (.inl rfl)))
  · exact State.does_eq_after (Eng.watchFrame_unseen (.inr (.inr h)))
  · exact State.does_eq_after (Eng.watchFrame_unseen (e := s.eng.clear) (.inl h))
  · exact State.does_eq_after (Eng.watchFrame_missed (e := s.eng.clear) h)
  · exact State.does_eq_after (Eng.watchFrame_hits (e := s.eng.clear) hsleep hw hlen hfcs hn ha)
  · exact State.does_eq_after (if_pos hp)
  · exact State.does_eq_after (Eng.pllLocked_wake (e := s.eng.clear) hp hw)
  · exact State.does_eq_after (Eng.pllLocked_ignored (e := s.eng.clear) hp hw)
  · exact State.does_eq_after (if_pos hp)
  · exact State.does_eq_after (Eng.powerDone_wake (e := s.eng.clear) hp hw)
  · exact State.does_eq_after (Eng.powerDone_ignored (e := s.eng.clear) hp hw)
  · exact State.does_eq_after (Eng.controlRestored_ignored (e := s.eng.clear) hw)
  · exact State.does_eq_after (Eng.controlRestored_intact (e := s.eng.clear) hw hs)
  · exact State.does_eq_after (Eng.retentionChecked_ignored (e := s.eng.clear) hw)
  · exact State.does_eq_after (Eng.retentionChecked_doze (e := s.eng.clear) hw hd hs (.inl rfl))
  · exact State.does_eq_after (Eng.retentionChecked_doze (e := s.eng.clear) hw hd hs (.inr ⟨b, hb, rfl⟩))
  · exact State.does_eq_after (Eng.bankRecovered_ignored (e := s.eng.clear) (.inl hb))
  · exact State.does_eq_after (Eng.bankRecovered_ignored (e := s.eng.clear) (.inr (decide_eq_false (Nat.not_le.mpr h4))))
  · exact State.does_eq_after (Eng.bankRecovered_loss (e := s.eng.clear) hb h4)
  · exact State.does_eq_after (Eng.bankRecovered_ignored (e := s.eng.clear) (.inr (decide_eq_false (Nat.not_lt.mpr h4))))
  · exact State.does_eq_after ((Eng.bankRecovered_partner (e := s.eng.clear) hb h4 h24 hp rfl).trans
      (if_neg fun h => hne (Fin.ext h)))
  · exact State.does_eq_after ((Eng.bankRecovered_partner (e := s.eng.clear) hb h4 h24 hp rfl).trans
      ((if_pos (congrArg Fin.val heq)).trans (Eng.statsLost_eq _)))
  · have hno : s.eng.clear.recoverOk b.val .partner = false := by
      have hp' : s.eng.clear.paired = false := hp
      simp [Eng.recoverOk, hp']
    exact State.does_eq_after (Eng.bankRecovered_ignored (.inr hno))
  · exact State.does_eq_after (Eng.bankRecovered_bootStore (e := s.eng.clear) hb h4 hf)
  · exact State.does_eq_after (Eng.wakeStarted_ignored (e := s.eng.clear) _ h)
  · exact State.does_eq_after (Eng.wakeStarted_doze (e := s.eng.clear) _ hw hr hd rfl)

end Sys2Proof.Machine
end

section
/-! PROOF. The statistics group's reads and the Carry group's commands (R127, R128, R219, R283, R359, R368, R372, R375, R533,
R534). -/
namespace Sys2Proof.Machine

/-! ### Issuers and slots -/

/-- F0 and the function that the port's statistics belong to may read them (R511). -/
theorem Eng.mayStat_of {e : Eng} {f : Fn} {p : PortId} (h : f = 0 ∨ (e.port p).statsOwner = f) : e.mayStat f p = true := by
  simpa [Eng.mayStat] using h

theorem firstBad_flag {v : Nat} (h : v < 2) (k : Nat) : firstBad [(k, flagOk v)] = none := by simp [firstBad, flagOk, h]

theorem firstBad_port {e : Eng} {c : Cmd} (h : e.portArg (c.slot 0) = true) : firstBad (portFirst e c) = none := by
  simp [firstBad, portFirst, h]

theorem firstBad_port_flag {e : Eng} {c : Cmd} (h : e.portArg (c.slot 0) = true) {v : Nat} (hv : v < 2) (k : Nat) :
    firstBad (portFirst e c ++ [(k, flagOk v)]) = none := by
  simp [firstBad, portFirst, flagOk, h, hv]

/-! ### Statistics -/

/-- The offload counters of port `p` cleared where `v` is 1 (R283). -/
def Eng.clearOff (e : Eng) (p : PortId) (v : Nat) : Eng := if v = 1 then e.setPort p { e.port p with off := {} } else e

/-- The translation counters cleared where `v` is 1 (R219). -/
def Eng.clearXlt (e : Eng) (v : Nat) : Eng := if v = 1 then { e with dma := { e.dma with cnt := {} } } else e

/-- The nine translation counters in the order of R219. -/
def XltCnt.items (x : XltCnt) : List Nat :=
  [x.lookups, x.misses, x.faults, x.pageReqs, x.failures, x.invals, x.txStomps, x.parked, x.parkHigh]

/-- Carry's counters cleared where `v` is 1 (R375). -/
def Eng.clearCarry (e : Eng) (v : Nat) : Eng :=
  if v = 1 then { e with carry := { e.carry with cnt := [0, 0, 0, 0, 0, 0, 0] } } else e

section
variable {e : Eng} {f : Fn} {c : Cmd}

/-- STATS_READ answers the set, and clears it (R127). -/
theorem Eng.statsRead_clears (h : e.Asks f 0x0901 1 c) (hp : e.portArg (c.slot 0) = true)
    (hm : f = 0 ∨ (e.port c.port).statsOwner = f) :
    e.statsRead f = ((e.statClear c.port).respondClear f 0x00 0 (e.statBytes c.port)
      { opcode := 0x0901, object := c.port.val, counts := e.statCounts c.port }).journalCmd f c :=
  Eng.mbxArgs_eq h (firstBad_port hp) (Eng.mayStat_of hm) rfl

theorem Eng.statsPeek_answers (h : e.Asks f 0x0902 1 c) (hp : e.portArg (c.slot 0) = true) (hf : f = 0) :
    e.statsPeek f = (e.respond f 0x00 0 (e.statBytes c.port)).journalCmd f c :=
  Eng.mbxArgs_eq h (firstBad_port hp) (decide_eq_true hf) rfl

theorem Eng.offloadStats_answers (h : e.Asks f 0x0903 2 c) (hp : e.portArg (c.slot 0) = true) (hv : c.slot 1 < 2)
    (hm : f = 0 ∨ (e.port c.port).statsOwner = f) :
    e.offloadStats f =
      ((e.clearOff c.port (c.slot 1)).respond f 0x00 0 (slotBytes (e.port c.port).off.items)).journalCmd f c :=
  Eng.mbxArgs_eq h (firstBad_port_flag hp hv 40) (Eng.mayStat_of hm) rfl

theorem Eng.xltStats_answers (h : e.Asks f 0x0904 1 c) (hv : c.slot 0 < 2) (hf : f = 0) :
    e.xltStats f = ((e.clearXlt (c.slot 0)).respond f 0x00 0 (slotBytes e.dma.cnt.items)).journalCmd f c :=
  Eng.mbxArgs_eq h (firstBad_flag hv 32) (decide_eq_true hf) rfl

theorem Eng.carryStats_answers (h : e.Asks f 0x0A07 1 c) (hv : c.slot 0 < 2) (hf : f = 0) :
    e.carryStats f = ((e.clearCarry (c.slot 0)).respond f 0x00 0 (slotBytes e.carry.cnt)).journalCmd f c :=
  Eng.mbxArgs_eq h (firstBad_flag hv 32) (decide_eq_true hf) rfl

/-! ### Channels handed over -/

theorem Eng.carryFuncConfig_applies {b : SetBlk} (h : e.Sets f 0x0A01 (fun _ => [.num 0 56]) (fun v => decide (v < 2048)) c b)
    (hf : f = 0) :
    e.carryFuncConfig f =
      ((e.modFn (fin 2048 b.object) (fun x => { x with chQuota := b.val 0 x.chQuota })).answer f 0x00 0).journalCmd f c :=
  Eng.mbxSet_eq h rfl (decide_eq_true hf) rfl

/-- A channel claimed, or given back (R359). -/
def Chan.hand (claim : Bool) (x : Chan) : Chan :=
  { x with claimed := claim, owner := if claim then 0 else x.owner, submitted := !claim && x.submitted }

/-- Some channel of a CARRY_CLAIM or CARRY_RELEASE is not IDLE. -/
theorem Eng.any_not_idle {l : List ChId} :
    l.any (fun i => !decide ((e.chan i).state = .idle)) = true ↔ ¬ ∀ k, k ∈ l → (e.chan k).state = .idle := by
  simp

section
variable {op : Nat} (claim : Bool) (h : e.Asks f op 2 c)
  (hs : f = 0 ∧ 8 ≤ c.slot 0 ∧ c.slot 0 < 64 ∧ 1 ≤ c.slot 1 ∧ c.slot 0 + c.slot 1 ≤ 64)
include h hs

/-- A CARRY_CLAIM or CARRY_RELEASE of channels there are, by the effect its body has. -/
theorem Eng.carryHand_eq {d : Eng}
    (hd : (if c.chans.any (fun i => !decide ((e.chan i).state = .idle)) then e.answer f 0x01 0
      else (foldEng c.chans (fun e k => e.modChan k (Chan.hand claim)) e).answer f 0x00 0) = d) :
    e.carryHand f op claim = d.journalCmd f c := by
  obtain ⟨hf, hlo, hhi, hn, hend⟩ := hs
  exact Eng.mbxArgs_eq h (by simp [firstBad, hlo, hhi, hn, hend]) (decide_eq_true hf) hd

/-- All of the channels are handed over where each is IDLE. -/
theorem Eng.carryHand_idle (hi : ∀ k, k ∈ c.chans → (e.chan k).state = .idle) :
    e.carryHand f op claim = ((foldEng c.chans (fun e k => e.modChan k (Chan.hand claim)) e).answer f 0x00 0).journalCmd f c :=
  Eng.carryHand_eq claim h hs (if_neg fun hany => Eng.any_not_idle.mp hany hi)

/-- None is where one is not (R359). -/
theorem Eng.carryHand_busy (hi : ¬ ∀ k, k ∈ c.chans → (e.chan k).state = .idle) :
    e.carryHand f op claim = (e.answer f 0x01 0).journalCmd f c :=
  Eng.carryHand_eq claim h hs (if_pos (Eng.any_not_idle.mpr hi))

end

/-! ### Requests -/

/-- A channel with the request of a CARRY_SUBMIT of function `f` (R358, R359, R534). -/
def Chan.submit (f : Fn) (c : Cmd) (x : Chan) : Chan :=
  { x with
    enable := true, fence := c.slot 6 == 1, prio := max 1 (c.slot 5), owner := f, submitted := true
    list := c.slot 0, srcPasid := c.slot 1, dstPasid := c.slot 2, compl := c.slot 3, reqId := c.slot 4
    doneVec := slotOpt (c.slot 7), errVec := slotOpt (c.slot 8)
    doneIrq := !decide (c.slot 7 = vNone), errIrq := !decide (c.slot 8 = vNone) }

/-- The slots of a CARRY_SUBMIT are in their ranges (R534). -/
def Cmd.submitOk (c : Cmd) : Prop :=
  c.slot 0 % 64 = 0 ∧ c.slot 1 < 2 ^ 20 ∧ c.slot 2 < 2 ^ 20 ∧ c.slot 3 % 16 = 0 ∧ c.slot 4 < 65536 ∧
    c.slot 5 < 4 ∧ c.slot 6 < 2 ∧ vecSlotOk (c.slot 7) = true ∧ vecSlotOk (c.slot 8) = true

section
variable (h : e.Asks f 0x0A04 9 c) (hs : c.submitOk)
include h hs

/-- A CARRY_SUBMIT with slots in their ranges, by the effect its body has. -/
theorem Eng.carrySubmit_eq {d : Eng}
    (hd : (if (e.fn f).chQuota ≤ e.carryHeld f then e.answer f 0x04 0
      else match pickFree 6 64 e.carryTaken with
        | none => e.answer f 0x04 0
        | some n => ((e.modChan (fin 64 n) (Chan.submit f c)).carryGo (fin 64 n)).respond f 0x00 0 (slotBytes [n, c.slot 4])) = d) :
    e.carrySubmit f = d.journalCmd f c := by
  obtain ⟨h0, h1, h2, h3, h4, h5, h6, h7, h8⟩ := hs
  refine Eng.mbxArgs_eq h ?_ rfl hd
  simp only [firstBad, flagOk, h0, h1, h2, h3, h4, h5, h6, h7, h8, decide_true, beq_self_eq_true, if_true]

theorem Eng.carrySubmit_full (hq : (e.fn f).chQuota ≤ e.carryHeld f) :
    e.carrySubmit f = (e.answer f 0x04 0).journalCmd f c := Eng.carrySubmit_eq h hs (if_pos hq)

theorem Eng.carrySubmit_starts (hq : e.carryHeld f < (e.fn f).chQuota) {n : Nat} (hn : pickFree 6 64 e.carryTaken = some n) :
    e.carrySubmit f = (((e.modChan (fin 64 n) (Chan.submit f c)).carryGo (fin 64 n)).respond f 0x00 0
      (slotBytes [n, c.slot 4])).journalCmd f c :=
  Eng.carrySubmit_eq h hs ((if_neg (Nat.not_le.mpr hq)).trans (by rw [hn]))

end

/-- The channel and REQ_ID of a CARRY_STATUS or CARRY_ABORT name a request that the issuer may name (R534). -/
def Eng.Names (e : Eng) (f : Fn) (c : Cmd) : Prop :=
  c.slot 0 < 64 ∧ (e.chan (fin 64 (c.slot 0))).grp ≠ 0 ∧ (e.chan (fin 64 (c.slot 0))).curReq = c.slot 1 ∧
    (f = 0 ∨ (e.chan (fin 64 (c.slot 0))).owner = f ∧ (e.chan (fin 64 (c.slot 0))).submitted = true)

theorem Eng.firstBad_carryNamed (h : e.Names f c) : firstBad (Eng.carryNamed f e c) = none := by
  obtain ⟨hlt, hg, hr, hf⟩ := h
  simp [firstBad, Eng.carryNamed, hlt, hg, hr, hf]

/-- A late error is taken back once it has been reported to the owner of the submitted request (R368). -/
def Eng.lateTold (e : Eng) (f : Fn) (i : ChId) : Eng :=
  if (e.chan i).submitted = true ∧ (e.chan i).owner = f then e.setChan i { e.chan i with lateErr := false } else e

/-- What CARRY_STATUS answers of a channel (R534). -/
def Eng.chanStatus (e : Eng) (i : ChId) : List Nat :=
  [(e.chan i).state.code, e.chanElem i, e.chanDone i, (e.chan i).result, b2n (e.chan i).lateErr, (e.chan i).lateAddr,
   (e.chan i).errAddr]

section
variable (hn : e.Names f c)
include hn

theorem Eng.carryStatus_answers (h : e.Asks f 0x0A05 2 c) :
    e.carryStatus f = ((e.lateTold f (fin 64 (c.slot 0))).respond f 0x00 0
      (slotBytes (e.chanStatus (fin 64 (c.slot 0))))).journalCmd f c :=
  Eng.mbxArgs_eq h (Eng.firstBad_carryNamed hn) rfl rfl

/-- CARRY_ABORT is answered at once where the request has ended, else when it does (R372). -/
theorem Eng.carryAbortCmd_aborts (h : e.Asks f 0x0A06 2 c) :
    e.carryAbortCmd f = (if (e.chan (fin 64 (c.slot 0))).state = .idle then e.answer f 0x00 0
      else (e.working f).carryAbort (fin 64 (c.slot 0))).journalCmd f c :=
  Eng.mbxArgs_eq h (Eng.firstBad_carryNamed hn) rfl rfl

end
end

/-- Settles O59: each command's request and issuer pass, and its own body gives the answer and the effect. -/
theorem statisticsAndCarryCommands : Obligations.StatisticsAndCarryCommands := by
  unfold Obligations.StatisticsAndCarryCommands
  refine fun s f c => ⟨fun h hp hm => ?_, fun h hp hf => ?_, fun h hp hv hm => ?_, fun h hv hf => ?_, fun b h hf => ?_,
    fun hs h => ⟨fun hi => ?_, fun hi => ?_⟩, fun hs h => ⟨fun hi => ?_, fun hi => ?_⟩,
    fun h h0 h1 h2 h3 h4 h5 h6 h7 h8 => ?_, fun hn h => ?_, fun hn h => ?_, fun h hv hf => ?_⟩
  · exact State.does_eq_after (Eng.statsRead_clears h hp hm)
  · exact State.does_eq_after (Eng.statsPeek_answers h hp hf)
  · exact State.does_eq_after (Eng.offloadStats_answers h hp hv hm)
  · exact State.does_eq_after (Eng.xltStats_answers h hv hf)
  · exact State.does_eq_after (Eng.carryFuncConfig_applies h hf)
  · exact State.does_eq_after (Eng.carryHand_idle true h hs hi)
  · exact State.does_eq_after (Eng.carryHand_busy true h hs hi)
  · exact State.does_eq_after (Eng.carryHand_idle false h hs hi)
  · exact State.does_eq_after (Eng.carryHand_busy false h hs hi)
  · have hs : c.submitOk := ⟨h0, h1, h2, h3, h4, h5, h6, h7, h8⟩
    exact ⟨fun hq => State.does_eq_after (Eng.carrySubmit_full h hs hq),
      fun n hq hfree => State.does_eq_after (Eng.carrySubmit_starts h hs hq hfree)⟩
  · exact State.does_eq_after (Eng.carryStatus_answers hn h)
  · exact State.does_eq_after (Eng.carryAbortCmd_aborts hn h)
  · exact State.does_eq_after (Eng.carryStats_answers h hv hf)

end Sys2Proof.Machine
end

section
/-! PROOF. The thinning handshake's messages and timers, the load interval, and the end of the transmit gap (R132, R135, R136,
R137, R139, R140, R141, R143, R144, R147, R148). -/
namespace Sys2Proof.Machine

/-! ### Messages received -/

/-- The handshake that a proposal begins at its responder (R140). -/
def Port.responder (x : Port) (m : ThinMsg) : Handshake :=
  { initiator := false, seq := m.seq, target := x.target m, restore := m.restore, warm := x.warmLanes
    pwarm := m.warm.toNat, phase := .sendMark }

/-- A first switch to no more lanes than the present ones is never left out (R140). -/
theorem Handshake.skips_of_le {h : Handshake} {cur : Nat} (ht : h.target ≤ cur) : h.skips cur = false := by
  simp [Handshake.skips, Nat.not_lt.mpr ht]

/-- A handshake message that a port in UP receives good, by the effect `d` that the message has. -/
theorem State.does_rxThin {s : State} {p : PortId} (hup : (s.eng.port p).state = .up) (hon : s.eng.pwr.restOn = true) {ty : Nat}
    {m : ThinMsg} {d : Eng} (h : (s.eng.clear.rxControl p 0x0180C200000E 64).thinRx p ty m = d) :
    s.does (fun e => e.rxThin p ty m) = .next (s.after d) :=
  State.does_eq_after ((if_pos (Eng.mayReceive_of_up (e := s.eng.clear) hup hon)).trans h)

section
variable {e : Eng} {p : PortId} {m : ThinMsg}

theorem Eng.answerPropose_rejects {r : Nat} (hr : e.rejectReason p m = some r) :
    e.answerPropose p m =
      let t : Trump := .thin 3 ((e.port p).thinMsg ((e.port p).responder m) r 0)
      (e.setPort p { e.port p with lastAnswer := some (m.seq, t) }).pushTrump p t := by
  simp only [Eng.answerPropose, hr, Port.responder]

theorem Eng.answerPropose_accepts (hr : e.rejectReason p m = none) (ht : (e.port p).target m ≤ (e.port p).txLanes) :
    e.answerPropose p m =
      let h := (e.port p).responder m
      let t : Trump := .thin 2 ((e.port p).thinMsg h 0 0)
      ((e.setPort p { e.port p with lastAnswer := some (m.seq, t), hs := some h }).pushTrump p t).pushTrump p
        (.thin 5 ((e.port p).thinMsg h 0 1)) := by
  have hskip : ((e.port p).responder m).skips (e.port p).txLanes = false := Handshake.skips_of_le ht
  unfold Port.responder at hskip ⊢
  simp only [Eng.answerPropose, hr, hskip, Bool.false_eq_true, if_false]

variable (hup : (e.port p).state = .up)
include hup

section
variable (hs : (e.port p).hs = none)
include hs

theorem Eng.rxPropose_known (hg : (e.port p).gap = none) {t : Trump} (hl : (e.port p).lastAnswer = some (m.seq, t)) :
    e.rxPropose p m = e.pushTrump p t := by
  simp [Eng.rxPropose, hup, hs, hg, hl]

theorem Eng.rxPropose_first (hg : (e.port p).gap = none) (hl : (e.port p).lastAnswer = none) :
    e.rxPropose p m = e.answerPropose p m := by
  simp [Eng.rxPropose, hup, hs, hg, hl]

theorem Eng.rxAccept_idle : e.rxAccept p m = e.thinBad p := by simp [Eng.rxAccept, hup, hs]
theorem Eng.rxReject_idle : e.rxReject p m = e.thinBad p := by simp [Eng.rxReject, hup, hs]
theorem Eng.rxReady_idle : e.rxReady p m = e.thinBad p := by simp [Eng.rxReady, hup, hs]
theorem Eng.rxMark_idle : e.rxMark p m = e.thinBad p := by simp [Eng.rxMark, hup, hs]

end

section
variable {h : Handshake} (hs : (e.port p).hs = some h) (hq : h.seq = m.seq)
include hs hq

section
variable {n : Nat} (hi : h.initiator = true) (hp : h.phase = .proposed n)
include hi hp

theorem Eng.rxAccept_proposed (ht : h.target ≤ (e.port p).txLanes) :
    e.rxAccept p m = e.setPort p { e.port p with hs := some { h with pwarm := m.warm.toNat, phase := .waitMark } } := by
  have hskip (h' : Handshake) (hh : h'.target = h.target) : h'.skips (e.port p).txLanes = false :=
    Handshake.skips_of_le (Nat.le_trans (Nat.le_of_eq hh) ht)
  simp only [Eng.rxAccept, hup, hs, hq, hi, hp, hskip, ne_eq, not_true_eq_false, Bool.false_eq_true, if_false]

/-- A rejected narrowing is not proposed again for 100 ms (R148). -/
theorem Eng.rxReject_narrowing (ht : h.target < (e.port p).txLanes) :
    e.rxReject p m = ((e.hsDrop p).modPort p (fun y => { y with
      noNarrow := e.now + 39062500, thin := { y.thin with rejects := sat64 (y.thin.rejects + 1) } })).widenNext p := by
  simp only [Eng.rxReject, hup, hs, hq, hi, hp, ht, ne_eq, not_true_eq_false, if_false, if_true]
  rfl

end

theorem Eng.rxReady_kept :
    e.rxReady p m = (e.setPort p { e.port p with hs := some { h with readyRcvd := true } }).hsReady p := by
  simp [Eng.rxReady, hup, hs, hq]

/-- The responder's MARK switches this end's receiver, and is answered by this end's MARK (R140, R144). -/
theorem Eng.rxMark_awaited (hp : h.phase = .waitMark) (hw : m.switch.toNat = h.switch) :
    e.rxMark p m =
      let h' := { h with markRcvd := true, phase := .sendMark }
      ((e.setPort p { e.port p with rxLanes := h.width, hs := some h' }).mi p .rxMap h.width).pushTrump p
        (.thin 5 ((e.port p).thinMsg h' 0 h.switch)) := by
  simp only [Eng.rxMark, hup, hs, hq, hw, hp, ne_eq, not_true_eq_false, if_false]
  rfl

end
end

/-! ### The load interval -/

/-- The counts of low intervals in a row as an interval closes, one for each lower lane count (R136). -/
def Eng.lowNext (e : Eng) (p : PortId) : List Nat :=
  (upTo 3).map (fun k =>
    if e.mayThin p ∧ (e.port p).spoiled = false ∧ e.backlog p ≤ 262144 ∧ (e.port p).load < 100000 * 2 ^ k then
      min (nth (e.port p).lowCount k 0 + 1) 1000 else 0)

/-- The engine with the port's interval closed, before anything is proposed. -/
def Eng.closed (e : Eng) (p : PortId) : Eng :=
  e.setPort p { e.port p with load := 0, lowCount := e.lowNext p, spoiled := false }

/-- What the port of an engine proposes once its interval with `load` bytes is closed: a widening, else a narrowing
(R136, R137). -/
def Eng.intervalPropose (e : Eng) (p : PortId) (load : Nat) : Eng :=
  let x := e.port p
  if x.state ≠ .up then e
  else match e.widenWant p load with
    | some r => e.widenTry p r
    | none =>
      match x.narrower with
      | some m =>
        if x.lowAt m = 1000 ∧ x.hs.isNone ∧ x.gap.isNone ∧ x.noNarrow ≤ e.now ∧ x.noPropose ≤ e.now then e.propose p m false
        else e
      | none => e

section
variable {e : Eng} {p : PortId}

/-- The counts as the model computes them, in one Boolean. -/
theorem Eng.map_counts_eq_lowNext :
    (upTo 3).map (fun k =>
      if (e.mayThin p && !(e.port p).spoiled && decide (e.backlog p ≤ 262144)) && decide ((e.port p).load < 100000 * 2 ^ k)
      then min (nth (e.port p).lowCount k 0 + 1) 1000 else 0) = e.lowNext p := by
  simp [Eng.lowNext, and_assoc]

theorem Eng.thinInterval_eq : e.thinInterval p = (e.closed p).intervalPropose p (e.port p).load := by
  unfold Eng.closed
  rw [← Eng.map_counts_eq_lowNext]
  rfl

/-- A port that is not in UP counts no interval (R132). -/
theorem Eng.lowNext_not_up (h : (e.port p).state ≠ .up) : e.lowNext p = [0, 0, 0] := by
  have hno : e.mayThin p = false := by simp [Eng.mayThin, h]
  simp [Eng.lowNext, hno, upTo, List.range_succ]

theorem Eng.port_closed :
    (e.closed p).port p = { e.port p with load := 0, lowCount := e.lowNext p, spoiled := false } := Eng.port_setPort _ _ _

/-- What decides of a proposal, but for the counts, is what it was before the interval closed. -/
@[simp] theorem Eng.closed_reads :
    ((e.closed p).port p).state = (e.port p).state ∧ ((e.closed p).port p).width = (e.port p).width ∧
    ((e.closed p).port p).txLanes = (e.port p).txLanes ∧ ((e.closed p).port p).narrower = (e.port p).narrower ∧
    ((e.closed p).port p).hs = (e.port p).hs ∧ ((e.closed p).port p).gap = (e.port p).gap ∧
    ((e.closed p).port p).noNarrow = (e.port p).noNarrow ∧ ((e.closed p).port p).noPropose = (e.port p).noPropose ∧
    (e.closed p).now = e.now := by
  rw [Eng.port_closed]
  exact ⟨rfl, rfl, rfl, rfl, rfl, rfl, rfl, rfl, rfl⟩

/-- A port that is not in UP begins its counts anew, and proposes nothing. -/
theorem Eng.thinInterval_not_up (h : (e.port p).state ≠ .up) :
    e.thinInterval p = e.setPort p { e.port p with load := 0, lowCount := [0, 0, 0], spoiled := false } := by
  rw [Eng.thinInterval_eq, ← Eng.lowNext_not_up h]
  exact if_pos (by simpa using h)

section
variable (hw : (e.port p).width ≤ (e.port p).txLanes)
include hw

/-- A port at its full width wants no widening. -/
theorem Eng.widenWant_closed (load : Nat) : (e.closed p).widenWant p load = none := by simp [Eng.widenWant, hw]

variable (hup : (e.port p).state = .up)
include hup

theorem Eng.thinInterval_widest (hn : (e.port p).narrower = none) : e.thinInterval p = e.closed p := by
  simp [Eng.thinInterval_eq, Eng.intervalPropose, Eng.widenWant_closed hw, hup, hn]

section
variable {m : Nat} (hn : (e.port p).narrower = some m)
include hn

theorem Eng.thinInterval_counting (hlow : ((e.closed p).port p).lowAt m < 1000) : e.thinInterval p = e.closed p := by
  simp [Eng.thinInterval_eq, Eng.intervalPropose, Eng.widenWant_closed hw, hup, hn, Nat.ne_of_lt hlow]

/-- As the count of the next lower lane count is full that narrowing is proposed (R136). -/
theorem Eng.thinInterval_narrows (hlow : ((e.closed p).port p).lowAt m = 1000) (hs : (e.port p).hs = none)
    (hg : (e.port p).gap = none) (hnn : (e.port p).noNarrow ≤ e.now) (hnp : (e.port p).noPropose ≤ e.now) :
    e.thinInterval p = (e.closed p).propose p m false := by
  simp [Eng.thinInterval_eq, Eng.intervalPropose, Eng.widenWant_closed hw, hup, hn, hlow, hs, hg, hnn, hnp]

end
end
end

/-! ### Timers of a handshake -/

/-- The engine with the port's handshake given up, counted as a failure (R148). -/
def Eng.handshakeLost (e : Eng) (p : PortId) : Eng := (e.hsDrop p).thinCnt p (fun c => { c with failures := sat64 (c.failures + 1) })

section
variable {e : Eng} {p : PortId}

section
variable (hs : (e.port p).hs = none)
include hs

theorem Eng.proposeRetry_idle : e.proposeRetry p = e := by simp only [Eng.proposeRetry, hs]
theorem Eng.handshakeTimeout_idle : e.handshakeTimeout p = e := by simp only [Eng.handshakeTimeout, hs]
theorem Eng.readyTimeout_idle : e.readyTimeout p = e := by simp only [Eng.readyTimeout, hs]

end

section
variable {h : Handshake} (hs : (e.port p).hs = some h) (ht : (e.port p).pauseP = none)
include hs ht

section
variable {n : Nat} (hp : h.phase = .proposed n)
include hp

/-- A proposal unanswered is sent again, up to four times in all, with the WARM_LANES of the first (R143, log entry 69). -/
theorem Eng.proposeRetry_again (hn : n < 4) :
    e.proposeRetry p = (e.setPort p { e.port p with hs := some { h with phase := .proposed (n + 1) } }).pushTrump p
      ((e.port p).proposal h) := by
  simp [Eng.proposeRetry, Port.hsTimers, hs, ht, hp, hn]

variable (hn : 4 ≤ n)
include hn

theorem Eng.proposeRetry_narrowing (hw : h.target < (e.port p).txLanes) :
    e.proposeRetry p = (e.handshakeLost p).widenNext p := by
  simp [Eng.proposeRetry, Port.hsTimers, hs, ht, hp, Nat.not_lt.mpr hn, hw, Eng.handshakeLost]

theorem Eng.proposeRetry_widening (hw : (e.port p).txLanes ≤ h.target) : e.proposeRetry p = e.thinRecover p := by
  simp [Eng.proposeRetry, Port.hsTimers, hs, ht, hp, Nat.not_lt.mpr hn, Nat.not_lt.mpr hw]

end

theorem Eng.handshakeTimeout_unmarked (hp : h.phase = .waitMark ∨ h.phase = .sentMark) :
    e.handshakeTimeout p = e.thinRecover p := by
  rcases hp with hp | hp <;> simp [Eng.handshakeTimeout, Port.hsTimers, hs, ht, hp]

section
variable (hp : h.phase = .ready)
include hp

theorem Eng.readyTimeout_missing (hr : h.readySent = false ∨ h.readyRcvd = false) :
    e.readyTimeout p = ((e.handshakeLost p).modPort p (fun y =>
      { y with rewiden := some (e.now + 390625000), widenDue := none })).fail 47 p.val mNone := by
  have hno : ¬ (h.readySent = true ∧ h.readyRcvd = true) := by rcases hr with hr | hr <;> simp [hr]
  simp [Eng.readyTimeout, Port.hsTimers, hs, ht, hp, hno, Eng.handshakeLost, Eng.hsDrop, Eng.thinCnt]

omit ht in
theorem Eng.readyTimeout_exchanged (h1 : h.readySent = true) (h2 : h.readyRcvd = true) : e.readyTimeout p = e := by
  simp [Eng.readyTimeout, hs, hp, h1, h2]

end
end

/-! ### Lanes -/

theorem Eng.laneCold_warm {lane t : Nat} (h : nth (e.port p).lanes lane .cold = .warm t) :
    e.laneCold p lane = (e.setPort p { e.port p with lanes := setNth (e.port p).lanes lane .cold }).mi p .cold (2 ^ lane) := by
  simp only [Eng.laneCold, h]

/-- The lanes as a gap ends at width `w` and time `now`: those that leave service are warm from then on (R147). -/
def Port.lanesAt (x : Port) (w now : Nat) : List LaneSt :=
  (upTo x.width).map (fun i => if i < w then LaneSt.inService else match nth x.lanes i .cold with
    | .inService => .warm now
    | l => l)

/-- A port as a gap ends that narrowed it to `w` lanes, by the times of CLK_TS and TB0 (R144, R151). -/
def Port.narrowed (x : Port) (w now tb0 : Nat) : Port :=
  { x with
    gap := none, txLanes := w, lanes := x.lanesAt w now, thin := { x.thin with narrow := sat64 (x.thin.narrow + 1) }
    lowCount := [0, 0, 0], spoiled := false, load := 0, lastSwitch := tb0 }

/-- A command for the line block is nothing to Tally. -/
@[simp] theorem Eng.tally_mi (e : Eng) (p : PortId) (c : MiCmd) (arg : Nat) : (e.mi p c arg).tally = e.tally := by
  cases h : (e.port p).miCtl with
  | none => simp [Eng.mi, h]
  | some c => simp [Eng.mi, h]

theorem Eng.gapEnd_narrows {w : Nat} (hg : (e.port p).gap = some (w, true)) (hw : w < (e.port p).txLanes)
    (hbw : e.tally.bwEn = false) :
    e.gapEnd p = (((e.setPort p ((e.port p).narrowed w e.now e.tb0)).mi p .warm (laneRange w (e.port p).txLanes)).portEvent p 2
      w).hsSettle p := by
  simp only [Eng.gapEnd, hg, hw, if_true, Eng.tally_mi, Eng.setPort_frame, hbw, Bool.false_eq_true, false_and, if_false]
  rfl

end

/-- Settles O25: a handshake message is judged by the handshake there is, each timer by the phase of its handshake, an interval
by R132 and the counts, and the end of a gap makes its width the port's. -/
theorem thinningHandshakes : Obligations.ThinningHandshakes := by
  unfold Obligations.ThinningHandshakes
  refine ⟨fun s p m hst hon => ?_, fun s p => ?_⟩
  · intro e x hup
    refine ⟨fun hs hg => ⟨fun t hl => ?_, fun hl => ⟨fun r hr => ?_, fun hr ht => ?_⟩, ?_, ?_, ?_, ?_⟩, fun h hs hq =>
      ⟨fun n hi hp => ⟨fun ht => ?_, fun ht => ?_⟩, ?_, fun hp hw => ?_⟩⟩
    · exact State.does_rxThin hst hon (Eng.rxPropose_known hup hs hg hl)
    · exact State.does_rxThin hst hon ((Eng.rxPropose_first hup hs hg hl).trans (Eng.answerPropose_rejects hr))
    · exact State.does_rxThin hst hon ((Eng.rxPropose_first hup hs hg hl).trans (Eng.answerPropose_accepts hr ht))
    · exact State.does_rxThin hst hon (Eng.rxAccept_idle hup hs)
    · exact State.does_rxThin hst hon (Eng.rxReject_idle hup hs)
    · exact State.does_rxThin hst hon (Eng.rxReady_idle hup hs)
    · exact State.does_rxThin hst hon (Eng.rxMark_idle hup hs)
    · exact State.does_rxThin hst hon (Eng.rxAccept_proposed hup hs hq hi hp ht)
    · exact State.does_rxThin hst hon (Eng.rxReject_narrowing hup hs hq hi hp ht)
    · exact State.does_rxThin hst hon (Eng.rxReady_kept hup hs hq)
    · exact State.does_rxThin hst hon (Eng.rxMark_awaited hup hs hq hp hw)
  · intro e x low d
    refine ⟨fun hst => ?_, fun hup hw => ⟨fun hn => ?_, fun m hn => ⟨fun hlow => ?_, fun hlow hs hg hnn hnp => ?_⟩⟩,
      fun hpause h hs => ⟨fun n hp => ⟨fun hn => ?_, fun hn hw => ?_, fun hn hw => ?_⟩, fun hp => ?_, fun hp hr => ?_,
        fun hp h1 h2 => ?_⟩, fun hs => ⟨?_, ?_, ?_⟩, fun lane t hl => ?_, fun w hg hw hbw => ?_⟩
    · exact State.does_eq_after (Eng.thinInterval_not_up (e := s.eng.clear) hst)
    · exact State.does_eq_after (Eng.thinInterval_widest (e := s.eng.clear) hw hup hn)
    · exact State.does_eq_after (Eng.thinInterval_counting (e := s.eng.clear) hw hup hn hlow)
    · exact State.does_eq_after (Eng.thinInterval_narrows (e := s.eng.clear) hw hup hn hlow hs hg hnn hnp)
    · exact State.does_eq_after (Eng.proposeRetry_again (e := s.eng.clear) hs hpause hp hn)
    · exact State.does_eq_after (Eng.proposeRetry_narrowing (e := s.eng.clear) hs hpause hp hn hw)
    · exact State.does_eq_after (Eng.proposeRetry_widening (e := s.eng.clear) hs hpause hp hn hw)
    · exact State.does_eq_after (Eng.handshakeTimeout_unmarked (e := s.eng.clear) hs hpause hp)
    · exact State.does_eq_after (Eng.readyTimeout_missing (e := s.eng.clear) hs hpause hp hr)
    · exact State.does_eq_after (Eng.readyTimeout_exchanged (e := s.eng.clear) hs hp h1 h2)
    · exact State.does_eq_after (Eng.proposeRetry_idle (e := s.eng.clear) hs)
    · exact State.does_eq_after (Eng.handshakeTimeout_idle (e := s.eng.clear) hs)
    · exact State.does_eq_after (Eng.readyTimeout_idle (e := s.eng.clear) hs)
    · exact State.does_eq_after (Eng.laneCold_warm (e := s.eng.clear) hl)
    · exact State.does_eq_after (Eng.gapEnd_narrows (e := s.eng.clear) hg hw hbw)

end Sys2Proof.Machine
end

section
/-! PROOF. The timers of queues, rings and event queues, and the end of a stop (R170, R175, R178, R183, R185, R188). -/
namespace Sys2Proof.Machine

/-! ### Timers -/

section
variable {e : Eng} {q : TxqId} {x : Txq} (hx : e.txq q = some x)
include hx

theorem Eng.txBatchOut_none (hb : x.batch = none) : e.txBatchOut q = e := by simp only [Eng.txBatchOut, hx, hb]

theorem Eng.txBatchOut_writes {b : Batch} (hb : x.batch = some b) :
    e.txBatchOut q = (e.setTxq q (some { x with batch := none })).txRecord q 0 0 (b.last % 65536) b.count 0 0 0 := by
  simp only [Eng.txBatchOut, hx, hb]

end

section
variable {e : Eng} {q : RxqId} {x : Rxq} (hx : e.rxq q = some x)
include hx

theorem Eng.rxEvent_not_due {timer : Bool} (hd : x.eventDue timer = false) : e.rxEvent q timer = e := by
  simp only [Eng.rxEvent, hx, hd, Bool.not_false, if_true]

section
variable {timer : Bool} (hd : x.eventDue timer = true) {i : EqId} {v : Evq} (hi : e.eqOf x.fn x.eq = some i) (hv : e.eq_ i = some v)
include hd hi hv

/-- A completion event of the ring lies unconsumed. -/
theorem Eng.rxEvent_covered (hc : v.covers (.rx q) = true) : e.rxEvent q timer = e := by
  simp only [Eng.rxEvent, hx, hd, hi, hv, hc, Bool.not_true, Bool.false_eq_true, if_false, if_true]

theorem Eng.rxEvent_writes (hc : v.covers (.rx q) = false) :
    e.rxEvent q timer =
      let (ok, d) := e.writeEvent i 2 0 x.loc (x.cqCount % 65536) (some (.rx q)) none
      if ok then d.modRxq q (fun x => { x with uncovered := 0, uncovSince := none, uncovClose := false }) else d := by
  simp only [Eng.rxEvent, hx, hd, hi, hv, hc, Bool.not_true, Bool.false_eq_true, if_false]

end

theorem Eng.packClose_none (hc : x.cur = none) : e.packClose q = e := by simp only [Eng.packClose, hx, hc]

/-- PACK_TIMEOUT 0 closes no buffer (R172). -/
theorem Eng.packClose_never (ht : x.packTimeout = 0) : e.packClose q = e := by
  cases hc : x.cur with
  | none => exact Eng.packClose_none hx hc
  | some o => simp only [Eng.packClose, hx, hc, ht, if_true]

theorem Eng.packClose_closes {o : OpenBuf} (hc : x.cur = some o) (ht : x.packTimeout ≠ 0) (hp : x.placed = []) :
    e.packClose q = (e.setRxq q (some { x with cur := none })).rxClose q o.buf.idx := by
  simp only [Eng.packClose, hx, hc, ht, if_false, hp, List.reverse_nil]

theorem Eng.anchorTimer_due (ht : x.rxTs = true) (ha : x.anchorAt.isSome = true) (hl : x.anchorLast = false) (hs : x.state = .running) :
    e.anchorTimer q = e.rxAnchor q := by
  simp only [Eng.anchorTimer, hx, ht, ha, hl, hs, and_self, if_true]

/-- A ring without time-stamps, one whose last entry is an ANCHOR, or one that does not run. -/
theorem Eng.anchorTimer_idle (h : x.rxTs = false ∨ x.anchorLast = true ∨ x.state ≠ .running) : e.anchorTimer q = e := by
  simp only [Eng.anchorTimer, hx]
  refine if_neg ?_
  rintro ⟨ht, -, hl, hs⟩
  rcases h with h | h | h
  · simp [h] at ht
  · simp [h] at hl
  · exact h hs

end

section
variable {e : Eng} {i : EqId} {v : Evq} (hv : e.eq_ i = some v)
include hv

theorem Eng.modRaise_raises (ha : v.armed.isSome = true) (ht : v.modTime ≠ 0) (hs : v.evs.any (·.seen) = true) :
    e.modRaise i = (e.setEq i (some { v with armed := none })).irqOpt v.fn v.vector := by
  simp only [Eng.modRaise, hv]
  exact if_pos ⟨ha, ht, hs⟩

theorem Eng.modRaise_idle (h : v.armed = none ∨ v.modTime = 0 ∨ v.evs.any (·.seen) = false) : e.modRaise i = e := by
  simp only [Eng.modRaise, hv]
  refine if_neg ?_
  rintro ⟨ha, ht, hs⟩
  rcases h with h | h | h
  · simp [h] at ha
  · exact ht h
  · rw [h] at hs; cases hs

end

/-! ### The end of a stop -/

section
variable {e : Eng} {q : TxqId} {x : Txq} (hx : e.txq q = some x)
include hx

theorem Eng.queueStopped_txq_other (hs : x.state ≠ .stopping) : e.queueStopped (.txq q) = e := by
  simp only [Eng.queueStopped, hx]
  exact if_neg fun h => hs h.1

/-- A queue with nothing in progress and no batch open: what it has to write is its STOP record. -/
theorem Eng.queueStopped_txq (hs : x.state = .stopping) (hf : x.frames = []) (hr : x.fetching = 0) (hh : x.held = [])
    (hb : x.batch = none) (hbusy : e.busyFor (fun w => decide (w = .txCompl q)) = false) (hend : x.fetched = x.stopAt)
    (hw : (e.port x.port).wire = []) :
    e.queueStopped (.txq q) =
      ((e.txRecord q 2 0 x.cons.toNat 0 0 0 0).txState q .stopped 0).stopAnswer x.fn (.txq q) := by
  simp only [Eng.queueStopped, hx]
  rw [if_pos ⟨hs, by simp [hf, hr, hh, hbusy, hend, hw]⟩, Eng.txBatchOut_none hx hb]

end

/-- The next index of a ring that stops: that of the first posted buffer left, or of the next entry to be read (R188). -/
def Rxq.stopIdx (x : Rxq) : BitVec 16 := (x.posted.head?.map (·.idx)).getD x.fetched

section
variable {e : Eng} {q : RxqId} {x : Rxq} (hx : e.rxq q = some x)
include hx

theorem Eng.queueStopped_rxq_other (hs : x.state ≠ .stopping) : e.queueStopped (.rxq q) = e := by
  simp only [Eng.queueStopped, hx]
  exact if_neg fun h => hs h.1

/-- A ring with nothing in progress writes its STOP entry. -/
theorem Eng.queueStopped_rxq (hs : x.state = .stopping) (hr : x.fetching = 0) (hp : x.placed = []) (hw : x.waiting = [])
    (hk : x.parked = []) (hh : x.held = []) (hbusy : e.busyFor (fun w => decide (w = .rxCompl q)) = false) :
    e.queueStopped (.rxq q) =
      ((((e.rxEntry q (fun ph => closeBytes x ph 3 x.stopIdx.toNat)).modRxq q (fun x' => { x' with
        cur := none, cons := x.stopIdx, anchorLast := false })).rxState q .stopped 0).stopAnswer x.fn (.rxq q)) := by
  simp only [Eng.queueStopped, hx]
  exact if_pos ⟨hs, by simp [hr, hp, hw, hk, hh, hbusy]⟩

end

/-! ### The commands -/

/-- Settles O27: each timer acts where what it is for is due, and a stop ends where nothing of its object is in progress. -/
theorem ringTimersAndStops : Obligations.RingTimersAndStops := by
  unfold Obligations.RingTimersAndStops
  refine ⟨⟨fun s q x hx => ⟨fun hb => ?_, fun b hb => ?_⟩,
    fun s q x hx => ⟨fun hd => ?_, fun i v hd hi hv => ⟨fun hc => ?_, fun hc => ?_⟩, fun hc => ?_, fun ht => ?_,
      fun o hc ht hp => ?_, fun ht ha hl hs => ?_, fun h => ?_⟩,
    fun s i v hv => ⟨fun ha ht hs => ?_, fun h => ?_⟩⟩,
    fun s q x hx => ⟨fun hs => ?_, fun hs hf hr hh hb hbusy hend hw => ?_⟩,
    fun s q x hx => ⟨fun hs => ?_, fun hs hr hp hw hk hh hbusy => ?_⟩⟩
  · exact State.does_eq_after (Eng.txBatchOut_none (e := s.eng.clear) hx hb)
  · exact State.does_eq_after (Eng.txBatchOut_writes (e := s.eng.clear) hx hb)
  · exact State.does_eq_after (Eng.rxEvent_not_due (e := s.eng.clear) hx hd)
  · exact State.does_eq_after (Eng.rxEvent_covered (e := s.eng.clear) hx hd hi hv hc)
  · exact State.does_eq_after (Eng.rxEvent_writes (e := s.eng.clear) hx hd hi hv hc)
  · exact State.does_eq_after (Eng.packClose_none (e := s.eng.clear) hx hc)
  · exact State.does_eq_after (Eng.packClose_never (e := s.eng.clear) hx ht)
  · exact State.does_eq_after (Eng.packClose_closes (e := s.eng.clear) hx hc ht hp)
  · exact State.does_eq_after (Eng.anchorTimer_due (e := s.eng.clear) hx ht ha hl hs)
  · exact State.does_eq_after (Eng.anchorTimer_idle (e := s.eng.clear) hx h)
  · exact State.does_eq_after (Eng.modRaise_raises (e := s.eng.clear) hv ha ht hs)
  · exact State.does_eq_after (Eng.modRaise_idle (e := s.eng.clear) hv h)
  · exact State.does_eq_after (Eng.queueStopped_txq_other (e := s.eng.clear) hx hs)
  · exact State.does_eq_after (Eng.queueStopped_txq (e := s.eng.clear) hx hs hf hr hh hb hbusy hend hw)
  · exact State.does_eq_after (Eng.queueStopped_rxq_other (e := s.eng.clear) hx hs)
  · exact State.does_eq_after (Eng.queueStopped_rxq (e := s.eng.clear) hx hs hr hp hw hk hh hbusy)

end Sys2Proof.Machine
end

section
/-! PROOF. Responses to requests on the DMA master ports, their failures and their timeouts (R180, R187, R191, R397, R491, R492,
R493). -/
namespace Sys2Proof.Machine

/-! ### The request that a response ends -/

theorem takeFirst_eq_none {α : Type} {p : α → Bool} {l : List α} (h : ∀ a ∈ l, p a = false) : takeFirst p l = none := by
  induction l with
  | nil => rfl
  | cons a t ih =>
    have hrest := ih fun b hb => h b (List.mem_cons_of_mem _ hb)
    simp only [takeFirst, h a List.mem_cons_self, hrest, Bool.false_eq_true, if_false]

/-- The engine once the request of port `m` and tag `tag` has ended, which leaves the requests `l`: no invalidation waits for it,
and a waiting request takes its place (R201, R491). -/
def Eng.ended (e : Eng) (m : Fin 4) (tag : Fin 1024) (l : List Outst) : Eng :=
  ({ e with dma := { e.dma with outst := l, invals := e.dma.invals.map (fun i =>
    { i with waits := i.waits.filter (fun k => !decide (k = (m.val, tag.val))) }) } } : Eng).issueNext

section
variable {e : Eng} {m : Fin 4} {tag : Fin 1024}

theorem Eng.takeOutst_none {p : AccKind → Bool} (h : ∀ o ∈ e.dma.outst, o.port = m → o.tag = tag → p o.acc.kind = false) :
    e.takeOutst m tag p = none := by
  have hnone : takeFirst (fun o : Outst => decide (o.port = m ∧ o.tag = tag) && p o.acc.kind) e.dma.outst = none :=
    takeFirst_eq_none fun o ho => by simpa using fun hm ht => h o ho hm ht
  simp only [Eng.takeOutst, hnone]

theorem Eng.takeOutst_ends {p : AccKind → Bool} {o : Outst} {l : List Outst}
    (h : takeFirst (fun o : Outst => decide (o.port = m ∧ o.tag = tag) && p o.acc.kind) e.dma.outst = some (o, l)) :
    e.takeOutst m tag p = some (o, e.ended m tag l) := by
  simp only [Eng.takeOutst, h]
  rfl

/-! ### READ_DATA -/

theorem Eng.readData_unasked (h : ∀ o ∈ e.dma.outst, o.port = m → o.tag = tag → o.acc.kind.isRead = false) (bs : List Byte) :
    e.readData m tag bs = e := by
  simp only [Eng.readData, Eng.takeOutst_none h]

section
variable {o : Outst} {l : List Outst}
  (h : takeFirst (fun o : Outst => decide (o.port = m ∧ o.tag = tag) && o.acc.kind.isRead) e.dma.outst = some (o, l)) (bs : List Byte)
include h

/-- The operation has been given up (R189). -/
theorem Eng.readData_forgotten (hg : o.acc.grp = 0) : e.readData m tag bs = e.ended m tag l := by
  simp only [Eng.readData, Eng.takeOutst_ends h, hg, if_true]

variable (hg : o.acc.grp ≠ 0)
include hg

theorem Eng.readData_txData {q : TxqId} {id : Nat} (ho : o.acc.owner = .txData q id) :
    e.readData m tag bs = ((e.ended m tag l).readLatency o).txDataIn q id o.acc bs := by
  simp only [Eng.readData, Eng.takeOutst_ends h, hg, if_false, ho]

theorem Eng.readData_carryRead {c : ChId} (ho : o.acc.owner = .carryRead c) :
    e.readData m tag bs = ((e.ended m tag l).readLatency o).carryData c o.acc bs := by
  simp only [Eng.readData, Eng.takeOutst_ends h, hg, if_false, ho]

theorem Eng.readData_carryList {c : ChId} (ho : o.acc.owner = .carryList c) :
    e.readData m tag bs = ((e.ended m tag l).readLatency o).carryListData c o.acc bs := by
  simp only [Eng.readData, Eng.takeOutst_ends h, hg, if_false, ho]

end

/-! ### WRITE_DONE -/

theorem Eng.writeDone_unasked (h : ∀ o ∈ e.dma.outst, o.port = m → o.tag = tag → o.acc.kind.isRead = true) :
    e.writeDone m tag = e := by
  have hnone : e.takeOutst m tag (fun k => !k.isRead) = none := Eng.takeOutst_none fun o ho hm ht => by simp [h o ho hm ht]
  simp only [Eng.writeDone, hnone]

section
variable {o : Outst} {l : List Outst}
  (h : takeFirst (fun o : Outst => decide (o.port = m ∧ o.tag = tag) && !o.acc.kind.isRead) e.dma.outst = some (o, l))
include h

/-- The operation has been given up (R189). -/
theorem Eng.writeDone_forgotten (hg : o.acc.grp = 0) : e.writeDone m tag = e.ended m tag l := by
  simp only [Eng.writeDone, Eng.takeOutst_ends (p := fun k => !k.isRead) h, hg, if_true]

variable (hg : o.acc.grp ≠ 0)
include hg

theorem Eng.writeDone_txCompl {q : TxqId} (ho : o.acc.owner = .txCompl q) :
    e.writeDone m tag = ((e.ended m tag l).modTxq q (fun x => { x with uncovered := true })).txEvent q := by
  simp only [Eng.writeDone, Eng.takeOutst_ends (p := fun k => !k.isRead) h, hg, if_false, ho]

/-- A FRAME entry counts toward the ring's event; it does not make one due at once, as CLOSE and STOP do (R183). -/
theorem Eng.writeDone_rxCompl {q : RxqId} (ho : o.acc.owner = .rxCompl q) (ht : u8 o.acc.data 0 / 2 % 4 = 0) :
    e.writeDone m tag = ((e.ended m tag l).modRxq q (fun x => { x with
      uncovered := x.uncovered + 1, uncovSince := some (x.uncovSince.getD (e.ended m tag l).now) })).rxEvent q false := by
  simp only [Eng.writeDone, Eng.takeOutst_ends (p := fun k => !k.isRead) h, hg, if_false, ho, ht, if_true,
    show decide (2 ≤ 0) = false from rfl, Bool.or_false]

theorem Eng.writeDone_rxData {q : RxqId} {id : Nat} (ho : o.acc.owner = .rxData q id) :
    e.writeDone m tag = (e.ended m tag l).rxDataDone q o.acc.grp := by
  simp only [Eng.writeDone, Eng.takeOutst_ends (p := fun k => !k.isRead) h, hg, if_false, ho]

theorem Eng.writeDone_event {i : EqId} (ho : o.acc.owner = .event i) :
    e.writeDone m tag = (e.ended m tag l).eventDone i o.acc.grp := by
  simp only [Eng.writeDone, Eng.takeOutst_ends (p := fun k => !k.isRead) h, hg, if_false, ho]

end

/-! ### Failures -/

/-- The engine once request `o` has ended in source `src`, an error's 24 or a timeout's 25 (R191, R397, R492). -/
def Eng.failedReq (e : Eng) (m : Fin 4) (tag : Fin 1024) (o : Outst) (l : List Outst) (src : Fin 64) : Eng :=
  (e.ended m tag l).raiseEv (mkEv src .failure m.val o.acc.master (o.acc.owner.access o.acc.kind) o.acc.sent)

section
variable (h : ∀ o ∈ e.dma.outst, o.port ≠ m ∨ o.tag ≠ tag)
include h

theorem Eng.takeOutst_unasked : e.takeOutst m tag (fun _ => true) = none :=
  Eng.takeOutst_none fun o ho hm ht => absurd ht ((h o ho).resolve_left (not_not_intro hm))

theorem Eng.dmaError_unasked : e.dmaError m tag = e := by simp only [Eng.dmaError, Eng.takeOutst_unasked h]

theorem Eng.dmaTimeout_unasked : e.dmaTimeout m tag = e := by simp only [Eng.dmaTimeout, Eng.takeOutst_unasked h]

end

section
variable {o : Outst} {l : List Outst} (h : takeFirst (fun o : Outst => decide (o.port = m ∧ o.tag = tag)) e.dma.outst = some (o, l))
include h

theorem Eng.takeOutst_any : e.takeOutst m tag (fun _ => true) = some (o, e.ended m tag l) :=
  Eng.takeOutst_ends (by simpa only [Bool.and_true] using h)

theorem Eng.dmaError_fails : e.dmaError m tag = (e.failedReq m tag o l 24).accFailed o.acc 0 := by
  simp only [Eng.dmaError, Eng.takeOutst_any h]
  rfl

theorem Eng.dmaTimeout_fails : e.dmaTimeout m tag = (e.failedReq m tag o l 25).accFailed o.acc 3 := by
  simp only [Eng.dmaTimeout, Eng.takeOutst_any h]
  rfl

end
end

/-! ### What a failed access does to its owner -/

/-- The cause of an object's ERROR: 3 for a timeout, that of the access for an error response (R187). -/
def failCause (cause k : Nat) : Nat := if cause = 0 then k else cause

section
variable {a : Acc} (d : Eng) (cause : Nat)

theorem Eng.accFailed_forgotten (hg : a.grp = 0) : d.accFailed a cause = d := by simp only [Eng.accFailed, hg, if_true]

variable (hg : a.grp ≠ 0)
include hg

theorem Eng.accFailed_txDesc {q : TxqId} (ho : a.owner = .txDesc q) : d.accFailed a cause = d.txError q (failCause cause 1) := by
  simp only [Eng.accFailed, hg, if_false, ho, failCause]

theorem Eng.accFailed_txCompl {q : TxqId} (ho : a.owner = .txCompl q) : d.accFailed a cause = d.txError q (failCause cause 2) := by
  simp only [Eng.accFailed, hg, if_false, ho, failCause]

/-- An error response to a frame's data read fails the frame, a timeout its queue (R191, R492). -/
theorem Eng.accFailed_txData {q : TxqId} {id : Nat} (ho : a.owner = .txData q id) :
    d.accFailed a cause = if cause = 0 then d.txDataError q id a.grp else d.txError q cause := by
  simp only [Eng.accFailed, hg, if_false, ho]

theorem Eng.accFailed_rxPost {q : RxqId} (ho : a.owner = .rxPost q) : d.accFailed a cause = d.rxError q (failCause cause 1) := by
  simp only [Eng.accFailed, hg, if_false, ho, failCause]

theorem Eng.accFailed_rxEntry {q : RxqId} (ho : a.owner = .rxCompl q ∨ ∃ id, a.owner = .rxData q id) :
    d.accFailed a cause = d.rxError q (failCause cause 2) := by
  rcases ho with ho | ⟨id, ho⟩
  · simp only [Eng.accFailed, hg, if_false, ho, failCause]
  · simp only [Eng.accFailed, hg, if_false, ho, failCause]

theorem Eng.accFailed_event {i : EqId} (ho : a.owner = .event i) : d.accFailed a cause = d.eqError i (failCause cause 2) := by
  simp only [Eng.accFailed, hg, if_false, ho, failCause]

theorem Eng.accFailed_mbx {f : Fn} (ho : a.owner = .mbxReq f ∨ a.owner = .mbxRsp f) : d.accFailed a cause = d.mbxFault f := by
  rcases ho with ho | ho
  · simp only [Eng.accFailed, hg, if_false, ho]
  · simp only [Eng.accFailed, hg, if_false, ho]

end

/-! ### The commands -/

/-- A request's error response and its timeout, by the effects `d24` and `d25` that the failed access has. -/
theorem exec_dmaFailure {s : State} {m : Fin 4} {tag : Fin 1024} {o : Outst} {l : List Outst} {d24 d25 : Eng}
    (h : takeFirst (fun o : Outst => decide (o.port = m ∧ o.tag = tag)) s.eng.dma.outst = some (o, l))
    (h24 : (s.eng.clear.failedReq m tag o l 24).accFailed o.acc 0 = d24)
    (h25 : (s.eng.clear.failedReq m tag o l 25).accFailed o.acc 3 = d25) :
    exec (.dmaErrorResponse m tag) s = .next (s.after d24) ∧ exec (.dmaCompletionTimeout m tag) s = .next (s.after d25) :=
  ⟨State.does_eq_after ((Eng.dmaError_fails (e := s.eng.clear) h).trans h24),
    State.does_eq_after ((Eng.dmaTimeout_fails (e := s.eng.clear) h).trans h25)⟩

/-- Settles O30: a response ends the request there is of its port, tag and kind, and the access's owner decides what its data,
its completion or its failure does. -/
theorem dmaResponsesAndFailures : Obligations.DmaResponsesAndFailures := by
  unfold Obligations.DmaResponsesAndFailures
  refine ⟨fun s m tag bs => ⟨fun h => ?_, fun h => ?_, fun o l h => ⟨fun hg => ?_, fun hg =>
      ⟨fun q id ho => ?_, fun c ho => ?_, fun c ho => ?_⟩⟩, fun o l h => ⟨fun hg => ?_, fun hg =>
      ⟨fun q ho => ?_, fun q ho ht => ?_, fun q id ho => ?_, fun i ho => ?_⟩⟩⟩,
    fun s m tag => ⟨fun h => ?_, fun o l h => ⟨fun hg => ?_, fun hg =>
      ⟨fun q ho => ?_, fun q ho => ?_, fun q id ho => ?_, fun q ho => ?_, fun q ho => ?_, fun i ho => ?_, fun f ho => ?_⟩⟩⟩⟩
  · exact State.does_eq_after (Eng.readData_unasked (e := s.eng.clear) h bs)
  · exact State.does_eq_after (Eng.writeDone_unasked (e := s.eng.clear) h)
  · exact State.does_eq_after (Eng.readData_forgotten (e := s.eng.clear) h bs hg)
  · exact State.does_eq_after (Eng.readData_txData (e := s.eng.clear) h bs hg ho)
  · exact State.does_eq_after (Eng.readData_carryRead (e := s.eng.clear) h bs hg ho)
  · exact State.does_eq_after (Eng.readData_carryList (e := s.eng.clear) h bs hg ho)
  · exact State.does_eq_after (Eng.writeDone_forgotten (e := s.eng.clear) h hg)
  · exact State.does_eq_after (Eng.writeDone_txCompl (e := s.eng.clear) h hg ho)
  · exact State.does_eq_after (Eng.writeDone_rxCompl (e := s.eng.clear) h hg ho ht)
  · exact State.does_eq_after (Eng.writeDone_rxData (e := s.eng.clear) h hg ho)
  · exact State.does_eq_after (Eng.writeDone_event (e := s.eng.clear) h hg ho)
  · exact ⟨State.does_eq_after (Eng.dmaError_unasked (e := s.eng.clear) h),
      State.does_eq_after (Eng.dmaTimeout_unasked (e := s.eng.clear) h)⟩
  · exact exec_dmaFailure h (Eng.accFailed_forgotten _ 0 hg) (Eng.accFailed_forgotten _ 3 hg)
  · exact exec_dmaFailure h (Eng.accFailed_txDesc _ 0 hg ho) (Eng.accFailed_txDesc _ 3 hg ho)
  · exact exec_dmaFailure h (Eng.accFailed_txCompl _ 0 hg ho) (Eng.accFailed_txCompl _ 3 hg ho)
  · exact exec_dmaFailure h (Eng.accFailed_txData _ 0 hg ho) (Eng.accFailed_txData _ 3 hg ho)
  · exact exec_dmaFailure h (Eng.accFailed_rxPost _ 0 hg ho) (Eng.accFailed_rxPost _ 3 hg ho)
  · exact exec_dmaFailure h (Eng.accFailed_rxEntry _ 0 hg ho) (Eng.accFailed_rxEntry _ 3 hg ho)
  · exact exec_dmaFailure h (Eng.accFailed_event _ 0 hg ho) (Eng.accFailed_event _ 3 hg ho)
  · exact exec_dmaFailure h (Eng.accFailed_mbx _ 0 hg ho) (Eng.accFailed_mbx _ 3 hg ho)

end Sys2Proof.Machine
end

section
/-! PROOF. The commands that run, query and destroy queues, rings and event queues, and VECTOR_MASK (R154, R186 to R192, R219,
R526). -/
namespace Sys2Proof.Machine

/-! ### A command on an object -/

section
variable {e : Eng} {f : Fn} {op n : Nat} {c : Cmd} {checks : Eng → Cmd → List (Nat × Bool)} {o : FObj}
  (h : e.Asks f op n c) (ho : e.objOf f (c.slot 0) = some o)
include h ho

/-- A command on an object that there is, its other checks passed, by the effect `d` that its body has. -/
theorem Eng.mbxObj_eq (hc : firstBad (checks e c) = none) {body : Eng → Cmd → FObj → Eng} {d : Eng} (hb : body e c o = d) :
    e.mbxObj f op n checks body = d.journalCmd f c :=
  Eng.mbxArgs_eq h (by simpa [firstBad, ho] using hc) rfl (by simpa only [ho] using hb)

/-- A command on an object that there is whose first offending slot is at byte `k` (R53). -/
theorem Eng.mbxObj_invalid {k : Nat} (hc : firstBad (checks e c) = some k) (body : Eng → Cmd → FObj → Eng) :
    e.mbxObj f op n checks body = (e.answer f 0x03 k).journalCmd f c :=
  Eng.mbxArgs_invalid h (by simpa [firstBad, ho] using hc) _ _

end

/-! ### Transmit queues -/

/-- The engine with a stop of queue `q` begun that has the frames up to `lim`, or goes on (R188). -/
def Eng.txStopping (e : Eng) (q : TxqId) (x : Txq) (lim : BitVec 16) : Eng :=
  if x.state = .stopping then e
  else (e.setTxq q (some { x with stopAt := x.stopEnd lim, stopMode := .drain })).txState q .stopping x.cause

/-- The engine with queue `q` reset: its fields and counters are kept (R189, R192). -/
def Eng.txReset (e : Eng) (q : TxqId) (x : Txq) : Eng :=
  if x.state = .stopped then (e.txClear q x).modTxq q Txq.fresh
  else ((e.txClear q x).modTxq q Txq.fresh).txState q .stopped 0

/-- What QUEUE_STATS clears of a queue (R192). -/
def Txq.cleared (x : Txq) : Txq := { x with txFrames := 0, txOctets := 0, txErrors := 0, rejects := 0 }

section
variable {e : Eng} {f : Fn} {c : Cmd} {q : TxqId} {x : Txq} (ho : e.objOf f (c.slot 0) = some (.txq q)) (hx : e.txq q = some x)
include hx

theorem Eng.txqState_eq : e.txqState q = some x.state := by simp only [Eng.txqState, hx, Option.map_some]

theorem Eng.prodNow_eq : e.prodNow q = x.prod := by simp only [Eng.prodNow, hx, Option.map_some, Option.getD_some]

theorem Eng.txStop_eq (lim : BitVec 16) (flush : Bool) : e.txStop q lim flush =
    if flush then ((e.txStopping q x lim).modTxq q (fun y => { y with stopMode := .flush })).txFlush q
    else (e.txStopping q x lim).txFetch q := by
  simp only [Eng.txStop, hx]
  rfl

theorem Eng.mayDestroy_txq : e.mayDestroy (.txq q) = (decide (x.state = .stopped) || decide (x.state = .error)) := by
  simp only [Eng.mayDestroy, hx]

include ho

theorem Eng.queueStart_txq (h : e.Asks f 0x0205 1 c) :
    e.queueStart f =
      (if x.state = .stopped then ((e.txState q .running 0).txFetch q).answer f 0x00 0
        else if x.state = .running then e.answer f 0x00 0 else e.answer f 0x03 32).journalCmd f c := by
  refine Eng.mbxObj_eq h ho rfl ?_
  simp only [Eng.txqState_eq hx]
  cases x.state <;> rfl

theorem Eng.queueStop_txq (h : e.Asks f 0x0206 2 c) (hm : c.slot 1 < 2) :
    e.queueStop f =
      (if x.state = .stopped then e.answer f 0x00 0 else if x.state = .error then e.answer f 0x03 32
        else (if c.slot 1 = 1 then
            ((e.txStopping q x (c.prodOf q x.prod)).modTxq q (fun y => { y with stopMode := .flush })).txFlush q
          else (e.txStopping q x (c.prodOf q x.prod)).txFetch q).working f).journalCmd f c := by
  refine Eng.mbxObj_eq h ho (firstBad_flag hm _) ?_
  simp only [Eng.txqState_eq hx, Eng.prodNow_eq hx, Eng.txStop_eq hx, beq_iff_eq]
  cases x.state <;> rfl

theorem Eng.queueReset_txq (h : e.Asks f 0x0207 1 c) :
    e.queueReset f =
      (if (e.txReset q x).objBusy (.txq q) then (e.txReset q x).working f else (e.txReset q x).answer f 0x00 0).journalCmd f c := by
  refine Eng.mbxObj_eq h ho rfl ?_
  simp only [Eng.objReset, hx]
  rfl

theorem Eng.queueDestroy_txq (h : e.Asks f 0x0208 1 c) {cf : Commit} (hcf : cf.fail = none)
    (hs : x.state = .stopped ∨ x.state = .error) :
    e.queueDestroy f cf = ((((e.txClear q x).setTxq q none).setLeaf q {}).answer f 0x00 0).journalCmd f c := by
  have hmay : e.mayDestroy (.txq q) = true := by simpa [Eng.mayDestroy_txq hx] using hs
  refine Eng.mbxObj_eq h ho (by simp [firstBad, ho, hmay]) ?_
  simp only [hx, Eng.twoPhase_commits _ _ hcf, Eng.objDestroy]
  rfl

theorem Eng.queueDestroy_txq_refused (h : e.Asks f 0x0208 1 c) (cf : Commit) (hs : x.state ≠ .stopped) (he : x.state ≠ .error) :
    e.queueDestroy f cf = (e.answer f 0x03 32).journalCmd f c :=
  Eng.mbxObj_invalid h ho (by simp [firstBad, ho, Eng.mayDestroy_txq hx, hs, he]) _

theorem Eng.queueQuery_txq (h : e.Asks f 0x0209 1 c) :
    e.queueQuery f = (e.respond f 0x00 0 (slotBytes ([x.state.code, x.cause, x.prod.toNat, x.cons.toNat, x.cqCount % 65536] ++
      if x.state = .paused then e.faultItems (.txq q) 0 else [0, 0, 0, 0, 0]))).journalCmd f c := by
  refine Eng.mbxObj_eq h ho rfl ?_
  simp only [hx]
  rfl

theorem Eng.queueStats_txq (h : e.Asks f 0x020A 2 c) (hm : c.slot 1 < 2) :
    e.queueStats f = ((if c.slot 1 = 1 then e.setTxq q (some x.cleared) else e).respond f 0x00 0
      (slotBytes [x.txFrames, x.txOctets, x.txErrors, x.rejects])).journalCmd f c := by
  refine Eng.mbxObj_eq h ho (firstBad_flag hm _) ?_
  simp only [hx, beq_iff_eq]
  rfl

end

/-! ### Receive rings -/

/-- The engine with ring `q` RUNNING from STOPPED, an ANCHOR due (R178, R187). -/
def Eng.rxStarted (e : Eng) (q : RxqId) (x : Rxq) : Eng :=
  ((e.setRxq q (some { x with anchorDue := true, anchorAt := none, anchorLast := false })).rxState q .running 0).rxFetch q

/-- The engine with a stop of ring `q` begun, or going on (R188). -/
def Eng.rxStopping (e : Eng) (q : RxqId) (x : Rxq) : Eng :=
  if x.state = .stopping then e else (e.setRxq q (some { x with stopMode := .drain })).rxState q .stopping x.cause

/-- The engine with ring `q` reset: its fields and counters are kept (R189, R192). -/
def Eng.rxReset (e : Eng) (q : RxqId) (x : Rxq) : Eng :=
  if x.state = .stopped then (e.rxClear q x).modRxq q Rxq.fresh
  else ((e.rxClear q x).modRxq q Rxq.fresh).rxState q .stopped 0

/-- What QUEUE_STATS clears of a ring (R192). -/
def Rxq.cleared (x : Rxq) : Rxq :=
  { x with rxFrames := 0, rxOctets := 0, noBuffer := 0, stoppedDrops := 0, quenchDrops := 0, faultDrops := 0, rejects := 0 }

section
variable {e : Eng} {f : Fn} {c : Cmd} {q : RxqId} {x : Rxq} (ho : e.objOf f (c.slot 0) = some (.rxq q)) (hx : e.rxq q = some x)
include hx

theorem Eng.rxqState_eq : e.rxqState q = some x.state := by simp only [Eng.rxqState, hx, Option.map_some]

theorem Eng.modRxq_eq (g : Rxq → Rxq) : e.modRxq q g = e.setRxq q (some (g x)) := by
  simp only [Eng.modRxq, hx, Option.map_some]

theorem Eng.rxStop_eq (flush : Bool) : e.rxStop q flush =
    if flush then ((e.rxStopping q x).modRxq q (fun y => { y with stopMode := .flush })).rxFlush q else e.rxStopping q x := by
  simp only [Eng.rxStop, hx]
  rfl

theorem Eng.mayDestroy_rxq :
    e.mayDestroy (.rxq q) = ((decide (x.state = .stopped) || decide (x.state = .error)) && !e.ringNamed q x) := by
  simp only [Eng.mayDestroy, hx]

include ho

theorem Eng.queueStart_rxq (h : e.Asks f 0x0205 1 c) :
    e.queueStart f =
      (if x.state = .stopped then (e.rxStarted q x).answer f 0x00 0
        else if x.state = .running then e.answer f 0x00 0 else e.answer f 0x03 32).journalCmd f c := by
  refine Eng.mbxObj_eq h ho rfl ?_
  simp only [Eng.rxqState_eq hx]
  cases x.state
  case stopped => simp only [Eng.modRxq_eq hx]; rfl
  all_goals rfl

theorem Eng.queueStop_rxq (h : e.Asks f 0x0206 2 c) (hm : c.slot 1 < 2) :
    e.queueStop f =
      (if x.state = .stopped then e.answer f 0x00 0 else if x.state = .error then e.answer f 0x03 32
        else (if c.slot 1 = 1 then ((e.rxStopping q x).modRxq q (fun y => { y with stopMode := .flush })).rxFlush q
          else e.rxStopping q x).working f).journalCmd f c := by
  refine Eng.mbxObj_eq h ho (firstBad_flag hm _) ?_
  simp only [Eng.rxqState_eq hx, Eng.rxStop_eq hx, beq_iff_eq]
  cases x.state <;> rfl

theorem Eng.queueReset_rxq (h : e.Asks f 0x0207 1 c) :
    e.queueReset f =
      (if (e.rxReset q x).objBusy (.rxq q) then (e.rxReset q x).working f else (e.rxReset q x).answer f 0x00 0).journalCmd f c := by
  refine Eng.mbxObj_eq h ho rfl ?_
  simp only [Eng.objReset, hx]
  rfl

theorem Eng.queueDestroy_rxq (h : e.Asks f 0x0208 1 c) (cf : Commit) (hs : x.state = .stopped ∨ x.state = .error)
    (hn : e.ringNamed q x = false) :
    e.queueDestroy f cf = (((e.rxClear q x).setRxq q none).answer f 0x00 0).journalCmd f c := by
  have hmay : e.mayDestroy (.rxq q) = true := by simpa [Eng.mayDestroy_rxq hx, hn] using hs
  refine Eng.mbxObj_eq h ho (by simp [firstBad, ho, hmay]) ?_
  simp only [Eng.objDestroy, hx]
  rfl

theorem Eng.queueDestroy_rxq_refused (h : e.Asks f 0x0208 1 c) (cf : Commit)
    (hn : x.state ≠ .stopped ∧ x.state ≠ .error ∨ e.ringNamed q x = true) :
    e.queueDestroy f cf = (e.answer f 0x03 32).journalCmd f c := by
  have hmay : e.mayDestroy (.rxq q) = false := by
    rcases hn with ⟨hs, he⟩ | hn
    · simp [Eng.mayDestroy_rxq hx, hs, he]
    · simp [Eng.mayDestroy_rxq hx, hn]
  exact Eng.mbxObj_invalid h ho (by simp [firstBad, ho, hmay]) _

theorem Eng.queueQuery_rxq (h : e.Asks f 0x0209 1 c) :
    e.queueQuery f = (e.respond f 0x00 0 (slotBytes ([x.state.code, x.cause, x.prod.toNat, x.cons.toNat, x.cqCount % 65536] ++
      if x.state = .paused then e.faultItems (.rxq q) x.parkedBytes else [0, 0, 0, 0, 0]))).journalCmd f c := by
  refine Eng.mbxObj_eq h ho rfl ?_
  simp only [hx]
  rfl

theorem Eng.queueStats_rxq (h : e.Asks f 0x020A 2 c) (hm : c.slot 1 < 2) :
    e.queueStats f = ((if c.slot 1 = 1 then e.setRxq q (some x.cleared) else e).respond f 0x00 0 (slotBytes
      [x.rxFrames, x.rxOctets, x.noBuffer, x.stoppedDrops, x.quenchDrops, x.faultDrops, x.rejects])).journalCmd f c := by
  refine Eng.mbxObj_eq h ho (firstBad_flag hm _) ?_
  simp only [hx, beq_iff_eq]
  rfl

end

/-! ### Event queues -/

/-- The engine with event queue `i` reset (R189). -/
def Eng.eqReset (e : Eng) (i : EqId) : Eng := (e.forget (.eq i)).modEq i Evq.fresh

section
variable {e : Eng} {f : Fn} {c : Cmd} {i : EqId} (ho : e.objOf f (c.slot 0) = some (.eq i))
include ho

/-- An event queue always runs: it is neither started nor stopped (R187). -/
theorem Eng.queueStart_evq (h : e.Asks f 0x0205 1 c) : e.queueStart f = (e.answer f 0x03 32).journalCmd f c :=
  Eng.mbxObj_eq h ho rfl rfl

theorem Eng.queueStop_evq (h : e.Asks f 0x0206 2 c) (hm : c.slot 1 < 2) :
    e.queueStop f = (e.answer f 0x03 32).journalCmd f c :=
  Eng.mbxObj_eq h ho (firstBad_flag hm _) rfl

theorem Eng.queueReset_evq (h : e.Asks f 0x0207 1 c) :
    e.queueReset f =
      (if (e.eqReset i).objBusy (.eq i) then (e.eqReset i).working f else (e.eqReset i).answer f 0x00 0).journalCmd f c :=
  Eng.mbxObj_eq h ho rfl rfl

/-- An event queue keeps no counters (log entry 33). -/
theorem Eng.queueStats_evq (h : e.Asks f 0x020A 2 c) (hm : c.slot 1 < 2) :
    e.queueStats f = (e.respond f 0x00 0 []).journalCmd f c :=
  Eng.mbxObj_eq h ho (firstBad_flag hm _) rfl

section
variable {x : Evq} (hx : e.eq_ i = some x) (h : e.Asks f 0x0208 1 c) (cf : Commit)
include hx h

theorem Eng.queueDestroy_evq (hb : e.eqBound x.fn x.loc = false) :
    e.queueDestroy f cf = (((e.forget (.eq i)).setEq i none).answer f 0x00 0).journalCmd f c :=
  Eng.mbxObj_eq h ho (by simp [firstBad, ho, Eng.mayDestroy, hx, hb]) rfl

theorem Eng.queueDestroy_evq_refused (hb : e.eqBound x.fn x.loc = true) :
    e.queueDestroy f cf = (e.answer f 0x03 32).journalCmd f c :=
  Eng.mbxObj_invalid h ho (by simp [firstBad, ho, Eng.mayDestroy, hx, hb]) _

end
end

/-! ### VECTOR_MASK -/

/-- What MASK of a local vector becoming `m` does: a message that waited is sent as it clears (R186). -/
theorem Eng.maskVec_eq (d : Eng) (f : Fn) (v m : Nat) :
    d.maskVec f v (m == 1) =
      let n := (d.fn f).vecBase + v
      if m = 1 then d.setVec n { d.vec n with mask := true }
      else if (d.vec n).mask && (d.vec n).pending then (d.setVec n { mask := false, pending := false }).irqOut f v
      else d.setVec n { mask := false, pending := false } := by
  simp only [Eng.maskVec, beq_iff_eq]

section
variable {e : Eng} {f : Fn} {c : Cmd} (h : e.Asks f 0x020B 3 c)
include h

theorem Eng.vectorMask_applies (h1 : 1 ≤ c.slot 1) (h2 : c.slot 1 ≤ 4096) (hm : c.slot 2 < 2)
    (hv : c.slot 0 + c.slot 1 ≤ (e.fn f).vecCount) :
    e.vectorMask f =
      ((foldEng (upTo (c.slot 1)) (fun d i => d.maskVec f (c.slot 0 + i) (c.slot 2 == 1)) e).answer f 0x00 0).journalCmd f c :=
  Eng.mbxArgs_eq h (by simp [firstBad, flagOk, h1, h2, hm, hv]) rfl rfl

/-- A range past the function's vectors. -/
theorem Eng.vectorMask_refused (hv : (e.fn f).vecCount < c.slot 0 + c.slot 1) :
    e.vectorMask f = (e.answer f 0x03 40).journalCmd f c :=
  Eng.mbxArgs_invalid h (by simp [firstBad, Nat.not_le.mpr hv]) _ _

end

/-! ### The commands -/

/-- Settles O50: each command's request passes, and the state of the object it names decides between the refusal and the
effect. -/
theorem queueRunCommands : Obligations.QueueRunCommands := by
  unfold Obligations.QueueRunCommands
  refine fun s f c => ⟨fun q x ho hx => ⟨fun h => ?_, fun h hm => ?_, fun h => ?_, fun cf hcf h => ⟨fun hs => ?_, fun hs he => ?_⟩,
      fun h => ?_, fun h hm => ?_⟩,
    fun q x ho hx => ⟨fun h => ?_, fun h hm => ?_, fun h => ?_, fun cf h => ⟨fun hs hn => ?_, fun hn => ?_⟩, fun h => ?_,
      fun h hm => ?_⟩,
    fun i x ho hx => ⟨fun h => ?_, fun h hm => ?_, fun h => ?_, fun cf h => ⟨fun hb => ?_, fun hb => ?_⟩, fun h hm => ?_⟩,
    fun h h1 h2 hm => ⟨fun hv => ?_, fun hv => ?_⟩⟩
  · exact State.does_eq_after (Eng.queueStart_txq ho hx h)
  · exact State.does_eq_after (Eng.queueStop_txq ho hx h hm)
  · exact State.does_eq_after (Eng.queueReset_txq ho hx h)
  · exact State.does_eq_after (Eng.queueDestroy_txq ho hx h hcf hs)
  · exact State.does_eq_after (Eng.queueDestroy_txq_refused ho hx h cf hs he)
  · exact State.does_eq_after (Eng.queueQuery_txq ho hx h)
  · exact State.does_eq_after (Eng.queueStats_txq ho hx h hm)
  · exact State.does_eq_after (Eng.queueStart_rxq ho hx h)
  · exact State.does_eq_after (Eng.queueStop_rxq ho hx h hm)
  · exact State.does_eq_after (Eng.queueReset_rxq ho hx h)
  · exact State.does_eq_after (Eng.queueDestroy_rxq ho hx h cf hs hn)
  · exact State.does_eq_after (Eng.queueDestroy_rxq_refused ho hx h cf hn)
  · exact State.does_eq_after (Eng.queueQuery_rxq ho hx h)
  · exact State.does_eq_after (Eng.queueStats_rxq ho hx h hm)
  · exact State.does_eq_after (Eng.queueStart_evq ho h)
  · exact State.does_eq_after (Eng.queueStop_evq ho h hm)
  · exact State.does_eq_after (Eng.queueReset_evq ho h)
  · exact State.does_eq_after (Eng.queueDestroy_evq ho hx h cf hb)
  · exact State.does_eq_after (Eng.queueDestroy_evq_refused ho hx h cf hb)
  · exact State.does_eq_after (Eng.queueStats_evq ho h hm)
  · have happlies := Eng.vectorMask_applies h h1 h2 hm hv
    simp only [Eng.maskVec_eq] at happlies
    exact State.does_eq_after happlies
  · exact State.does_eq_after (Eng.vectorMask_refused h hv)

end Sys2Proof.Machine
end

section
/-! PROOF. Responses on the translation port and their timeouts, invalidations, and the end of a fault wait (R197, R198, R201, R203,
R204, R205, R211, R218, R496). -/
namespace Sys2Proof.Machine

/-! ### An engine in which nothing waits -/

section
variable {e : Eng}

/-- No access waits for a translation place (R198). -/
theorem Eng.takePlaces_of_nil (hb : e.dma.blocked = []) : e.takePlaces = e := by
  simp only [Eng.takePlaces, hb, askPlaces, List.reverse_nil]
  rw [← hb]

/-- No object's page requests are still to be sent (R204). -/
theorem Eng.pageAskAll_of_nil (hw : e.dma.waits = []) : e.pageAskAll = e := by
  simp only [Eng.pageAskAll, hw, List.map_nil, foldEng, List.foldl_nil]

theorem Eng.unitOf_of_nil (hb : e.dma.blocked = []) (o : FObj) : e.unitOf o = [] := by
  unfold Eng.unitOf Eng.blockedOf
  cases e.waitOf o <;> simp only [hb, List.filter_nil]

end

/-! ### TRANSLATION, and a TRANSLATE unanswered -/

/-- The engine once the TRANSLATE message of tag `tag` has ended (R198). -/
def Eng.xltEnded (e : Eng) (tag : Fin 512) : Eng :=
  { e with dma := { e.dma with xreqs := e.dma.xreqs.filter (fun r => !decide (r.tag = tag)) } }

section
variable {e : Eng} {tag : Fin 512}

section
variable (h : e.dma.xreqs.find? (fun r => decide (r.tag = tag)) = none)
include h

/-- A response to no message is a protocol error (R496). -/
theorem Eng.translation_unasked (res : XltResult) : e.translation tag res = e.fail 7 0 mXlt := by
  simp only [Eng.translation, h]

theorem Eng.xltTimeout_unasked : e.xltTimeout tag = e := by
  simp only [Eng.xltTimeout, h]

end

section
variable {r : XReq} (h : e.dma.xreqs.find? (fun r => decide (r.tag = tag)) = some r) (hb : e.dma.blocked = []) (hw : e.dma.waits = [])
include h hb hw

/-- A success that no access waits for fills the cache all the same (R197). -/
theorem Eng.translation_success_unawaited (pa : BitVec 40) (size : Fin 3) (rd wr : Bool) :
    e.translation tag (.success pa size rd wr) = { e with dma := { (e.xltEnded tag).dma with
      cache := xltFill e.dma.cache (xltEntry r pa.toNat size rd wr) } } := by
  simp only [Eng.translation, Eng.xltEnded, h, hb, hw, List.filter_nil, List.map_nil, objsOf, foldEng,
    List.foldl_nil, Eng.takePlaces_of_nil, Eng.pageAskAll_of_nil]

theorem Eng.translation_notPresent_unawaited : e.translation tag .notPresent = e.xltEnded tag := by
  simp only [Eng.translation, Eng.xltEnded, h, hb, hw, List.filter_nil, List.map_nil, objsOf, Eng.faultEach, foldEng,
    List.foldl_nil, Eng.takePlaces_of_nil, Eng.pageAskAll_of_nil]

theorem Eng.translation_denied_unawaited : e.translation tag .denied = e.xltEnded tag := by
  simp only [Eng.translation, Eng.xltEnded, h, hb, hw, List.filter_nil, List.map_nil, Eng.faultEach, foldEng,
    List.foldl_nil, Eng.takePlaces_of_nil, Eng.pageAskAll_of_nil]

theorem Eng.xltTimeout_unawaited :
    e.xltTimeout tag = (e.xltEnded tag).raiseEv (mkEv 25 .failure 0 r.fn.val 5 (r.vpn * 4096)) := by
  simp only [Eng.xltTimeout, Eng.xltEnded, Eng.raiseEv, h, hb, hw, List.filter_nil, List.map_nil, Eng.faultEach, foldEng,
    List.foldl_nil, Eng.takePlaces_of_nil, Eng.pageAskAll_of_nil]

end
end

/-! ### PAGE_RSP -/

/-- The engine once page request group `g` has ended (R203). -/
def Eng.groupEnded (e : Eng) (g : Fin 512) : Eng :=
  { e with dma := { e.dma with groups := e.dma.groups.filter (fun x => !decide (x.group = g)) } }

section
variable {e : Eng} {g : Fin 512}

/-- A response to no group is a protocol error (R496). -/
theorem Eng.pageRsp_unasked (h : e.dma.groups.find? (fun x => decide (x.group = g)) = none) (ok : Bool) :
    e.pageRsp g ok = e.fail 7 0 mXlt := by
  simp only [Eng.pageRsp, h]

section
variable {x : PageGrp} (h : e.dma.groups.find? (fun x => decide (x.group = g)) = some x)
include h

/-- The group's object has been given up (R218). -/
theorem Eng.pageRsp_abandoned (hw : e.dma.waits = []) (ho : x.obj = none) (ok : Bool) : e.pageRsp g ok = e.groupEnded g := by
  simp only [Eng.pageRsp, h, ho]
  exact Eng.pageAskAll_of_nil hw

theorem Eng.pageRsp_unawaited (hw : e.dma.waits = []) (hb : e.dma.blocked = []) (ok : Bool) : e.pageRsp g ok = e.groupEnded g := by
  cases ho : x.obj with
  | none => exact Eng.pageRsp_abandoned h hw ho ok
  | some o =>
    cases ok with
    | true =>
      simp only [Eng.pageRsp, Eng.groupEnded, h, ho, hb, hw, List.map_nil, if_true, Eng.takePlaces_of_nil, Eng.pageAskAll_of_nil]
    | false =>
      simp only [Eng.pageRsp, Eng.groupEnded, h, ho, hb, hw, Bool.false_eq_true, if_false, Eng.unitOf_of_nil,
        List.head?_nil, Eng.pageAskAll_of_nil]

/-- A failed response fails the object at the first access that waits for it (R203). -/
theorem Eng.pageRsp_fails {o : FObj} {b : Blocked} {l : List Blocked} (ho : x.obj = some o) (hu : (e.groupEnded g).unitOf o = b :: l) :
    e.pageRsp g false = ((e.groupEnded g).xltFail o b.acc).pageAskAll := by
  simp only [Eng.groupEnded] at hu ⊢
  simp only [Eng.pageRsp, h, ho, Bool.false_eq_true, if_false, hu, List.head?_cons]

end
end

/-! ### INVALIDATE and INV_ACK -/

/-- A cache entry lies in an invalidation's scope (R201). -/
def XEnt.inScope (x : XEnt) (sc : InvScope) : Bool := InvScope.hits sc x.fn x.pasid x.vpn (pageBytes x.size / 4096)

/-- An access has a translation, and is in an invalidation's scope or was served by an entry that the invalidation removes (R201). -/
def Eng.usesInvalid (e : Eng) (sc : InvScope) (a : Acc) : Bool :=
  a.pa.isSome && (InvScope.hits sc a.fn a.pasid (a.addr / 4096) 1 ||
    (e.dma.cache.filter (fun x => x.inScope sc)).any (fun x => x.covers a.fn a.pasid a.addr))

section
variable {e : Eng}

/-- Where no access that is still to be sent has to be looked up again, only the requests sent are waited for (R201). -/
theorem Eng.invalidate_eq (tag : Fin 32) (sc : InvScope) (h : ∀ a ∈ e.dma.queue, e.usesInvalid sc a = false) :
    e.invalidate tag sc = { e with dma := { e.dma with
      cache := e.dma.cache.filter (fun x => !x.inScope sc)
      invals := e.dma.invals ++ [{ tag := tag, waits := (e.dma.outst.filter (fun o => e.usesInvalid sc o.acc)).map (fun o =>
        (o.port.val, o.tag.val)) }]
      cnt := { e.dma.cnt with invals := sat64 (e.dma.cnt.invals + 1) } } } := by
  have hagain : e.dma.queue.filter (e.usesInvalid sc) = [] :=
    List.filter_eq_nil_iff.mpr fun a ha => by simp only [h a ha, Bool.false_eq_true, not_false_eq_true]
  have hkept : e.dma.queue.filter (fun a => !e.usesInvalid sc a) = e.dma.queue :=
    List.filter_eq_self.mpr fun a ha => by simp only [h a ha, Bool.not_false]
  change foldEng (e.dma.queue.filter (e.usesInvalid sc)) _ (Eng.xcnt { e with dma := { e.dma with
    cache := e.dma.cache.filter (fun x => !x.inScope sc)
    queue := e.dma.queue.filter (fun a => !e.usesInvalid sc a)
    invals := _ } } _) = _
  rw [hagain, hkept]
  rfl

variable {tag : Fin 32}

theorem Eng.invAck_sends {i : Inval} {r : List Inval}
    (h : takeFirst (fun i : Inval => decide (i.tag = tag) && i.waits.isEmpty) e.dma.invals = some (i, r)) :
    e.invAck tag = ({ e with dma := { e.dma with invals := r } } : Eng).emit (.invAck tag) := by
  simp only [Eng.invAck, h]

theorem Eng.invAck_waits (h : ∀ i ∈ e.dma.invals, i.tag ≠ tag ∨ i.waits ≠ []) : e.invAck tag = e := by
  have hnone : takeFirst (fun i : Inval => decide (i.tag = tag) && i.waits.isEmpty) e.dma.invals = none :=
    takeFirst_eq_none fun i hi => by
      rcases h i hi with ht | hw
      · simp [ht]
      · simp [hw]
  simp only [Eng.invAck, hnone]

end

/-! ### FAULT_TIMEOUT -/

/-- A fault wait's timer runs and has come to FAULT_TIMEOUT (R205, R211). -/
def Eng.waitLapsed (e : Eng) (w : FWait) : Prop := w.run.isSome = true ∧ e.dma.faultTimeout * 1000000 * 25 ≤ w.elapsed e.now * 64

theorem Eng.not_waitLapsed {e : Eng} {w : FWait} (h : w.run = none ∨ w.elapsed e.now * 64 < e.dma.faultTimeout * 1000000 * 25) :
    ¬ e.waitLapsed w := by
  rintro ⟨hr, ht⟩
  rcases h with hn | hlt
  · simp only [hn, Option.isSome_none, Bool.false_eq_true] at hr
  · exact absurd ht (Nat.not_le.mpr hlt)

section
variable {e : Eng} {o : FObj} {w : FWait} (h : e.waitOf o = some w)
include h

/-- An indirect buffer's wait ends otherwise (R45). -/
theorem Eng.faultExpiry_lapsed {a : Acc} (hm : ∀ f, o ≠ .mbx f) (hl : e.waitLapsed w) (ha : e.expired o w = some a) :
    e.faultExpiry o = e.xltFail o a := by
  cases o
  case mbx f => exact absurd rfl (hm f)
  all_goals
    simp only [Eng.faultExpiry, h, ha]
    exact if_pos hl

theorem Eng.faultExpiry_going (hl : ¬ e.waitLapsed w) : e.faultExpiry o = e := by
  cases o
  case mbx f => simp only [Eng.faultExpiry]
  all_goals
    simp only [Eng.faultExpiry, h]
    exact if_neg hl

end

section
variable {e : Eng} (w : FWait)

/-- A wait of accesses fails at its address for the first of them (R203). -/
theorem Eng.expired_of_cons {o : FObj} {b : Blocked} {l : List Blocked} (hu : e.unitOf o = b :: l) :
    e.expired o w = some { b.acc with addr := w.va } := by
  simp only [Eng.expired, hu, List.head?_cons]

/-- The wait of a ring whose drain a quench holds fails for a write of the ring (R218). -/
theorem Eng.expired_of_drain {q : RxqId} {x : Rxq} (hu : e.unitOf (.rxq q) = []) (hx : e.rxq q = some x) :
    e.expired (.rxq q) w =
      some { owner := .rxData q 0, fn := x.fn, pasid := w.pasid, addr := w.va, len := 1, kind := .write } := by
  simp only [Eng.expired, hu, List.head?_nil, hx, Option.map_some]

end

/-! ### The commands -/

/-- Settles O31: the message, the group or the invalidation that a response names is there or is not, and where nothing waits for
it only that one ends; a fault wait fails exactly where its timer has come to FAULT_TIMEOUT. -/
theorem translationAndInvalidation : Obligations.TranslationAndInvalidation := by
  unfold Obligations.TranslationAndInvalidation
  refine ⟨fun s => ⟨fun tag r h => ?_, fun tag h => ?_, fun g ok h => ?_,
      fun tag r h hb hw => ⟨fun pa size rd wr => ?_, ?_, ?_, ?_⟩,
      fun g x h => ⟨fun hw ho ok => ?_, fun hw hb ok => ?_, fun o b l ho hu => ?_⟩⟩,
    fun s => ⟨fun tag sc h => ?_, fun tag => ⟨fun i r h => ?_, fun h => ?_⟩,
      fun o w b l hm h hu => ⟨fun hr ht => ?_, fun hl => ?_⟩, fun q x w h hu hx hr ht => ?_⟩⟩
  · exact State.does_eq_after (Eng.translation_unasked (e := s.eng.clear) h r)
  · exact State.does_eq_after (Eng.xltTimeout_unasked (e := s.eng.clear) h)
  · exact State.does_eq_after (Eng.pageRsp_unasked (e := s.eng.clear) h ok)
  · exact State.does_eq_after (Eng.translation_success_unawaited (e := s.eng.clear) h hb hw pa size rd wr)
  · exact State.does_eq_after (Eng.translation_notPresent_unawaited (e := s.eng.clear) h hb hw)
  · exact State.does_eq_after (Eng.translation_denied_unawaited (e := s.eng.clear) h hb hw)
  · exact State.does_eq_after (Eng.xltTimeout_unawaited (e := s.eng.clear) h hb hw)
  · exact State.does_eq_after (Eng.pageRsp_abandoned (e := s.eng.clear) h hw ho ok)
  · exact State.does_eq_after (Eng.pageRsp_unawaited (e := s.eng.clear) h hw hb ok)
  · exact State.does_eq_after (Eng.pageRsp_fails (e := s.eng.clear) h ho hu)
  · exact State.does_eq_after (Eng.invalidate_eq (e := s.eng.clear) tag sc h)
  · exact State.does_eq_after (Eng.invAck_sends (e := s.eng.clear) h)
  · exact State.does_eq_after (Eng.invAck_waits (e := s.eng.clear) h)
  · exact State.does_eq_after (Eng.faultExpiry_lapsed (e := s.eng.clear) h hm ⟨hr, ht⟩ (Eng.expired_of_cons w hu))
  · exact State.does_eq_after (Eng.faultExpiry_going (e := s.eng.clear) h (Eng.not_waitLapsed hl))
  · exact State.does_eq_after (Eng.faultExpiry_lapsed (e := s.eng.clear) h (fun f => nofun) ⟨hr, ht⟩ (Eng.expired_of_drain w hu hx))

end Sys2Proof.Machine
end

section
/-! PROOF. Units and notices returned on SP_RCIRC, credits of the stream ports returned, and a retirement that is forced (R236,
R240, R241, R242, R498). -/
namespace Sys2Proof.Machine

/-! ### What comes on SP_RCIRC -/

theorem Eng.dataOn_of_powered {e : Eng} (hr : e.pwr.restOn = true) (hc : e.pwr.ctlOn = true) : e.dataOn = true := by
  simp [Eng.dataOn, hr, hc]

/-- The engine with `n` recirculation credits taken (R498). -/
def Eng.takeRcirc (e : Eng) (n : Nat) : Eng := { e with steer := { e.steer with rcircCredit := e.steer.rcircCredit - n } }

/-- The engine once something wrong has come on SP_RCIRC: port `p` counts it, and source 45 (R240). -/
def Eng.badRcirc (e : Eng) (p : PortId) : Eng := (e.steerStat p 15 1).raiseEv (mkEv 45 .failure 2 0x8030 0 0)

/-! ### RCIRC_DISCARD_NOTICE -/

/-- The engine once the credits of a notice are settled: given back where they covered it (R242). -/
def Eng.noticeIn (e : Eng) (slot : PortId) : Eng :=
  if e.steer.rcircCredit < 2 then e.badRcirc (e.portOf slot) else (e.takeRcirc 2).rcircTopUp

section
variable {e : Eng} {slot : PortId} {n : BitVec 16} (hon : e.dataOn = true)
include hon

theorem Eng.rcircNotice_stale (h : (e.noticeIn slot).liveGen n = none) :
    e.rcircNotice slot n = (e.noticeIn slot).steerStat ((e.noticeIn slot).portOf slot) 17 1 := by
  unfold Eng.noticeIn Eng.badRcirc Eng.takeRcirc at h ⊢
  simp only [Eng.rcircNotice, Eng.fail, mPipe, hon, Bool.not_true, Bool.false_eq_true, if_false, h]

theorem Eng.rcircNotice_live {b : Bool} (h : (e.noticeIn slot).liveGen n = some b) :
    e.rcircNotice slot n = (e.noticeIn slot).genDown b := by
  unfold Eng.noticeIn Eng.badRcirc Eng.takeRcirc at h ⊢
  simp only [Eng.rcircNotice, Eng.fail, mPipe, hon, Bool.not_true, Bool.false_eq_true, if_false, h]

end

/-! ### RCIRC_RETURN -/

/-- Credits that a unit takes: 16 bytes each, its metadata with it (R498). -/
def unitNeed (u : RcUnit) : Nat := (32 + u.bytes.length + 15) / 16

/-- The engine as a unit is counted by Tally (R457). -/
def Eng.unitSeen (e : Eng) (u : RcUnit) : Eng := e.tal { code := 0x404, port := some (e.portOf u.port), tc := some u.tc }

/-- The engine as a unit has left its generation: one returned lowers the count of a serial that is live (R236). -/
def Eng.unitIn (e : Eng) (u : RcUnit) : Eng :=
  match e.liveGen u.serial with
  | some b => if u.ret then (e.unitSeen u).genDown b else e.unitSeen u
  | none => e.unitSeen u

/-- A unit's frame that goes through steering a second time, its serial's generation being `b` (R241). -/
def Eng.secondPass (e : Eng) (u : RcUnit) (p : PortId) (b : Bool) : RxJob :=
  { port := p, tc := u.tc, bytes := u.bytes, n := u.bytes.length, len := u.bytes.length, out := u.bytes, strm := u.bytes
    pass2 := true, rtag := u.tag.toNat, genB := b, fcsErr := u.fcsErr, lines := linesOf u.bytes.length, area := .recirc
    stamps := (upTo 4).map (fun k => stampRound ((e.tb (fin 4 k)).fine u.dp.val)), parity := u.parity }

section
variable {e : Eng} {u : RcUnit}

theorem Eng.unitIn_stale (h : e.liveGen u.serial = none) : e.unitIn u = e.unitSeen u := by simp only [Eng.unitIn, h]

theorem Eng.unitIn_live {b : Bool} (h : e.liveGen u.serial = some b) (hr : u.ret = true) :
    e.unitIn u = (e.unitSeen u).genDown b := by simp only [Eng.unitIn, h, hr, if_true]

/-- Tally's count of a unit leaves the credits alone. -/
theorem Eng.takeRcirc_unitSeen (n : Nat) :
    (e.unitSeen u).takeRcirc n =
      { e.unitSeen u with steer := { e.steer with rcircCredit := e.steer.rcircCredit - n } } := by
  simp [Eng.takeRcirc, Eng.unitSeen]

theorem Eng.rcircCredit_unitSeen : (e.unitSeen u).steer.rcircCredit = e.steer.rcircCredit := by simp [Eng.unitSeen]

section
variable (hon : e.dataOn = true)
include hon

theorem Eng.rcircReturn_uncovered (h : (e.unitIn u).steer.rcircCredit < unitNeed u) :
    e.rcircReturn u = (e.unitIn u).badRcirc (e.portOf u.port) := by
  unfold Eng.unitIn Eng.unitSeen at h ⊢
  simp only [Eng.rcircReturn, hon, Bool.not_true, Bool.false_eq_true, if_false]
  exact if_pos h

section
variable (h : unitNeed u ≤ (e.unitIn u).steer.rcircCredit)
include h

/-- A unit that the credits cover, by the branches that are left. -/
theorem Eng.rcircReturn_covered : e.rcircReturn u =
    let p := e.portOf u.port
    let d := (e.unitIn u).takeRcirc (unitNeed u)
    if u.pass = 1 ∧ u.ret ∧ (e.port p).state ≠ .up then (d.steerStat p 16 1).rcircTopUp
    else if u.pass = 2 then (d.steerStat p 14 1).rcircTopUp
    else if u.pass ≠ 1 ∨ u.ret = false ∨ u.len.toNat < 60 ∨ (e.port p).maxFrame - 4 < u.len.toNat ∨
        u.len.toNat ≠ u.bytes.length then (d.badRcirc p).rcircTopUp
    else
      let d := d.chargeRx p u.tc .recirc (linesOf u.bytes.length)
      let d := if (e.liveGen u.serial).isNone then d.steerStat p 17 1 else d
      d.steerJob { d.secondPass u p ((e.liveGen u.serial).getD d.steer.activeB) with stale := (e.liveGen u.serial).isNone } := by
  unfold Eng.unitIn Eng.unitSeen at h ⊢
  simp only [Eng.rcircReturn, hon, Bool.not_true, Bool.false_eq_true, if_false]
  exact if_neg (Nat.not_lt.mpr h)

/-- A unit sent on a second time (R240). -/
theorem Eng.rcircReturn_again (hp : u.pass = 2) :
    e.rcircReturn u = (((e.unitIn u).takeRcirc (unitNeed u)).steerStat (e.portOf u.port) 14 1).rcircTopUp := by
  rw [Eng.rcircReturn_covered hon h]
  simp [hp]

/-- A unit for a port that is not UP (R240). -/
theorem Eng.rcircReturn_down (hp : u.pass = 1) (hr : u.ret = true) (hs : (e.port (e.portOf u.port)).state ≠ .up) :
    e.rcircReturn u = (((e.unitIn u).takeRcirc (unitNeed u)).steerStat (e.portOf u.port) 16 1).rcircTopUp := by
  rw [Eng.rcircReturn_covered hon h]
  exact if_pos ⟨hp, hr, hs⟩

/-- A unit that its stream port was not to return (R240). -/
theorem Eng.rcircReturn_unasked (hp : u.pass = 1) (hr : u.ret = false) :
    e.rcircReturn u = (((e.unitIn u).takeRcirc (unitNeed u)).badRcirc (e.portOf u.port)).rcircTopUp := by
  rw [Eng.rcircReturn_covered hon h]
  simp [hp, hr]

/-- A good unit of a live serial goes through steering a second time (R241). -/
theorem Eng.rcircReturn_good {b : Bool} (hb : e.liveGen u.serial = some b) (hp : u.pass = 1) (hr : u.ret = true)
    (hs : (e.port (e.portOf u.port)).state = .up) (hmin : 60 ≤ u.len.toNat)
    (hmax : u.len.toNat ≤ (e.port (e.portOf u.port)).maxFrame - 4) (hlen : u.len.toNat = u.bytes.length) :
    e.rcircReturn u =
      let d := ((e.unitIn u).takeRcirc (unitNeed u)).chargeRx (e.portOf u.port) u.tc .recirc (linesOf u.bytes.length)
      d.steerJob (d.secondPass u (e.portOf u.port) b) := by
  have hgood : ¬ (u.pass ≠ 1 ∨ u.ret = false ∨ u.len.toNat < 60 ∨ (e.port (e.portOf u.port)).maxFrame - 4 < u.len.toNat ∨
      u.len.toNat ≠ u.bytes.length) := by
    simp only [hp, hr, ne_eq, not_true_eq_false, Bool.true_eq_false, false_or]
    omega
  rw [Eng.rcircReturn_covered hon h]
  dsimp only
  rw [if_neg (by simp [hs]), if_neg (by simp [hp]), if_neg hgood]
  simp only [hb, Option.isNone_some, Bool.false_eq_true, if_false, Option.getD_some]
  rfl

end
end
end

/-! ### SP_CREDIT_RETURN -/

/-- The engine with `n` credits of a stream port's destination added, up to 65,535 (R498). -/
def Eng.addCredit (e : Eng) (k : Fin 2) (d : Fin 8) (n : Nat) : Eng :=
  { e with steer := { e.steer with
      credits := e.steer.credits.put 0 (creditIdx k d) (min (e.steer.credits.get 0 (creditIdx k d) + n) 65535) } }

section
variable {e : Eng} {k : Fin 2} {d : Fin 8} {n : Nat}

theorem Eng.spCredit_fits (h : e.steer.credits.get 0 (creditIdx k d) + n ≤ 65535) :
    e.spCredit k d n = (e.addCredit k d n).pumpAll :=
  congrArg Eng.pumpAll (if_neg (Nat.not_lt.mpr h))

theorem Eng.spCredit_beyond (h : 65535 < e.steer.credits.get 0 (creditIdx k d) + n) :
    e.spCredit k d n = ((e.addCredit k d n).raiseEv (mkEv 45 .failure k.val 0x8030 0 0)).pumpAll :=
  congrArg Eng.pumpAll (if_pos h)

end

/-! ### FORCED_RETIREMENT -/

/-- The engine with the retirement of generation `b` ended by force: its count at 0 and counted (R236). -/
def Eng.retired (e : Eng) (b : Bool) : Eng :=
  let d := e.modGen b (fun g => { g with count := 0 })
  { d with steer := { d.steer with retiring := none, forced := sat64 (d.steer.forced + 1) } }

theorem Eng.forceRetire_idle {e : Eng} (h : e.steer.retiring = none) : e.forceRetire = e := by simp only [Eng.forceRetire, h]

theorem Eng.forceRetire_retires {e : Eng} {t : Nat} (h : e.steer.retiring = some t) :
    e.forceRetire = ((e.retired (!e.steer.activeB)).raiseEv
      (mkEv 30 .failure (1 + 2 * (e.gen (!e.steer.activeB)).serial.toNat) 0x8030 0 0)).swapAnswer 0 := by
  simp only [Eng.forceRetire, h]
  rfl

/-- Settles O26: credits cover what comes on SP_RCIRC or they do not, and a unit covered is judged by its fields; credits
returned fit or pass the bound; and a generation retires or none does. -/
theorem recirculationAndRetirement : Obligations.RecirculationAndRetirement := by
  unfold Obligations.RecirculationAndRetirement
  refine ⟨fun s hrest hctl => ?_, fun s k d n => ⟨fun h => ?_, fun h => ?_⟩, fun s => ⟨fun h => ?_, fun t h => ?_⟩⟩
  · have hon : s.eng.clear.dataOn = true := Eng.dataOn_of_powered hrest hctl
    refine ⟨fun slot n => ⟨fun h => ?_, fun b h => ?_⟩, fun u hlive => ⟨fun hneed => ?_, fun hneed => ?_⟩,
      fun u b hb hp hr hs hmin hmax hlen hneed => ?_⟩
    · exact State.does_eq_after (Eng.rcircNotice_stale hon h)
    · exact State.does_eq_after (Eng.rcircNotice_live hon h)
    · have hin := Eng.unitIn_stale (e := s.eng.clear) hlive
      refine State.does_eq_after ((Eng.rcircReturn_uncovered hon ?_).trans (by rw [hin]; rfl))
      rw [hin, Eng.rcircCredit_unitSeen]
      exact hneed
    · have hin := Eng.unitIn_stale (e := s.eng.clear) hlive
      have htake := hin ▸ Eng.takeRcirc_unitSeen (e := s.eng.clear) (u := u) (unitNeed u)
      have hcov : unitNeed u ≤ (s.eng.clear.unitIn u).steer.rcircCredit := by
        rw [hin, Eng.rcircCredit_unitSeen]
        exact hneed
      refine ⟨fun hp => ?_, fun hp hr hs => ?_, fun hp hr => ?_⟩
      · exact State.does_eq_after ((Eng.rcircReturn_again hon hcov hp).trans (by rw [htake, hin]; rfl))
      · exact State.does_eq_after ((Eng.rcircReturn_down hon hcov hp hr hs).trans (by rw [htake, hin]; rfl))
      · exact State.does_eq_after ((Eng.rcircReturn_unasked hon hcov hp hr).trans (by rw [htake, hin]; rfl))
    · have hin := Eng.unitIn_live (e := s.eng.clear) hb hr
      refine State.does_eq_after ((Eng.rcircReturn_good hon ?_ hb hp hr hs hmin hmax hlen).trans (by rw [hin]; rfl))
      rw [hin]
      exact hneed
  · exact State.does_eq_after (Eng.spCredit_fits (e := s.eng.clear) h)
  · exact State.does_eq_after (Eng.spCredit_beyond (e := s.eng.clear) h)
  · exact State.does_eq_after (Eng.forceRetire_idle (e := s.eng.clear) h)
  · exact State.does_eq_after (Eng.forceRetire_retires (e := s.eng.clear) h)

end Sys2Proof.Machine
end

section
/-! PROOF. The steering group's commands on ports, generations, rules and swaps (R227, R232, R233, R234, R243, R255, R527,
R528). -/
namespace Sys2Proof.Machine

/-! ### The OBJECT of a SET block -/

section
variable {c : Cmd} {obj : Nat → Bool}

/-- A block that parses names an OBJECT that is admitted (R515). -/
theorem parseBlock_object {specs : List Fld} {n : Nat} {b : SetBlk} (h : parseBlock c specs obj n = .good b) :
    obj b.object = true := by
  unfold parseBlock at h
  split at h
  · cases h
  split at h
  · cases h
  next hobj =>
    split at h
    · cases h
    dsimp only at h
    split at h
    · cases h
    split at h
    · cases h
    · cases h
      simpa using hobj

theorem parseSeq_object {specs : Nat → List Fld} {n k : Nat} {l : List SetBlk} (h : parseSeq c specs obj n k = .good l)
    {b : SetBlk} (hb : b ∈ l) : obj b.object = true := by
  induction n generalizing k l with
  | zero => cases h; cases hb
  | succ n ih =>
    unfold parseSeq at h
    split at h
    · cases h; cases hb
    split at h
    · cases h
    next hblk =>
      split at h
      · cases h
      next hrest =>
        cases h
        rcases List.mem_cons.mp hb with rfl | hb
        · exact parseBlock_object hblk
        · exact ih hrest hb

/-- A request of one SET block names an OBJECT that is admitted. -/
theorem Cmd.set_object {specs : Nat → List Fld} {b : SetBlk} (h : c.set specs obj = .good b) : obj b.object = true := by
  unfold Cmd.set parseBlocks at h
  split at h
  · cases h
  next hl =>
    cases h
    split at hl
    · exact parseSeq_object hl (List.mem_singleton_self _)
    · cases hl
  · cases h

end

section
variable {e : Eng} {f : Fn} {c : Cmd} {b : SetBlk} (hf : f = 0)
include hf

/-! ### STEER_PORT_CONFIG and STEER_CONFIG -/

theorem Eng.steerPortConfig_applies (h : e.Sets f 0x0301 (fun _ => steerPortFlds) e.portArg c b)
    (hc : firstBad (e.steerPortChecks b) = none) :
    e.steerPortConfig f =
      ((e.setPort (fin 16 b.object) ((e.port (fin 16 b.object)).setSteer b)).answer f 0x00 0).journalCmd f c :=
  Eng.mbxSet_eq h hc (decide_eq_true hf) rfl

/-- Steering as STEER_CONFIG leaves it (R243). -/
def SteerSt.setCfg (t : SteerSt) (b : SetBlk) : SteerSt :=
  { t with
    rcircLimit := b.val 0 t.rcircLimit, streamKey := keyBytes (b.list 1 (keySlots t.streamKey))
    streamIp4t := b.bool 2 t.streamIp4t, streamInner := b.bool 3 t.streamInner }

theorem Eng.steerConfig_applies (h : e.Sets f 0x0306 (fun _ => steerFlds) (fun v => v == objEngine) c b) :
    e.steerConfig f = (({ e with steer := e.steer.setCfg b } : Eng).rcircTopUp.answer f 0x00 0).journalCmd f c :=
  Eng.mbxSet_eq (obj := fun _ v => v == objEngine) h rfl (decide_eq_true hf) rfl

end

/-! ### STEER_GEN_SET -/

/-- An object of STEER_GEN_SET is a profile, a port or the engine's tunnel ports (R528). -/
theorem Eng.genObj_cases {e : Eng} {v : Nat} (h : e.genObj v = true) : v < 8 ∨ v = 0x200 ∨ v / 256 = 1 := by
  simp only [Eng.genObj, Eng.portArg, Bool.or_eq_true, Bool.and_eq_true, decide_eq_true_eq, beq_iff_eq] at h
  omega

/-- A block that gives no MISS_ACTION of a port writes none. -/
theorem Generation.setItem_no_miss (g : Generation) {b : SetBlk} (ho : b.object < 8 ∨ b.object = 0x200 ∨ b.object / 256 = 1)
    (h : b.object / 256 ≠ 1 ∨ b.has 2 = false) (a : Action) : g.setItem b a = g.setItem b {} := by
  rcases h with hport | hmiss
  · rcases ho with hprof | htun | ho
    · simp only [Generation.setItem, hprof, if_true]
    · simp [Generation.setItem, htun]
    · exact absurd ho hport
  · simp only [Generation.setItem, hmiss, Bool.false_eq_true, if_false]

/-- The check of MISS_ACTION passes for a block that does not give one. -/
theorem firstBad_no_miss {b : SetBlk} (h : b.object / 256 ≠ 1 ∨ b.has 2 = false) (ok : Bool) :
    firstBad [(b.off 2, !(b.object / 256 == 1 && b.has 2) || ok)] = none := by
  rcases h with hport | hmiss
  · simp [firstBad, hport]
  · simp [firstBad, hmiss]

section
variable {e : Eng} {f : Fn} {c : Cmd} {b : SetBlk} (hf : f = 0) (h : e.Sets f 0x0302 genFlds e.genObj c b)
include hf h

section
variable (hm : b.object / 256 ≠ 1 ∨ b.has 2 = false)
include hm

theorem Eng.steerGenSet_busy (hr : e.steer.retiring ≠ none) : e.steerGenSet f = (e.answer f 0x01 0).journalCmd f c :=
  Eng.mbxSet_eq h (firstBad_no_miss hm _) (decide_eq_true hf) (if_pos (Option.isSome_iff_ne_none.mpr hr))

theorem Eng.steerGenSet_writes (hr : e.steer.retiring = none) :
    e.steerGenSet f = ((e.modGen (!e.steer.activeB) (fun g => g.setItem b {})).answer f 0x00 0).journalCmd f c := by
  refine Eng.mbxSet_eq h (firstBad_no_miss hm _) (decide_eq_true hf) ?_
  simp only [hr, Option.isSome_none, Bool.false_eq_true, if_false,
    fun g => Generation.setItem_no_miss g (Eng.genObj_cases (Cmd.set_object h.block)) hm]
  rfl

end

theorem Eng.steerGenSet_writes_miss {a : Action} (hm : e.missIn b = .inr a) (hr : e.steer.retiring = none) :
    e.steerGenSet f = ((e.modGen (!e.steer.activeB) (fun g => g.setItem b a)).answer f 0x00 0).journalCmd f c := by
  refine Eng.mbxSet_eq h (by simp [firstBad, hm]) (decide_eq_true hf) ?_
  simp only [hr, hm, Option.isSome_none, Bool.false_eq_true, if_false]
  rfl

end

/-! ### STEER_RULE_BATCH -/

/-- The records that a batch gives are as many as its COUNT. -/
theorem Eng.length_rulesIn {e : Eng} {c : Cmd} {n k : Nat} {rs : List RuleRec} (h : e.rulesIn c n k = .inr rs) :
    rs.length = n := by
  induction n generalizing k rs with
  | zero => cases h; rfl
  | succ n ih =>
    unfold Eng.rulesIn at h
    split at h
    · cases h
    split at h
    · cases h
    next hrest => cases h; rw [List.length_cons, ih hrest]

/-- The byte, from the first record on, of the first field of a batch that is LOCKED (R233, R515). -/
def Eng.lockedRule (e : Eng) (rs : List RuleRec) (n : Nat) : Option Nat :=
  (rs.zip (upTo n)).findSome? (fun (r, i) => (e.ruleLocked r).map (fun k => 168 * i + k))

theorem Eng.lockedRule_none {e : Eng} {rs : List RuleRec} (h : ∀ r, r ∈ rs → e.ruleLocked r = none) (n : Nat) :
    e.lockedRule rs n = none :=
  List.findSome?_eq_none_iff.mpr fun r hr => by simp only [h r.1 (List.of_mem_zip hr).1, Option.map_none]

/-- The first record with a LOCKED field decides. -/
theorem Eng.lockedRule_first {e : Eng} {rs : List RuleRec} {i k : Nat} {r : RuleRec} (hi : rs[i]? = some r)
    (hk : e.ruleLocked r = some k) (hb : ∀ j q, j < i → rs[j]? = some q → e.ruleLocked q = none) :
    e.lockedRule rs rs.length = some (168 * i + k) := by
  obtain ⟨hlt, rfl⟩ := List.getElem?_eq_some_iff.mp hi
  have hlen : (rs.zip (upTo rs.length)).length = rs.length := by simp [upTo]
  refine List.findSome?_eq_some_iff.mpr
    ⟨(rs.zip (upTo rs.length)).take i, (rs[i], i), (rs.zip (upTo rs.length)).drop (i + 1), ?_, by simp [hk], fun x hx => ?_⟩
  · have hat : (rs.zip (upTo rs.length))[i]'(by omega) = (rs[i], i) := by simp [upTo]
    rw [← hat, ← List.drop_eq_getElem_cons, List.take_append_drop]
  · obtain ⟨j, hj, rfl⟩ := List.mem_take_iff_getElem.mp hx
    have hji : j < i := by omega
    have hfree := hb j (rs[j]'(by omega)) hji (List.getElem?_eq_getElem _)
    simp [hfree]

/-- A record written to the generation that is not active; `a` says that B is the active one (R233). -/
def Eng.writeRule (e : Eng) (a : Bool) (r : RuleRec) : Eng :=
  let k := e.tcam r.entry
  let k := if r.validOnly then k else { k with key := r.key, mask := r.mask, action := r.action }
  { e with steer := { e.steer with
      tcam := e.steer.tcam.put {} r.entry (if a then { k with validA := r.valid } else { k with validB := r.valid }) } }

theorem Eng.ruleApply_eq (e : Eng) (r : RuleRec) : e.ruleApply r = e.writeRule e.steer.activeB r := by
  unfold Eng.ruleApply Eng.writeRule TcamEntry.setValid
  cases e.steer.activeB <;> rfl

/-- No record of a batch changes which generation is active. -/
theorem foldEng_ruleApply (rs : List RuleRec) (e : Eng) :
    foldEng rs (fun d r => d.ruleApply r) e = foldEng rs (fun d r => d.writeRule e.steer.activeB r) e := by
  unfold foldEng
  induction rs generalizing e with
  | nil => rfl
  | cons r rs ih =>
    simp only [List.foldl_cons]
    rw [ih, Eng.ruleApply_eq]
    rfl

/-- The commit of a batch over its units, one for each record (R61, R519). -/
def Eng.commitRules (e : Eng) (f : Fn) (cf : Commit) (n : Nat) (rs : List RuleRec) : Eng :=
  let entry (u : Nat) : Nat := ((rs[u - 0x8000]?).map (·.entry)).getD 0
  e.twoPhase f cf ((upTo n).map (fun i => 0x8000 + i)) (fun u => (5, entry u + 16384 * (Config.freeValue e.free % 4)))
    (fun e u => { e with steer := { e.steer with
      tcam := e.steer.tcam.put {} (entry u) ((e.tcam (entry u)).setValid (!e.steer.activeB) false) } })
    (fun e => (foldEng rs (fun d r => d.ruleApply r) e).answer f 0x00 0)

theorem Eng.commitRules_commits (e : Eng) (f : Fn) {cf : Commit} (hcf : cf.fail = none) (n : Nat) (rs : List RuleRec) :
    e.commitRules f cf n rs = (foldEng rs (fun d r => d.writeRule e.steer.activeB r) e).answer f 0x00 0 := by
  simp only [Eng.commitRules, Eng.twoPhase_commits _ _ hcf, foldEng_ruleApply]

section
variable {e : Eng} {f : Fn} {c : Cmd} {rs : List RuleRec} (hf : f = 0) (h : e.Has f 0x0303 c) (h1 : 1 ≤ c.slot 0)
  (h2 : c.slot 0 ≤ 4096) (hl : c.reqLen = 8 + 168 * c.slot 0) (hrs : e.rulesIn c (c.slot 0) 8 = .inr rs)
include hf h h1 h2 hl hrs

/-- A batch of the length that its COUNT asks for, whose records parse. -/
theorem Eng.steerRuleBatch_parsed (cf : Commit) :
    e.steerRuleBatch f cf = (if e.steer.retiring.isSome then e.answer f 0x01 0
      else (e.lockedRule rs (c.slot 0)).elim (e.commitRules f cf (c.slot 0) rs)
        (fun k => e.lockedAt f c 0 (detOff (32 + 8 + k)))).journalCmd f c := by
  have hlen : ¬ (c.reqLen < 8 ∨ 1 ≤ c.slot 0 ∧ c.slot 0 ≤ 4096 ∧ c.reqLen ≠ 8 + 168 * c.slot 0) := by omega
  have hcount : ¬ (c.slot 0 = 0 ∨ 4096 < c.slot 0) := by omega
  have hf0 : ¬ f ≠ 0 := fun hn => hn hf
  unfold Eng.steerRuleBatch Eng.lockedRule
  rw [Eng.mbx_has h]
  simp only [if_neg hlen, if_neg hcount, hrs, if_neg hf0]
  cases (rs.zip (upTo (c.slot 0))).findSome? (fun (r, i) => (e.ruleLocked r).map (fun k => 168 * i + k)) <;> rfl

theorem Eng.steerRuleBatch_busy (hr : e.steer.retiring ≠ none) (cf : Commit) :
    e.steerRuleBatch f cf = (e.answer f 0x01 0).journalCmd f c := by
  rw [Eng.steerRuleBatch_parsed hf h h1 h2 hl hrs, if_pos (Option.isSome_iff_ne_none.mpr hr)]

section
variable (hr : e.steer.retiring = none)
include hr

/-- A batch none of whose records is locked, where no unit of its commit fails. -/
theorem Eng.steerRuleBatch_writes {cf : Commit} (hcf : cf.fail = none) (hk : ∀ r, r ∈ rs → e.ruleLocked r = none) :
    e.steerRuleBatch f cf =
      ((foldEng rs (fun d r => d.writeRule e.steer.activeB r) e).answer f 0x00 0).journalCmd f c := by
  rw [Eng.steerRuleBatch_parsed hf h h1 h2 hl hrs, if_neg (by simp [hr]), Eng.lockedRule_none hk, Option.elim_none,
    Eng.commitRules_commits _ _ hcf]

/-- The first record with a LOCKED field gives the DETAIL (R59, R515). -/
theorem Eng.steerRuleBatch_locked (cf : Commit) {i k : Nat} {r : RuleRec} (hi : rs[i]? = some r) (hk : e.ruleLocked r = some k)
    (hb : ∀ j q, j < i → rs[j]? = some q → e.ruleLocked q = none) :
    e.steerRuleBatch f cf = ((e.reject f 0x0303 false 0).answer f 0x02 (detOff (40 + 168 * i + k))).journalCmd f c := by
  rw [Eng.steerRuleBatch_parsed hf h h1 h2 hl hrs, if_neg (by simp [hr]), ← Eng.length_rulesIn hrs,
    Eng.lockedRule_first hi hk hb, Option.elim_some, Eng.lockedAt_of_opcode _ _ h.opcode, ← Nat.add_assoc]

end
end

/-! ### STEER_SWAP and STEER_STATUS_GET -/

/-- A change of a generation leaves the time, and of steering the count of swaps. -/
@[simp] theorem Eng.modGen_reads (e : Eng) (b : Bool) (g : Generation → Generation) :
    (e.modGen b g).now = e.now ∧ (e.modGen b g).tb0 = e.tb0 ∧ (e.modGen b g).steer.swaps = e.steer.swaps := by
  unfold Eng.modGen
  cases b <;> exact ⟨rfl, rfl, rfl⟩

/-- The engine with the generation that was not active made active under the next serial, the other one retiring (R234). -/
def Eng.swapped (e : Eng) : Eng :=
  let d := e.modGen (!e.steer.activeB) (fun g => { g with serial := e.steer.lastSerial + 1 })
  { d with steer := { d.steer with
      activeB := !e.steer.activeB, lastSerial := e.steer.lastSerial + 1, retiring := some e.now, swapAt := some (e.tb0, e.now)
      swaps := sat64 (e.steer.swaps + 1) } }

/-- The slots that STEER_STATUS_GET answers (R255). -/
def Eng.steerItems (e : Eng) : List Nat :=
  let t := e.steer
  let old := e.gen (!t.activeB)
  [b2n t.activeB, (e.gen t.activeB).serial.toNat, b2n t.retiring.isSome, if t.retiring.isSome then old.serial.toNat else 0,
    if t.retiring.isSome then old.count else 0, (t.swapAt.map (fun w => edgesNs (e.now - w.2))).getD 0, t.forced, t.swaps]

section
variable {e : Eng} {f : Fn} {c : Cmd} (hf : f = 0)
include hf

theorem Eng.steerSwap_busy (h : e.Asks f 0x0304 0 c) (hr : e.steer.retiring ≠ none) :
    e.steerSwap f = (e.answer f 0x01 0).journalCmd f c :=
  Eng.mbxArgs_eq h rfl (decide_eq_true hf) (if_pos (Option.isSome_iff_ne_none.mpr hr))

theorem Eng.steerSwap_swaps (h : e.Asks f 0x0304 0 c) (hr : e.steer.retiring = none) :
    e.steerSwap f = ((e.swapped.working f).retireCheck).journalCmd f c := by
  refine Eng.mbxArgs_eq h rfl (decide_eq_true hf) ?_
  simp only [hr, Option.isSome_none, Bool.false_eq_true, if_false, Eng.modGen_reads]
  rfl

theorem Eng.steerStatusGet_answers (h : e.Asks f 0x0305 0 c) :
    e.steerStatusGet f = (e.respond f 0x00 0 (slotBytes e.steerItems)).journalCmd f c := by
  refine Eng.mbxArgs_eq h rfl (decide_eq_true hf) (congrArg (fun l => e.respond f 0x00 0 (slotBytes l)) ?_)
  simp only [Eng.steerItems]
  cases e.steer.swapAt <;> rfl

end

/-- Settles O51: each command's request and issuer pass, and a retirement that goes on, a LOCKED field or neither decides. -/
theorem steeringRuleCommands : Obligations.SteeringRuleCommands := by
  unfold Obligations.SteeringRuleCommands
  refine fun s f c hf => ⟨fun b h hc => ?_, fun b h => ⟨fun hm => ⟨fun hr => ?_, fun hr => ?_⟩, fun a _ _ hm hr => ?_⟩,
    fun rs h h1 h2 hl hrs => ⟨fun cf hr => ?_, fun cf hcf hr hk => ?_, fun cf i r k hr hi hk hb => ?_⟩,
    fun h => ⟨fun hr => ?_, fun hr => ?_⟩, fun h => ?_, fun b h => ?_⟩
  · exact State.does_eq_after (Eng.steerPortConfig_applies hf h hc)
  · exact State.does_eq_after (Eng.steerGenSet_busy hf h hm hr)
  · exact State.does_eq_after (Eng.steerGenSet_writes hf h hm hr)
  · exact State.does_eq_after (Eng.steerGenSet_writes_miss hf h hm hr)
  · exact State.does_eq_after (Eng.steerRuleBatch_busy hf h h1 h2 hl hrs hr cf)
  · exact State.does_eq_after (Eng.steerRuleBatch_writes hf h h1 h2 hl hrs hr hcf hk)
  · exact State.does_eq_after (Eng.steerRuleBatch_locked hf h h1 h2 hl hrs hr cf hi hk hb)
  · exact State.does_eq_after (Eng.steerSwap_busy hf h hr)
  · exact State.does_eq_after (Eng.steerSwap_swaps hf h hr)
  · exact State.does_eq_after (Eng.steerStatusGet_answers hf h)
  · exact State.does_eq_after (Eng.steerConfig_applies hf h)

end Sys2Proof.Machine
end

section
/-! PROOF. The steering group's commands on stream groups, spreading tables, policers, wake patterns and counters (R238, R245,
R249, R250, R251, R255, R527). -/
namespace Sys2Proof.Machine

/-! ### Checks in a row -/

/-- Checks all pass where the first ones do and the others do. -/
theorem firstBad_append (l m : List (Nat × Bool)) : firstBad (l ++ m) = (firstBad l).or (firstBad m) := by
  induction l with
  | nil => rfl
  | cons r l ih => cases hr : r.2 <;> simp [firstBad, hr, ih]

/-- Checks of numbered slots that all pass. -/
theorem firstBad_upTo {n : Nat} {ok : Nat → Bool} (h : ∀ i, i < n → ok i = true) (off : Nat → Nat) :
    firstBad ((upTo n).map (fun i => (off i, ok i))) = none := by
  unfold upTo
  induction n with
  | zero => rfl
  | succ n ih =>
    rw [List.range_succ, List.map_append, firstBad_append, ih fun i hi => h i (Nat.lt_succ_of_lt hi)]
    simp [firstBad, h n n.lt_succ_self]

/-! ### STREAM_GROUP_SET -/

/-- The members that a STREAM_GROUP_SET gives: stream port and destination of each (R238). -/
def Cmd.members (c : Cmd) : List (Fin 2 × Fin 8) :=
  (upTo (c.slot 1)).map (fun i => ((fin 2 (fld (c.slot (2 + i)) 0 1) : Fin 2), (fin 8 (fld (c.slot (2 + i)) 8 3) : Fin 8)))

/-- The engine with the members of a stream group written. -/
def Eng.setMembers (e : Eng) (g : Nat) (m : List (Fin 2 × Fin 8)) : Eng :=
  { e with steer := { e.steer with groups := e.steer.groups.put {} g { e.steer.groups.get {} g with members := m } } }

section
variable {e : Eng} {f : Fn} {c : Cmd} (h : e.Has f 0x0307 c) (hg : c.slot 0 < 64) (hl : c.reqLen = 16 + 8 * c.slot 1)
include h hg hl

theorem Eng.streamGroupSet_sets (hn : c.slot 1 ≤ 16) (hf : f = 0)
    (hm : ∀ i, i < c.slot 1 → c.slot (2 + i) = fld (c.slot (2 + i)) 0 1 + 256 * fld (c.slot (2 + i)) 8 3)
    (hu : c.slot 1 ≠ 0 ∨ e.groupNamed (c.slot 0) = false) :
    e.streamGroupSet f = ((Eng.pump (fin 64 (c.slot 0)) (e.steer.groups.get {} (c.slot 0)).waiting.length
      (e.setMembers (c.slot 0) c.members)).answer f 0x00 0).journalCmd f c := by
  have hlen : ¬ (c.reqLen < 16 ∨ c.slot 1 ≤ 16 ∧ c.reqLen ≠ 16 + 8 * c.slot 1) := by omega
  have hf0 : ¬ f ≠ 0 := fun hn => hn hf
  have hcount : (decide (c.slot 1 ≤ 16) && (c.slot 1 != 0 || !e.groupNamed (c.slot 0))) = true := by simpa [hn] using hu
  have hslots := firstBad_upTo (fun i hi => beq_iff_eq.mpr (hm i hi)) (fun i => slotOff (2 + i))
  have hchecks : firstBad [(32, decide (c.slot 0 < 64)),
      (40, decide (c.slot 1 ≤ 16) && (c.slot 1 != 0 || !e.groupNamed (c.slot 0)))] = none := by
    rw [hcount]
    simp [firstBad, hg]
  unfold Eng.streamGroupSet
  rw [Eng.mbx_has h]
  simp only [if_neg hlen, firstBad_append, hchecks, Nat.min_eq_left hn, hslots, Option.or_none, if_neg hf0]
  rfl

/-- A group that an action names cannot be left without a member (R238). -/
theorem Eng.streamGroupSet_named (hz : c.slot 1 = 0) (hu : e.groupNamed (c.slot 0) = true) :
    e.streamGroupSet f = (e.answer f 0x03 40).journalCmd f c := by
  have hlen : ¬ (c.reqLen < 16 ∨ c.slot 1 ≤ 16 ∧ c.reqLen ≠ 16 + 8 * c.slot 1) := by omega
  have hchecks : firstBad [(32, decide (c.slot 0 < 64)),
      (40, decide (c.slot 1 ≤ 16) && (c.slot 1 != 0 || !e.groupNamed (c.slot 0)))] = some 40 := by
    simp [firstBad, hg, hz, hu]
  unfold Eng.streamGroupSet
  rw [Eng.mbx_has h]
  simp only [if_neg hlen, firstBad_append, hchecks, Option.some_or]
  rfl

end

/-! ### SPREAD_CREATE and SPREAD_DESTROY -/

/-- The engine with spreading table `n` written, or given back. -/
def Eng.setSpread (e : Eng) (n : Nat) (x : Option Spread) : Eng :=
  { e with steer := { e.steer with spreads := e.steer.spreads.put none n x } }

/-- The numbers of the spreading tables in use. -/
def Eng.spreadsInUse (e : Eng) : List Nat := (upTo 256).filter (fun n => (e.steer.spreads.get none n).isSome)

/-- Some action in force spreads over table `n` (R245). -/
def Eng.spreadNamed (e : Eng) (n : Nat) : Bool := e.liveActions.any (fun a => a.ty == 2 && a.target == n)

/-- The checks of SPREAD_CREATE pass for a function that there is and a size that a table may have (R245). -/
theorem firstBad_spreadCreate {c : Cmd} (ho : c.slot 0 < 2048)
    (hsize : [16, 32, 64, 128, 256, 512, 1024, 2048].contains (c.slot 1) = true) :
    firstBad [(32, decide (c.slot 0 < 2048)), (40, [16, 32, 64, 128, 256, 512, 1024, 2048].contains (c.slot 1))] = none := by
  rw [hsize]
  simp [firstBad, ho]

section
variable {e : Eng} {f : Fn} {c : Cmd}

section
variable (h : e.Asks f 0x0308 2 c) (hf : f = 0) (ho : c.slot 0 < 2048)
  (hsize : [16, 32, 64, 128, 256, 512, 1024, 2048].contains (c.slot 1) = true)
include h hf ho hsize

/-- The pool has not as many entries left. -/
theorem Eng.spreadCreate_full (hp : 32768 < e.spreadUse + c.slot 1) :
    e.spreadCreate f = (e.answer f 0x04 0).journalCmd f c :=
  Eng.mbxArgs_eq h (firstBad_spreadCreate ho hsize) (decide_eq_true hf) (if_pos hp)

theorem Eng.spreadCreate_makes (hp : e.spreadUse + c.slot 1 ≤ 32768) {n : Nat} (hn : pickFree 4 256 e.spreadsInUse = some n) :
    e.spreadCreate f = ((e.setSpread n (some { owner := fin 2048 (c.slot 0), size := c.slot 1 })).respond f 0x00 0
      (slotBytes [n])).journalCmd f c := by
  unfold Eng.spreadsInUse at hn
  refine Eng.mbxArgs_eq h (firstBad_spreadCreate ho hsize) (decide_eq_true hf) ?_
  simp only [if_neg (Nat.not_lt.mpr hp), hn]
  rfl

end

section
variable (h : e.Asks f 0x0309 1 c)
include h

theorem Eng.spreadDestroy_removes (hf : f = 0) (hn : c.slot 0 < 256)
    (hx : (e.steer.spreads.get none (c.slot 0)).isSome = true) (hu : e.spreadNamed (c.slot 0) = false) :
    e.spreadDestroy f = ((e.setSpread (c.slot 0) none).answer f 0x00 0).journalCmd f c := by
  unfold Eng.spreadNamed at hu
  refine Eng.mbxArgs_eq h ?_ (decide_eq_true hf) rfl
  simp only [firstBad, hn, hx, hu, decide_true, Bool.not_false, Bool.and_true, if_true]

theorem Eng.spreadDestroy_named (hu : e.spreadNamed (c.slot 0) = true) :
    e.spreadDestroy f = (e.answer f 0x03 32).journalCmd f c := by
  unfold Eng.spreadNamed at hu
  refine Eng.mbxArgs_invalid h ?_ _ _
  simp only [firstBad, hu, Bool.not_true, Bool.and_false, Bool.false_eq_true, if_false]

end
end

/-! ### SPREAD_SET -/

section
variable (c : Cmd)

/-- The byte of the parameters at which HASH_SET of a SPREAD_SET stands, behind the key. -/
def Cmd.hashAt : Nat := 16 + (if bitAt (c.slot 1) 0 then 40 else 0)
/-- The byte at which INNER stands. -/
def Cmd.innerAt : Nat := c.hashAt + (if bitAt (c.slot 1) 1 then 8 else 0)
/-- The byte at which FIRST, COUNT and the entries stand. -/
def Cmd.firstAt : Nat := c.innerAt + (if bitAt (c.slot 1) 2 then 8 else 0)
/-- The entries that a SPREAD_SET gives. -/
def Cmd.entries : Nat := if bitAt (c.slot 1) 3 then c.at_ (c.firstAt + 8) 64 else 0
/-- The ring of the table's owner that entry `i` names. -/
def Cmd.entry (i : Nat) : Nat := c.at_ (c.firstAt + 16 + 2 * i) 16

/-- A SPREAD_SET's parts lie back to back, in the order of MASK's bits. -/
theorem spreadLayout_eq (n : Nat) : spreadLayout (c.slot 1) n =
    (c.hashAt, c.innerAt, c.firstAt, c.firstAt + (if bitAt (c.slot 1) 3 then 16 + alignUp (2 * n) 8 else 0)) := by
  have hmul (k : Nat) (b : Bool) : k * b2n b = if b then k else 0 := by cases b <;> simp [b2n]
  simp only [spreadLayout, Cmd.firstAt, Cmd.innerAt, Cmd.hashAt, hmul]

end

/-- The parameters of a SPREAD_SET are those of spreading table `x`: of the length that MASK asks for, its flags flags, its
entries in the table, rings of the table's owner, and followed by zeros (R245, R527). -/
structure Eng.Spreads (e : Eng) (c : Cmd) (x : Spread) : Prop where
  number : c.slot 0 < 256
  table : e.steer.spreads.get none (c.slot 0) = some x
  mask : c.slot 1 < 16
  len : c.reqLen = c.firstAt + (if bitAt (c.slot 1) 3 then 16 + alignUp (2 * c.entries) 8 else 0)
  ip4t : bitAt (c.slot 1) 1 = true → c.at_ c.hashAt 64 < 2
  inner : bitAt (c.slot 1) 2 = true → c.at_ c.innerAt 64 < 2
  part : bitAt (c.slot 1) 3 = true → c.entries ≤ 2048 ∧ c.at_ c.firstAt 64 + c.entries ≤ x.size ∧
    (∀ i, i < c.entries → (e.rxqOf x.owner (c.entry i)).isSome = true) ∧
    c.at_ (c.firstAt + 16 + 2 * c.entries) (8 * (alignUp (2 * c.entries) 8 - 2 * c.entries)) = 0

/-- The checks of SPREAD_SET's parameters against table `x`. -/
def Eng.spreadChecks (e : Eng) (c : Cmd) (x : Spread) : List (Nat × Bool) :=
  [(32, decide (c.slot 0 < 256)), (40, decide (c.slot 1 < 16)),
    (detOff (32 + c.hashAt), !bitAt (c.slot 1) 1 || flagOk (c.at_ c.hashAt 64)),
    (detOff (32 + c.innerAt), !bitAt (c.slot 1) 2 || flagOk (c.at_ c.innerAt 64)),
    (detOff (32 + c.firstAt), !bitAt (c.slot 1) 3 || decide (c.at_ c.firstAt 64 ≤ x.size)),
    (detOff (40 + c.firstAt), !bitAt (c.slot 1) 3 || decide (c.at_ c.firstAt 64 + c.entries ≤ x.size))] ++
  (if c.entries ≤ 2048 then
    (upTo c.entries).map (fun i => (detOff (48 + c.firstAt + 2 * i), (e.rxqOf x.owner (c.entry i)).isSome)) else []) ++
  [(detOff (48 + c.firstAt + 2 * c.entries), !bitAt (c.slot 1) 3 ||
    c.at_ (c.firstAt + 16 + 2 * c.entries) (8 * (alignUp (2 * c.entries) 8 - 2 * c.entries)) == 0)]

/-- Table `x` as a SPREAD_SET leaves it: the parts that MASK names written, the others kept (R245). -/
def Cmd.spread (c : Cmd) (x : Spread) : Spread :=
  { x with
    key := if bitAt (c.slot 1) 0 then c.bytes 16 40 else x.key
    ip4t := if bitAt (c.slot 1) 1 then c.at_ c.hashAt 64 == 1 else x.ip4t
    inner := if bitAt (c.slot 1) 2 then c.at_ c.innerAt 64 == 1 else x.inner
    entries := (upTo c.entries).foldl (fun (l : Tab Nat) i => l.put 0 (c.at_ c.firstAt 64 + i) (c.entry i)) x.entries }

section
variable {e : Eng} {c : Cmd} {x : Spread} (hp : e.Spreads c x)
include hp

/-- A SPREAD_SET gives no more entries than a table has. -/
theorem Eng.Spreads.entries_le : c.entries ≤ 2048 := by
  cases h3 : bitAt (c.slot 1) 3 with
  | true => exact (hp.part h3).1
  | false => simp [Cmd.entries, h3]

theorem Eng.Spreads.passes : firstBad (e.spreadChecks c x) = none := by
  have hflag {k v : Nat} (h : bitAt (c.slot 1) k = true → v < 2) : (!bitAt (c.slot 1) k || flagOk v) = true := by
    cases hk : bitAt (c.slot 1) k with
    | true => exact decide_eq_true (h hk)
    | false => rfl
  unfold Eng.spreadChecks
  rw [firstBad_append, firstBad_append, if_pos hp.entries_le]
  simp only [firstBad, hp.number, hp.mask, hflag hp.ip4t, hflag hp.inner, decide_true, if_true]
  cases h3 : bitAt (c.slot 1) 3 with
  | true =>
    obtain ⟨-, hend, hring, hpad⟩ := hp.part h3
    have hfirst : c.at_ c.firstAt 64 ≤ x.size := by omega
    rw [firstBad_upTo hring]
    simp [hfirst, hend, hpad]
  | false =>
    have hnone : c.entries = 0 := by simp [Cmd.entries, h3]
    rw [hnone]
    simp [upTo, firstBad]

variable {f : Fn} (h : e.Has f 0x030A c)
include h

/-- A SPREAD_SET that passes is the table's OWNER's or F0's. -/
theorem Eng.spreadSet_parsed : e.spreadSet f = (if f ≠ 0 ∧ f ≠ x.owner then e.answer f 0x05 0
    else (e.setSpread (c.slot 0) (some (c.spread x))).answer f 0x00 0).journalCmd f c := by
  have hlen : ¬ (c.reqLen < 16 ∨ c.slot 1 < 16 ∧ (c.reqLen < (if bitAt (c.slot 1) 3 then c.firstAt + 16 else c.firstAt) ∨
      c.entries ≤ 2048 ∧ c.reqLen ≠ c.firstAt + (if bitAt (c.slot 1) 3 then 16 + alignUp (2 * c.entries) 8 else 0))) := by
    have h16 : 16 ≤ c.firstAt := by unfold Cmd.firstAt Cmd.innerAt Cmd.hashAt; omega
    have hreq := hp.len
    cases h3 : bitAt (c.slot 1) 3 with
    | true =>
      simp only [h3, if_true] at hreq ⊢
      omega
    | false =>
      simp only [h3, Bool.false_eq_true, if_false] at hreq ⊢
      omega
  have hnum : c.slot 0 % 2 ^ 32 = c.slot 0 := Nat.mod_eq_of_lt (by have := hp.number; omega)
  have hpass := hp.passes
  unfold Eng.spreadChecks Cmd.entries Cmd.entry at hpass
  unfold Cmd.entries at hlen
  unfold Eng.spreadSet
  rw [Eng.mbx_has h]
  simp only [spreadLayout_eq, if_neg hlen, hnum, hp.table, hpass]
  rfl

theorem Eng.spreadSet_sets (hf : f = 0 ∨ f = x.owner) :
    e.spreadSet f = ((e.setSpread (c.slot 0) (some (c.spread x))).answer f 0x00 0).journalCmd f c := by
  rw [Eng.spreadSet_parsed hp h, if_neg fun hn => hf.elim hn.1 hn.2]

theorem Eng.spreadSet_denied (hf : f ≠ 0) (ho : f ≠ x.owner) : e.spreadSet f = (e.answer f 0x05 0).journalCmd f c := by
  rw [Eng.spreadSet_parsed hp h, if_pos ⟨hf, ho⟩]

end

/-! ### Itemised commands -/

section
variable {e : Eng} {apply : Eng → SetBlk → Nat ⊕ Eng}

/-- One more block that is applied, behind the others. -/
theorem Eng.items_snoc {l : List (Nat ⊕ SetBlk)} {b : SetBlk} {d d' : Eng} {done : Nat} {bad : Option Nat}
    (h : e.items apply l = (d, done, bad)) (hb : apply d b = .inr d') :
    e.items apply (l ++ [.inr b]) = (d', done + 2 ^ l.length, bad) := by
  unfold Eng.items upTo at h ⊢
  rw [List.length_append, List.length_singleton, List.range_succ, List.zip_append List.length_range.symm, List.foldl_append, h]
  simp only [List.zip_cons_cons, List.zip_nil_right, List.foldl_cons, List.foldl_nil, hb]

/-- Blocks that all pass and are all applied, counted from the last. -/
theorem Eng.items_all_reverse {g : Eng → SetBlk → Eng} (hg : ∀ d b, apply d b = .inr (g d b)) (bs : List SetBlk) :
    e.items apply (bs.reverse.map Sum.inr) = (foldEng bs.reverse g e, 2 ^ bs.length - 1, none) := by
  induction bs with
  | nil => rfl
  | cons b bs ih =>
    have hpos := Nat.one_le_two_pow (n := bs.length)
    have hmask : 2 ^ bs.length - 1 + 2 ^ bs.length = 2 ^ (bs.length + 1) - 1 := by rw [Nat.pow_succ]; omega
    rw [List.reverse_cons, List.map_append, List.map_singleton, Eng.items_snoc ih (hg _ b), List.length_map,
      List.length_reverse, hmask, List.length_cons]
    simp only [foldEng, List.foldl_append, List.foldl_cons, List.foldl_nil]

/-- Blocks that all pass and are all applied. -/
theorem Eng.items_all {g : Eng → SetBlk → Eng} (hg : ∀ d b, apply d b = .inr (g d b)) (bs : List SetBlk) :
    e.items apply (bs.map Sum.inr) = (foldEng bs g e, 2 ^ bs.length - 1, none) := by
  have hrev := Eng.items_all_reverse (e := e) hg bs.reverse
  rwa [List.reverse_reverse, List.length_reverse] at hrev

variable {f : Fn} {op n : Nat} {c : Cmd} {specs : List Fld} {obj : Eng → Nat → Bool} {d : Eng} {done : Nat}
  (h : e.Has f op c) (hs : spansOk c (fun _ => specs) n 0 = true)
include h hs

/-- All of the blocks are applied. -/
theorem Eng.mbxItems_all (hf : f = 0) (hi : e.items apply (itemBlocks c specs (obj e) n 0) = (d, done, none)) :
    e.mbxItems f op n specs obj apply = (d.respond f 0x00 0 (slotBytes [done])).journalCmd f c := by
  unfold Eng.mbxItems
  rw [Eng.mbx_has h]
  simp only [hs, hi, hf, Bool.not_true, Bool.false_eq_true, if_false, ne_eq, not_true_eq_false]
  rfl

/-- Some are: PARTIAL (R527). -/
theorem Eng.mbxItems_some {k : Nat} (hf : f = 0) (hi : e.items apply (itemBlocks c specs (obj e) n 0) = (d, done, some k))
    (hd : done ≠ 0) :
    e.mbxItems f op n specs obj apply = (d.respond f 0x06 k (slotBytes [done])).journalCmd f c := by
  unfold Eng.mbxItems
  rw [Eng.mbx_has h]
  simp only [hs, hi, hf, hd, Bool.not_true, Bool.false_eq_true, if_false, ne_eq, not_true_eq_false]
  rfl

/-- None is. -/
theorem Eng.mbxItems_none {k : Nat} (hi : e.items apply (itemBlocks c specs (obj e) n 0) = (d, done, some k)) (hd : done = 0) :
    e.mbxItems f op n specs obj apply = (e.answer f 0x03 k).journalCmd f c := by
  unfold Eng.mbxItems
  rw [Eng.mbx_has h]
  simp only [hs, hi, hd, Bool.not_true, Bool.false_eq_true, if_false, if_true]
  rfl

end

/-! ### POLICER_SET and WAKE_PATTERN_SET -/

/-- What a block writes of its policer: one given fields starts with BURST tokens (R249). -/
def Eng.writePolicer (e : Eng) (b : SetBlk) : Eng :=
  let i : Fin 4096 := fin 4096 b.object
  let x := e.policer i
  let y := { x with
    rate := b.val 0 x.rate, burst := b.val 1 x.burst, lenAdj := signed 64 (b.val 2 (unsigned 64 x.lenAdj)) }
  e.setPolicer i (if b.flds = [] then y else { y with tokens := y.burst * 6250, last := 2 * e.now })

theorem Eng.policerApply_eq (e : Eng) (b : SetBlk) : e.policerApply b = .inr (e.writePolicer b) := by
  simp only [Eng.policerApply, Eng.writePolicer, List.isEmpty_iff]

/-- The MASK of the wake pattern that a block leaves (R251). -/
def Eng.wakeMask (e : Eng) (b : SetBlk) : Nat :=
  if b.has 1 then ((b.list 1 []).zip (upTo 4)).foldl (fun a (v, k) => a + v * 2 ^ (64 * k)) 0
  else (e.steer.wakePats.get {} (wakeIdx b.object)).mask

/-- The engine with a wake pattern's fields written. -/
def Eng.writeWake (e : Eng) (b : SetBlk) : Eng :=
  let x := e.steer.wakePats.get {} (wakeIdx b.object)
  let y : WakePat := { enable := b.bool 0 x.enable, mask := e.wakeMask b, check := b.val 2 x.check }
  { e with steer := { e.steer with wakePats := e.steer.wakePats.put {} (wakeIdx b.object) y } }

/-- A wake pattern is written unless its MASK is all zeros (R251). -/
theorem Eng.wakeApply_eq (e : Eng) (b : SetBlk) :
    e.wakeApply b = if e.wakeMask b = 0 then .inl (b.off 1) else .inr (e.writeWake b) := by
  cases hb : b.get 1 with
  | none => simp only [Eng.wakeApply, Eng.writeWake, Eng.wakeMask, SetBlk.has, hb, Option.isSome_none, Bool.false_eq_true, if_false]
  | some v => simp only [Eng.wakeApply, Eng.writeWake, Eng.wakeMask, SetBlk.has, SetBlk.list, hb, Option.isSome_some, if_true]

/-! ### Counters -/

/-- The counters of policer `i` cleared where `v` is 1 (R250). -/
def Eng.clearPolicer (e : Eng) (i : Fin 4096) (v : Nat) : Eng :=
  if v = 1 then e.setPolicer i { e.policer i with passFrames := 0, passOctets := 0, dropFrames := 0, dropOctets := 0 } else e

/-- The steering counters of port `p` cleared where `v` is 1 (R255). -/
def Eng.clearSteer (e : Eng) (p : PortId) (v : Nat) : Eng := if v = 1 then e.setPort p { e.port p with steer := {} } else e

section
variable {e : Eng} {f : Fn} {c : Cmd}

theorem Eng.policerStats_answers (h : e.Asks f 0x030D 2 c) (hf : f = 0) (hi : c.slot 0 < 4096) (hv : c.slot 1 < 2) :
    e.policerStats f =
      let x := e.policer (fin 4096 (c.slot 0))
      ((e.clearPolicer (fin 4096 (c.slot 0)) (c.slot 1)).respond f 0x00 0
        (slotBytes [x.passFrames, x.passOctets, x.dropFrames, x.dropOctets])).journalCmd f c :=
  Eng.mbxArgs_eq h (by simp [firstBad, flagOk, hi, hv]) (decide_eq_true hf) rfl

theorem Eng.steerStats_answers (h : e.Asks f 0x030E 2 c) (hp : e.portArg (c.slot 0) = true) (hv : c.slot 1 < 2)
    (hm : f = 0 ∨ (e.port c.port).statsOwner = f) :
    e.steerStats f = ((e.clearSteer c.port (c.slot 1)).respond f 0x00 0
      (slotBytes ((upTo 19).map (fun i => (e.port c.port).steer.get 0 i)))).journalCmd f c :=
  Eng.mbxArgs_eq h (firstBad_port_flag hp hv 40) (Eng.mayStat_of hm) rfl

end

/-- Settles O52: each command's request and issuer pass, an action that names an object keeps it, and an itemised command
answers by its blocks' outcome. -/
theorem streamsSpreadingAndPolicers : Obligations.StreamsSpreadingAndPolicers := by
  unfold Obligations.StreamsSpreadingAndPolicers
  refine ⟨fun s f c => ⟨fun h hf hg hn hl hm => ⟨fun hu => ?_, fun hz hu => ?_⟩,
      fun h hf ho hsize => ⟨fun hp => ?_, fun n hp hn => ?_⟩, fun h hf hn hx => ⟨fun hu => ?_, fun hu => ?_⟩,
      fun x h hn hx hmask hlen h1 h2 h3 => ?_⟩,
    fun s f c => ⟨fun h hf hs => ⟨fun bs hbs => ?_, fun d done k hi => ⟨fun hd => ?_, fun hd => ?_⟩⟩,
      fun h hf hs => ⟨fun d done hi => ?_, fun d done k hi => ⟨fun hd => ?_, fun hd => ?_⟩⟩,
      fun b => ⟨fun hm => ?_, fun hm => ?_⟩, fun h hf hi hv => ?_, fun h hp hv hm => ?_⟩⟩
  · exact State.does_eq_after (Eng.streamGroupSet_sets h hg hl hn hf hm hu)
  · exact State.does_eq_after (Eng.streamGroupSet_named h hg hl hz hu)
  · exact State.does_eq_after (Eng.spreadCreate_full h hf ho hsize hp)
  · exact State.does_eq_after (Eng.spreadCreate_makes h hf ho hsize hp hn)
  · exact State.does_eq_after (Eng.spreadDestroy_removes h hf hn hx hu)
  · exact State.does_eq_after (Eng.spreadDestroy_named h hu)
  · have hp : s.eng.clear.Spreads c x := ⟨hn, hx, hmask, hlen, h1, h2, h3⟩
    exact ⟨fun hf => State.does_eq_after (Eng.spreadSet_sets hp h hf),
      fun hf ho => State.does_eq_after (Eng.spreadSet_denied hp h hf ho)⟩
  · refine State.does_eq_after (Eng.mbxItems_all h hs hf ?_)
    rw [hbs]
    exact Eng.items_all Eng.policerApply_eq bs
  · exact State.does_eq_after (Eng.mbxItems_some h hs hf hi hd)
  · exact State.does_eq_after (Eng.mbxItems_none h hs hi hd)
  · exact State.does_eq_after (Eng.mbxItems_all h hs hf hi)
  · exact State.does_eq_after (Eng.mbxItems_some h hs hf hi hd)
  · exact State.does_eq_after (Eng.mbxItems_none h hs hi hd)
  · exact (Eng.wakeApply_eq _ b).trans (if_pos hm)
  · exact (Eng.wakeApply_eq _ b).trans (if_neg hm)
  · exact State.does_eq_after (Eng.policerStats_answers h hf hi hv)
  · exact State.does_eq_after (Eng.steerStats_answers h hp hv hm)

end Sys2Proof.Machine
end

section
/-! PROOF. Decisions of the Dealer, refills of its buckets and of pacing, and the sampler's samples (R288, R290, R296, R299,
R303, R305, R306). -/
namespace Sys2Proof.Machine

/-! ### Decisions -/

/-- The engine as a decision on port `p` finds it, the heads whose launch time is past looked at (R296). -/
def Eng.headsSeen (e : Eng) (p : PortId) : Eng :=
  foldEng (e.txqList.filter (fun r => decide (r.2.port = p))) (fun e r => e.txHead r.1 true) e

/-- The engine once a decision of port `p` that has reached leaf `q` has granted its batch and charged its path (R292, R294). -/
def Eng.decided (d : Eng) (p : PortId) (q : TxqId) (path : List (DObjId × DObjId × Nat)) : Eng :=
  let b := d.takeBatch q
  let c := b.2.2.2.charge path b.1 b.2.1
  c.setRoot p { c.root p with decisions := sat64 ((c.root p).decisions + 1) }

/-- Tally's event of a decision of port `p` for queue `x` (R457). -/
def Txq.decisionEvent (x : Txq) (p : PortId) (code inc : Nat) : TEvent :=
  { code := code, inc := inc, port := some p, tc := some x.tc, fn := some x.fn }

/-- Tally told that leaves of port `p` other than those of `held` have come to be held by a shaper (R457). -/
def Eng.talShaped (e : Eng) (p : PortId) (held : List TxqId) : Eng :=
  foldEng ((e.shaped p).filter (fun q => !held.contains q)) (fun e q => match e.txq q with
    | some y => e.tal { code := 0x104, port := some p, tc := some y.tc, fn := some y.fn }
    | none => e) e

/-- Tally told of a decision for queue `x` that has charged `len` bytes, granted `cnt` frames and charged `octets` with
their LEN_ADJs (R457). -/
def Eng.talDecision (e : Eng) (p : PortId) (x : Txq) (len cnt octets : Nat) : Eng :=
  let e := if 0 < len then e.tal (x.decisionEvent p 0x101 1) else e
  let e := if 0 < cnt then e.tal (x.decisionEvent p 0x102 cnt) else e
  e.tal (x.decisionEvent p 0x103 octets)

section
variable {e d : Eng} {p : PortId}

/-- A port to which the calendar gives no turn makes no decision (R288). -/
theorem Eng.decide_no_turn (ht : (e.headsSeen p).calTurn ≠ some p) : e.decide_ p = e.headsSeen p := if_pos ht

variable (ht : (e.headsSeen p).calTurn = some p)
include ht

/-- A decision that reaches no leaf takes the calendar's position all the same. -/
theorem Eng.decide_no_leaf (hd : Eng.descend 10 (e.headsSeen p).calStep (.root p) [] = (none, d)) : e.decide_ p = d := by
  refine (if_neg (not_not_intro ht)).trans ?_
  unfold Eng.headsSeen at hd
  rw [hd]

/-- A decision that reaches a leaf grants its batch, charges its path and tells Tally (R290 to R294). -/
theorem Eng.decide_leaf {q : TxqId} {path : List (DObjId × DObjId × Nat)} {x : Txq}
    (hd : Eng.descend 10 (e.headsSeen p).calStep (.root p) [] = (some (q, path), d)) (hx : (d.decided p q path).txq q = some x) :
    e.decide_ p =
      let b := d.takeBatch q
      (((d.decided p q path).talDecision p x b.1 b.2.2.1
        ((b.1 : Int) + b.2.1 * (b.2.2.2.leaf q).sh.lenAdj).toNat).talShaped p (d.shaped p)).txHead q false := by
  refine (if_neg (not_not_intro ht)).trans ?_
  unfold Eng.headsSeen at hd
  rw [hd]
  unfold Eng.decided at hx
  dsimp only at hx ⊢
  rw [hx]
  rfl

end

/-! ### Refills -/

/-- A bucket with no field written and nothing to forgive gains its rate up to its burst; one not enabled keeps its
tokens (R299). -/
theorem DObj.refill_eq {x : DObj} (hs : x.shadow = none) (hf : x.forgive = false) :
    x.refill = if x.sh.en then { x with tokens := min (125 * (x.sh.burst : Int)) (x.tokens + x.sh.rate) } else x := by
  obtain ⟨⟩ := x
  cases hs
  cases hf
  simp [DObj.refill]

/-- A leaf or node that exists is refilled while PD_SCH has power (R308). -/
theorem Eng.shaperRefill_live {e : Eng} {o : DObjId} (ho : ∀ p, o ≠ .root p) (hp : e.dataOn = true)
    (hl : (e.dobj o).live = true) : e.shaperRefill o = e.setDobj o (e.dobj o).refill := by
  cases o with
  | root p => exact absurd rfl (ho p)
  | leaf q => exact if_pos ⟨hp, hl⟩
  | node n => exact if_pos ⟨hp, hl⟩

/-- The pacing of a port gains what its lanes carry in 64 ns, up to the cap (R303). -/
theorem Eng.pacingRefill_port {e : Eng} {p : PortId} (hp : e.dataOn = true) (hport : e.portOf p = p) :
    e.pacingRefill p = e.setRoot p { e.root p with
      pacing := min 32768 ((e.root p).pacing + 1600 * ((e.port p).txLanes : Int)) } :=
  if_pos ⟨hp, decide_eq_true hport⟩

/-! ### Samples -/

/-- The Dealer with a sample of queue `q` counted (R305, R306). -/
def DealerSt.sampled (x : DealerSt) (q : TxqId) : DealerSt :=
  { x with sampleNext := q.val + 1, sampleSeq := x.sampleSeq + 1, ring := { x.ring with count := x.ring.count + 1 } }

/-- With the sampler off nothing happens (R305). -/
theorem Eng.sample_off {e : Eng} (h : e.dealer.sampleEn = false) : e.sample = e := if_pos (.inl h)

/-- A sample writes the record of the queue that is next and counts it (R305, R306). -/
theorem Eng.sample_writes {e : Eng} (hen : e.dealer.sampleEn = true) (hp : e.dataOn = true) {q : TxqId} {x : Txq}
    (hq : e.sampleQueue = some q) (hx : e.txq q = some x) :
    e.sample =
      let r := e.dealer.ring
      (({ e with dealer := e.dealer.sampled q } : Eng).writeRecord .sample r.fn r.pasid (r.base + 32 * (r.count % r.size))
        (e.sampleBytes q x (phaseBit r.count r.size))).2 := by
  unfold Eng.sample
  rw [if_neg (by simp [hen, hp])]
  simp only [hq, hx]
  rfl

/-- Settles O29: the calendar's turn and the leaf reached decide what a decision does, a refill acts where its bucket is
enabled, and a sample is written where the sampler is on. -/
theorem dealerEvents : Obligations.DealerEvents := by
  unfold Obligations.DealerEvents
  refine ⟨fun s p => ⟨fun ht => ?_, fun ht d hd => ?_, fun ht q path d hd x hx => ?_⟩, fun s o ho hr hc hl hs hf => ?_,
    fun s p hport hr hc => ?_, fun s => ⟨fun h => ?_, fun q x hen hr hc hq hx => ?_⟩⟩
  · exact State.does_eq_after (Eng.decide_no_turn ht)
  · exact State.does_eq_after (Eng.decide_no_leaf ht hd)
  · exact State.does_eq_after (Eng.decide_leaf ht hd hx)
  · have hrefill := (Eng.shaperRefill_live (e := s.eng.clear) ho (Eng.dataOn_of_powered hr hc) hl).trans
      (congrArg (s.eng.clear.setDobj o) (DObj.refill_eq (x := s.eng.dobj o) hs hf))
    exact ⟨fun hen => State.does_eq_after (hrefill.trans (congrArg _ (if_pos hen))),
      fun hen => State.does_eq_after (hrefill.trans (congrArg _ (if_neg (by rw [hen]; exact Bool.false_ne_true))))⟩
  · exact State.does_eq_after (Eng.pacingRefill_port (e := s.eng.clear) (Eng.dataOn_of_powered hr hc) hport)
  · exact State.does_eq_after (Eng.sample_off (e := s.eng.clear) h)
  · exact State.does_eq_after (Eng.sample_writes (e := s.eng.clear) hen (Eng.dataOn_of_powered hr hc) hq hx)

end Sys2Proof.Machine
end

section
/-! PROOF. What a fault event does in its unit, how one event is graded and captured, and forced events (R309, R337, R393,
R394, R395, R397, R398, R400, R405). -/
namespace Sys2Proof.Machine

/-! ### What has happened in the unit -/

section
variable {e : Eng} {v : FaultEv}

/-- An event of INFO class, or one corrected of another source than 7, is no more than driven. -/
theorem Eng.unitFault_not_failure (h : v.cls = .info ∨ v.cls = .corrected ∧ v.src.val ≠ 7) : e.unitFault v = e := by
  unfold Eng.unitFault
  rcases h with h | ⟨h, hs⟩
  · simp [h]
  · simp [h, hs]

/-- An event of a source above 32 is no more than driven. -/
theorem Eng.unitFault_above (h : 32 < v.src.val) : e.unitFault v = e := by
  unfold Eng.unitFault
  simp only [show ¬ v.src.val = 7 by omega, show ¬ v.src.val < 4 by omega, show ¬ v.src.val = 4 by omega,
    show ¬ v.src.val = 6 by omega, show ¬ (8 ≤ v.src.val ∧ v.src.val < 24) by omega, show ¬ v.src.val = 27 by omega,
    show ¬ v.src.val = 28 by omega, show ¬ v.src.val = 29 by omega, show ¬ v.src.val = 31 by omega,
    show ¬ v.src.val = 32 by omega, false_and, if_false, ite_self]

/-- An event that is no more than driven. -/
theorem Eng.unitFault_driven (h : v.cls = .info ∨ v.cls = .corrected ∧ v.src.val ≠ 7 ∨ 32 < v.src.val) : e.unitFault v = e := by
  rcases h with h | h | h
  · exact Eng.unitFault_not_failure (.inl h)
  · exact Eng.unitFault_not_failure (.inr h)
  · exact Eng.unitFault_above h

/-- A Dealer tree is broken (R309). -/
theorem Eng.unitFault_tree (hc : v.cls = .failure) (hs : v.src = 28) :
    e.unitFault v = e.setRoot (fin 16 v.detail.toNat) { e.root (fin 16 v.detail.toNat) with broken := true } := by
  have hsrc : v.src.val = 28 := congrArg Fin.val hs
  unfold Eng.unitFault
  simp [hc, hsrc]

/-- A policer's tokens are lost (R253). -/
theorem Eng.unitFault_policer (hc : v.cls = .failure) (hs : v.src = 29) (hm : v.master = 0x8030) :
    e.unitFault v = e.policerLost (fin 4096 (v.detail.toNat % 32768)) := by
  have hsrc : v.src.val = 29 := congrArg Fin.val hs
  have hmaster : v.master.toNat = mPipe := congrArg BitVec.toNat hm
  unfold Eng.unitFault
  simp [hc, hsrc, hmaster, Eng.shaperLost]

/-- The entry of a translation cache of one entry is no longer there (R200). -/
theorem Eng.unitFault_entry (hc : v.cls ≠ .info) (hs : v.src = 7) (hl : e.dma.cache.length = 1) :
    e.unitFault v = { e with free := e.free + 1, dma := { e.dma with cache := [] } } := by
  have hsrc : v.src.val = 7 := congrArg Fin.val hs
  obtain ⟨x, hx⟩ := List.length_eq_one_iff.mp hl
  unfold Eng.unitFault
  simp [hc, hsrc, Eng.entryLost, Eng.fresh, hx, Nat.mod_one]

/-- Events that are no more than driven wait for the command's end (R393). -/
theorem Eng.faultEvents_driven {evs : List FaultEv}
    (h : ∀ v ∈ evs, v.cls = .info ∨ v.cls = .corrected ∧ v.src.val ≠ 7 ∨ 32 < v.src.val) (e : Eng) :
    foldEng evs (fun e v => (e.unitFault v).raiseEv v) e = { e with flt := { e.flt with raised := e.flt.raised ++ evs } } := by
  induction evs generalizing e with
  | nil => simp [foldEng]
  | cons v t ih =>
    obtain ⟨hv, ht⟩ := List.forall_mem_cons.mp h
    have hstep : foldEng (v :: t) (fun e v => (e.unitFault v).raiseEv v) e =
        foldEng t (fun e v => (e.unitFault v).raiseEv v) (e.raiseEv v) := by
      rw [foldEng, List.foldl_cons, Eng.unitFault_driven hv]
      rfl
    rw [hstep, ih ht]
    simp [Eng.raiseEv]

end

/-! ### The grading of one event -/

/-- The severity of an event, one more where its source has become lasting (R394, R395). -/
def Eng.severity (e : Eng) (v : FaultEv) : Nat :=
  min 4 ((e.srcCfg v.src.val).grade v.cls + b2n (bitAt e.flt.lasting.toNat v.src.val))

/-- The reaction that a source has to an event of its severity (R400). -/
def Eng.reactionTo (e : Eng) (v : FaultEv) : Reaction := nth (e.srcCfg v.src.val).react (e.severity v) .none

/-- An event graded alone, in no window (R394, R397). -/
def Eng.gradedAs (e : Eng) (v : FaultEv) (sec ns : Nat) : Graded :=
  { ev := v, sev := e.severity v, lasting := bitAt e.flt.lasting.toNat v.src.val, reaction := e.reactionTo v, sec := sec, ns := ns }

/-- A source's statistics with one more event counted (R409). -/
def SrcStat.more (x : SrcStat) : SrcStat := { x with count := min (x.count + 1) 0xFFFFFFFF }

/-- The collector with an event of source `n` of a severity in its status and statistics (R393, R408, R409). -/
def FltSt.counted (x : FltSt) (n sev : Nat) : FltSt :=
  { x with
    status := x.status ||| srcBit n
    stat := x.stat.put {} n { (x.stat.get {} n).more with highSev := max (x.stat.get {} n).highSev sev } }

/-- A source that has had an event does not have the statistics of one that has had none. -/
theorem SrcStat.ne_reset {x y : SrcStat} (h : y.count = x.more.count) : y ≠ {} := by
  rintro rfl
  have : (0 : Nat) = min (x.count + 1) 0xFFFFFFFF := h
  omega

/-- The count and then HIGH_SEV written are one write. -/
theorem statPut_more_sev (t : Tab SrcStat) (n sev : Nat) :
    let t1 := t.put {} n (t.get {} n).more
    t1.put {} n { t1.get {} n with highSev := max (t1.get {} n).highSev sev } =
      t.put {} n { (t.get {} n).more with highSev := max (t.get {} n).highSev sev } := by
  dsimp only
  rw [Tab.get_put_same]
  exact Tab.put_put t {} n (SrcStat.ne_reset (x := t.get {} n) rfl) (SrcStat.ne_reset (x := t.get {} n) rfl)

/-- A reaction that needs no fallback (R401). -/
theorem Eng.applied_mild (e : Eng) {r : Reaction} (h : r = .none ∨ r = .interrupt) (v : FaultEv) : e.applied r v = r := by
  rcases h with rfl | rfl <;> rfl

/-- What a capture becomes at an edge of one event (R398). -/
theorem FltSt.take_one (x : FltSt) (g : Graded) : x.take [g] =
    { x with multi := x.multi || x.first.valid, first := if x.first.valid then x.first else g.capture } := by
  cases h : x.first.valid <;> simp [FltSt.take, strongest, h]

/-- A severity that neither freezes Tally nor wakes a standby (R450, R461). -/
theorem Eng.graded_quiet {e : Eng} (hf : e.tally.freezeSev = 0) (hw : e.pair.wakeSev = 0) (g : Graded) : e.graded g = e := by
  simp [Eng.graded, Eng.faultFreeze, hf, hw]

/-- With FLT_CTRL.IRQ_EN 0 a reaction of INTERRUPT does no more than none (R401). -/
theorem Eng.react_mild {e : Eng} {g : Graded} (hirq : e.flt.irqEn = false) (hsh : e.flt.shadows = [])
    (hg : g.reaction = .none ∨ g.reaction = .interrupt) : e.react [g] = e := by
  rcases hg with hg | hg <;> simp [Eng.react, hirq, hg, strongest, Eng.resetting, hsh, foldEng]

/-- An edge of one event that does no more than this: the capture takes it or FLT_MULTI is set (R398). -/
theorem Eng.gradeEdge_one {e d : Eng} {vs : List (FaultEv × Nat × Nat)} {g : Graded}
    (hall : Eng.gradeAll vs [] e [] = (d, [g])) (hf : d.tally.freezeSev = 0) (hw : d.pair.wakeSev = 0)
    (hirq : d.flt.irqEn = false) (hsh : d.flt.shadows = []) (hg : g.reaction = .none ∨ g.reaction = .interrupt) :
    e.gradeEdge vs = { d with flt := d.flt.take [g] } := by
  have htake : (d.flt.take [g]).irqEn = false ∧ (d.flt.take [g]).shadows = [] := by
    rw [FltSt.take_one]
    exact ⟨hirq, hsh⟩
  have hgraded : ({ d with flt := d.flt.take [g] } : Eng).graded g = { d with flt := d.flt.take [g] } :=
    Eng.graded_quiet (e := { d with flt := d.flt.take [g] }) hf hw g
  unfold Eng.gradeEdge
  rw [hall]
  exact (congrArg (Eng.react · [g]) hgraded).trans (Eng.react_mild htake.1 htake.2 hg)

section
variable {e : Eng} {v : FaultEv} (hmild : e.reactionTo v = .none ∨ e.reactionTo v = .interrupt) (hsrc : v.src.val < 50)
  (hshadows : e.flt.shadows = []) (hwin : (e.srcCfg v.src.val).winEn = false)
include hmild hsrc hshadows hwin

/-- An event of a source that counts no window, under no shadow and the first of its source at its edge, is counted and
graded (R393 to R395). -/
theorem Eng.gradeOne_first (sec ns : Nat) : e.gradeOne [] v sec ns =
    ({ e with flt := e.flt.counted v.src.val (e.severity v) }, some (e.gradedAs v sec ns)) := by
  unfold Eng.gradeOne
  dsimp only
  generalize hd : e.modStat v.src.val (fun x => { x with count := min (x.count + 1) 0xFFFFFFFF }) = d
  have hdw : d.windowed v = (false, d) := by
    subst hd
    refine if_pos ?_
    rw [Bool.not_eq_true']
    exact hwin
  have hds : d.flt.shadows = [] := by
    subst hd
    exact hshadows
  rw [if_neg (by omega), if_neg (by simp), hds]
  simp only [List.find?_nil, hdw, Bool.false_and, Bool.false_eq_true, if_false]
  subst hd
  refine Prod.ext ?_ (congrArg some ?_)
  · exact congrArg (fun t => ({ e with flt := { e.flt with status := e.flt.status ||| srcBit v.src.val, stat := t } } : Eng))
      (statPut_more_sev e.flt.stat v.src.val (e.severity v))
  · exact congrArg (fun r => { e.gradedAs v sec ns with reaction := r }) (Eng.applied_mild _ hmild v)

/-- The edge of such an event (R398). -/
theorem Eng.gradeEdge_first (hf : e.tally.freezeSev = 0) (hw : e.pair.wakeSev = 0) (hirq : e.flt.irqEn = false) (sec ns : Nat) :
    e.gradeEdge [(v, sec, ns)] =
      { e with flt := (e.flt.counted v.src.val (e.severity v)).take [e.gradedAs v sec ns] } := by
  have hall : Eng.gradeAll [(v, sec, ns)] [] e [] =
      ({ e with flt := e.flt.counted v.src.val (e.severity v) }, [e.gradedAs v sec ns]) := by
    simp [Eng.gradeAll, Eng.gradeOne_first hmild hsrc hshadows hwin]
  exact Eng.gradeEdge_one hall hf hw hirq hshadows hmild

end

/-! ### The end of a command that has driven one event -/

section
variable {e : Eng} {v : FaultEv}

/-- An event driven in a calm engine is graded alone (R393). -/
theorem Eng.settle_raised (h : e.Calm) (hc : e.collecting = true) (n : Nat) :
    Eng.settle (n + 1) (e.raiseEv v) = Eng.settle n (e.gradeEdge [(v, (e.tb 0).sec, (e.tb 0).ns)]) := by
  have hraised : (e.raiseEv v).flt.raised = [v] := by simp [Eng.raiseEv, h.raised]
  have hheld : (e.raiseEv v).flt.held = [] := h.held
  have hcol : (e.raiseEv v).collecting = true := hc
  have hback : (e.raiseEv v).modFlt (fun x => { x with raised := [], held := x.held }) = e := by
    show ({ e with flt := { e.flt with raised := [] } } : Eng) = e
    rw [← h.raised]
  rw [Eng.settle]
  dsimp only
  rw [if_neg (by simp [hcol]), if_neg (by simp [hraised]), hraised, hheld]
  simp only [ite_self, if_true, hback]
  rfl

/-- Where grading it leaves the engine calm, nothing more goes on. -/
theorem Eng.finish_raised (old : Eng) (h : e.Calm) (hc : e.collecting = true) {d : Eng}
    (hd : e.gradeEdge [(v, (e.tb 0).sec, (e.tb 0).ns)] = d) (hcalm : d.Calm) : Eng.finish old (e.raiseEv v) = d.syncAll := by
  have hthin : (e.raiseEv v).thinWatchAll = e.raiseEv v :=
    foldEng_fix _ _ _ (fun p => by simp [Eng.thinWatch, h.thin p])
  unfold Eng.finish
  rw [hthin, Eng.settle_raised h hc, hd, Eng.settle_calm hcalm, Eng.resetStep_calm hcalm,
    Eng.journalDiff_calm hcalm.journals, Eng.handoverStep_calm hcalm, Eng.failoverStep_calm hcalm]
  simp [Eng.irqStep, hcalm.stall]

end

/-! ### Writes of F0 in the FLT_ block -/

theorem csrVal_f0Write (o v : Nat) : csrVal (f0Write o v) = BitVec.ofNat 64 v :=
  BitVec.and_allOnes (x := BitVec.ofNat 64 v)

section
variable {o : Nat} (h8 : o % 8 = 0)
include h8

theorem csrOk_fltWrite (v : Nat) : csrOk (f0Write (0x10000 + o) v) = true :=
  decide_eq_true (p := (BitVec.ofNat 22 (0x10000 + o)).toNat % 8 = 0) (by rw [BitVec.toNat_ofNat]; omega)

variable (ho : o < 0x10000)
include ho

theorem csrReg_fltWrite (v : Nat) : csrReg (f0Write (0x10000 + o) v) = 0x10000 + o := by
  simp only [csrReg, f0Write, BitVec.toNat_ofNat]
  omega

/-- No journal carries it (R448). -/
theorem Eng.regChanges_fltWrite (e : Eng) (v : Nat) : e.regChanges (f0Write (0x10000 + o) v) = [] := by
  have hm : mirroredReg (f0Write (0x10000 + o) v) = false := by
    unfold mirroredReg
    rw [csrReg_fltWrite h8 ho]
    refine (if_pos rfl).trans ?_
    simp only [Bool.or_eq_false_iff, decide_eq_false_iff_not, beq_eq_false_iff_ne]
    omega
  unfold Eng.regChanges
  rw [hm, csrReg_fltWrite h8 ho]
  exact (if_neg Bool.false_ne_true).trans (if_neg (fun ⟨_, hlo, _⟩ => by omega))

/-- The block takes it whatever the phase of the start. -/
theorem Eng.regWrite_fltWrite (e : Eng) (b : Budget) (v : Nat) : e.regWrite b (f0Write (0x10000 + o) v) =
    e.fltWrite o (BitVec.ofNat 64 v) 0xFFFFFFFFFFFFFFFF := by
  unfold Eng.regWrite
  rw [csrReg_fltWrite h8 ho, csrVal_f0Write]
  refine (if_pos rfl).trans ((if_neg (by omega)).trans ((if_pos (by omega)).trans ?_))
  rw [Nat.add_sub_cancel_left]
  rfl

/-- What a write in the block does in RUN on a member that is no standby (R408). -/
theorem State.access_fltWrite {s : State} (h : s.eng.Open 0) (hs : s.eng.standby = false) (v : Nat) :
    s.access true (f0Write (0x10000 + o) v) =
      .next (s.after ((s.eng.touch 0).fltWrite o (BitVec.ofNat 64 v) 0xFFFFFFFFFFFFFFFF)) := by
  rw [State.access_open (a := f0Write (0x10000 + o) v) h, Eng.csrRun_write _ _ (csrOk_fltWrite h8 v) (by simp [f0Write]),
    Eng.pairWrite_own _ _ (by simpa using hs) (Eng.regChanges_fltWrite h8 ho _ v), Eng.regWrite_fltWrite h8 ho]
  rfl

end

/-! ### Forced events -/

/-- A source whose force bit is ignored now: bits 4, 6, 39 and 41 outside factory test mode (R405). -/
def FltSt.forceLocked (x : FltSt) (n : Nat) : Bool := (n == 4 || n == 6 || n == 39 || n == 41) && !x.factory

theorem bitAt_two_pow (n k : Nat) : bitAt (2 ^ n) k = (k == n) := by
  have htest : bitAt (2 ^ n) k = Nat.testBit (2 ^ n) k := by simp [bitAt, Nat.testBit, Nat.one_and_eq_mod_two]
  rw [htest, Nat.testBit_two_pow]
  exact decide_eq_decide.mpr eq_comm

section
variable {m n : Nat} (h : n < m) (q : Nat → Bool)
include h

/-- Of the numbers in order, those of a mask of one bit that pass. -/
theorem filter_upTo_bit : (upTo m).filter (fun k => bitAt (2 ^ n) k && q k) = if q n then [n] else [] := by
  have hone : (upTo m).filter (fun k => k == n) = [n] := by
    rw [upTo, List.filter_beq, List.count_range, if_pos h]
    rfl
  have hswap : (fun k => bitAt (2 ^ n) k && q k) = fun k => q k && k == n :=
    funext fun k => by rw [bitAt_two_pow, Bool.and_comm]
  rw [hswap, ← List.filter_filter, hone, List.filter_cons, List.filter_nil]

/-- Whether a number of a mask of one bit passes. -/
theorem any_upTo_bit : (upTo m).any (fun k => bitAt (2 ^ n) k && q k) = q n := by
  rw [Bool.eq_iff_iff, List.any_eq_true]
  constructor
  · rintro ⟨k, -, hk⟩
    obtain ⟨hbit, hq⟩ := Bool.and_eq_true_iff.mp hk
    have hkn : k = n := eq_of_beq ((bitAt_two_pow n k).symm.trans hbit)
    exact hkn ▸ hq
  · exact fun hq => ⟨n, List.mem_range.mpr h,
      Bool.and_eq_true_iff.mpr ⟨(bitAt_two_pow n n).trans (beq_self_eq_true n), hq⟩⟩

end

/-- A mask of one bit forces its source's event, or the access is answered as one that breaks a rule (R405). -/
theorem Eng.faultForce_bit (e : Eng) {n : Nat} (hn : n < 50) : e.faultForce (2 ^ n) =
    if e.flt.forceLocked n then e.badAccess 0 0x10020 else e.raiseEv (mkEv (fin 64 n) e.flt.forced 0 0x807F 0 0) := by
  unfold Eng.faultForce
  simp only [filter_upTo_bit hn, any_upTo_bit hn]
  show (if e.flt.forceLocked n then (foldEng (if !e.flt.forceLocked n then [n] else []) _ e).badAccess 0 0x10020
    else foldEng (if !e.flt.forceLocked n then [n] else []) _ e) = _
  cases e.flt.forceLocked n <;> rfl

/-- FAULT_FORCE in RUN on a member that is no standby (R405). -/
theorem State.faultForce_open {s : State} (h : s.eng.Open 0) (hs : s.eng.standby = false) (mask : BitVec 64) :
    exec (.faultForce mask) s = .next (s.after ((s.eng.touch 0).faultForce mask.toNat)) := by
  have hw := State.access_fltWrite (o := 0x20) rfl (by decide) h hs mask.toNat
  rw [BitVec.ofNat_toNat, BitVec.setWidth_eq] at hw
  exact hw

/-- A mask of one bit that is not ignored, and one that is (R405). -/
theorem State.faultForce_one {s : State} (h : s.eng.Open 0) (hs : s.eng.standby = false) (n : Fin 50) :
    exec (.faultForce (BitVec.ofNat 64 (2 ^ n.val))) s = .next (s.after
      (if s.eng.flt.forceLocked n.val then (s.eng.touch 0).badAccess 0 0x10020
       else (s.eng.touch 0).raiseEv (mkEv (fin 64 n.val) s.eng.flt.forced 0 0x807F 0 0))) := by
  have hflt : (s.eng.touch 0).flt = s.eng.flt := by simp
  have hmask : (BitVec.ofNat 64 (2 ^ n.val)).toNat = 2 ^ n.val :=
    Nat.mod_eq_of_lt (Nat.pow_lt_pow_right (by decide) (by omega))
  rw [State.faultForce_open h hs, hmask, Eng.faultForce_bit _ n.isLt, hflt]

theorem FltSt.forceLocked_iff (x : FltSt) (n : Fin 50) :
    x.forceLocked n.val = true ↔ (n = 4 ∨ n = 6 ∨ n = 39 ∨ n = 41) ∧ x.factory = false := by
  have hval (k : Fin 50) : n.val = k.val ↔ n = k := Fin.ext_iff.symm
  simp only [FltSt.forceLocked, Bool.and_eq_true, Bool.or_eq_true, beq_iff_eq, Bool.not_eq_true', or_assoc]
  exact and_congr (or_congr (hval 4) (or_congr (hval 6) (or_congr (hval 39) (hval 41)))) Iff.rfl

/-- Settles O36: what each unit's event does, the grading of one event, and a mask of one bit by whether its source is
locked. -/
theorem faultEventsAreGraded : Obligations.FaultEventsAreGraded := by
  unfold Obligations.FaultEventsAreGraded
  refine ⟨fun s evs => ⟨rfl, fun h => ?_⟩, fun e v => ⟨fun h => ?_, fun hc hs => ?_, fun hc hs hm => ?_, fun hc hs hl => ?_⟩,
    fun s v hcalm hcol hsrc hdriven hsh hwin hf hw hirq hreact => ?_, fun s n ho hs => ⟨fun hlock => ?_, fun hlock => ?_⟩⟩
  · exact State.does_eq_after (Eng.faultEvents_driven h _)
  · exact Eng.unitFault_not_failure h
  · exact Eng.unitFault_tree hc hs
  · exact Eng.unitFault_policer hc hs hm
  · exact Eng.unitFault_entry hc hs hl
  · have hmild : s.eng.clear.reactionTo v = .none ∨ s.eng.clear.reactionTo v = .interrupt := hreact
    have hedge := Eng.gradeEdge_first hmild hsrc hsh hwin hf hw hirq (s.eng.clear.tb 0).sec (s.eng.clear.tb 0).ns
    have hdriven : (s.eng.clear.unitFault v).raiseEv v = s.eng.clear.raiseEv v := by rw [Eng.unitFault_driven hdriven]
    have hexec : exec (.faultEvent [v]) s = .next (s.after (s.eng.clear.raiseEv v)) := State.does_eq_after hdriven
    rw [FltSt.take_one] at hedge
    rw [hexec, State.after, Eng.finish_raised s.eng hcalm.clear hcol hedge
      (hcalm.clear.congr rfl rfl (fun _ => ⟨rfl, rfl⟩) rfl rfl rfl (fun _ => rfl))]
    rfl
  · rw [State.faultForce_one ho hs, if_neg (mt (FltSt.forceLocked_iff _ n).mp hlock)]
  · rw [State.faultForce_one ho hs, if_pos ((FltSt.forceLocked_iff _ n).mpr hlock)]

end Sys2Proof.Machine
end

section
/-! PROOF. The fault collector's releases, shadows, windows and retired banks, the stall of IRQ_MSG_RDY, and the scrubber (R309,
R356, R395, R396, R399, R401, R403, R500, R543, R544). -/
namespace Sys2Proof.Machine

/-! ### The capture released -/

/-- FIRST_ERROR_RELEASE in RUN on a member that is no standby (R399). -/
theorem State.firstErrorRelease_open {s : State} (h : s.eng.Open 0) (hs : s.eng.standby = false) :
    exec .firstErrorRelease s = .next (s.after (s.eng.touch 0).firstRelease) :=
  State.access_fltWrite (o := 0x100) rfl (by decide) h hs 65536

/-! ### Shadows -/

/-- The reaction of a shadow has reached its end state (R401, R402). -/
def Eng.shadowEnded (e : Eng) (h : Shadow) : Bool :=
  match h.reaction, h.target with
  | .portDown, .port p => decide ((e.port p).state = .portFault ∨ (e.port p).state = .adminDown) && (e.port p).wire.isEmpty
  | .quiesce, .fn f => e.txStopped f && e.rxStopped f
  | _, _ => false

section
variable {e : Eng} {h : Shadow}

theorem Eng.shadowEnded_portDown {p : PortId} (hr : h.reaction = .portDown) (ht : h.target = .port p)
    (hst : (e.port p).state = .portFault ∨ (e.port p).state = .adminDown) (hw : (e.port p).wire = []) : e.shadowEnded h = true := by
  simp [Eng.shadowEnded, hr, ht, hst, hw]

theorem Eng.shadowEnded_quiesce {f : Fn} (hr : h.reaction = .quiesce) (ht : h.target = .fn f) (htx : e.txStopped f = true)
    (hrx : e.rxStopped f = true) : e.shadowEnded h = true := by
  simp [Eng.shadowEnded, hr, ht, htx, hrx]

/-- A port in another state is the end state of no reaction (R402). -/
theorem Eng.not_shadowEnded_port {p : PortId} (ht : h.target = .port p) (hf : (e.port p).state ≠ .portFault)
    (ha : (e.port p).state ≠ .adminDown) : e.shadowEnded h = false := by
  cases hr : h.reaction <;> simp [Eng.shadowEnded, hr, ht, hf, ha]

variable {k : Nat} (hk : e.flt.shadows[k]? = some h)
include hk

/-- A shadow is released once, as its reaction's end state is reached (R401, R403). -/
theorem Eng.reactionReleased_eq : e.reactionReleased k =
    if h.released.isNone && e.shadowEnded h then
      e.modFlt (fun x => { x with shadows := setNth x.shadows k { h with released := some e.now } })
    else e := by
  unfold Eng.reactionReleased
  rw [hk]
  rfl

theorem Eng.reactionReleased_ended (hr : h.released = none) (he : e.shadowEnded h = true) : e.reactionReleased k =
    e.modFlt (fun x => { x with shadows := setNth x.shadows k { h with released := some e.now } }) := by
  rw [Eng.reactionReleased_eq hk, if_pos (by simp [hr, he])]

theorem Eng.reactionReleased_going (he : e.shadowEnded h = false) : e.reactionReleased k = e := by
  rw [Eng.reactionReleased_eq hk, if_neg (by simp [he])]

theorem Eng.reactionReleased_again (hr : h.released.isSome = true) : e.reactionReleased k = e := by
  rw [Eng.reactionReleased_eq hk, if_neg (by simp [Option.isSome_iff_ne_none.mp hr])]

/-- A shadow closes after its release and never before (R403). -/
theorem Eng.shadowExpiry_eq : e.shadowExpiry k =
    if h.released.isSome then e.modFlt (fun x => { x with shadows := x.shadows.eraseIdx k }) else e := by
  unfold Eng.shadowExpiry
  rw [hk]

end

/-- Where there is no such shadow nothing is released or closes. -/
theorem Eng.shadow_none {e : Eng} {k : Nat} (hk : e.flt.shadows[k]? = none) :
    e.reactionReleased k = e ∧ e.shadowExpiry k = e := by
  unfold Eng.reactionReleased Eng.shadowExpiry
  rw [hk]
  exact ⟨rfl, rfl⟩

/-! ### Banks and interrupt messages -/

/-- A bank on its way out is out of service (R396). -/
theorem Eng.bankRetired_retiring {e : Eng} {b : Fin 32} (h : bitAt e.flt.retiring.toNat b.val = true) : e.bankRetired b =
    e.modFlt (fun x => { x with
      retiring := x.retiring &&& ~~~BitVec.ofNat 32 (2 ^ b.val), pbRetired := x.pbRetired ||| BitVec.ofNat 32 (2 ^ b.val) }) :=
  if_pos h

theorem Eng.bankRetired_other {e : Eng} {b : Fin 32} (h : bitAt e.flt.retiring.toNat b.val = false) : e.bankRetired b = e :=
  if_neg (by simp [h])

theorem Eng.stallIrqs_again {e : Eng} (h : e.irqStall = true) : e.stallIrqs = e := if_pos h

/-- An episode raises source 48 once, of a message that two free values name (R500). -/
theorem Eng.stallIrqs_begins {e : Eng} (h : e.irqStall = false) : e.stallIrqs =
    ({ e with free := e.free + 2, irqStall := true } : Eng).raiseEv
      (mkEv 48 .failure (Config.freeValue e.free % 4096) (Config.freeValue (e.free + 1) % 2048) 0 0) :=
  if_neg (by simp [h])

/-! ### The scrubber -/

section
variable {e : Eng} {m : ScrubMem}

/-- A memory that the scrubber does not read in the power state is not scrubbed (R544). -/
theorem Eng.scrub_unread (h : e.scrubs m = false) (r : ScrubResult) : e.scrub m r = e := if_pos (by simp [h])

/-- A good read tells something of a Dealer tree only (R309). -/
theorem Eng.scrubGood_other (h : ∀ p, m ≠ .dealerTree p) : e.scrubGood m = e := by
  cases m with
  | dealerTree p => exact absurd rfl (h p)
  | _ => rfl

variable (h : e.scrubs m = true)
include h

theorem Eng.scrub_clean : e.scrub m .clean = e.scrubGood m := if_neg (by simp [h])

/-- An error corrected is a CORRECTED event of the memory's source (R543). -/
theorem Eng.scrub_corrected {s d u : Nat} (hm : ∀ p, m ≠ .dealerTree p) (hs : e.scrubSource m false = (s, d, u)) :
    e.scrub m .corrected = e.raiseEv (mkEv (fin 64 s) .corrected d u 0 0) := by
  refine (if_neg (by simp [h])).trans ?_
  simp only [hs, Eng.scrubGood_other hm]

/-- An error that cannot be corrected is a FAILURE event of it, after what it does (R543). -/
theorem Eng.scrub_uncorrectable {s d u : Nat} (hs : e.scrubSource m true = (s, d, u)) {e' : Eng} (hl : e.scrubLoss m = e') :
    e.scrub m .uncorrectable = e'.raiseEv (mkEv (fin 64 s) .failure d u 0 0) := by
  refine (if_neg (by simp [h])).trans ?_
  simp only [hs, hl]

end

/-- An offload profile of no frame granted or committed is lost without a frame ended (R282). -/
theorem Eng.profileLost_unused {e : Eng} (h : ∀ p, (e.port p).lists = List.replicate 8 [] ∧ (e.port p).wire = []) (i : Nat) :
    e.profileLost i = e := by
  unfold Eng.profileLost
  dsimp only
  rw [List.flatMap_eq_nil_iff.mpr (fun p _ => by simp [h p])]
  rfl

/-- Settles O37: the releases by what the collector holds, and a memory's error by the memory. -/
theorem collectorAndScrubber : Obligations.CollectorAndScrubber := by
  unfold Obligations.CollectorAndScrubber
  refine ⟨fun s => ⟨State.firstErrorRelease_open, fun k h hk => ⟨fun hr => ?_, fun hr => ?_, fun p hr hre ht hst hw => ?_,
      fun p ht hf ha => ?_, fun f hr hre ht htx hrx => ?_, fun hr => ?_⟩, fun k hk => ?_, fun n => rfl, fun b => rfl,
      fun b => ⟨fun hb => ?_, fun hb => ?_⟩, fun hi => ?_, fun hi => ?_⟩,
    fun s m => ⟨fun h r => ?_, fun h => ⟨fun hm => ?_, fun b hm => ?_, fun b hm => ⟨?_, fun hb => ?_⟩, fun n hm hp => ?_,
      fun n r hm => ?_, fun p hm => ?_, fun p hm => ⟨?_, fun hb => ?_, fun hb => ?_⟩, fun o hm ho => ?_, fun p hm => ?_⟩⟩⟩
  · exact State.does_eq_after ((Eng.shadowExpiry_eq (e := s.eng.clear) hk).trans (if_pos hr))
  · exact State.does_eq_after ((Eng.shadowExpiry_eq (e := s.eng.clear) hk).trans (if_neg (by simp [hr])))
  · exact State.does_eq_after (Eng.reactionReleased_ended (e := s.eng.clear) hk hr (Eng.shadowEnded_portDown hre ht hst hw))
  · exact State.does_eq_after (Eng.reactionReleased_going (e := s.eng.clear) hk (Eng.not_shadowEnded_port ht hf ha))
  · exact State.does_eq_after (Eng.reactionReleased_ended (e := s.eng.clear) hk hr (Eng.shadowEnded_quiesce hre ht htx hrx))
  · exact State.does_eq_after (Eng.reactionReleased_again (e := s.eng.clear) hk hr)
  · obtain ⟨hreleased, hexpired⟩ := Eng.shadow_none (e := s.eng.clear) hk
    exact ⟨State.does_eq_after hreleased, State.does_eq_after hexpired⟩
  · exact State.does_eq_after (Eng.bankRetired_retiring (e := s.eng.clear) hb)
  · exact State.does_eq_after (Eng.bankRetired_other (e := s.eng.clear) hb)
  · exact State.does_eq_after (Eng.stallIrqs_again (e := s.eng.clear) hi)
  · exact State.does_eq_after (Eng.stallIrqs_begins (e := s.eng.clear) hi)
  · exact State.does_eq_after (Eng.scrub_unread (e := s.eng.clear) h r)
  all_goals have h' : s.eng.clear.scrubs m = true := h
  · exact State.does_eq_after ((Eng.scrub_clean h').trans (Eng.scrubGood_other hm))
  all_goals subst hm
  · exact State.does_eq_after (Eng.scrub_corrected h' nofun rfl)
  · exact State.does_eq_after (Eng.scrub_corrected h' nofun rfl)
  · exact State.does_eq_after (Eng.scrub_uncorrectable h' rfl (if_neg (Nat.not_lt.mpr hb)))
  · exact State.does_eq_after (Eng.scrub_uncorrectable h' rfl (Eng.profileLost_unused (e := s.eng.clear) hp n.val))
  · exact State.does_eq_after (Eng.scrub_uncorrectable h' rfl rfl)
  · exact State.does_eq_after (Eng.scrub_uncorrectable h' rfl rfl)
  · exact State.does_eq_after (Eng.scrub_uncorrectable h' rfl rfl)
  · exact State.does_eq_after ((Eng.scrub_clean h').trans (if_pos hb))
  · exact State.does_eq_after ((Eng.scrub_clean h').trans (if_neg (by simpa using hb)))
  · cases o with
    | root p => exact absurd rfl (ho p)
    | leaf q => exact State.does_eq_after (Eng.scrub_uncorrectable h' rfl rfl)
    | node n => exact State.does_eq_after (Eng.scrub_uncorrectable h' rfl rfl)
  · exact State.does_eq_after (Eng.scrub_uncorrectable h' rfl rfl)

end Sys2Proof.Machine
end

section
/-! PROOF. The time bases' increments at the edges of CLK_TS, and of CLK_AON in holdover (R311, R312, R318, R321). -/
namespace Sys2Proof.Machine

/-! ### One increment of a base -/

/-- A base's time in units of 2^-32 ns (R311). -/
def TimeBase.units (t : TimeBase) : Nat := (t.sec * 1000000000 + t.ns) * 2 ^ 32 + t.sub

section
variable (t : TimeBase)

/-- Units are added modulo the 2^64 seconds that SEC counts. -/
theorem TimeBase.units_addUnits (u : Int) :
    ((t.addUnits u).units : Int) = (t.units + u) % (2 ^ 64 * 1000000000 * 2 ^ 32) := by
  have hsplit (w : Nat) : (w / secUnits * 1000000000 + w % secUnits / 4294967296) * 2 ^ 32 + w % 4294967296 = w := by
    unfold secUnits; omega
  have hunits : t.sec * secUnits + t.ns * 4294967296 + t.sub = t.units := by
    unfold secUnits TimeBase.units; omega
  simp only [TimeBase.addUnits, hunits]
  unfold TimeBase.units at *
  rw [hsplit, Int.toNat_of_nonneg (Int.emod_nonneg _ (by decide))]
  rfl

theorem TimeBase.ns_addUnits_lt (u : Int) : (t.addUnits u).ns < 1000000000 := by
  simp only [TimeBase.addUnits, secUnits]
  omega

theorem TimeBase.sub_addUnits_lt (u : Int) : (t.addUnits u).sub < 2 ^ 32 := Nat.mod_lt _ (by decide)

theorem TimeBase.slewStep_eq : t.slewStep =
    if t.slewing then (if 0 ≤ t.left then min (slewUnits t.ppm : Int) t.left else max (-(slewUnits t.ppm : Int)) t.left) else 0 := by
  unfold TimeBase.slewStep
  cases t.slewing <;> rfl

/-- A slew goes on until nothing is left of it (R318). -/
theorem TimeBase.slewing_tick (p : Nat) : (t.tick p).slewing = (t.slewing && decide (t.left ≠ t.slewStep)) :=
  congrArg (t.slewing && ·) (decide_eq_decide.mpr (not_congr Int.sub_eq_zero))

theorem TimeBase.units_tick (p : Nat) :
    ((t.tick p).units : Int) = (t.units + nominal p + t.freq + t.slewStep) % (2 ^ 64 * 1000000000 * 2 ^ 32) := by
  rw [Int.add_assoc, Int.add_assoc, ← Int.add_assoc (nominal p : Int)]
  exact TimeBase.units_addUnits { t with left := _, slewing := _ } _

theorem TimeBase.units_hold40 (p : Nat) :
    ((t.hold40 p).units : Int) = (t.units + nominals 40 p + 40 * t.freq) % (2 ^ 64 * 1000000000 * 2 ^ 32) := by
  rw [Int.add_assoc]
  exact t.units_addUnits _

end

/-! ### The nominal increment -/

theorem nominals_snoc (n p : Nat) : nominals (n + 1) p = nominals n p + nominal ((p + n) % 25) := by
  induction n generalizing p with
  | zero => simp [nominals]
  | succ n ih => rw [nominals, ih (p + 1), nominals, Nat.add_assoc, Nat.add_assoc, Nat.add_comm 1 n]

/-- 25 edges in a row pass each phase once, whichever comes first (R312). -/
theorem nominals_period (p : Nat) : nominals 25 p = nominals 25 0 := by
  induction p with
  | zero => rfl
  | succ p ih =>
    have hlast := nominals_snoc 25 p
    rw [nominals, Nat.add_mod_right] at hlast
    omega

/-! ### An edge of all bases -/

theorem mem_allTbs (n : TbId) : n ∈ allTbs := by revert n; decide

/-- Each time base changed by `g`. -/
def Eng.eachTb (e : Eng) (g : TimeBase → TimeBase) : Eng := foldEng allTbs (fun e n => e.modTb n g) e

theorem Eng.tb_foldEng_modTb (g : TimeBase → TimeBase) {l : List TbId} (hl : l.Nodup) (e : Eng) (n : TbId) :
    (foldEng l (fun e n => e.modTb n g) e).tb n = if n ∈ l then g (e.tb n) else e.tb n := by
  induction l generalizing e with
  | nil => rfl
  | cons a l ih =>
    obtain ⟨ha, hl⟩ := List.nodup_cons.mp hl
    refine (ih hl (e.modTb a g)).trans ?_
    by_cases hn : n = a
    · subst hn
      simp [ha]
    · have hkeep : (e.modTb a g).tb n = e.tb n := Eng.tb_setTb_other e _ hn
      simp [hn, hkeep]

/-- The engine with each time base changed by `g` in an increment that stands for `k` edges of CLK_TS (R312, R321). -/
def Eng.advanced (e : Eng) (g : TimeBase → TimeBase) (k : Nat) : Eng :=
  { e.eachTb g with
    time := { (e.eachTb g).time with phase := (e.time.phase + k) % 25, clk := (e.eachTb g).time.clk + k } }

section
variable (e : Eng) (g : TimeBase → TimeBase)

theorem Eng.tb_eachTb (n : TbId) : (e.eachTb g).tb n = g (e.tb n) :=
  (Eng.tb_foldEng_modTb g (by decide) e n).trans (if_pos (mem_allTbs n))

theorem Eng.eachTb_clk : (e.eachTb g).time.clk = e.time.clk := 
  foldEng_keep (fun e => e.time.clk) allTbs (fun e n => e.modTb n g) (fun _ _ => rfl) e

theorem Eng.eachTb_other (x : TimeSt) : ({ e.eachTb g with time := x } : Eng) = { e with time := x } :=
  foldEng_keep (fun e => ({ e with time := x } : Eng)) allTbs (fun e n => e.modTb n g) (fun _ _ => rfl) e

/-- What an increment does to the time unit, and that it does nothing else. -/
theorem Eng.advanced_time (k : Nat) : (∀ n, (e.advanced g k).tb n = g (e.tb n)) ∧
    (e.advanced g k).time.phase = (e.time.phase + k) % 25 ∧ (e.advanced g k).time.clk = e.time.clk + k ∧
    ({ e.advanced g k with time := e.time } : Eng) = e :=
  ⟨e.tb_eachTb g, rfl, congrArg (· + k) (e.eachTb_clk g), e.eachTb_other g e.time⟩

end

section
variable {e : Eng}

theorem Eng.timeTick_held {t : Nat} (h : e.time.holdover = some t) : e.timeTick = e := if_pos (.inl (by simp [h]))

/-- No slew goes on that could end at the edge. -/
theorem Eng.timeTick_steady (h : e.time.holdover = none) (hp : e.pwr.pll = true) (hs : ∀ n, (e.tb n).slewing = false) :
    e.timeTick = e.advanced (fun t => t.tick e.time.phase) 1 := by
  have hdone : allTbs.filter (fun n => (e.tb n).slewing && !((e.tb n).tick e.time.phase).slewing) = [] :=
    List.filter_eq_nil_iff.mpr fun n _ => by simp [hs n]
  have hrun : ¬ (e.time.holdover.isSome = true ∨ e.pwr.pll = false) := by simp [h, hp]
  simp only [Eng.timeTick, if_neg hrun, hdone]
  rfl

theorem Eng.holdTick_running (h : e.time.holdover = none) : e.holdTick = e := if_pos (by simp [h])

theorem Eng.holdTick_held {t : Nat} (h : e.time.holdover = some t) :
    e.holdTick = e.advanced (fun t => t.hold40 e.time.phase) 40 := if_neg (by simp [h])

end

/-- Settles O17: an increment adds its units modulo 2^64 seconds, every base takes one, and the units of 25 phases in a row
do not depend on the first. -/
theorem timeBaseRates : Obligations.TimeBaseRates := by
  unfold Obligations.TimeBaseRates
  refine ⟨⟨fun t p => ?_, fun s h hp hs => ?_, fun s t h => ⟨?_, ?_⟩, fun s h => ?_⟩, by decide, fun p => ?_⟩
  · dsimp only
    rw [← t.slewStep_eq]
    exact ⟨t.units_tick p, TimeBase.ns_addUnits_lt _ _, TimeBase.sub_addUnits_lt _ _, rfl, t.slewing_tick p, rfl, t.units_hold40 p,
      TimeBase.ns_addUnits_lt _ _⟩
  · exact ⟨_, State.does_eq_after (Eng.timeTick_steady (e := s.eng.clear) h hp hs), Eng.advanced_time _ _ _⟩
  · exact State.does_eq_after (Eng.timeTick_held (e := s.eng.clear) h)
  · exact ⟨_, State.does_eq_after (Eng.holdTick_held (e := s.eng.clear) h), Eng.advanced_time _ _ _⟩
  · exact State.does_eq_after (Eng.holdTick_running (e := s.eng.clear) h)
  · exact (nominals_period p).trans rfl

end Sys2Proof.Machine
end

section
/-! PROOF. Pulse outputs, capture inputs, the 1PPS input and the expiry of time-stamps (R323 to R326, R333). -/
namespace Sys2Proof.Machine

/-! ### Ceiling division -/

section
variable {b : Nat} (hb : 0 < b)
include hb

theorem ceilDiv_le_iff (a n : Nat) : ceilDiv a b ≤ n ↔ a ≤ n * b := by
  rw [ceilDiv, Nat.div_le_iff_le_mul hb]
  omega

theorem le_ceilDiv_mul (a : Nat) : a ≤ ceilDiv a b * b := (ceilDiv_le_iff hb a _).mp (Nat.le_refl _)

theorem mul_lt_of_lt_ceilDiv {a n : Nat} (h : n < ceilDiv a b) : n * b < a :=
  Nat.lt_of_not_le (mt (ceilDiv_le_iff hb a n).mpr (Nat.not_le_of_lt h))

/-- The first multiple not below `a` is less than `b` above it. -/
theorem ceilDiv_mul_lt (a : Nat) : ceilDiv a b * b < a + b := by
  cases h : ceilDiv a b with
  | zero => omega
  | succ n =>
    have hlt : n * b < a := mul_lt_of_lt_ceilDiv hb (h ▸ Nat.lt_succ_self n)
    rw [Nat.succ_mul]
    omega

end

/-! ### A write that changes some fields of a register -/

section
variable (v : BitVec 64) {clear set : BitVec 64} {lo n : Nat} (hn : lo + n < 64)
include hn

/-- A write that keeps a register's bits but those of `clear`, and sets those of `set`, in one field. -/
theorem fld_keep : fld ((v &&& ~~~clear) ||| set).toNat lo n =
    ((v.extractLsb' lo n &&& ~~~(clear.extractLsb' lo n)) ||| set.extractLsb' lo n).toNat := by
  rw [← BitVec.extractLsb'_not_of_lt hn, ← BitVec.extractLsb'_and, ← BitVec.extractLsb'_or, BitVec.extractLsb'_toNat]
  rfl

theorem fld_keep_kept (hc : clear.extractLsb' lo n = 0#n) (hs : set.extractLsb' lo n = 0#n) :
    fld ((v &&& ~~~clear) ||| set).toNat lo n = fld v.toNat lo n := by
  rw [fld_keep v hn, hc, hs, BitVec.not_zero, BitVec.and_allOnes, BitVec.or_zero, BitVec.extractLsb'_toNat]
  rfl

theorem fld_keep_written (hc : clear.extractLsb' lo n = BitVec.allOnes n) :
    fld ((v &&& ~~~clear) ||| set).toNat lo n = fld set.toNat lo n := by
  rw [fld_keep v hn, hc, BitVec.not_allOnes, BitVec.and_zero, BitVec.zero_or, BitVec.extractLsb'_toNat]
  rfl

end

/-! ### Writes of F0 in a pulse output's block -/

section
variable {o : Nat} (h8 : o % 8 = 0) (v : Nat)
include h8

theorem csrOk_f0Write : csrOk (f0Write o v) = true :=
  decide_eq_true (p := (BitVec.ofNat 22 o).toNat % 8 = 0) (by rw [BitVec.toNat_ofNat]; omega)

theorem csrReg_f0Write (ho : o < 2 ^ 22) : csrReg (f0Write o v) = o := by
  simp only [csrReg, f0Write, BitVec.toNat_ofNat]
  omega

end

/-- TSU_PPO_CTRL (R323). -/
def Ppo.ctrl (x : Ppo) : Nat :=
  pack [(x.mode, 2), (x.tb.val, 2), (b2n x.polarity, 1), (0, 3), (b2n x.missed, 1), (b2n x.active, 1)]

/-- The value that PPO_MODE_SET writes to it: MODE replaced, MISSED not cleared. -/
def Ppo.modeWrite (x : Ppo) (m : Fin 4) : BitVec 64 :=
  (BitVec.ofNat 64 x.ctrl &&& ~~~BitVec.ofNat 64 0x103) ||| BitVec.ofNat 64 m.val

section
variable (x : Ppo) (m : Fin 4)

theorem Ppo.mode_modeWrite : fld (x.modeWrite m).toNat 0 2 = m.val :=
  (fld_keep_written _ (by decide) rfl).trans (by revert m; decide)

theorem Ppo.tb_modeWrite : fld (x.modeWrite m).toNat 2 2 = x.tb.val := by
  refine (fld_keep_kept _ (by decide) rfl (by revert m; decide)).trans ?_
  simp only [fld, Ppo.ctrl, pack, Nat.shiftRight_eq_div_pow, BitVec.toNat_ofNat]
  omega

theorem Ppo.polarity_modeWrite : bitAt (x.modeWrite m).toNat 4 = x.polarity := by
  have hkept : fld (x.modeWrite m).toNat 4 1 = fld (BitVec.ofNat 64 x.ctrl).toNat 4 1 :=
    fld_keep_kept _ (by decide) rfl (by revert m; decide)
  have hbit : fld (BitVec.ofNat 64 x.ctrl).toNat 4 1 = b2n x.polarity := by
    have hlt : b2n x.polarity < 2 := by cases x.polarity <;> decide
    simp only [fld, Ppo.ctrl, pack, Nat.shiftRight_eq_div_pow, BitVec.toNat_ofNat]
    omega
  refine (congrArg (· == 1) (hkept.trans hbit)).trans ?_
  cases x.polarity <;> rfl

theorem Ppo.missed_modeWrite : bitAt (x.modeWrite m).toNat 8 = false := by
  have hclear : fld (x.modeWrite m).toNat 8 1 = 0 := (fld_keep_written _ (by decide) rfl).trans (by revert m; decide)
  exact congrArg (· == 1) hclear

end

section
variable (k : Fin 8)

theorem ppoOff_aligned : ppoOff k % 8 = 0 ∧ ppoOff k < 2 ^ 22 := by
  unfold ppoOff; omega

/-- The block that a pulse output's control register lies in, and its place there. -/
theorem ppoOff_block : 0x41000 ≤ ppoOff k ∧ ppoOff k < 0x41200 ∧ fin 8 ((ppoOff k - 0x40000 - 0x1000) / 0x40) = k ∧
    (ppoOff k - 0x40000) % 0x40 = 0 := by
  have hk : (ppoOff k - 0x40000 - 0x1000) / 0x40 = k.val := by unfold ppoOff; omega
  refine ⟨?_, ?_, by rw [hk, fin_val], ?_⟩ <;> unfold ppoOff <;> omega

theorem Eng.regRead_ppoCtrl (e : Eng) (slotB : Bool) (b : Budget) (v : Nat) :
    e.regRead slotB b (f0Write (ppoOff k) v) = ((e.ppo k).ctrl, e) := by
  obtain ⟨h8, ho⟩ := ppoOff_aligned k
  obtain ⟨hlo, hhi, hk, hoff⟩ := ppoOff_block k
  have htsu : e.tsuRead (ppoOff k - 0x40000) = some ((e.ppo k).ctrl, e) := by
    rw [Eng.tsuRead, if_neg (by omega), if_pos (by omega), hk, hoff]
    rfl
  have hread (lo : Bool) : e.engineRead slotB b (ppoOff k) lo = some ((e.ppo k).ctrl, e) := by
    unfold Eng.engineRead
    dsimp only
    rw [if_neg (by omega), if_neg (by omega), if_neg (by omega), if_pos (by omega), htsu]
  unfold Eng.regRead
  rw [csrReg_f0Write h8 _ ho]
  exact congrArg (Option.getD · _) (hread _)

theorem Eng.regWrite_ppoCtrl {e : Eng} (h : e.start.phase = .ready) (b : Budget) (v : Nat) :
    e.regWrite b (f0Write (ppoOff k) v) = e.ppoCtrl k (BitVec.ofNat 64 v) 0xFFFFFFFFFFFFFFFF := by
  obtain ⟨h8, ho⟩ := ppoOff_aligned k
  obtain ⟨hlo, hhi, hk, hoff⟩ := ppoOff_block k
  have htsu (w m : BitVec 64) : e.tsuWrite (ppoOff k - 0x40000) w m = e.ppoCtrl k w m := by
    unfold Eng.tsuWrite
    dsimp only
    rw [if_neg (by omega), if_pos (by omega), hk, hoff]
    rfl
  unfold Eng.regWrite
  rw [csrReg_f0Write h8 _ ho, csrVal_f0Write]
  exact (if_pos rfl).trans ((if_neg (by omega)).trans ((if_neg (by omega)).trans ((if_neg (not_not_intro h)).trans
    ((if_pos (by omega)).trans (htsu _ _)))))

/-- A write of TSU_PPO_CTRL that changes MODE alone. -/
theorem Eng.ppoCtrl_modeWrite (e : Eng) {m : Fin 4} (hm : (e.ppo k).mode ≠ m.val) :
    e.ppoCtrl k ((e.ppo k).modeWrite m) 0xFFFFFFFFFFFFFFFF = (e.setPpo k (e.ppo k)).ppoMode k m.val := by
  have hmix (c : Nat) (w : BitVec 64) : mix c w 0xFFFFFFFFFFFFFFFF = w.toNat :=
    congrArg BitVec.toNat ((congrArg (· ||| w) BitVec.and_zero).trans BitVec.zero_or)
  simp only [Eng.ppoCtrl, hmix, Ppo.missed_modeWrite, Ppo.tb_modeWrite, Ppo.polarity_modeWrite, Ppo.mode_modeWrite, fin_val]
  simp [hm.symm]

/-- The engine as PPO_MODE_SET finds it: the output's other fields are written as they are (R324). -/
def Eng.ppoTouched (e : Eng) (k : Fin 8) : Eng := (e.touch 0).setPpo k (e.ppo k)

/-- PPO_MODE_SET in RUN on a member that is no standby and keeps no journal, where it changes MODE, by the engine `d` that
the change leaves. -/
theorem State.ppoModeSet_eq {s : State} (h : s.eng.Open 0) (hs : s.eng.standby = false) (hj : s.eng.journals = false)
    {m : Fin 4} (hm : (s.eng.ppo k).mode ≠ m.val) {d : Eng} (hd : (s.eng.ppoTouched k).ppoMode k m.val = d) :
    exec (.ppoModeSet k m) s = .next (s.after d) := by
  have hppo : (s.eng.touch 0).ppo k = s.eng.ppo k := by simp [Eng.ppo]
  have hacc : s.eng.keep s.budget (ppoOff k) 0x103 m.val = f0Write (ppoOff k) ((s.eng.ppo k).modeWrite m).toNat := by
    simp only [Eng.keep, Eng.regRead_ppoCtrl]
    rfl
  have hexec : exec (.ppoModeSet k m) s = s.access true (s.eng.keep s.budget (ppoOff k) 0x103 m.val) := rfl
  have hctrl : (s.eng.touch 0).ppoCtrl k ((s.eng.ppo k).modeWrite m) 0xFFFFFFFFFFFFFFFF = d := by
    rw [← hd, Eng.ppoTouched, ← hppo]
    exact Eng.ppoCtrl_modeWrite k (s.eng.touch 0) (by rwa [hppo])
  obtain ⟨h8, ho⟩ := ppoOff_aligned k
  rw [hexec, hacc, State.access_open (by exact h), Eng.csrRun_write _ _ (csrOk_f0Write h8 _) (by simp [f0Write]),
    Eng.pairWrite_alone _ _ (by simpa using hs) (by simpa using hj), Eng.regWrite_ppoCtrl k (by simpa using h.ready),
    BitVec.ofNat_toNat, BitVec.setWidth_eq, ← hctrl]
  rfl

end

/-! ### Pulse outputs -/

@[simp] theorem Eng.ppo_setPpo (e : Eng) (k : Fin 8) (v : Ppo) : (e.setPpo k v).ppo k = v := Tab.get_put_same _ _ _ _

@[simp] theorem Eng.ppo_emit (e : Eng) (o : Out) (k : Fin 8) : (e.emit o).ppo k = e.ppo k := rfl

theorem Eng.ppo_setPpo_other (e : Eng) {k j : Fin 8} (v : Ppo) (h : j ≠ k) : (e.setPpo k v).ppo j = e.ppo j :=
  Tab.get_put_other _ _ _ v (Fin.val_ne_of_ne h)

/-- `d` is `e` but for pulse output `k`. -/
structure Eng.OnlyPpo (e : Eng) (k : Fin 8) (d : Eng) : Prop where
  outputs : ∀ j, j ≠ k → d.ppo j = e.ppo j
  frame : ({ d with time := { d.time with ppo := e.time.ppo } } : Eng) = e

section
variable {e d : Eng} {k : Fin 8}

theorem Eng.onlyPpo_self (e : Eng) (k : Fin 8) : e.OnlyPpo k e := ⟨fun _ _ => rfl, rfl⟩

theorem Eng.OnlyPpo.setPpo (h : e.OnlyPpo k d) (v : Ppo) : e.OnlyPpo k (d.setPpo k v) :=
  ⟨fun j hj => (Eng.ppo_setPpo_other d v hj).trans (h.outputs j hj), h.frame⟩

theorem Eng.OnlyPpo.trans {c : Eng} (h : e.OnlyPpo k d) (h' : d.OnlyPpo k c) : e.OnlyPpo k c where
  outputs j hj := (h'.outputs j hj).trans (h.outputs j hj)
  frame := by
    have hd := congrArg (fun x : Eng => ({ x with time := { x.time with ppo := e.time.ppo } } : Eng)) h'.frame
    exact hd.trans h.frame

end

/-- The first edge of a PERIODIC output whose base shows `now` (R324). -/
def Ppo.firstEdge (x : Ppo) (now : Nat) : Nat :=
  if now ≤ x.start then x.start else x.start + ceilDiv (now - x.start) x.period * x.period

/-- It is the first START + j × PERIOD that is not in the past. -/
theorem Ppo.firstEdge_spec (x : Ppo) (now : Nat) (hp : 0 < x.period) : x.start ≤ x.firstEdge now ∧ now ≤ x.firstEdge now ∧
    (∃ j, x.firstEdge now = x.start + j * x.period) ∧ (x.firstEdge now < now + x.period ∨ x.firstEdge now = x.start) := by
  unfold Ppo.firstEdge
  split
  case isTrue h => exact ⟨Nat.le_refl _, h, ⟨0, by omega⟩, .inr rfl⟩
  case isFalse h =>
    have hge := le_ceilDiv_mul hp (now - x.start)
    have hlt := ceilDiv_mul_lt hp (now - x.start)
    exact ⟨by omega, by omega, ⟨_, rfl⟩, .inl (by omega)⟩

section
variable (e : Eng) (k : Fin 8)

theorem Ppo.inRange_periodic (x : Ppo) : x.inRange 2 = decide (6 ≤ x.width ∧ 16 ≤ x.period ∧ x.width + 6 ≤ x.period) := by
  simp [Ppo.inRange, Bool.decide_and, Bool.and_assoc]

/-- MODE OFF stops an output, at its inactive level. -/
theorem Eng.ppoMode_off : ∃ d, e.OnlyPpo k d ∧ d.ppo k = { e.ppo k with active := false, mode := 0, next := none } ∧
    e.ppoMode k 0 = if (e.ppo k).active then d.emit (.pulse k (e.ppo k).polarity) else d := by
  cases h : (e.ppo k).active with
  | false =>
    refine ⟨e.setPpo k { e.ppo k with mode := 0, next := none }, (e.onlyPpo_self k).setPpo _, ?_, ?_⟩
    · rw [Eng.ppo_setPpo, ← h]
    · simp [Eng.ppoMode, Eng.pulseEnd, h]
  | true =>
    refine ⟨(e.setPpo k { e.ppo k with active := false }).setPpo k { e.ppo k with active := false, mode := 0, next := none },
      ((e.onlyPpo_self k).setPpo _).setPpo _, Eng.ppo_setPpo _ _ _, ?_⟩
    simp only [Eng.ppoMode, Eng.pulseEnd, h, if_true, Eng.ppo_emit, Eng.ppo_setPpo]
    rfl

section
variable {mode : Nat} (hz : mode ≠ 0)
include hz

theorem Eng.ppoMode_refused (h : mode = 3 ∨ (e.ppo k).inRange mode = false) : e.ppoMode k mode = e.badAccess 0 (ppoOff k) :=
  (if_neg hz).trans (if_pos h)

theorem Eng.ppoMode_starts (h : ¬ (mode = 3 ∨ (e.ppo k).inRange mode = false)) (hh : e.time.holdover = none) :
    e.ppoMode k mode = (e.setPpo k { e.ppo k with mode := mode }).pulseAlign k := by
  have hrun : ¬ (e.setPpo k { e.ppo k with mode := mode }).time.holdover.isSome := by
    show ¬ e.time.holdover.isSome
    simp [hh]
  exact (if_neg hz).trans ((if_neg h).trans (if_neg hrun))

end

/-- An output set PERIODIC while the bases run is aligned to the time of its base. -/
theorem Eng.ppoMode_periodic (hh : e.time.holdover = none) (ha : (e.ppo k).active = false)
    (hr : (e.ppo k).inRange 2 = true) :
    e.ppoMode k 2 = (e.setPpo k { e.ppo k with mode := 2 }).setPpo k { e.ppo k with
      mode := 2, next := some ((e.ppo k).firstEdge (e.tb (e.ppo k).tb).linear) } := by
  refine (e.ppoMode_starts k (by decide) (by simp [hr]) hh).trans ?_
  simp only [Eng.pulseAlign, Eng.pulseEnd, Eng.ppo_setPpo, ha, if_true, Bool.false_eq_true, if_false]
  rfl

end

section
variable {e : Eng} {k : Fin 8} {t : Nat} (hh : e.time.holdover = none) (hn : (e.ppo k).next = some t)
include hh hn

/-- The output goes to its active level for WIDTH. -/
theorem Eng.pulseEdge_begins (ha : (e.ppo k).active = false) : e.pulseEdge k =
    (e.setPpo k { e.ppo k with active := true, next := some (t + (e.ppo k).width) }).emit (.pulse k (!(e.ppo k).polarity)) := by
  simp [Eng.pulseEdge, hn, hh, ha]

theorem Eng.pulseEdge_periodic (ha : (e.ppo k).active = true) (hm : (e.ppo k).mode = 2) : e.pulseEdge k =
    (e.setPpo k { e.ppo k with active := false, next := some (t + (e.ppo k).period - (e.ppo k).width) }).emit
      (.pulse k (e.ppo k).polarity) := by
  simp [Eng.pulseEdge, hn, hh, ha, hm]

theorem Eng.pulseEdge_once (ha : (e.ppo k).active = true) (hm : (e.ppo k).mode = 1) : e.pulseEdge k =
    (e.setPpo k { e.ppo k with active := false, mode := 0, next := none }).emit (.pulse k (e.ppo k).polarity) := by
  simp [Eng.pulseEdge, hn, hh, ha, hm]

end

/-! ### Captures, the 1PPS input and time-stamps -/

section
variable {e : Eng} (hh : e.time.holdover = none)
include hh

section
variable {k : Fin 8} {r : Bool} (hr : (if r then (e.cap k).rise else (e.cap k).fall) = true)
include hr

theorem Eng.capture_full (hl : 16 ≤ (e.cap k).queue.length) :
    e.capture k r = e.setCap k { e.cap k with drops := sat64 ((e.cap k).drops + 1) } :=
  (if_neg (by simp [hh, hr])).trans (if_pos hl)

/-- The time of the input's base as a capture holds it (R325). -/
def Eng.captured (e : Eng) (k : Fin 8) (r : Bool) : CapEnt :=
  { sec := (e.tb (e.cap k).tb).sec % 2 ^ 48, ns := (e.tb (e.cap k).tb).ns, frac := (e.tb (e.cap k).tb).sub / 2 ^ 28, rise := r
    tb := (e.cap k).tb }

theorem Eng.capture_queues (hl : (e.cap k).queue.length < 16) {d : Eng}
    (hd : e.setCap k { e.cap k with queue := (e.cap k).queue ++ [e.captured k r] } = d) :
    e.capture k r = if (e.cap k).eventEn = true ∧ (e.cap k).queue = [] then d.ctlEvent 0 8 4 k.val 1 else d := by
  subst hd
  exact (if_neg (by simp [hh, hr])).trans (if_neg (Nat.not_le.mpr hl))

end

end

/-- Entries put one after the other: an entry whose key is among theirs is the one put for it. -/
theorem Tab.get_foldl_put {α : Type} [DecidableEq α] (d : α) {n : Nat} (g : Fin n → α) (l : List (Fin n)) (t : Tab α) (i : Fin n) :
    (l.foldl (fun t j => t.put d j.val (g j)) t).get d i.val = if i ∈ l then g i else t.get d i.val := by
  induction l generalizing t with
  | nil => rfl
  | cons a l ih =>
    refine (ih (t.put d a.val (g a))).trans ?_
    by_cases hi : i = a
    · subst hi
      simp
    · simp [hi, Tab.get_put_other t d d (g a) (Fin.val_ne_of_ne hi)]

/-- The engine with the time of all four bases taken at a 1PPS edge, and the edge counted (R326). -/
def Eng.ppsTaken (e : Eng) : Eng :=
  { e with time := { e.time with
    ppsAt := allTbs.foldl (fun (t : Tab (Nat × Nat)) n => t.put (0, 0) n.val ((e.tb n).sec % 2 ^ 48, (e.tb n).ns)) e.time.ppsAt
    ppsCount := e.time.ppsCount + 1 } }

theorem Eng.ppsAt_ppsTaken (e : Eng) (n : TbId) :
    e.ppsTaken.time.ppsAt.get (0, 0) n.val = ((e.tb n).sec % 2 ^ 48, (e.tb n).ns) :=
  (Tab.get_foldl_put _ _ allTbs _ n).trans (if_pos (mem_allTbs n))

theorem Eng.ppsEdge_takes {e : Eng} (hh : e.time.holdover = none) (hen : e.time.ppsEn = true) :
    e.ppsEdge = if e.time.ppsEvent then e.ppsTaken.ctlEvent 0 8 4 8 0 else e.ppsTaken := if_neg (by simp [hh, hen])

theorem Eng.tsqExpire_drops {e : Eng} {p : PortId} {x : TsEnt} {l : List TsEnt} (h : (e.time.tsq.get {} p.val).ents = x :: l) :
    e.tsqExpire p = { e with time := { e.time with tsq := e.time.tsq.put {} p.val { e.time.tsq.get {} p.val with
      ents := l, exp := sat64 ((e.time.tsq.get {} p.val).exp + 1) } } } := by
  simp only [Eng.tsqExpire, h]

/-! ### What PPO_MODE_SET does -/

section
variable (e : Eng) (k : Fin 8)

theorem Eng.ppoTouched_reads : (e.ppoTouched k).ppo k = e.ppo k ∧ (∀ n, (e.ppoTouched k).tb n = e.tb n) ∧
    (e.ppoTouched k).time.holdover = e.time.holdover := by
  have htb (n : TbId) : (e.touch 0).tb n = e.tb n := by simp
  have hhold : (e.touch 0).time.holdover = e.time.holdover := by simp
  exact ⟨Eng.ppo_setPpo _ _ _, htb, hhold⟩

theorem Eng.onlyPpo_ppoTouched : (e.touch 0).OnlyPpo k (e.ppoTouched k) := ((e.touch 0).onlyPpo_self k).setPpo _

end

theorem Eng.OnlyPpo.of_touch {e d : Eng} {k : Fin 8} (h : (e.touch 0).OnlyPpo k d) :
    (∀ j, j ≠ k → d.ppo j = e.ppo j) ∧ ({ d with time := { d.time with ppo := e.time.ppo } } : Eng) = e.touch 0 := by
  have htime : (e.touch 0).time = e.time := by simp
  have hppo (j : Fin 8) : (e.touch 0).ppo j = e.ppo j := congrArg (fun t : TimeSt => t.ppo.get {} j.val) htime
  refine ⟨fun j hj => (h.outputs j hj).trans (hppo j), ?_⟩
  rw [← htime]
  exact h.frame

section
variable {s : State} {k : Fin 8} (ho : s.eng.Open 0) (hs : s.eng.standby = false) (hj : s.eng.journals = false)
include ho hs hj

theorem State.ppoModeSet_off (hm : (s.eng.ppo k).mode ≠ 0) : ∃ d, (s.eng.touch 0).OnlyPpo k d ∧
    d.ppo k = { s.eng.ppo k with active := false, mode := 0, next := none } ∧
    exec (.ppoModeSet k 0) s =
      .next (s.after (if (s.eng.ppo k).active then d.emit (.pulse k (s.eng.ppo k).polarity) else d)) := by
  obtain ⟨hppo, -, -⟩ := s.eng.ppoTouched_reads k
  obtain ⟨d, honly, hd, hmode⟩ := (s.eng.ppoTouched k).ppoMode_off k
  rw [hppo] at hd hmode
  exact ⟨d, (s.eng.onlyPpo_ppoTouched k).trans honly, hd, State.ppoModeSet_eq k ho hs hj hm hmode⟩

/-- A reserved mode, and one whose WIDTH or PERIOD is out of range, are ignored with source 35. -/
theorem State.ppoModeSet_refused {m : Fin 4} (hm : (s.eng.ppo k).mode ≠ m.val) (hz : m.val ≠ 0)
    (h : m.val = 3 ∨ (s.eng.ppo k).inRange m.val = false) : ∃ d, (s.eng.touch 0).OnlyPpo k d ∧ d.ppo k = s.eng.ppo k ∧
    exec (.ppoModeSet k m) s = .next (s.after (d.badAccess 0 (ppoOff k))) := by
  obtain ⟨hppo, -, -⟩ := s.eng.ppoTouched_reads k
  exact ⟨_, s.eng.onlyPpo_ppoTouched k, hppo,
    State.ppoModeSet_eq k ho hs hj hm ((s.eng.ppoTouched k).ppoMode_refused k hz (by rwa [hppo]))⟩

theorem State.ppoModeSet_periodic (hm : (s.eng.ppo k).mode ≠ 2) (ha : (s.eng.ppo k).active = false)
    (hr : (s.eng.ppo k).inRange 2 = true) (hh : s.eng.time.holdover = none) : ∃ d, (s.eng.touch 0).OnlyPpo k d ∧
    d.ppo k = { s.eng.ppo k with mode := 2, next := some ((s.eng.ppo k).firstEdge (s.eng.tb (s.eng.ppo k).tb).linear) } ∧
    exec (.ppoModeSet k 2) s = .next (s.after d) := by
  obtain ⟨hppo, htb, hhold⟩ := s.eng.ppoTouched_reads k
  have hmode := (s.eng.ppoTouched k).ppoMode_periodic k (hhold.trans hh) (by rwa [hppo]) (by rwa [hppo])
  rw [hppo, htb] at hmode
  exact ⟨_, ((s.eng.onlyPpo_ppoTouched k).setPpo _).setPpo _, Eng.ppo_setPpo _ _ _, State.ppoModeSet_eq k ho hs hj hm hmode⟩

end

/-- Settles O18: a write of TSU_PPO_CTRL is a change of MODE, and each edge acts by what its output, input or queue holds. -/
theorem pulsesAndCaptures : Obligations.PulsesAndCaptures := by
  unfold Obligations.PulsesAndCaptures
  refine ⟨⟨fun s k ho hs hj => ⟨fun hm _ => ?_, fun hm => ?_, fun hm hr => ?_, fun hm ha hw hp hwp hh => ?_⟩,
      fun s k t hh hn => ⟨fun ha => ?_, fun ha hm => ?_, fun ha hm => ?_⟩⟩,
    fun s => ⟨fun k r hh hr => ⟨fun hl => ?_, fun hl => ?_⟩, fun hh hen => ?_, fun p x l h => ?_⟩⟩
  · obtain ⟨d, honly, hd, hexec⟩ := State.ppoModeSet_off ho hs hj hm
    exact ⟨d, honly.of_touch, hd, hexec⟩
  · obtain ⟨d, honly, hd, hexec⟩ := State.ppoModeSet_refused ho hs hj (m := 3) (Nat.ne_of_lt hm) (by decide) (.inl rfl)
    exact ⟨d, honly.of_touch, hd, hexec⟩
  · have hout : (s.eng.ppo k).inRange 2 = false := by rw [Ppo.inRange_periodic, decide_eq_false_iff_not]; omega
    obtain ⟨d, honly, hd, hexec⟩ := State.ppoModeSet_refused ho hs hj (m := 2) (Nat.ne_of_lt hm) (by decide) (.inr hout)
    exact ⟨d, honly.of_touch, hd, hexec⟩
  · have hin : (s.eng.ppo k).inRange 2 = true := by rw [Ppo.inRange_periodic, decide_eq_true_iff]; exact ⟨hw, hp, hwp⟩
    obtain ⟨d, honly, hd, hexec⟩ := State.ppoModeSet_periodic ho hs hj (by simp [hm]) ha hin hh
    have hfirst := (s.eng.ppo k).firstEdge_spec (s.eng.tb (s.eng.ppo k).tb).linear (by omega)
    exact ⟨d, _, honly.of_touch, hd, hexec, hfirst⟩
  · exact State.does_eq_after (Eng.pulseEdge_begins (e := s.eng.clear) hh hn ha)
  · exact State.does_eq_after (Eng.pulseEdge_periodic (e := s.eng.clear) hh hn ha hm)
  · exact State.does_eq_after (Eng.pulseEdge_once (e := s.eng.clear) hh hn ha hm)
  · exact State.does_eq_after (Eng.capture_queues (e := s.eng.clear) hh hr hl rfl)
  · exact State.does_eq_after (Eng.capture_full (e := s.eng.clear) hh hr hl)
  · exact ⟨_, State.does_eq_after (Eng.ppsEdge_takes (e := s.eng.clear) hh hen), Eng.ppsAt_ppsTaken _, rfl, rfl⟩
  · exact State.does_eq_after (Eng.tsqExpire_drops (e := s.eng.clear) h)

end Sys2Proof.Machine
end

section
/-! PROOF. BLK_RST_N, the losses of clocks, and the end of an engine reset's drain (R322, R412, R473, R474, R478, R484, R539). -/
namespace Sys2Proof.Machine

section
variable {e : Eng}

theorem Eng.releaseReset_held (h : e.start.phase = .held) :
    e.releaseReset = { e with start := { e.start with phase := .s1 } } := if_pos h

theorem Eng.releaseReset_released (h : e.start.phase ≠ .held) : e.releaseReset = e := if_neg h

/-- In reset the monitor of REF_CLK is held too. -/
theorem Eng.refClkLost_held (h : e.start.phase = .held) : e.refClkLost = e := if_pos h

theorem Eng.refClkLost_raises (h : e.start.phase ≠ .held) : e.refClkLost = e.raiseEv (mkEv 41 .failure 0 0x8000 0 0) := if_neg h

/-- A lock that is held, or awaited in S1 or W2, is lost (R473, R539). -/
theorem Eng.pllLost_raises (h : e.pwr.pll = true ∨ e.start.phase = .s1 ∨ e.pwr.wakeStep = some .pll) :
    e.pllLost = e.raiseEv (mkEv 41 .failure 1 0x8000 0 0) := if_pos h

theorem Eng.pllLost_stopped (hp : e.pwr.pll = false) (hs : e.start.phase ≠ .s1) (hw : e.pwr.wakeStep ≠ some .pll) : e.pllLost = e :=
  if_neg (by simp [hp, hs, hw])

theorem Eng.resetDrained_elsewhere (h : e.start.phase ≠ .x2) : e.resetDrained = e := if_pos h

/-- The engine as X3 leaves it before the time unit runs again: powered, and in S3 (R478). -/
def Eng.startsS3 (d : Eng) : Eng :=
  { d with
    pwr := { d.pwr with state := .run, ctlOn := true, restOn := true, retOn := true, pll := true }
    start := { d.start with phase := .s3 } }

/-- Requests still on the DMA ports are in no part of PD_AON. -/
theorem Eng.resetDrained_ends (h : e.start.phase = .x2) : e.resetDrained = e.aonOnly.startsS3.holdEnd := if_neg (not_not_intro h)

end

/-- Settles O42: what each signal does by the phase and the PLL it finds, and the reset engine field by field. -/
theorem resetsAndTheirDrain : Obligations.ResetsAndTheirDrain := by
  unfold Obligations.ResetsAndTheirDrain
  refine ⟨fun s => ⟨rfl, fun h => ⟨?_, ?_⟩, fun h => ⟨?_, ?_⟩, fun h => ?_, fun hp hs hw => ?_⟩,
    fun s => ⟨fun h => ?_, fun h => ?_⟩, fun e => ?_⟩
  · exact State.does_eq_after (Eng.releaseReset_held (e := s.eng.clear) h)
  · exact State.does_eq_after (Eng.refClkLost_held (e := s.eng.clear) h)
  · exact State.does_eq_after (Eng.releaseReset_released (e := s.eng.clear) h)
  · exact State.does_eq_after (Eng.refClkLost_raises (e := s.eng.clear) h)
  · exact State.does_eq_after (Eng.pllLost_raises (e := s.eng.clear) h)
  · exact State.does_eq_after (Eng.pllLost_stopped (e := s.eng.clear) hp hs hw)
  · exact State.does_eq_after (Eng.resetDrained_elsewhere (e := s.eng.clear) h)
  · exact State.does_eq_after (Eng.resetDrained_ends (e := s.eng.clear) h)
  · and_intros <;> rfl

end Sys2Proof.Machine
end

section
/-! PROOF. The time and Deck group's commands (R334, R338, R339, R342, R344, R357, R530, R531). -/
namespace Sys2Proof.Machine

/-! ### The cut (R342) -/

theorem GateList.le_cutAfter (l : GateList) (now : Nat) (hc : 0 < l.cycle) : now + 10000 ≤ (l.cutAfter now).2 := by
  have hle : now + 10000 - l.base ≤ ceilDiv (now + 10000 - l.base) l.cycle * l.cycle := le_ceilDiv_mul hc _
  simp only [GateList.cutAfter]
  omega

/-- No earlier cycle starts 10 µs ahead. -/
theorem GateList.cutAfter_first (l : GateList) {now k : Nat} (hc : 0 < l.cycle) (hk : k < (l.cutAfter now).1) :
    l.base + k * l.cycle < now + 10000 := by
  have hlt : k * l.cycle < now + 10000 - l.base := mul_lt_of_lt_ceilDiv hc hk
  omega

/-! ### DECK_SET and DECK_CLEAR -/

section
variable {e : Eng} {f : Fn} {c : Cmd}

theorem Eng.deckArm_eq (e : Eng) (p : PortId) (l : GateList) : e.deckArm p l = e.setPort p { e.port p with deck := { (e.port p).deck with
    admin := some l, cut := (l.cutAfter (e.tb l.tb).linear).2, cutN := (l.cutAfter (e.tb l.tb).linear).1
    st := if (e.port p).deck.st = .none ∨ (e.port p).deck.st = .pending then .pending else .operPending } } := by
  unfold Eng.deckArm Eng.modPort
  cases hs : (e.port p).deck.st <;> simp only [hs] <;> rfl

section
variable (h : e.Has f 0x0501 c) (hc : firstBad (e.deckChecks c) = none)
include h hc

theorem Eng.deckSet_denied (hf : f ≠ 0) : e.deckSet f = (e.answer f 0x05 0).journalCmd f c := by
  unfold Eng.deckSet
  rw [Eng.mbx_has h]
  simp only [hc, if_pos hf]
  rfl

theorem Eng.deckSet_arms (hf : f = 0) {d : Eng} (hd : e.deckArm (fin 16 (c.at_ 0 8)) c.gateList = d) :
    e.deckSet f = (d.respond f 0x00 0 (slotBytes (d.cutItems (d.port (fin 16 (c.at_ 0 8))).deck))).journalCmd f c := by
  unfold Eng.deckSet
  rw [Eng.mbx_has h]
  simp only [hc, if_neg (not_not_intro hf), hd]
  rfl

end

section
variable (h : e.Asks f 0x0502 1 c) (hp : e.portArg (c.slot 0) = true) (hf : f = 0)
include h hp hf

/-- DECK_CLEAR answers when the gates open, by the engine `d` that clearing leaves. -/
theorem Eng.deckClearCmd_eq {d : Eng} {l : List Nat} (hd : e.deckClear c.port = d)
    (hl : (if (d.port c.port).deck.st = .clearing then secNs (d.port c.port).deck.clearAt else [0, 0]) = l) :
    e.deckClearCmd f = (d.respond f 0x00 0 (slotBytes l)).journalCmd f c :=
  Eng.mbxArgs_eq h (firstBad_port hp) (decide_eq_true hf) (by subst hd hl; rfl)

theorem Eng.deckClearCmd_idle (ho : (e.port c.port).deck.oper = none) :
    e.deckClearCmd f = ((e.setPort c.port { e.port c.port with deck := { (e.port c.port).deck with
      st := .none, admin := none, gates := 0xFF } }).respond f 0x00 0 (slotBytes [0, 0])).journalCmd f c :=
  Eng.deckClearCmd_eq h hp hf (by simp only [Eng.deckClear, ho]) (by simp)

variable {o : GateList} (ho : (e.port c.port).deck.oper = some o)
include ho

/-- The gates open at the end of the cycle that runs 10 µs from now (R344). -/
theorem Eng.deckClearCmd_begins (hs : (e.port c.port).deck.st ≠ .clearing) {t : Nat}
    (ht : (if o.off ((e.tb o.tb).linear + 10000 : Nat) = 0 then (e.tb o.tb).linear + 10000
      else (e.tb o.tb).linear + 10000 + (o.cycle - o.off ((e.tb o.tb).linear + 10000 : Nat))) = t) :
    e.deckClearCmd f = ((e.setPort c.port { e.port c.port with deck := { (e.port c.port).deck with
      st := .clearing, admin := none, clearAt := t } }).respond f 0x00 0 (slotBytes (secNs t))).journalCmd f c :=
  Eng.deckClearCmd_eq h hp hf (by simp only [Eng.deckClear, ho, if_neg hs, ht]) (by simp)

theorem Eng.deckClearCmd_again (hs : (e.port c.port).deck.st = .clearing) :
    e.deckClearCmd f = (e.respond f 0x00 0 (slotBytes (secNs (e.port c.port).deck.clearAt))).journalCmd f c :=
  Eng.deckClearCmd_eq h hp hf (by simp only [Eng.deckClear, ho, if_pos hs]) (if_pos hs)

end

/-! ### DECK_STATUS_GET -/

section
variable (h : e.Asks f 0x0503 2 c) (hp : e.portArg (c.slot 0) = true) (hv : c.slot 1 < 2)
  (hm : f = 0 ∨ (e.port c.port).statsOwner = f)
include h hp hv hm

theorem Eng.deckStatusGet_tooLong (hn : c.fits (e.deckBytes c.port c.indRsp).length = false) :
    e.deckStatusGet f = (e.answer f 0x03 4).journalCmd f c :=
  Eng.mbxArgs_eq h (firstBad_port_flag hp hv 40) (Eng.mayStat_of hm) (if_pos (by simp [hn]))

variable (hn : c.fits (e.deckBytes c.port c.indRsp).length = true)
include hn

theorem Eng.deckStatusGet_reads (hk : c.slot 1 = 0) :
    e.deckStatusGet f = (e.respond f 0x00 0 (e.deckBytes c.port c.indRsp)).journalCmd f c :=
  Eng.mbxArgs_eq h (firstBad_port_flag hp hv 40) (Eng.mayStat_of hm) ((if_neg (by simp [hn])).trans (if_neg (by simp [hk])))

theorem Eng.deckStatusGet_clears (hk : c.slot 1 = 1) :
    e.deckStatusGet f =
      ((e.setPort c.port { e.port c.port with deck := (e.port c.port).deck.setCounts [] }).respondClear f 0x00 0
        (e.deckBytes c.port c.indRsp)
        { opcode := 0x0503, object := c.port.val, counts := (e.port c.port).deck.counts }).journalCmd f c :=
  Eng.mbxArgs_eq h (firstBad_port_flag hp hv 40) (Eng.mayStat_of hm) ((if_neg (by simp [hn])).trans (if_pos hk))

end

/-! ### TS_QUEUE_READ -/

/-- A command of slots whose issuer may not give it (R511). -/
theorem Eng.mbxArgs_denied {op n : Nat} {checks : Eng → Cmd → List (Nat × Bool)} {may : Eng → Cmd → Bool}
    (h : e.Asks f op n c) (hc : firstBad (checks e c) = none) (hm : may e c = false) (body : Eng → Cmd → Eng) :
    e.mbxArgs f op n checks may body = (e.answer f 0x05 0).journalCmd f c := by
  unfold Eng.mbxArgs
  rw [Eng.mbxSlots_asks h]
  simp [hc, hm]
  rfl

section
variable (h : e.Asks f 0x0504 3 c) (hp : e.portArg (c.slot 0) = true) (h1 : 1 ≤ c.slot 1 ∧ c.slot 1 ≤ 15) (h2 : c.slot 2 < 2)
include h hp h1 h2

theorem Eng.tsQueueRead_takes (hm : f = 0 ∨ e.txOwner f c.port = true ∧ c.slot 2 = 0) :
    e.tsQueueRead f =
      let q := e.time.tsq.get {} c.port.val
      let r := takePass (fun (x : TsEnt) => decide (x.fn = f) || c.slot 2 == 1) (c.slot 1) q.ents
      (({ e with time := { e.time with tsq := e.time.tsq.put {} c.port.val { q with ents := r.2 } } } : Eng).respond f 0x00
        (r.2.filter (fun x => decide (x.fn = f))).length (r.1.flatMap TsEnt.bytes)).journalCmd f c :=
  Eng.mbxArgs_eq h (by simp [firstBad, portFirst, flagOk, hp, h1, h2]) (by simpa using hm) rfl

theorem Eng.tsQueueRead_denied (hf : f ≠ 0) (hm : c.slot 2 = 1 ∨ e.txOwner f c.port = false) :
    e.tsQueueRead f = (e.answer f 0x05 0).journalCmd f c := by
  refine Eng.mbxArgs_denied h (by simp [firstBad, portFirst, flagOk, hp, h1, h2]) ?_ _
  rcases hm with hm | hm <;> simp [hf, hm]

end
end

section
variable {α : Type} (p : α → Bool)

/-- One more value: taken where it passes and `n` allows, else left in its place. -/
theorem takePass_cons (n : Nat) (a : α) (l : List α) : takePass p n (a :: l) =
    if p a = true ∧ 0 < n then (a :: (takePass p (n - 1) l).1, (takePass p (n - 1) l).2)
    else ((takePass p n l).1, a :: (takePass p n l).2) := by
  simp [takePass]

/-- The first `n` values that pass are taken, those that do not stay, and so do the others that pass. -/
theorem takePass_spec (n : Nat) (l : List α) : (takePass p n l).1 = (l.filter p).take n ∧
    (takePass p n l).2.filter (fun x => !p x) = l.filter (fun x => !p x) ∧ (takePass p n l).2.filter p = (l.filter p).drop n := by
  induction l generalizing n with
  | nil => simp [takePass]
  | cons a l ih =>
    rw [takePass_cons]
    cases ha : p a with
    | false => simp [ha, ih n]
    | true =>
      cases n with
      | zero => simp [ha, ih 0]
      | succ n => simp [ha, ih n]

end

/-- Settles O54: the cut is a ceiling division, each command's request and issuer pass, and its body follows the Deck's
state; a read of a queue splits it by its first entries that pass. -/
theorem deckAndTimeStampCommands : Obligations.DeckAndTimeStampCommands := by
  unfold Obligations.DeckAndTimeStampCommands
  refine ⟨fun l now hc => ⟨rfl, l.le_cutAfter now hc, fun k => l.cutAfter_first hc⟩, fun s f c =>
    ⟨fun h hc => ⟨fun hf => ?_, fun hf => ?_⟩, fun h hp hf => ⟨fun ho => ?_, fun o ho hs => ?_, fun o ho hs => ?_⟩,
      fun h hp hv hm => ⟨fun hn => ?_, fun hn hk => ?_, fun hn hk => ?_⟩,
      fun h hp h1 h15 h2 => ⟨fun hm => ?_, fun hf hm => ?_⟩, fun q p n => takePass_spec p n q⟩⟩
  · exact State.does_eq_after (Eng.deckSet_denied h hc hf)
  · exact State.does_eq_after (Eng.deckSet_arms h hc hf (Eng.deckArm_eq _ _ _))
  · exact State.does_eq_after (Eng.deckClearCmd_idle h hp hf ho)
  · exact State.does_eq_after (Eng.deckClearCmd_begins h hp hf ho hs rfl)
  · exact State.does_eq_after (Eng.deckClearCmd_again h hp hf ho hs)
  · exact State.does_eq_after (Eng.deckStatusGet_tooLong h hp hv hm hn)
  · exact State.does_eq_after (Eng.deckStatusGet_reads h hp hv hm hn hk)
  · exact State.does_eq_after (Eng.deckStatusGet_clears h hp hv hm hn hk)
  · exact State.does_eq_after (Eng.tsQueueRead_takes h hp ⟨h1, h15⟩ h2 hm)
  · exact State.does_eq_after (Eng.tsQueueRead_denied h hp ⟨h1, h15⟩ h2 hf hm)

end Sys2Proof.Machine
end

section
/-! PROOF. What every command leaves alone outside the engine, and the credits and image slots that every step keeps (R388, R389,
R390, R430). -/
namespace Sys2Proof.Machine

/-! ### The boot store -/

section
variable {b : Boot}

theorem Boot.map2_wf (hb : b.wf) {cur other : ImgSlot → ImgSlot} (h : ∀ x y : ImgSlot, ¬ (x.state = .active ∧ y.state = .active) →
    ¬ ((cur x).state = .active ∧ (other y).state = .active)) : (b.map2 cur other).wf := by
  unfold Boot.map2
  split
  · exact fun k => h b.b b.a (fun k' => hb ⟨k'.2, k'.1⟩) ⟨k.2, k.1⟩
  · exact h b.a b.b hb

theorem Boot.failTrial_wf (hb : b.wf) : b.failTrial.wf :=
  Boot.map2_wf hb (fun _ _ _ k => ImgState.noConfusion k.1)

theorem Boot.passTrial_wf : b.passTrial.wf := by
  unfold Boot.passTrial Boot.map2
  split
  · exact fun k => ImgState.noConfusion k.1
  · exact fun k => ImgState.noConfusion k.2

/-- A slot written by FW_UPDATE is PENDING or EMPTY (R389). -/
theorem Boot.update_wf {x : ImgSlot} (hx : x.state ≠ .active) : (b.update x).wf := by
  unfold Boot.update
  split
  · exact fun k => hx k.1
  · exact fun k => hx k.2

end

theorem Eng.fwUpdate_boot_wf (e : Eng) {b : Boot} (f : Fn) (sigOk secOk writeOk : Bool) (hb : b.wf) :
    (e.fwUpdate b f sigOk secOk writeOk).1.wf := by
  unfold Eng.fwUpdate
  split
  · exact hb
  · dsimp only
    split
    · exact Boot.update_wf (by cases writeOk <;> simp)
    · exact hb

/-! ### What start-up leaves alone -/

section
variable (s : State) (f : Eng → Eng)

@[simp] theorem State.run_pending : (s.run f).pending = s.pending := (State.run_other s f).1
@[simp] theorem State.run_boot : (s.run f).boot = s.boot := (State.run_other s f).2.1
@[simp] theorem State.run_budget : (s.run f).budget = s.budget := (State.run_other s f).2.2

theorem State.memoryInit_keeps : s.memoryInit.pending = s.pending ∧ s.memoryInit.budget = s.budget ∧
    s.memoryInit.boot.a = s.boot.a ∧ s.memoryInit.boot.b = s.boot.b := by
  unfold State.memoryInit
  split
  · simp only [State.run_pending, State.run_budget, State.run_boot, and_self]
  · split
    · simp only [State.run_pending, State.run_budget, and_self]
    · simp only [State.run_pending, State.run_budget, State.run_boot, and_self]

theorem State.imageLoaded_keeps (i : ImageInfo) : (s.imageLoaded i).pending = s.pending ∧ (s.imageLoaded i).budget = s.budget := by
  unfold State.imageLoaded
  split
  · simp only [State.run_pending, State.run_budget, and_self]
  · dsimp only
    split
    · simp only [State.run_pending, State.run_budget, and_self]
    · split
      · simp only [State.run_pending, State.run_budget, and_self]
      · simp only [State.run_pending, State.run_budget, and_self]

theorem State.imageLoaded_boot_wf (i : ImageInfo) (h : s.boot.wf) : (s.imageLoaded i).boot.wf := by
  have hb := Boot.map2_wf h (cur := fun x => { x with version := i.version, secVersion := i.secVersion }) (other := fun x => x)
    (fun _ _ k => k)
  unfold State.imageLoaded
  split
  · rw [State.run_boot]; exact h
  · dsimp only
    split
    · exact hb
    · split
      · exact Boot.failTrial_wf hb
      · exact hb

theorem State.startReady_keeps : s.startReady.pending = s.pending ∧ s.startReady.budget = s.budget := by
  unfold State.startReady
  split
  · simp only [State.run_pending, State.run_budget, and_self]
  · simp only [State.run_pending, State.run_budget, and_self]

theorem State.startReady_boot_wf (h : s.boot.wf) : s.startReady.boot.wf := by
  unfold State.startReady
  split
  · rw [State.run_boot]; exact h
  · dsimp only
    split
    · exact Boot.passTrial_wf
    · exact h

theorem State.trialTimeout_keeps : s.trialTimeout.pending = s.pending ∧ s.trialTimeout.budget = s.budget := by
  unfold State.trialTimeout
  split
  all_goals try split
  all_goals simp only [State.run_pending, State.run_budget, and_self]

/-- A trial's time limit marks the slot BAD, or changes neither slot. -/
theorem State.trialTimeout_boot : s.trialTimeout.boot = s.boot.failTrial ∨ s.trialTimeout.boot = s.boot := by
  unfold State.trialTimeout
  split
  all_goals try split
  all_goals simp only [State.run_boot, true_or, or_true]

theorem State.trialTimeout_boot_wf (h : s.boot.wf) : s.trialTimeout.boot.wf := by
  obtain hb | hb := s.trialTimeout_boot
  · rw [hb]; exact Boot.failTrial_wf h
  · rw [hb]; exact h

variable {s} {o : Result} {p q : Prop}

/-- A command that changes the engine, and the budget and the boot store where neither `p` nor `q` forbids. -/
theorem State.runs_keeps {bd : Budget} {bt : Boot} (h : o = .next { s.run f with budget := bd, boot := bt })
    (hp : p → bd = s.budget) (hq : q → bt = s.boot) :
    ∃ t, o = .next t ∧ t.pending = s.pending ∧ (p → t.budget = s.budget) ∧ (q → t.boot = s.boot) :=
  ⟨_, h, by simp only [State.run_pending], hp, hq⟩

theorem State.does_keeps (h : o = s.does f) :
    ∃ t, o = .next t ∧ t.pending = s.pending ∧ (p → t.budget = s.budget) ∧ (q → t.boot = s.boot) :=
  ⟨_, h, s.run_pending f, fun _ => s.run_budget f, fun _ => s.run_boot f⟩

end

/-- Settles O5: eight commands are more than a change of the engine, and each of those changes the budget or the boot store
alone. -/
theorem budgetAndBootStoreChanges : Obligations.BudgetAndBootStoreChanges := by
  unfold Obligations.BudgetAndBootStoreChanges
  intro c s
  cases c with
  | memoryInitDone =>
    obtain ⟨hp, hb, -, -⟩ := s.memoryInit_keeps
    exact ⟨_, rfl, hp, fun _ => hb, fun h => Bool.noConfusion h⟩
  | imageLoadDone i =>
    obtain ⟨hp, hb⟩ := s.imageLoaded_keeps i
    exact ⟨_, rfl, hp, fun _ => hb, fun h => Bool.noConfusion h⟩
  | startReady =>
    obtain ⟨hp, hb⟩ := s.startReady_keeps
    exact ⟨_, rfl, hp, fun _ => hb, fun h => Bool.noConfusion h⟩
  | trialTimeout =>
    obtain ⟨hp, hb⟩ := s.trialTimeout_keeps
    exact ⟨_, rfl, hp, fun _ => hb, fun h => Bool.noConfusion h⟩
  | fwUpdate f sigOk secOk writeOk => exact State.runs_keeps _ rfl (fun _ => s.run_budget _) (fun h => Bool.noConfusion h)
  | signingDone _ | budgetCredit | resetAssert =>
    exact State.runs_keeps _ rfl (fun h => Bool.noConfusion h) (fun _ => s.run_boot _)
  | _ => exact State.does_keeps _ rfl

/-! ### The invariant -/

section
variable {s t : State} {c : Instr}

theorem exec_budget_wf (h : exec c s = .next t) (hs : s.budget.wf) : t.budget.wf := by
  obtain ⟨u, hu, -, hbudget, -⟩ := budgetAndBootStoreChanges c s
  obtain rfl : u = t := Host.Outcome.next.inj (hu.symm.trans h)
  cases c with
  | signingDone sigs =>
    obtain rfl := Host.Outcome.next.inj h
    show (s.budget.take s.eng _).credits ≤ 10000
    unfold Budget.take
    split
    · exact Nat.le_trans (Nat.sub_le _ _) hs
    · exact hs
  | budgetCredit => obtain rfl := Host.Outcome.next.inj h; exact Nat.min_le_left _ _
  | resetAssert => obtain rfl := Host.Outcome.next.inj h; exact Nat.le_refl 10000
  | _ => rw [hbudget rfl]; exact hs

theorem exec_boot_wf (h : exec c s = .next t) (hs : s.boot.wf) : t.boot.wf := by
  obtain ⟨u, hu, -, -, hboot⟩ := budgetAndBootStoreChanges c s
  obtain rfl : u = t := Host.Outcome.next.inj (hu.symm.trans h)
  cases c with
  | fwUpdate f sigOk secOk writeOk => obtain rfl := Host.Outcome.next.inj h; exact Eng.fwUpdate_boot_wf _ _ _ _ _ hs
  | memoryInitDone =>
    obtain rfl := Host.Outcome.next.inj h
    obtain ⟨-, -, ha, hb⟩ := s.memoryInit_keeps
    unfold Boot.wf
    rw [ha, hb]
    exact hs
  | imageLoadDone i => obtain rfl := Host.Outcome.next.inj h; exact s.imageLoaded_boot_wf i hs
  | startReady => obtain rfl := Host.Outcome.next.inj h; exact s.startReady_boot_wf hs
  | trialTimeout => obtain rfl := Host.Outcome.next.inj h; exact s.trialTimeout_boot_wf hs
  | _ => rw [hboot rfl]; exact hs

end

/-- Settles O3: 10,000 credits, and slot B EMPTY. -/
theorem invariantAtReset : Obligations.InvariantAtReset :=
  ⟨Nat.le_refl 10000, fun h => ImgState.noConfusion h.2⟩

/-- Settles O4: the command at the queue's front keeps both parts, and on an empty queue nothing changes. -/
theorem invariantKeptByEveryStep : Obligations.InvariantKeptByEveryStep := by
  unfold Obligations.InvariantKeptByEveryStep
  intro s t hbudget hboot h
  unfold step at h
  split at h
  · obtain rfl := Host.Outcome.next.inj h
    exact ⟨hbudget, hboot⟩
  · exact ⟨exec_budget_wf h hbudget, exec_boot_wf h hboot⟩

end Sys2Proof.Machine
end

section
/-! PROOF. Gate changes, cuts and clear points of a Deck (R340, R342, R343, R344). -/
namespace Sys2Proof.Machine

section
variable {e : Eng} {p : PortId}

theorem Eng.gateUpdate_eq (e : Eng) (p : PortId) :
    e.gateUpdate p = e.setPort p { e.port p with deck := { (e.port p).deck with gates := e.gatesNow p } } := rfl

theorem Eng.deckCut_unarmed (h : (e.port p).deck.admin = none) (stepped : Bool) : e.deckCut p stepped = e := by
  simp only [Eng.deckCut, h]

/-- With no operational list before it, a cut extends and truncates nothing (R343). -/
theorem Eng.cutEffect_first {d : Deck} (h : d.oper = none) (e : Eng) : e.cutEffect d = (0, 0) := by
  simp only [Eng.cutEffect, h]

theorem Eng.deckCut_first {a : GateList} (ha : (e.port p).deck.admin = some a) (ho : (e.port p).deck.oper = none) :
    e.deckCut p false = (e.setPort p { e.port p with deck := { (e.port p).deck with
      st := .operational, oper := some a, operFrom := (e.port p).deck.cut, admin := none, cuts := sat64 ((e.port p).deck.cuts + 1)
      extensions := sat64 (e.port p).deck.extensions, truncations := sat64 (e.port p).deck.truncations } }).gateUpdate p := by
  simp only [Eng.deckCut, ha, Eng.cutEffect_first ho]
  rfl

theorem Eng.deckClearPoint_clears (h : (e.port p).deck.st = .clearing) :
    e.deckClearPoint p = e.setPort p { e.port p with deck := { (e.port p).deck with st := .none, oper := none, gates := 0xFF } } :=
  if_pos h

theorem Eng.deckClearPoint_other (h : (e.port p).deck.st ≠ .clearing) : e.deckClearPoint p = e := if_neg h

end

/-- Settles O32: the gates follow the schedule, a cut acts where an admin list stands, and a clear point where its Deck
clears. -/
theorem deckEvents : Obligations.DeckEvents := by
  unfold Obligations.DeckEvents
  refine fun s p => ⟨?_, fun h => ?_, fun a ha ho => ?_, fun h => ?_, fun h => ?_⟩
  · exact State.does_eq_after (s.eng.clear.gateUpdate_eq p)
  · exact State.does_eq_after (Eng.deckCut_unarmed (e := s.eng.clear) h false)
  · exact State.does_eq_after (Eng.deckCut_first (e := s.eng.clear) ha ho)
  · exact State.does_eq_after (Eng.deckClearPoint_clears (e := s.eng.clear) h)
  · exact State.does_eq_after (Eng.deckClearPoint_other (e := s.eng.clear) h)

end Sys2Proof.Machine
end

section
/-! PROOF. F0's 64-bit writes in the engine window in RUN (R28, R40), and the debugger's accesses and the channels between
threads (R381, R385, R386, R391, R507). -/
namespace Sys2Proof.Machine

/-! ### F0's writes in the engine window -/

section
variable {o : Nat} (h8 : o % 8 = 0)
include h8

/-- A write in RUN on a member that is no standby, of a register that no journal takes in. -/
theorem State.access_f0Write {s : State} (h : s.eng.Open 0) (hs : s.eng.standby = false) (v : Nat)
    (hc : s.eng.journals = false ∨ ∀ e : Eng, e.regChanges (f0Write o v) = []) :
    s.access true (f0Write o v) = .next (s.after ((s.eng.touch 0).regWrite s.budget (f0Write o v))) := by
  rw [State.access_open (a := f0Write o v) h, Eng.csrRun_write _ _ (csrOk_f0Write h8 v) (by simp [f0Write])]
  have halone : (s.eng.touch 0).standby = false := by simpa using hs
  have hpair : (s.eng.touch 0).pairWrite s.budget (f0Write o v) = (s.eng.touch 0).regWrite s.budget (f0Write o v) := by
    rcases hc with hj | hc
    · exact Eng.pairWrite_alone _ _ halone (by simpa using hj)
    · exact Eng.pairWrite_own _ _ halone (hc _)
  rw [← hpair]
  rfl

theorem Eng.regWrite_f0Write (ho : o < 2 ^ 22) (e : Eng) (b : Budget) (v : Nat) :
    e.regWrite b (f0Write o v) = e.engineWrite b o (BitVec.ofNat 64 v) 0xFFFFFFFFFFFFFFFF true := by
  unfold Eng.regWrite
  rw [csrReg_f0Write h8 v ho, csrVal_f0Write]
  exact if_pos rfl

end

/-! ### The DBG_ block -/

section
variable {o : Nat} (h8 : o % 8 = 0) (ho : o < 0x200000)
include h8 ho

/-- No journal carries the debugger's writes (R434). -/
theorem Eng.regChanges_dbgWrite (e : Eng) (v : Nat) : e.regChanges (f0Write (0x200000 + o) v) = [] := by
  have hreg : csrReg (f0Write (0x200000 + o) v) = 0x200000 + o := csrReg_f0Write (by omega) v (by omega)
  have hm : mirroredReg (f0Write (0x200000 + o) v) = false := by
    unfold mirroredReg
    rw [hreg]
    refine (if_pos rfl).trans ?_
    simp only [Bool.or_eq_false_iff, decide_eq_false_iff_not, beq_eq_false_iff_ne]
    omega
  unfold Eng.regChanges
  rw [hm, hreg]
  exact (if_neg Bool.false_ne_true).trans (if_neg (fun ⟨_, _, hhi, _⟩ => by omega))

theorem Eng.regWrite_dbgWrite {e : Eng} (h : e.start.phase = .ready) (b : Budget) (v : Nat) :
    e.regWrite b (f0Write (0x200000 + o) v) = e.dbgWrite o (BitVec.ofNat 64 v) := by
  rw [Eng.regWrite_f0Write (by omega) (by omega), Eng.engineWrite, if_neg (by omega), if_neg (by omega),
    if_neg (not_not_intro h), if_neg (by omega), if_neg (by omega), if_neg (by omega), if_neg (by omega), if_pos (by omega),
    Nat.add_sub_cancel_left]

end

section
variable (t : ThreadId)

theorem Eng.dbgWrite_threadCtrl (e : Eng) (w : BitVec 64) : e.dbgWrite (0x108 + 0x40 * t.val) w = e.dbgCtrl t w.toNat := by
  have ht : (0x108 + 0x40 * t.val - 0x100) / 0x40 = t.val := by omega
  rw [Eng.dbgWrite, if_pos (by omega), ht, fin_val]

/-- F0's write of DBG_THREAD_CTRL in RUN (R386, R391). -/
theorem State.access_threadCtrl {s : State} (h : s.eng.Open 0) (hs : s.eng.standby = false) {v : Nat} (hv : v < 2 ^ 64) :
    s.access true (f0Write (0x200108 + 0x40 * t.val) v) = .next (s.after ((s.eng.touch 0).dbgCtrl t v)) := by
  have hoff : 0x200108 + 0x40 * t.val = 0x200000 + (0x108 + 0x40 * t.val) := by omega
  have h8 : (0x108 + 0x40 * t.val) % 8 = 0 := by omega
  have ho : 0x108 + 0x40 * t.val < 0x200000 := by omega
  rw [hoff, State.access_f0Write (by omega) h hs v (.inr fun e => e.regChanges_dbgWrite h8 ho v),
    Eng.regWrite_dbgWrite h8 ho (by simpa using h.ready), Eng.dbgWrite_threadCtrl, BitVec.toNat_ofNat, Nat.mod_eq_of_lt hv]

/-! ### The debug controls -/

/-- The engine that has used one free value. -/
def Eng.spent (e : Eng) : Eng := { e with free := e.free + 1 }

variable {e : Eng}

theorem Eng.dbgCtrl_off (h : e.lcp.enable = false) (v : Nat) : e.dbgCtrl t v = e.badAccess 0 (dbgCtrlOff t) :=
  if_neg (by simp [h])

theorem Eng.dbgCtrl_halt (h : e.lcp.enable = true) : e.dbgCtrl t 1 = e.haltThread t := if_pos h
theorem Eng.dbgCtrl_resume (h : e.lcp.enable = true) : e.dbgCtrl t 2 = e.resumeThread t := if_pos h
theorem Eng.dbgCtrl_step (h : e.lcp.enable = true) : e.dbgCtrl t 4 = e.stepThread t := if_pos h

theorem Eng.freePc_eq (e : Eng) : e.freePc t =
    (e.setThread t { e.thread t with pc := Config.freeValue e.free % 2 ^ 32 }).spent := rfl

/-- A thread in DEBUG_HALT is not as reset leaves it. -/
theorem Thread.ne_reset_of_halted {y : Thread} (h : y.state = .haltedDebug) (n : Nat) : y ≠ Thread.reset n := by
  rintro rfl
  unfold Thread.reset at h
  split at h <;> cases h

theorem Eng.setThread_setThread (e : Eng) {y z : Thread} (hy : y.state = .haltedDebug) (hz : z.state = .haltedDebug) :
    (e.setThread t y).setThread t z = e.setThread t z := by
  unfold Eng.setThread
  simp only [Tab.put_put _ _ _ (Thread.ne_reset_of_halted hy _) (Thread.ne_reset_of_halted hz _)]

/-- What a thread that can execute is once halted (R385, R386). -/
def Thread.haltAt (y : Thread) (now pc : Nat) : Thread :=
  { y with state := .haltedDebug, halted := y.state, holdTimer := y.holdNow now, holdSince := none, pc := pc }

theorem Eng.haltThread_runs (h : (e.thread t).state = .running ∨ (e.thread t).state = .waitChannel ∨ (e.thread t).state = .waitEvent) :
    e.haltThread t = (e.setThread t ((e.thread t).haltAt e.now (Config.freeValue e.free % 2 ^ 32))).spent := by
  have hhalt : e.haltThread t =
      (e.setThread t { (e.thread t).freeze e.now with state := .haltedDebug, halted := (e.thread t).state }).freePc t := by
    unfold Eng.haltThread
    rcases h with h | h | h <;> simp only [h]
  rw [hhalt, Eng.freePc_eq, Eng.thread_setThread, Eng.setThread_setThread t e rfl rfl]
  rfl

theorem Eng.haltThread_stopped (h : (e.thread t).state = .haltedDebug ∨ (e.thread t).state = .faulted ∨ (e.thread t).state = .reset) :
    e.haltThread t = e := by
  unfold Eng.haltThread
  rcases h with h | h | h <;> simp only [h]

theorem Eng.resumeThread_halted (h : (e.thread t).state = .haltedDebug) : e.resumeThread t = e.setThread t { e.thread t with
    state := (e.thread t).halted, holdSince := if (e.thread t).hold.isSome then some e.now else none } := if_pos h
theorem Eng.resumeThread_other (h : (e.thread t).state ≠ .haltedDebug) : e.resumeThread t = e := if_neg h
theorem Eng.stepThread_halted (h : (e.thread t).state = .haltedDebug) : e.stepThread t = e.freePc t := if_pos h
theorem Eng.stepThread_other (h : (e.thread t).state ≠ .haltedDebug) : e.stepThread t = e := if_neg h

end

/-! ### The DBG port -/

section
variable {e : Eng} (slotB : Bool) (b : Budget) (v : Nat)

theorem Eng.dbgPort_gated (h : e.pwr.ctlOn = false) (o : Nat) (w : Bool) : e.dbgPort slotB b o w v = e.emit (.dbg 2 0) :=
  if_pos (.inl h)

variable (h : e.Up)
include h

theorem Eng.Up.dbgPort_answers : ¬ (e.pwr.ctlOn = false ∨ e.start.phase.early = true) := by
  simp [h.ctlOn, h.ready, Phase.early]

theorem Eng.dbgPort_refused (he : e.lcp.enable = false) (o : Nat) : e.dbgPort slotB b o true v = e.emit (.dbg 1 0) := by
  unfold Eng.dbgPort
  dsimp only
  rw [if_neg h.dbgPort_answers, if_pos rfl, if_pos he]

variable {o : Nat} (h8 : o % 8 = 0) (ho : o < 0x200000)
include h8 ho

theorem Eng.dbgPort_write (he : e.lcp.enable = true) : e.dbgPort slotB b o true v =
    (e.regWrite b (f0Write (0x200000 + o) v)).emit (.dbg 0 0) := by
  unfold Eng.dbgPort
  dsimp only
  rw [if_neg h.dbgPort_answers, if_pos rfl, if_neg (by simp [he]), Nat.mod_eq_of_lt ho, if_pos (csrOk_f0Write (by omega) v)]

theorem Eng.dbgPort_read : e.dbgPort slotB b o false v = e.emit (.dbg 0
    (csrPart (f0Write (0x200000 + o) v) (e.regRead slotB b (f0Write (0x200000 + o) v)).1)) := by
  unfold Eng.dbgPort
  dsimp only
  rw [if_neg h.dbgPort_answers, if_neg Bool.false_ne_true, Nat.mod_eq_of_lt ho, if_pos (csrOk_f0Write (by omega) v)]

end

/-! ### Channels between threads -/

section
variable {e : Eng} {t : ThreadId} {c : ChnId}

/-- The engine whose thread `t` waits on channel `c`. -/
def Eng.waitOn (e : Eng) (t : ThreadId) (c : ChnId) (w : Bool) : Eng :=
  e.setThread t { e.thread t with state := .waitChannel, waitChn := some (c, w) }

section
variable (hy : (e.thread t).state ≠ .running) (hw : (e.thread t).state ≠ .waitChannel)
include hy hw

theorem Thread.not_mayUse (w : Bool) : (e.thread t).mayUse c w = false := by simp [Thread.mayUse, hy, hw]

theorem Eng.chnWrite_idle (w : Word) (last : Bool) : e.chnWrite t c w last = e :=
  if_pos (.inl (by rw [Thread.not_mayUse hy hw]; rfl))

theorem Eng.chnRead_idle : e.chnRead t c = e := if_pos (.inl (by rw [Thread.not_mayUse hy hw]; rfl))

end

section
variable (hy : (e.thread t).state = .running) (hon : e.pwr.ctlOn = true)
include hy hon

theorem Thread.mayUse_runs (w : Bool) : ¬ ((!(e.thread t).mayUse c w) = true ∨ e.pwr.ctlOn = false) := by
  simp [Thread.mayUse, hy, hon]

theorem Eng.chnWrite_begins (hp : (e.chnl c).part = none) (hm : (e.chnl c).msgs.length < 4) (w : Word) :
    e.chnWrite t c w false = (e.setThread t { e.thread t with
      state := .running, waitChn := none, hold := some c, holdTimer := 0, holdSince := some e.now }).setChnl c
        { e.chnl c with part := some (t, [w]) } := by
  unfold Eng.chnWrite
  dsimp only
  rw [if_neg (Thread.mayUse_runs hy hon true)]
  simp [hp, Nat.not_le.mpr hm]

theorem Eng.chnWrite_single (hp : (e.chnl c).part = none) (hm : (e.chnl c).msgs.length < 4) (w : Word) :
    e.chnWrite t c w true = ((e.setThread t { e.thread t with
      state := .running, waitChn := none, hold := none, holdTimer := 0, holdSince := none }).setChnl c
        { msgs := (e.chnl c).msgs ++ [[w]], part := none }).wakeChn c := by
  unfold Eng.chnWrite
  dsimp only
  rw [if_neg (Thread.mayUse_runs hy hon true)]
  simp [hp, Nat.not_le.mpr hm]

theorem Eng.chnWrite_goesOn {ws : List Word} (hp : (e.chnl c).part = some (t, ws)) (hn : ws ≠ []) (hl : ws.length < 8) (w : Word) :
    e.chnWrite t c w false = (e.setThread t { e.thread t with state := .running, waitChn := none }).setChnl c
      { e.chnl c with part := some (t, ws ++ [w]) } := by
  unfold Eng.chnWrite
  dsimp only
  rw [if_neg (Thread.mayUse_runs hy hon true)]
  simp [hp, hn, Nat.not_le.mpr hl]

theorem Eng.chnWrite_closes {ws : List Word} (hp : (e.chnl c).part = some (t, ws)) (hl : ws.length < 8) (w : Word) :
    e.chnWrite t c w true = ((e.setThread t { e.thread t with
      state := .running, waitChn := none, hold := none, holdTimer := 0, holdSince := none }).setChnl c
        { msgs := (e.chnl c).msgs ++ [ws ++ [w]], part := none }).wakeChn c := by
  unfold Eng.chnWrite
  dsimp only
  rw [if_neg (Thread.mayUse_runs hy hon true)]
  simp [hp, Nat.not_le.mpr hl]

theorem Eng.chnWrite_waits (h : (∃ u ws, (e.chnl c).part = some (u, ws) ∧ u ≠ t) ∨ ((e.chnl c).part = none ∧ 4 ≤ (e.chnl c).msgs.length))
    (w : Word) (last : Bool) : e.chnWrite t c w last = e.waitOn t c true := by
  unfold Eng.chnWrite
  dsimp only
  rw [if_neg (Thread.mayUse_runs hy hon true)]
  rcases h with ⟨u, ws, hp, hu⟩ | ⟨hp, hm⟩
  · simp only [hp, if_pos hu]; rfl
  · simp only [hp, if_pos hm]; rfl

theorem Eng.chnRead_waits (hm : (e.chnl c).msgs = []) : e.chnRead t c = e.waitOn t c false := by
  unfold Eng.chnRead
  dsimp only
  rw [if_neg (Thread.mayUse_runs hy hon false), hm]
  rfl

theorem Eng.chnRead_takes {m : List Word} {r : List (List Word)} (hm : (e.chnl c).msgs = m :: r) : e.chnRead t c =
    (((e.setThread t { e.thread t with state := .running, waitChn := none }).setChnl c { e.chnl c with msgs := r }).emit
      (.message t m)).wakeChn c := by
  unfold Eng.chnRead
  dsimp only
  rw [if_neg (Thread.mayUse_runs hy hon false), hm]

end

theorem Eng.holdExpiry_free (hp : (e.chnl c).part = none) : e.holdExpiry c = e := by simp only [Eng.holdExpiry, hp]

variable {u : ThreadId} {ws : List Word} (hp : (e.chnl c).part = some (u, ws))
include hp

theorem Eng.holdExpiry_still (h : (e.thread u).holdSince = none) : e.holdExpiry c = e := by simp only [Eng.holdExpiry, hp, h]

theorem Eng.holdExpiry_faults (h : (e.thread u).holdSince.isSome = true) :
    e.holdExpiry c = (e.spent.threadFault u (Config.freeValue e.free)).dropPart u := by
  obtain ⟨n, hn⟩ := Option.isSome_iff_exists.mp h
  simp only [Eng.holdExpiry, hp, hn]
  rfl

end

/-! ### The commands -/

theorem exec_debugHalt (t : ThreadId) (s : State) : exec (.debugHalt t) s = s.access true (f0Write (0x200108 + 0x40 * t.val) 1) := rfl
theorem exec_debugResume (t : ThreadId) (s : State) :
    exec (.debugResume t) s = s.access true (f0Write (0x200108 + 0x40 * t.val) 2) := rfl
theorem exec_debugStep (t : ThreadId) (s : State) : exec (.debugStep t) s = s.access true (f0Write (0x200108 + 0x40 * t.val) 4) := rfl
theorem exec_dbgPortAccess (off : BitVec 22) (w : Bool) (v : BitVec 64) (s : State) :
    exec (.dbgPortAccess off w v) s = s.does (fun e => e.dbgPort s.boot.runB s.budget off.toNat w v.toNat) := rfl

section
variable {s : State} (t : ThreadId) (h : s.eng.Open 0) (hs : s.eng.standby = false)
include h hs

/-- A debug control in RUN, by what it makes of the engine: HALT, RESUME and STEP. -/
theorem State.debugCtrl_eq {i : Instr} {v : Nat} (hi : exec i s = s.access true (f0Write (0x200108 + 0x40 * t.val) v))
    (hv : v < 2 ^ 64) {d : Eng} (hd : (s.eng.touch 0).dbgCtrl t v = d) : exec i s = .next (s.after d) := by
  rw [hi, State.access_threadCtrl t h hs hv, hd]

variable {d : Eng}

theorem State.debugHalt_eq (he : s.eng.lcp.enable = true) (hd : (s.eng.touch 0).haltThread t = d) :
    exec (.debugHalt t) s = .next (s.after d) :=
  State.debugCtrl_eq t h hs (exec_debugHalt t s) (by decide) ((Eng.dbgCtrl_halt t (by simpa using he)).trans hd)

theorem State.debugResume_eq (he : s.eng.lcp.enable = true) (hd : (s.eng.touch 0).resumeThread t = d) :
    exec (.debugResume t) s = .next (s.after d) :=
  State.debugCtrl_eq t h hs (exec_debugResume t s) (by decide) ((Eng.dbgCtrl_resume t (by simpa using he)).trans hd)

theorem State.debugStep_eq (he : s.eng.lcp.enable = true) (hd : (s.eng.touch 0).stepThread t = d) :
    exec (.debugStep t) s = .next (s.after d) :=
  State.debugCtrl_eq t h hs (exec_debugStep t s) (by decide) ((Eng.dbgCtrl_step t (by simpa using he)).trans hd)

end

@[simp] theorem Eng.free_touch (e : Eng) (f : Fn) : (e.touch f).free = e.free := by
  have hcore : (e.touch f).core = e.core := Eng.tal_core _ _
  obtain ⟨-, -, -, -, -, -, -, -, -, -, -, -, -, -, -, -, -, -, -, -, hfree⟩ := Eng.core_fields hcore
  exact hfree

/-- Settles O34: what each debug control does by the thread's state, the DBG port by its conditions, and each word and
message by the channel's state. -/
theorem debugAndChannels : Obligations.DebugAndChannels := by
  unfold Obligations.DebugAndChannels
  refine ⟨fun s t hs => ⟨fun h he => ⟨fun hy => ?_, fun hy => ?_, fun hy => ⟨?_, ?_⟩, fun hy => ⟨?_, ?_⟩⟩, fun h he => ⟨?_, ?_, ?_⟩,
    fun off w v => ⟨fun h => ?_, fun h he => ?_, fun h h8 ho => ⟨fun he => ?_, ?_⟩⟩⟩, fun s t c w hon =>
    ⟨fun hy => ⟨fun hp hm => ⟨?_, ?_⟩, fun ws hp hn hl => ⟨?_, ?_⟩, fun hb last => ?_, fun hm => ?_, fun m r hm => ?_⟩,
      fun hy last => ?_, fun hp => ?_, fun u ws hp hh => ?_, fun u ws hp hh => ?_⟩⟩
  · refine State.debugHalt_eq t h hs he ((Eng.haltThread_runs t (by simpa using hy)).trans ?_)
    simp only [Eng.touch_reads, Eng.free_touch]
    rfl
  · exact State.debugHalt_eq t h hs he (Eng.haltThread_stopped t (by simpa using hy))
  · refine State.debugResume_eq t h hs he ((Eng.resumeThread_halted t (by simpa using hy)).trans ?_)
    simp only [Eng.touch_reads]
  · refine State.debugStep_eq t h hs he ((Eng.stepThread_halted t (by simpa using hy)).trans ?_)
    rw [Eng.freePc_eq]
    simp only [Eng.touch_reads, Eng.free_touch]
    rfl
  · exact State.debugResume_eq t h hs he (Eng.resumeThread_other t (by simpa using hy))
  · exact State.debugStep_eq t h hs he (Eng.stepThread_other t (by simpa using hy))
  · exact State.debugCtrl_eq t h hs (exec_debugHalt t s) (by decide) (Eng.dbgCtrl_off t (by simpa using he) _)
  · exact State.debugCtrl_eq t h hs (exec_debugResume t s) (by decide) (Eng.dbgCtrl_off t (by simpa using he) _)
  · exact State.debugCtrl_eq t h hs (exec_debugStep t s) (by decide) (Eng.dbgCtrl_off t (by simpa using he) _)
  · exact State.does_eq_after (Eng.dbgPort_gated (e := s.eng.clear) _ _ _ h _ _)
  · exact State.does_eq_after (Eng.dbgPort_refused _ _ _ h.clear he _)
  · exact State.does_eq_after (Eng.dbgPort_write _ _ _ h.clear h8 ho he)
  · exact State.does_eq_after (Eng.dbgPort_read _ _ _ h.clear h8 ho)
  · exact State.does_eq_after (Eng.chnWrite_begins (e := s.eng.clear) hy hon hp hm w)
  · exact State.does_eq_after (Eng.chnWrite_single (e := s.eng.clear) hy hon hp hm w)
  · exact State.does_eq_after (Eng.chnWrite_goesOn (e := s.eng.clear) hy hon hp hn hl w)
  · exact State.does_eq_after (Eng.chnWrite_closes (e := s.eng.clear) hy hon hp hl w)
  · exact State.does_eq_after (Eng.chnWrite_waits (e := s.eng.clear) hy hon hb w last)
  · exact State.does_eq_after (Eng.chnRead_waits (e := s.eng.clear) hy hon hm)
  · exact State.does_eq_after (Eng.chnRead_takes (e := s.eng.clear) hy hon hm)
  · have hidle : (s.eng.thread t).state ≠ .running ∧ (s.eng.thread t).state ≠ .waitChannel := by
      rcases hy with h | h | h | h <;> simp [h]
    exact ⟨State.does_eq_after (Eng.chnWrite_idle (e := s.eng.clear) hidle.1 hidle.2 w last),
      State.does_eq_after (Eng.chnRead_idle (e := s.eng.clear) hidle.1 hidle.2)⟩
  · exact State.does_eq_after (Eng.holdExpiry_free (e := s.eng.clear) hp)
  · exact State.does_eq_after (Eng.holdExpiry_still (e := s.eng.clear) hp hh)
  · exact State.does_eq_after (Eng.holdExpiry_faults (e := s.eng.clear) hp hh)

end Sys2Proof.Machine
end

section
/-! PROOF. Carry's requests as they end, resume, take slots and pass their validation, and F0's writes of its registers (R360 to
R364, R370, R372, R373). -/
namespace Sys2Proof.Machine

/-! ### Completion and resumption -/

section
variable {e : Eng} {c : ChId}

theorem Eng.carryComplete_fenced (hs : (e.chan c).state = .fencing) (hw : (e.chan c).writes = []) (he : (e.chan c).ending = none)
    (hg : e.carry.stopped = false) :
    e.carryComplete c = e.carryEnd c 0 (e.chan c).elems.length ((e.chan c).elems.foldl (fun n k => n + k.len) 0) := by
  simp [Eng.carryComplete, hs, hw, he, hg]

theorem Eng.carryComplete_unfenced (hs : (e.chan c).state = .active) (hd : (e.chan c).drained = true) (hu : e.carryUnsent c = false)
    (hf : (e.chan c).fence = false) (he : (e.chan c).ending = none) (hg : e.carry.stopped = false) :
    e.carryComplete c = e.carryEnd c 0 (e.chan c).elems.length ((e.chan c).elems.foldl (fun n k => n + k.len) 0) := by
  simp [Eng.carryComplete, hs, hd, hu, hf, he, hg]

theorem Eng.carryComplete_unanswered (hs : (e.chan c).state = .fencing) (hw : (e.chan c).writes ≠ []) : e.carryComplete c = e := by
  simp [Eng.carryComplete, hs, hw]

theorem Eng.carryComplete_other (h : (e.chan c).state = .idle ∨ (e.chan c).state = .wait ∨ (e.chan c).state = .suspended) :
    e.carryComplete c = e := by
  rcases h with h | h | h <;> simp [Eng.carryComplete, h]

theorem Eng.carryResume_running (h : e.carry.stopped = false) : e.carryResume = e := if_pos (by simp [h])

/-! ### Validation -/

theorem Eng.carryChecked_stale {els : List (BitVec 256)}
    (h : (e.chan c).state ≠ .validate ∨ (e.chan c).ending.isSome = true ∨ els ≠ (e.chan c).words) : e.carryChecked c els = e := if_pos h

section
variable (hs : (e.chan c).state = .validate) (he : (e.chan c).ending = none)
include hs he

theorem Eng.carryChecked_now : e.carryChecked c (e.chan c).words = match (e.chan c).checked with
    | .reading => e
    | .fail s i => e.carryEnd c s i 0
    | .pass l => (e.setChan c { e.chan c with state := .active, elems := l }).carryList c :=
  if_neg (by simp [hs, he])

theorem Eng.carryChecked_reading (h : (e.chan c).checked = .reading) : e.carryChecked c (e.chan c).words = e := by
  rw [Eng.carryChecked_now hs he, h]

theorem Eng.carryChecked_fails {st i : Nat} (h : (e.chan c).checked = .fail st i) :
    e.carryChecked c (e.chan c).words = e.carryEnd c st i 0 := by
  rw [Eng.carryChecked_now hs he, h]

theorem Eng.carryChecked_passes {l : List CElem} (h : (e.chan c).checked = .pass l) :
    e.carryChecked c (e.chan c).words = (e.setChan c { e.chan c with state := .active, elems := l }).carryList c := by
  rw [Eng.carryChecked_now hs he, h]

end

theorem Chan.checked_nil {x : Chan} (h : x.words = []) : x.checked = .reading := by simp [Chan.checked, h, validate]

/-- The bit of a word that a `Nat` test reads. -/
theorem bitAt_toNat {w : Nat} (v : BitVec w) (i : Nat) : bitAt v.toNat i = v.getLsbD i := by
  rw [bitAt, ← BitVec.testBit_toNat, Nat.testBit, Nat.one_and_eq_mod_two]
  rcases Nat.mod_two_eq_zero_or_one (v.toNat >>> i) with h | h <;> simp [h]

section
variable {x : Chan} {w : BitVec 256} (hw : x.words = [w]) (ho : (elemOf w).op ≠ 3) (hl : w.getLsbD 2 = true)
include hw ho hl

theorem Chan.checked_one : x.checked = if elemCheck w (x.srcPasid == x.dstPasid) = 0 then .pass [elemOf w]
    else .fail (elemCheck w (x.srcPasid == x.dstPasid)) 0 := by
  have hbit : bitAt w.toNat 2 = true := (bitAt_toNat w 2).trans hl
  have hcount : elemCount w 0 0 = false := by simp [elemCount, ho, hbit]
  simp only [Chan.checked, hw, validate, hcount, hbit, ho, Bool.false_eq_true, if_false, if_true, List.nil_append]
  split
  · next h => rw [if_pos h]
  · next h => rw [if_neg h]

theorem Chan.checked_last (h : elemCheck w (x.srcPasid == x.dstPasid) = 0) : x.checked = .pass [elemOf w] :=
  (Chan.checked_one hw ho hl).trans (if_pos h)

theorem Chan.checked_bad (h : elemCheck w (x.srcPasid == x.dstPasid) ≠ 0) :
    x.checked = .fail (elemCheck w (x.srcPasid == x.dstPasid)) 0 := (Chan.checked_one hw ho hl).trans (if_neg h)

end
end

/-! ### Slots -/

section
variable {e : Eng} {c : ChId}

theorem Eng.carryFill_idle (h : (e.chan c).state ≠ .active) : e.carryFill c = e := if_neg (fun k => h k.1)

theorem Eng.carryReady_idle (h : (e.chan c).state ≠ .active) (w : Bool) : e.carryReady w c = false := by
  simp [Eng.carryReady, h]

/-- A channel that is no candidate takes no slot. -/
theorem Eng.carryReady_of_pick {w : Bool} (h : e.carryPick w = some c) : e.carryReady w c = true := by
  unfold Eng.carryPick at h
  obtain ⟨p, -, hp⟩ := List.exists_of_findSome?_eq_some h
  have hc := List.find?_some hp
  simp only [Bool.and_eq_true, List.contains_iff_mem, List.mem_filter] at hc
  exact hc.1.2

theorem Eng.carryPick_idle (h : ∀ c, (e.chan c).state ≠ .active) (w : Bool) : e.carryPick w = none := by
  rcases hp : e.carryPick w with _ | c
  · rfl
  · have hr := Eng.carryReady_of_pick hp
    rw [Eng.carryReady_idle (h c)] at hr
    exact absurd hr Bool.false_ne_true

/-- No slot is taken while Carry is stopped or gated, or while no channel is ACTIVE. -/
theorem Eng.carrySlot_idle (h : e.carry.stopped = true ∨ e.dataOn = false ∨ ∀ c, (e.chan c).state ≠ .active) (w : Bool) :
    e.carrySlot w = e := by
  by_cases hr : e.carry.stopped = true ∨ e.dataOn = false
  · exact if_pos hr
  · have hidle : ∀ c, (e.chan c).state ≠ .active := by
      rcases h with h | h | h
      · exact absurd (.inl h) hr
      · exact absurd (.inr h) hr
      · exact h
    have hfill : foldEng allChans (fun e c => e.carryFill c) e = e := foldEng_fix _ _ _ (fun c => Eng.carryFill_idle (hidle c))
    refine (if_neg hr).trans ?_
    dsimp only
    rw [hfill, Eng.carryPick_idle hidle]

/-- The engine once channel `c` has taken the slot of turn `t` (R363). -/
def Eng.carryTook (e : Eng) (t : Nat) (c : ChId) : Eng :=
  { e with carry := { e.carry with lastSlot := c, turns := modNth e.carry.turns t (fun _ => c) } }

/-- A slot goes to the channel picked, and none of a lower PRIO number that last took one has lost its turn to it. -/
theorem Eng.carrySlot_taken {w : Bool} (hs : e.carry.stopped = false) (hd : e.dataOn = true) {d : Eng}
    (hfill : foldEng allChans (fun e c => e.carryFill c) e = d) (hp : d.carryPick w = some c)
    (hl : ¬ ((d.chan c).prio < (d.chan d.carry.lastSlot).prio ∧ d.carryReady w d.carry.lastSlot = true)) :
    e.carrySlot w = if w then (d.carryTook (turnOf (d.chan c).prio w) c).carryWriteBeat c
      else (d.carryTook (turnOf (d.chan c).prio w) c).carryReadBeat c := by
  refine (if_neg (by simp [hs, hd])).trans ?_
  dsimp only
  rw [hfill, hp]
  dsimp only
  rw [if_neg hl]
  rfl

end

/-! ### The only ACTIVE channel -/

theorem mem_allChans (c : ChId) : c ∈ allChans := by
  simp only [allChans, upTo, List.mem_map, List.mem_range]
  exact ⟨c.val, c.isLt, fin_val c⟩

theorem nodup_allChans : allChans.Nodup := by decide

/-- Of the channels in the order of their turns, every one has its place. -/
theorem exists_turn (l c : ChId) : c ∈ (upTo 64).map (fun k => fin 64 (l.val + 1 + k)) := by
  simp only [upTo, List.mem_map, List.mem_range]
  refine ⟨(c.val + 127 - l.val) % 64, Nat.mod_lt _ (by decide), Fin.ext ?_⟩
  show (l.val + 1 + (c.val + 127 - l.val) % 64) % 64 = c.val
  omega

section
variable {e : Eng} {c : ChId} (hother : ∀ d, d ≠ c → (e.chan d).state ≠ .active)
include hother

/-- The other channels do not fill their buffers. -/
theorem Eng.fold_carryFill_others {l : List ChId} (h : c ∉ l) : foldEng l (fun e c => e.carryFill c) e = e := by
  unfold foldEng
  induction l with
  | nil => rfl
  | cons d l ih =>
    rw [List.mem_cons, not_or] at h
    rw [List.foldl_cons, Eng.carryFill_idle (hother d (Ne.symm h.1))]
    exact ih h.2

/-- A channel whose FILL beats bring nothing is the only one that the filling touches. -/
theorem Eng.fold_carryFill_only {x : Chan} (hx : e.carryFill c = e.setChan c x) :
    foldEng allChans (fun e c => e.carryFill c) e = e.setChan c x := by
  obtain ⟨l, m, hlm⟩ := List.append_of_mem (mem_allChans c)
  have hnd : (l ++ c :: m).Nodup := hlm ▸ nodup_allChans
  have hl : c ∉ l := fun h => (List.nodup_append.mp hnd).2.2 c h c List.mem_cons_self rfl
  have hm : c ∉ m := (List.nodup_cons.mp (List.nodup_append.mp hnd).2.1).1
  have hfirst : List.foldl (fun e c => e.carryFill c) e l = e := Eng.fold_carryFill_others hother hl
  have hrest : List.foldl (fun e c => e.carryFill c) (e.setChan c x) m = e.setChan c x :=
    Eng.fold_carryFill_others (fun d hd => by rw [Eng.chan_setChan_other _ _ hd]; exact hother d hd) hm
  unfold foldEng
  rw [hlm, List.foldl_append, hfirst, List.foldl_cons, hx, hrest]

/-- The only channel that is ready takes the slot. -/
theorem Eng.carryPick_only {w : Bool} (hr : e.carryReady w c = true) (hp : (e.chan c).prio < 4) : e.carryPick w = some c := by
  have hready : ∀ d, e.carryReady w d = true → d = c := fun d hd => by
    by_contra hne
    rw [Eng.carryReady_idle (hother d hne)] at hd
    exact Bool.false_ne_true hd
  rcases hk : e.carryPick w with _ | d
  · unfold Eng.carryPick at hk
    have hnone := List.find?_eq_none.mp (List.findSome?_eq_none_iff.mp hk (e.chan c).prio (List.mem_range.mpr hp)) c (exists_turn _ c)
    simp [hr, mem_allChans] at hnone
  · rw [hready d (Eng.carryReady_of_pick hk)]

end

section
variable {e : Eng} {c : ChId} (ha : (e.chan c).state = .active)
include ha

section
variable (hsec : (e.chan c).rdSecond = false)
include hsec

theorem Eng.carryFill_none (hx : (e.chan c).elem? (e.chan c).rdElem = none) : e.carryFill c = e.setChan c (e.chan c) := by
  refine (if_pos ⟨ha, hsec⟩).trans (congrArg (e.setChan c) ?_)
  simp only [Chan.fill, hx]

theorem Eng.carryFill_copy {k : CElem} (hx : (e.chan c).elem? (e.chan c).rdElem = some k) (hk : k.op = 0) :
    e.carryFill c = e.setChan c (e.chan c) := by
  refine (if_pos ⟨ha, hsec⟩).trans (congrArg (e.setChan c) ?_)
  simp [Chan.fill, hx, hk]

end

variable (hs : e.carry.stopped = false) (hd : e.dataOn = true) (hother : ∀ d, d ≠ c → (e.chan d).state ≠ .active)
  (hp : (e.chan c).prio < 4)
include hs hd hother hp

omit ha in
/-- The only ACTIVE channel takes a slot that it is ready for. -/
theorem Eng.carrySlot_only {w : Bool} (hfill : e.carryFill c = e.setChan c (e.chan c))
    (hr : (e.setChan c (e.chan c)).carryReady w c = true) : e.carrySlot w =
      if w then ((e.setChan c (e.chan c)).carryTook (turnOf (e.chan c).prio w) c).carryWriteBeat c
      else ((e.setChan c (e.chan c)).carryTook (turnOf (e.chan c).prio w) c).carryReadBeat c := by
  have hother' : ∀ d, d ≠ c → ((e.setChan c (e.chan c)).chan d).state ≠ .active := fun d hd => by
    rw [Eng.chan_setChan_other _ _ hd]; exact hother d hd
  have htaken := Eng.carrySlot_taken hs hd (Eng.fold_carryFill_only hother hfill)
    (Eng.carryPick_only hother' hr (by rwa [Eng.chan_setChan])) (fun ⟨hlt, hready⟩ => ?_)
  · rwa [Eng.chan_setChan] at htaken
  by_cases hl : (e.setChan c (e.chan c)).carry.lastSlot = c
  · rw [hl] at hlt; exact Nat.lt_irrefl _ hlt
  · rw [Eng.carryReady_idle (hother' _ hl)] at hready; exact Bool.false_ne_true hready

variable (hend : (e.chan c).ending = none) (hen : (e.chan c).enable = true) (hsec : (e.chan c).rdSecond = false)
  (hw : e.carryWaits c = 0)
include hend hen hsec hw

/-- It writes the beat at its buffer's head (R362, R363). -/
theorem Eng.carrySlot_write {b : CBeat} {r : List CBeat} {k : CElem} {bs : List Byte}
    (hb : (e.chan c).buf = b :: r) (hk : (e.chan c).elems[b.elem]? = some k) (hop : k.op = 0) (hbs : b.a = some bs)
    (hx : (e.chan c).elem? (e.chan c).rdElem = none) :
    e.carrySlot true = ((((((e.setChan c (e.chan c)).carryTook (2 * (e.chan c).prio + 1) c).setChan c { e.chan c with
      buf := r, writes := (e.chan c).writes ++ [b.pos], issued := (e.chan c).issued + 64 }).carryCnt 1 64).access
        { owner := .carryWrite c, fn := (e.chan c).owner, pasid := (e.chan c).dstPasid, addr := k.dst + b.off, len := 64, kind := .write
          data := bs, grp := (e.chan c).grp, pos := b.pos + 2 ^ 48 * (e.chan c).curReq }).carryFill c).carryLeft c := by
  have hready : (e.setChan c (e.chan c)).carryReady true c = true := by
    have hw' : (e.setChan c (e.chan c)).carryWaits c = 0 := hw
    simp [Eng.carryReady, hw', ha, hend, hen, hb, hk, hop, hbs]
  have htook : ((e.setChan c (e.chan c)).carryTook (2 * (e.chan c).prio + 1) c).chan c = e.chan c := Eng.chan_setChan e c _
  rw [Eng.carrySlot_only hs hd hother hp (Eng.carryFill_none ha hsec hx) hready, if_pos rfl]
  show (((e.setChan c (e.chan c)).carryTook (2 * (e.chan c).prio + 1) c).carryWriteBeat c) = _
  simp only [Eng.carryWriteBeat, htook, hb, hk, hbs, Option.getD_some]

/-- It reads the next beat of a COPY (R362, R363). -/
theorem Eng.carrySlot_read {k : CElem} (hb : (e.chan c).buf = [])
    (hx : (e.chan c).elem? (e.chan c).rdElem = some k) (hop : k.op = 0) (hlt : (e.chan c).rdOff + 64 < k.len) :
    e.carrySlot false = ((((e.setChan c (e.chan c)).carryTook (2 * (e.chan c).prio) c).setChan c { e.chan c with
      buf := [{ pos := (e.chan c).rdPos, elem := (e.chan c).rdElem, off := (e.chan c).rdOff }]
      rdPos := (e.chan c).rdPos + 64, rdOff := (e.chan c).rdOff + 64 }).carryFill c).access
        { owner := .carryRead c, fn := (e.chan c).owner, pasid := (e.chan c).srcPasid, addr := k.src + (e.chan c).rdOff, len := 64
          kind := .read, grp := (e.chan c).grp, pos := 2 * (e.chan c).rdPos } := by
  have hready : (e.setChan c (e.chan c)).carryReady false c = true := by
    have hw' : (e.setChan c (e.chan c)).carryWaits c = 0 := hw
    simp [Eng.carryReady, hw', ha, hend, hen, hb, hx, hop, Chan.room, Chan.held]
  have htook : ((e.setChan c (e.chan c)).carryTook (2 * (e.chan c).prio) c).chan c = e.chan c := Eng.chan_setChan e c _
  rw [Eng.carrySlot_only hs hd hother hp (Eng.carryFill_copy ha hsec hx hop) hready, if_neg Bool.false_ne_true]
  show (((e.setChan c (e.chan c)).carryTook (2 * (e.chan c).prio) c).carryReadBeat c) = _
  simp [Eng.carryReadBeat, htook, hb, hx, hop, hsec, Nat.not_le.mpr hlt]

end

/-! ### F0's writes of CRY_CH_CTRL and CRY_GLOBAL -/

/-- A value written twice is written once. -/
theorem Tab.put_same {α : Type} [DecidableEq α] (t : Tab α) (d : α) (k : Nat) (v : α) : (t.put d k v).put d k v = t.put d k v := by
  have hdel (l : List (Nat × α)) : Tab.del (Tab.del l k) k = Tab.del l k := by
    induction l with
    | nil => rfl
    | cons r l ih =>
      obtain ⟨a, w⟩ := r
      by_cases ha : k = a
      · simpa [Tab.del, ha] using ha ▸ ih
      · simp [Tab.del, ha, ih]
  by_cases hv : v = d
  · simp [Tab.put, hv, hdel]
  · exact Tab.put_put t d k hv hv

theorem Eng.setChan_same (e : Eng) (c : ChId) (x : Chan) : (e.setChan c x).setChan c x = e.setChan c x := by
  unfold Eng.setChan
  simp only [Tab.put_same]

theorem bitAt_of_fld {v i : Nat} {b : Bool} (h : fld v i 1 = b2n b) : bitAt v i = b := by
  refine (congrArg (· == 1) h).trans ?_
  cases b <;> rfl

theorem b2n_lt_two (b : Bool) : b2n b < 2 := by cases b <;> decide

/-- CRY_CH_CTRL (R374). -/
def Chan.ctrl (x : Chan) : Nat :=
  pack [(b2n x.enable, 1), (0, 1), (b2n x.fence, 1), (b2n x.doneIrq, 1), (b2n x.errIrq, 1), (0, 1), (x.prio, 2)]

/-- A value of CRY_CH_CTRL that leaves all but ENABLE and GO as they are in `x`. -/
structure Chan.KeptBy (x : Chan) (w : BitVec 64) : Prop where
  fence : bitAt w.toNat 2 = x.fence
  doneIrq : bitAt w.toNat 3 = x.doneIrq
  errIrq : bitAt w.toNat 4 = x.errIrq
  prio : fld w.toNat 6 2 = x.prio

section
variable (x : Chan)

theorem Chan.fld_ctrl : fld (BitVec.ofNat 64 x.ctrl).toNat 0 1 = b2n x.enable ∧ fld (BitVec.ofNat 64 x.ctrl).toNat 1 1 = 0 ∧
    fld (BitVec.ofNat 64 x.ctrl).toNat 2 1 = b2n x.fence ∧ fld (BitVec.ofNat 64 x.ctrl).toNat 3 1 = b2n x.doneIrq ∧
    fld (BitVec.ofNat 64 x.ctrl).toNat 4 1 = b2n x.errIrq ∧ fld (BitVec.ofNat 64 x.ctrl).toNat 6 2 = x.prio % 4 := by
  have h1 := b2n_lt_two x.enable
  have h2 := b2n_lt_two x.fence
  have h3 := b2n_lt_two x.doneIrq
  have h4 := b2n_lt_two x.errIrq
  simp only [fld, Chan.ctrl, pack, Nat.shiftRight_eq_div_pow, BitVec.toNat_ofNat]
  omega

/-- CRY_CH_CTRL as CARRY_GO writes it, and as CARRY_DISABLE does (R372, R373). -/
def Chan.goWrite : BitVec 64 := (BitVec.ofNat 64 x.ctrl &&& ~~~0) ||| 2
def Chan.disableWrite : BitVec 64 := (BitVec.ofNat 64 x.ctrl &&& ~~~1) ||| 0

variable (hp : x.prio < 4)

theorem Chan.goWrite_enable : bitAt x.goWrite.toNat 0 = x.enable :=
  bitAt_of_fld ((fld_keep_kept _ (by decide) rfl rfl).trans x.fld_ctrl.1)

theorem Chan.goWrite_go : bitAt x.goWrite.toNat 1 = true := by
  rw [bitAt_toNat, Chan.goWrite, BitVec.getLsbD_or]
  exact Bool.or_true _

theorem Chan.disableWrite_enable : bitAt x.disableWrite.toNat 0 = false :=
  bitAt_of_fld (b := false) ((fld_keep_written _ (by decide) rfl).trans rfl)

theorem Chan.disableWrite_go : bitAt x.disableWrite.toNat 1 = false :=
  bitAt_of_fld (b := false) ((fld_keep_kept _ (by decide) rfl rfl).trans x.fld_ctrl.2.1)

include hp

theorem Chan.keptBy_goWrite : x.KeptBy x.goWrite := by
  obtain ⟨-, -, h2, h3, h4, h6⟩ := x.fld_ctrl
  refine ⟨bitAt_of_fld (.trans ?_ h2), bitAt_of_fld (.trans ?_ h3), bitAt_of_fld (.trans ?_ h4),
    .trans ?_ (h6.trans (Nat.mod_eq_of_lt hp))⟩
  all_goals exact fld_keep_kept _ (by decide) rfl rfl

theorem Chan.keptBy_disableWrite : x.KeptBy x.disableWrite := by
  obtain ⟨-, -, h2, h3, h4, h6⟩ := x.fld_ctrl
  refine ⟨bitAt_of_fld (.trans ?_ h2), bitAt_of_fld (.trans ?_ h3), bitAt_of_fld (.trans ?_ h4),
    .trans ?_ (h6.trans (Nat.mod_eq_of_lt hp))⟩
  all_goals exact fld_keep_kept _ (by decide) rfl rfl

end

theorem Chan.enable_same {x : Chan} (h : x.enable = true) : { x with enable := true } = x := by
  cases x; cases h; rfl

theorem mix_all (c : Nat) (w : BitVec 64) : mix c w 0xFFFFFFFFFFFFFFFF = w.toNat :=
  congrArg BitVec.toNat ((congrArg (· ||| w) BitVec.and_zero).trans BitVec.zero_or)

section
variable {e : Eng} {c : ChId} (off : Nat) (hp : 0 < (e.chan c).prio)
include hp

theorem Eng.chanCtrl_kept {w : BitVec 64} (hw : (e.chan c).KeptBy w) : e.chanCtrl c off w 0xFFFFFFFFFFFFFFFF =
    (let d := e.setChan c (e.chan c)
     let d := if bitAt w.toNat 0 then d.modChan c (fun x => { x with enable := true })
       else if (e.chan c).enable then d.carryDisable c else d
     if bitAt w.toNat 1 then
       if !decide ((e.chan c).state = .idle) then d.badAccess 0 off else if (d.chan c).enable then d.carryGo c else d
     else d) := by
  unfold Eng.chanCtrl
  simp only [mix_all, hw.fence, hw.doneIrq, hw.errIrq, hw.prio, Nat.max_eq_right hp, ne_eq, not_true_eq_false, and_false, if_false]

variable (h4 : (e.chan c).prio < 4)
include h4

/-- A write of GO leaves the channel's fields as they are (R373). -/
theorem Eng.chanCtrl_go : e.chanCtrl c off (e.chan c).goWrite 0xFFFFFFFFFFFFFFFF =
    if (e.chan c).state = .idle then
      if (e.chan c).enable then (e.setChan c (e.chan c)).carryGo c else e.setChan c (e.chan c)
    else (e.setChan c (e.chan c)).badAccess 0 off := by
  have hsame : (e.chan c).enable = true → (e.setChan c (e.chan c)).modChan c (fun x => { x with enable := true }) =
      e.setChan c (e.chan c) := fun hen => by
    unfold Eng.modChan
    rw [Eng.chan_setChan]
    exact (congrArg ((e.setChan c (e.chan c)).setChan c) (Chan.enable_same hen)).trans (Eng.setChan_same e c _)
  rw [Eng.chanCtrl_kept off hp ((e.chan c).keptBy_goWrite h4)]
  dsimp only
  rw [Chan.goWrite_enable, Chan.goWrite_go]
  cases hen : (e.chan c).enable <;> by_cases hi : (e.chan c).state = .idle <;> simp [hsame, hen, hi]

/-- A write of ENABLE 0 disables a channel that is enabled (R372). -/
theorem Eng.chanCtrl_disable : e.chanCtrl c off (e.chan c).disableWrite 0xFFFFFFFFFFFFFFFF =
    if (e.chan c).enable then (e.setChan c (e.chan c)).carryDisable c else e.setChan c (e.chan c) := by
  rw [Eng.chanCtrl_kept off hp ((e.chan c).keptBy_disableWrite h4)]
  dsimp only
  rw [Chan.disableWrite_enable, Chan.disableWrite_go]
  rfl

end

/-- The offset of a channel's block in the engine window (R374). -/
def chanOff (c : ChId) : Nat := 0x140000 + 0x1000 * c.val

section
variable (c : ChId)

theorem chanOff_block : chanOff c % 8 = 0 ∧ 0x140000 ≤ chanOff c ∧ chanOff c < 0x180000 ∧ chanOff c - 0x140000 ≠ 0x800 ∧
    fin 64 ((chanOff c - 0x140000) / 0x1000) = c ∧ (chanOff c - 0x140000) % 0x1000 = 0 ∧
    0x140000 + (chanOff c - 0x140000) = chanOff c := by
  have hc : (chanOff c - 0x140000) / 0x1000 = c.val := by unfold chanOff; omega
  refine ⟨?_, ?_, ?_, ?_, by rw [hc, fin_val], ?_, ?_⟩ <;> unfold chanOff <;> omega

section
variable {o : Nat} (h8 : o % 8 = 0) (hlo : 0x140000 ≤ o) (hhi : o < 0x180000)
include h8 hlo hhi

theorem Eng.regRead_cry (e : Eng) (slotB : Bool) (b : Budget) (v : Nat) :
    e.regRead slotB b (f0Write o v) = ((e.cryRead (o - 0x140000)).map (fun n => (n, e))).getD (0, e) := by
  have hread (lo : Bool) : e.engineRead slotB b o lo = (e.cryRead (o - 0x140000)).map (fun n => (n, e)) := by
    unfold Eng.engineRead
    dsimp only
    rw [if_neg (by omega), if_neg (by omega), if_neg (by omega), if_neg (by omega), if_neg (by omega), if_neg (by omega),
      if_pos (by omega)]
  unfold Eng.regRead
  rw [csrReg_f0Write h8 _ (by omega)]
  exact congrArg (Option.getD · _) (hread _)

theorem Eng.regWrite_cry {e : Eng} (h : e.start.phase = .ready) (b : Budget) (v : Nat) :
    e.regWrite b (f0Write o v) = e.cryWrite (o - 0x140000) (BitVec.ofNat 64 v) 0xFFFFFFFFFFFFFFFF := by
  rw [Eng.regWrite_f0Write h8 (by omega), Eng.engineWrite, if_neg (by omega), if_neg (by omega), if_neg (not_not_intro h),
    if_neg (by omega), if_neg (by omega), if_neg (by omega), if_pos (by omega)]

/-- A command that writes a register of the block with some bits cleared and some set, by what the write makes of the
engine. -/
theorem State.cryKeep_eq {s : State} (h : s.eng.Open 0) (hs : s.eng.standby = false) (hj : s.eng.journals = false) {clear set n : Nat}
    (hn : (s.eng.cryRead (o - 0x140000)) = some n) {d : Eng}
    (hd : (s.eng.touch 0).cryWrite (o - 0x140000) ((BitVec.ofNat 64 n &&& ~~~BitVec.ofNat 64 clear) ||| BitVec.ofNat 64 set)
      0xFFFFFFFFFFFFFFFF = d) : s.access true (s.eng.keep s.budget o clear set) = .next (s.after d) := by
  have hkeep : s.eng.keep s.budget o clear set =
      f0Write o ((BitVec.ofNat 64 n &&& ~~~BitVec.ofNat 64 clear) ||| BitVec.ofNat 64 set).toNat := by
    simp only [Eng.keep, Eng.regRead_cry h8 hlo hhi, hn, Option.map_some, Option.getD_some]
  rw [hkeep, State.access_f0Write h8 h hs _ (.inl hj), Eng.regWrite_cry h8 hlo hhi (by simpa using h.ready), BitVec.ofNat_toNat,
    BitVec.setWidth_eq, hd]

end

theorem Eng.cryRead_chanCtrl (e : Eng) : e.cryRead (chanOff c - 0x140000) = some (e.chan c).ctrl := by
  obtain ⟨-, -, -, hne, hc, hoff, -⟩ := chanOff_block c
  rw [Eng.cryRead, if_neg hne, hc, hoff]
  rfl

theorem Eng.cryWrite_chanCtrl {e : Eng} (w m : BitVec 64) : e.cryWrite (chanOff c - 0x140000) w m =
    if (e.chan c).claimed = false then e.badAccess 0 (chanOff c) else e.chanCtrl c (chanOff c) w m := by
  obtain ⟨-, -, -, hne, hc, hoff, hsum⟩ := chanOff_block c
  rw [Eng.cryWrite, if_neg hne, hc, hoff, hsum]
  unfold Eng.chanWrite
  simp [Eng.chanReg]

section
variable {s : State} (h : s.eng.Open 0) (hs : s.eng.standby = false) (hj : s.eng.journals = false)
include h hs hj

/-- CARRY_GO and CARRY_DISABLE in RUN, by what the write makes of the engine. -/
theorem State.carryGo_eq {d : Eng} (hd : (if (s.eng.chan c).claimed = false then (s.eng.touch 0).badAccess 0 (chanOff c)
    else (s.eng.touch 0).chanCtrl c (chanOff c) (s.eng.chan c).goWrite 0xFFFFFFFFFFFFFFFF) = d) :
    exec (.carryGo c) s = .next (s.after d) := by
  obtain ⟨h8, hlo, hhi, -⟩ := chanOff_block c
  refine State.cryKeep_eq h8 hlo hhi h hs hj (s.eng.cryRead_chanCtrl c) (.trans ?_ hd)
  rw [Eng.cryWrite_chanCtrl]
  simp only [Eng.touch_reads]
  rfl

theorem State.carryDisable_eq {d : Eng} (hd : (if (s.eng.chan c).claimed = false then (s.eng.touch 0).badAccess 0 (chanOff c)
    else (s.eng.touch 0).chanCtrl c (chanOff c) (s.eng.chan c).disableWrite 0xFFFFFFFFFFFFFFFF) = d) :
    exec (.carryDisable c) s = .next (s.after d) := by
  obtain ⟨h8, hlo, hhi, -⟩ := chanOff_block c
  refine State.cryKeep_eq h8 hlo hhi h hs hj (s.eng.cryRead_chanCtrl c) (.trans ?_ hd)
  rw [Eng.cryWrite_chanCtrl]
  simp only [Eng.touch_reads]
  rfl

theorem State.carryGo_unclaimed (hc : (s.eng.chan c).claimed = false) :
    exec (.carryGo c) s = .next (s.after ((s.eng.touch 0).badAccess 0 (chanOff c))) := State.carryGo_eq c h hs hj (if_pos hc)

theorem State.carryDisable_unclaimed (hc : (s.eng.chan c).claimed = false) :
    exec (.carryDisable c) s = .next (s.after ((s.eng.touch 0).badAccess 0 (chanOff c))) := State.carryDisable_eq c h hs hj (if_pos hc)

variable (hc : (s.eng.chan c).claimed = true) (hp : 0 < (s.eng.chan c).prio) (h4 : (s.eng.chan c).prio < 4)
include hc hp h4

theorem State.carryGo_claimed : exec (.carryGo c) s = .next (s.after (if (s.eng.chan c).state = .idle then
      if (s.eng.chan c).enable then ((s.eng.touch 0).setChan c (s.eng.chan c)).carryGo c
      else (s.eng.touch 0).setChan c (s.eng.chan c)
    else ((s.eng.touch 0).setChan c (s.eng.chan c)).badAccess 0 (chanOff c))) := by
  refine State.carryGo_eq c h hs hj ((if_neg (by simp [hc])).trans ?_)
  have hchan : (s.eng.touch 0).chan c = s.eng.chan c := by simp
  have hgo := Eng.chanCtrl_go (e := s.eng.touch 0) (c := c) (chanOff c) (by rwa [hchan]) (by rwa [hchan])
  rwa [hchan] at hgo

theorem State.carryDisable_claimed : exec (.carryDisable c) s = .next (s.after (if (s.eng.chan c).enable then
      ((s.eng.touch 0).setChan c (s.eng.chan c)).carryDisable c
    else (s.eng.touch 0).setChan c (s.eng.chan c))) := by
  refine State.carryDisable_eq c h hs hj ((if_neg (by simp [hc])).trans ?_)
  have hchan : (s.eng.touch 0).chan c = s.eng.chan c := by simp
  have hdis := Eng.chanCtrl_disable (e := s.eng.touch 0) (c := c) (chanOff c) (by rwa [hchan]) (by rwa [hchan])
  rwa [hchan] at hdis

end
end

/-- CRY_GLOBAL as CARRY_RESUME writes it (R370). -/
def CarrySt.resumeWrite (x : CarrySt) : BitVec 64 := (BitVec.ofNat 64 x.globalReg &&& ~~~0) ||| 4

theorem CarrySt.resumeWrite_auto (x : CarrySt) : bitAt x.resumeWrite.toNat 1 = x.autoResume := by
  have hs := b2n_lt_two x.stopped
  have ha := b2n_lt_two x.autoResume
  refine bitAt_of_fld ((fld_keep_kept _ (by decide) rfl rfl).trans ?_)
  simp only [fld, CarrySt.globalReg, pack, Nat.shiftRight_eq_div_pow, BitVec.toNat_ofNat]
  omega

theorem CarrySt.resumeWrite_resume (x : CarrySt) : bitAt x.resumeWrite.toNat 2 = true := by
  rw [bitAt_toNat, CarrySt.resumeWrite, BitVec.getLsbD_or]
  exact Bool.or_true _

theorem Eng.cryWrite_resume (e : Eng) : e.cryWrite 0x800 e.carry.resumeWrite 0xFFFFFFFFFFFFFFFF = e.carryResume := by
  refine (if_pos rfl).trans ?_
  dsimp only
  rw [mix_all, CarrySt.resumeWrite_auto, CarrySt.resumeWrite_resume]
  rfl

theorem State.carryResume_eq {s : State} (h : s.eng.Open 0) (hs : s.eng.standby = false) (hj : s.eng.journals = false) :
    exec .carryResume s = .next (s.after (s.eng.touch 0).carryResume) := by
  refine State.cryKeep_eq (o := 0x140800) (by decide) (by decide) (by decide) h hs hj (n := s.eng.carry.globalReg) rfl ?_
  have hresume := (s.eng.touch 0).cryWrite_resume
  rw [show (s.eng.touch 0).carry = s.eng.carry by simp] at hresume
  exact hresume

/-- Settles O33: each event by the channel's state and its request's, a slot by the channels that are ready, and F0's writes by
the fields they keep. -/
theorem carryEventsAndRegisters : Obligations.CarryEventsAndRegisters := by
  unfold Obligations.CarryEventsAndRegisters
  refine ⟨fun s => ⟨fun c => ⟨fun hs hw he hg => ?_, fun hs hd hu hf he hg => ?_, fun hs hw => ?_, fun h => ?_⟩, fun h => ?_, fun h => ?_,
    fun w h => ?_, fun w c hs hd hp hl => ?_, fun c hs hd ha hother hend hen hp hsec hw =>
      ⟨fun b r k bs hb hk hop hbs hx => ?_, fun k hb hx hop hlt => ?_⟩,
    fun c => ⟨fun els h => ?_, fun hs he => ⟨fun h => ?_, fun h => ?_, fun st i h => ?_, fun l h => ?_, fun w hw ho hl => ⟨fun h => ?_, fun h => ?_⟩⟩⟩⟩,
    fun s h hs hj => ⟨fun c hc hp h4 => ⟨fun hi hen => ?_, fun hi hen => ?_, fun hi => ?_, fun hen => ?_, fun hen => ?_⟩,
      fun c hc => ⟨State.carryGo_unclaimed c h hs hj hc, State.carryDisable_unclaimed c h hs hj hc⟩, fun hg => ?_, fun _ => ?_⟩⟩
  · exact State.does_eq_after (Eng.carryComplete_fenced (e := s.eng.clear) hs hw he hg)
  · exact State.does_eq_after (Eng.carryComplete_unfenced (e := s.eng.clear) hs hd hu hf he hg)
  · exact State.does_eq_after (Eng.carryComplete_unanswered (e := s.eng.clear) hs hw)
  · exact State.does_eq_after (Eng.carryComplete_other (e := s.eng.clear) h)
  · exact State.does_eq_after (if_pos h)
  · exact State.does_eq_after (if_neg (by simpa [Eng.clear] using h))
  · exact State.does_eq_after (Eng.carrySlot_idle (e := s.eng.clear) h w)
  · refine State.does_eq_after ((Eng.carrySlot_taken (e := s.eng.clear) hs hd rfl hp (fun k => Nat.not_lt.mpr hl k.1)).trans ?_)
    cases w <;> rfl
  · exact State.does_eq_after (Eng.carrySlot_write (e := s.eng.clear) ha hs hd hother hp hend hen hsec hw hb hk hop hbs hx)
  · exact State.does_eq_after (Eng.carrySlot_read (e := s.eng.clear) ha hs hd hother hp hend hen hsec hw hb hx hop hlt)
  · exact State.does_eq_after (Eng.carryChecked_stale (e := s.eng.clear) h)
  · exact State.does_eq_after (Eng.carryChecked_reading (e := s.eng.clear) hs he (Chan.checked_nil h))
  · exact State.does_eq_after (Eng.carryChecked_reading (e := s.eng.clear) hs he h)
  · exact State.does_eq_after (Eng.carryChecked_fails (e := s.eng.clear) hs he h)
  · exact State.does_eq_after (Eng.carryChecked_passes (e := s.eng.clear) hs he h)
  · exact State.does_eq_after (Eng.carryChecked_passes (e := s.eng.clear) hs he (Chan.checked_last hw ho hl h))
  · exact State.does_eq_after (Eng.carryChecked_fails (e := s.eng.clear) hs he (Chan.checked_bad hw ho hl h))
  · rw [State.carryGo_claimed c h hs hj hc hp h4, if_pos hi, if_pos hen]
  · rw [State.carryGo_claimed c h hs hj hc hp h4, if_pos hi, if_neg (by simp [hen])]
  · rw [State.carryGo_claimed c h hs hj hc hp h4, if_neg hi]; rfl
  · rw [State.carryDisable_claimed c h hs hj hc hp h4, if_pos hen]
  · rw [State.carryDisable_claimed c h hs hj hc hp h4, if_neg (by simp [hen])]
  · rw [State.carryResume_eq h hs hj, Eng.carryResume_running (by simpa using hg)]
  · exact State.carryResume_eq h hs hj

end Sys2Proof.Machine
end

section
/-! PROOF. The choice and acceptance of images, trials, the self-test and READY (R377, R388, R390, R473, R476, R480). -/
namespace Sys2Proof.Machine

/-! ### A command that changes the boot store too -/

section
variable {s : State} {g : Eng → Eng} {d : Eng}

/-- A change of the engine, by its effect `d` on the cleared engine. -/
theorem State.run_eq_after (h : g s.eng.clear = d) : s.run g = s.after d := by subst h; rfl

/-- Such a change with another boot store `b`. -/
theorem State.run_with_boot {b c : Boot} (h : g s.eng.clear = d) (hb : b = c) :
    ({ s.run g with boot := b } : State) = { s.after d with boot := c } := by
  rw [State.run_eq_after h, hb]

theorem State.after_with_boot (s : State) (d : Eng) : ({ s.after d with boot := s.boot } : State) = s.after d := by
  simp only [State.after]

end

/-! ### The image to be booted -/

section
variable {b : Boot}

theorem Boot.pick_a_pending (ha : b.a.state = .pending) : b.pick = some (false, true) := if_pos ha

theorem Boot.pick_b_pending (ha : b.a.state ≠ .pending) (hb : b.b.state = .pending) : b.pick = some (true, true) :=
  (if_neg ha).trans (if_pos hb)

theorem Boot.pick_a_active (ha : b.a.state = .active) (hb : b.b.state ≠ .pending) : b.pick = some (false, false) :=
  (if_neg (by simp [ha])).trans ((if_neg hb).trans (if_pos ha))

theorem Boot.pick_b_active (ha : b.a.state ≠ .pending) (ha' : b.a.state ≠ .active) (hb : b.b.state = .active) :
    b.pick = some (true, false) :=
  (if_neg ha).trans ((if_neg (by simp [hb])).trans ((if_neg ha').trans (if_pos hb)))

theorem Boot.pick_none (ha : b.a.state ≠ .pending) (ha' : b.a.state ≠ .active) (hb : b.b.state ≠ .pending) (hb' : b.b.state ≠ .active) :
    b.pick = none :=
  (if_neg ha).trans ((if_neg hb).trans ((if_neg ha').trans (if_neg hb')))

theorem Boot.map2_a (h : b.runB = false) (cur : ImgSlot → ImgSlot) : b.map2 cur (fun x => x) = { b with a := cur b.a } :=
  if_neg (by simp [h])

theorem Boot.map2_b (h : b.runB = true) (cur : ImgSlot → ImgSlot) : b.map2 cur (fun x => x) = { b with b := cur b.b } := if_pos h

theorem Boot.failTrial_a (h : b.runB = false) : b.failTrial = { b with a := { b.a with state := .bad }, runB := true } := by
  simp [Boot.failTrial, Boot.map2, h]

theorem Boot.failTrial_b (h : b.runB = true) : b.failTrial = { b with b := { b.b with state := .bad }, runB := false } := by
  simp [Boot.failTrial, Boot.map2, h]

theorem Boot.passTrial_b (h : b.runB = true) :
    b.passTrial = { b with b := { b.b with state := .active }, a := { b.a with state := .previous } } := if_pos h

end

/-! ### MEMORY_INIT_DONE, IMAGE_LOAD_DONE and TRIAL_TIMEOUT -/

section
variable {s : State}

theorem State.memoryInit_elsewhere (h : s.eng.start.phase ≠ .s3) : s.memoryInit = s.after s.eng.clear :=
  (if_pos h).trans (State.run_eq_after rfl)

section
variable (h : s.eng.start.phase = .s3)
include h

theorem State.memoryInit_picks {b trial : Bool} (hp : s.boot.pick = some (b, trial)) {d : Eng}
    (hd : (s.eng.clear.stepEnd 3 .s4).resetReleased = d) :
    s.memoryInit = { s.after { d with start := { d.start with trying := trial } } with boot := { s.boot with runB := b } } := by
  subst hd
  refine (if_neg (not_not_intro h)).trans ?_
  rw [hp]
  exact State.run_with_boot rfl rfl

theorem State.memoryInit_stops (hp : s.boot.pick = none) {d : Eng}
    (hd : ((s.eng.clear.stepEnd 3 .s4).resetReleased).noImage = d) : s.memoryInit = s.after d := by
  refine (if_neg (not_not_intro h)).trans ?_
  rw [hp]
  exact State.run_eq_after hd

end

/-- The boot store with the versions read of the slot being booted. -/
def Boot.readImage (b : Boot) (i : ImageInfo) : Boot :=
  b.map2 (fun x => { x with version := i.version, secVersion := i.secVersion }) (fun x => x)

variable {i : ImageInfo}

theorem imageOk_iff : imageOk i = true ↔ i.sigOk = true ∧ i.secOk = true ∧ i.codeLen.toNat ≤ 2097152 := by
  simp [imageOk, and_assoc]

theorem State.imageLoaded_elsewhere (h : s.eng.start.phase ≠ .s4) : s.imageLoaded i = s.after s.eng.clear :=
  (if_pos h).trans (State.run_eq_after rfl)

section
variable (h : s.eng.start.phase = .s4) {c : Boot} {d : Eng}
include h

theorem State.imageLoaded_accepts (hok : imageOk i = true) (hb : s.boot.readImage i = c)
    (hd : ((s.eng.clear.stepEnd 4 .s4).stepEnd 5 .s6).loadImage = d) : s.imageLoaded i = { s.after d with boot := c } := by
  refine (if_neg (not_not_intro h)).trans ((if_pos hok).trans ?_)
  exact State.run_with_boot hd hb

theorem State.imageLoaded_fails_trial (hok : imageOk i ≠ true) (ht : s.eng.start.trying = true) (hb : (s.boot.readImage i).failTrial = c)
    (hd : s.eng.clear.trialFailed = d) : s.imageLoaded i = { s.after d with boot := c } := by
  refine (if_neg (not_not_intro h)).trans ((if_neg hok).trans ((if_pos ht).trans ?_))
  exact State.run_with_boot hd hb

theorem State.imageLoaded_fails (hok : imageOk i ≠ true) (ht : s.eng.start.trying = false) (hb : s.boot.readImage i = c)
    (hd : s.eng.clear.noImage = d) : s.imageLoaded i = { s.after d with boot := c } := by
  refine (if_neg (not_not_intro h)).trans ((if_neg hok).trans ((if_neg (by simp [ht])).trans ?_))
  exact State.run_with_boot hd hb

end

/-- The phases in which a trial's time limit may be reached. -/
def Phase.mayTry (p : Phase) : Prop := p = .s4 ∨ p = .s6 ∨ p = .s7 ∨ p = .stopped

theorem State.trialTimeout_eq (h : s.eng.start.phase.mayTry) : s.trialTimeout =
    if s.eng.start.trying then { s.run (fun e => e.trialFailed) with boot := s.boot.failTrial } else s.run (fun e => e) := by
  unfold State.trialTimeout
  rcases h with h | h | h | h <;> rw [h]

theorem State.trialTimeout_fails (h : s.eng.start.phase.mayTry) (ht : s.eng.start.trying = true) {c : Boot} {d : Eng}
    (hb : s.boot.failTrial = c) (hd : s.eng.clear.trialFailed = d) : s.trialTimeout = { s.after d with boot := c } := by
  rw [State.trialTimeout_eq h, if_pos ht]
  exact State.run_with_boot hd hb

theorem State.trialTimeout_untried (h : s.eng.start.phase.mayTry) (ht : s.eng.start.trying = false) :
    s.trialTimeout = s.after s.eng.clear := by
  rw [State.trialTimeout_eq h, if_neg (by simp [ht])]
  exact State.run_eq_after rfl

theorem State.trialTimeout_ready (h : s.eng.start.phase = .ready) : s.trialTimeout = s.after s.eng.clear := by
  unfold State.trialTimeout
  rw [h]
  exact State.run_eq_after rfl

theorem State.startReady_elsewhere (h : s.eng.start.phase ≠ .s7) : s.startReady = s.after s.eng.clear :=
  (if_pos h).trans (State.run_eq_after rfl)

section
variable (h : s.eng.start.phase = .s7)
include h

theorem State.startReady_untried (ht : s.eng.start.trying = false) :
    s.startReady = s.after (s.eng.clear.startDone s.budget.credits) := by
  refine (if_neg (not_not_intro h)).trans ?_
  rw [if_neg (by simp [ht])]
  exact (State.run_with_boot rfl rfl).trans (s.after_with_boot _)

theorem State.startReady_passes (ht : s.eng.start.trying = true) {c : Boot} (hb : s.boot.passTrial = c) :
    s.startReady = { s.after (s.eng.clear.startDone s.budget.credits) with boot := c } := by
  refine (if_neg (not_not_intro h)).trans ?_
  rw [if_pos ht]
  exact State.run_with_boot rfl hb

end
end

/-! ### The self-test (R476) -/

/-- The engine as S6 ends with the results `r` (R476). -/
def Eng.tested (e : Eng) (r : SelfTest) : Eng := { e.stepEnd 6 .s7 with start := { (e.stepEnd 6 .s7).start with tests := r } }

theorem bitList_zero (n : Nat) : bitList n 0 = [] :=
  List.filter_eq_nil_iff.mpr (fun k _ => by simp [bitAt])

theorem bitList_two_pow {n k : Nat} (h : k < n) : bitList n (2 ^ k) = [k] := by
  have hf := filter_upTo_bit h (q := fun _ => true)
  simpa [bitList] using hf

section
variable {e : Eng} (r : SelfTest)

theorem Eng.selfTested_elsewhere (h : e.start.phase ≠ .s6) : e.selfTested r = e := if_pos h

theorem Eng.testFail_passed (src : Fin 64) (base n master : Nat) : e.testFail false src base n master = e := rfl

variable (h : e.start.phase = .s6) {r} (hpb : r.pbBanks = 0) (htcam : r.tcam = 0) (hmems : r.mems = 0) (hvec : r.vectors = 0)
include h hpb htcam hmems hvec

/-- A self-test in which only retention banks and slots may have failed. -/
theorem Eng.selfTested_eq : e.selfTested r =
    (let d := foldEng (bitList 16 r.slots.toNat) (fun e n => e.testSlot n)
      (foldEng (bitList 28 r.retBanks.toNat) (fun e b => e.fail 4 b mNone) (e.tested r))
     if r.retBanks != 0 then d.startStop else d) := by
  have hbit (i : Nat) : bitAt (0#4).toNat i = false := by simp [bitAt]
  have hstop : testStops r = (r.retBanks != 0) := by simp [testStops, htcam, hmems, hvec]
  refine (if_neg (not_not_intro h)).trans ?_
  simp only [hpb, htcam, hmems, hvec, hstop, BitVec.ofNat_eq_ofNat, BitVec.toNat_zero, bitList_zero, if_true]
  simp only [foldEng, List.foldl_nil, bitAt, Nat.zero_shiftRight, Nat.zero_mod]
  rfl

theorem Eng.selfTested_clean (hret : r.retBanks = 0) (hslots : r.slots = 0) : e.selfTested r = e.tested r := by
  rw [Eng.selfTested_eq h hpb htcam hmems hvec, hret, hslots]
  simp [bitList_zero, foldEng]

theorem Eng.selfTested_slot {n : Fin 16} (hret : r.retBanks = 0) (hslots : r.slots = BitVec.ofNat 16 (2 ^ n.val)) :
    e.selfTested r = (e.tested r).testSlot n.val := by
  have hbit : (BitVec.ofNat 16 (2 ^ n.val)).toNat = 2 ^ n.val := Nat.mod_eq_of_lt (Nat.pow_lt_pow_right (by decide) n.isLt)
  rw [Eng.selfTested_eq h hpb htcam hmems hvec, hret, hslots, hbit, bitList_two_pow n.isLt]
  simp [bitList_zero, foldEng]

theorem Eng.selfTested_bank {b : Fin 28} (hret : r.retBanks = BitVec.ofNat 28 (2 ^ b.val)) (hslots : r.slots = 0) :
    e.selfTested r = ((e.tested r).fail 4 b.val mNone).startStop := by
  have hbit : (BitVec.ofNat 28 (2 ^ b.val)).toNat = 2 ^ b.val := Nat.mod_eq_of_lt (Nat.pow_lt_pow_right (by decide) b.isLt)
  have hne : BitVec.ofNat 28 (2 ^ b.val) ≠ 0 := fun h0 =>
    Nat.ne_of_gt (Nat.two_pow_pos b.val) (hbit.symm.trans (congrArg BitVec.toNat h0))
  rw [Eng.selfTested_eq h hpb htcam hmems hvec, hret, hslots, hbit, bitList_two_pow b.isLt]
  simp only [BitVec.ofNat_eq_ofNat, BitVec.toNat_zero, bitList_zero, foldEng, List.foldl_nil, List.foldl_cons]
  exact if_pos (bne_iff_ne.mpr hne)

end

theorem Eng.testSlot_eq (e : Eng) (n : Fin 16) : e.testSlot n.val =
    (e.setSlot n { e.slot n with failed := true }).raiseEv (mkEv (fin 64 (8 + n.val)) .failure
      ((e.setSlot n { e.slot n with failed := true }).portOf n).val (0x8020 + n.val) 0 0) := by
  simp only [Eng.testSlot, fin_val]
  rfl

/-! ### READY -/

/-- Nothing of a cage waits to be handled, and no module is in it (R78). -/
def CageSt.Quiet (k : CageSt) : Prop := k.seen = none ∧ k.irqSeen = none ∧ k.prs = false

/-- The engine but for its cages. -/
def Eng.noCages (e : Eng) : Eng := { e with cages := {} }

theorem Eng.lateCage_quiet {e : Eng} {c : Cage} (h : (e.cage c).Quiet) : e.lateCage c = e.setCage c (e.cage c) := by
  obtain ⟨hs, hi, hp⟩ := h
  have hcage : ({ e.cage c with seen := none, irqSeen := none } : CageSt) = e.cage c := by
    generalize e.cage c = k at *
    cases k; cases hs; cases hi; rfl
  have hmod : e.modCage c (fun k => { k with seen := none, irqSeen := none }) = e.setCage c (e.cage c) :=
    congrArg (e.setCage c) hcage
  simp only [Eng.lateCage, hs, hi, hp, hmod, Bool.false_eq_true, if_false]

theorem Eng.lateCages_quiet {e : Eng} (h : ∀ c, (e.cage c).Quiet) : e.lateCages.noCages = e.noCages := by
  unfold Eng.lateCages foldEng
  generalize (upTo 16).map (fin 16) = l
  induction l generalizing e with
  | nil => rfl
  | cons c l ih =>
    rw [List.foldl_cons, Eng.lateCage_quiet (h c), ih]
    · rfl
    · intro d
      by_cases hd : d = c
      · subst hd; rw [Eng.cage_setCage]; exact h d
      · rw [Eng.cage_setCage_other _ _ hd]; exact h d

theorem Eng.noCages_fields {e d : Eng} (h : e.noCages = d.noCages) :
    e.start = d.start ∧ e.ctl = d.ctl ∧ e.pwr = d.pwr ∧ e.lcp = d.lcp := by
  cases e; cases d; simp_all [Eng.noCages]

theorem Eng.rcircTopUp_frame (e : Eng) : e.rcircTopUp.start = e.start ∧ e.rcircTopUp.ctl = e.ctl ∧ e.rcircTopUp.pwr = e.pwr ∧
    e.rcircTopUp.lcp = e.lcp ∧ e.rcircTopUp.cages = e.cages := by
  unfold Eng.rcircTopUp
  dsimp only
  split
  · exact ⟨rfl, rfl, rfl, rfl, rfl⟩
  · exact ⟨rfl, rfl, rfl, rfl, rfl⟩

/-- Releasing threads lets those of a list run, and none that runs stops. -/
theorem Eng.thread_foldl_run {l : List ThreadId} {e : Eng} {k : ThreadId} (h : k ∈ l ∨ (e.thread k).state = .running) :
    ((foldEng l (fun e t => e.modThread t (fun x => { x with state := .running })) e).thread k).state = .running := by
  unfold foldEng
  induction l generalizing e with
  | nil => exact h.resolve_left List.not_mem_nil
  | cons t l ih =>
    refine ih ?_
    by_cases hk : k = t
    · subst hk
      right
      unfold Eng.modThread
      rw [Eng.thread_setThread]
    · unfold Eng.modThread
      rw [Eng.thread_setThread_other _ _ hk]
      exact h.imp_left (fun h => (List.mem_cons.mp h).resolve_left hk)

theorem mem_allThreads (k : ThreadId) : k ∈ allThreads := by revert k; decide

theorem Eng.releaseThreads_releases {e : Eng} {k : ThreadId} (hk : k ≠ 0) (h : (e.thread k).state = .reset) :
    (e.releaseThreads.thread k).state = .running :=
  Eng.thread_foldl_run (.inl (List.mem_filter.mpr ⟨mem_allThreads k, by simp [hk, h]⟩))

theorem Eng.releaseThreads_frame (e : Eng) : e.releaseThreads.start = e.start ∧ e.releaseThreads.pwr = e.pwr ∧
    e.releaseThreads.cages = e.cages := by
  unfold Eng.releaseThreads
  refine ⟨foldEng_keep Eng.start _ _ ?_ e, foldEng_keep Eng.pwr _ _ ?_ e, foldEng_keep Eng.cages _ _ ?_ e⟩
  all_goals exact fun _ _ => rfl

section
variable {e : Eng}

/-- The engine at S8, before what waits for it is done: READY, with its threads released (R377, R473). -/
def Eng.atReady (e : Eng) : Eng :=
  let e := ((e.stepEnd 7 .s7).stepEnd 8 .ready).releaseThreads
  { e with
    ctl := { e.ctl with ready := true }
    lcp := { e.lcp with readyAt := e.now }
    start := { e.start with trial := if e.start.trying then 1 else e.start.trial, trying := false } }

theorem Eng.atReady_start : e.atReady.start.phase = .ready ∧ e.atReady.start.trying = false ∧
    e.atReady.start.trial = (if e.start.trying = true then 1 else e.start.trial) := by
  obtain ⟨hstart, -, -⟩ := ((e.stepEnd 7 .s7).stepEnd 8 .ready).releaseThreads_frame
  unfold Eng.atReady
  dsimp only
  rw [hstart]
  exact ⟨rfl, rfl, rfl⟩

theorem Eng.atReady_frame : e.atReady.pwr = e.pwr ∧ e.atReady.cages = e.cages := by
  obtain ⟨-, hpwr, hcages⟩ := ((e.stepEnd 7 .s7).stepEnd 8 .ready).releaseThreads_frame
  exact ⟨hpwr, hcages⟩

theorem Eng.atReady_threads {k : ThreadId} (hk : k ≠ 0) (h : (e.thread k).state = .reset) :
    (e.atReady.thread k).state = .running := Eng.releaseThreads_releases (e := (e.stepEnd 7 .s7).stepEnd 8 .ready) hk h

theorem Eng.pwr_modPwr (e : Eng) (g : PwrSt → PwrSt) : (e.modPwr g).pwr = g e.pwr := rfl

/-- A power state as RUN has it, with no request waiting. -/
def PwrSt.inRun (x : PwrSt) : PwrSt := { x with state := .run, step := .none, waiters := [] }

theorem Eng.startDone_eq (credits : Nat) : e.startDone credits =
    ((e.atReady.rcircTopUp.lateCages.modPwr PwrSt.inRun).pwrAnswerAll e.atReady.pwr.waiters stOK 0).pwrNext credits := by
  unfold Eng.startDone Eng.atReady
  rfl

section
variable (hw : e.pwr.waiters = []) (hp : e.pwr.pend = none) (hc : ∀ c, (e.cage c).Quiet)
include hc

/-- What waits at S8 where the cages are quiet: nothing but the first credits of SP_RCIRC (R473). -/
theorem Eng.atReady_work : e.atReady.rcircTopUp.lateCages.start = e.atReady.start ∧
    e.atReady.rcircTopUp.lateCages.ctl = e.atReady.ctl ∧ e.atReady.rcircTopUp.lateCages.pwr = e.pwr ∧
    e.atReady.rcircTopUp.lateCages.lcp = e.atReady.lcp := by
  obtain ⟨hpwr, hcages⟩ := e.atReady_frame
  obtain ⟨hts, htc, htp, htl, htcages⟩ := e.atReady.rcircTopUp_frame
  have hquiet : ∀ c, (e.atReady.rcircTopUp.cage c).Quiet := fun c => by
    unfold Eng.cage
    rw [htcages, hcages]
    exact hc c
  obtain ⟨hls, hlc, hlp, hll⟩ := Eng.noCages_fields (Eng.lateCages_quiet hquiet)
  exact ⟨hls.trans hts, hlc.trans htc, hlp.trans (htp.trans hpwr), hll.trans htl⟩

include hw hp

/-- Where no power request waits and the cages are quiet, READY is reached and the engine in RUN. -/
theorem Eng.startDone_quiet (credits : Nat) :
    (e.startDone credits).start = e.atReady.start ∧ (e.startDone credits).ctl = e.atReady.ctl ∧
    (e.startDone credits).pwr = e.pwr.inRun ∧ (e.startDone credits).lcp = e.atReady.lcp := by
  obtain ⟨hs, hctl, hpwr, hl⟩ := Eng.atReady_work hc
  have hwait : e.atReady.pwr.waiters = [] := by rw [e.atReady_frame.1, hw]
  have hdone : e.startDone credits = e.atReady.rcircTopUp.lateCages.modPwr PwrSt.inRun := by
    rw [Eng.startDone_eq, hwait]
    generalize e.atReady.rcircTopUp.lateCages = x at *
    have hnone : x.pwr.inRun.pend = none := by rw [hpwr]; exact hp
    unfold Eng.pwrAnswerAll foldEng Eng.pwrNext
    simp only [List.foldl_nil, Eng.pwr_modPwr, hnone]
  rw [hdone]
  generalize e.atReady.rcircTopUp.lateCages = x at *
  simp only [Eng.modPwr_frame, Eng.pwr_modPwr, hs, hctl, hpwr, hl, and_self]

end
end

/-! ### The commands -/

theorem exec_memoryInitDone (s : State) : exec .memoryInitDone s = .next s.memoryInit := rfl
theorem exec_imageLoadDone (i : ImageInfo) (s : State) : exec (.imageLoadDone i) s = .next (s.imageLoaded i) := rfl
theorem exec_trialTimeout (s : State) : exec .trialTimeout s = .next s.trialTimeout := rfl
theorem exec_startReady (s : State) : exec .startReady s = .next s.startReady := rfl

/-- Settles O43: what is booted by the slots' states, an image by its verdict, and what READY finds by what has waited for it. -/
theorem imagesAndStartUp : Obligations.ImagesAndStartUp := by
  unfold Obligations.ImagesAndStartUp
  refine ⟨fun s => ?_, fun s => ?_⟩
  · intro e at_ loaded noImage retry
    simp only [exec_memoryInitDone, exec_imageLoadDone, exec_trialTimeout, Host.Outcome.next.injEq]
    refine ⟨State.memoryInit_elsewhere, fun h => ⟨fun ha => ?_, fun ha hb => ?_, fun ha hb => ?_, fun ha ha' hb => ?_,
      fun ha ha' hb hb' => ?_⟩, fun i => ⟨State.imageLoaded_elsewhere, fun h hr => ⟨fun hg => ?_, fun hg ht => ?_, fun hg ht => ?_⟩,
        fun h hr hg => ?_⟩, fun h => ⟨fun ht hr => ?_, fun ht => ?_⟩, State.trialTimeout_ready⟩
    · exact State.memoryInit_picks h (Boot.pick_a_pending ha) rfl
    · exact State.memoryInit_picks h (Boot.pick_b_pending ha hb) rfl
    · exact State.memoryInit_picks h (Boot.pick_a_active ha hb) rfl
    · exact State.memoryInit_picks h (Boot.pick_b_active ha ha' hb) rfl
    · exact State.memoryInit_stops h (Boot.pick_none ha ha' hb hb') rfl
    · exact State.imageLoaded_accepts h (imageOk_iff.mpr hg) (Boot.map2_a hr _) rfl
    · refine State.imageLoaded_fails_trial h (mt imageOk_iff.mp hg) ht ?_ rfl
      rw [Boot.readImage, Boot.map2_a hr]
      exact Boot.failTrial_a hr
    · exact State.imageLoaded_fails h (mt imageOk_iff.mp hg) ht (Boot.map2_a hr _) rfl
    · exact State.imageLoaded_accepts h (imageOk_iff.mpr hg) (Boot.map2_b hr _) rfl
    · exact State.trialTimeout_fails h ht (Boot.failTrial_b hr) rfl
    · exact State.trialTimeout_untried h ht
  · intro e d none_ with_
    simp only [exec_startReady, Host.Outcome.next.injEq]
    refine ⟨fun r h => ?_, fun h => ⟨?_, fun n => ?_, fun b => ?_⟩, State.startReady_elsewhere, State.startReady_untried,
      fun h ht hr => State.startReady_passes h ht (Boot.passTrial_b hr), fun h hw hp hc => ?_⟩
    · exact State.does_eq_after (Eng.selfTested_elsewhere (e := s.eng.clear) r h)
    · exact State.does_eq_after (Eng.selfTested_clean (e := s.eng.clear) h rfl rfl rfl rfl rfl rfl)
    · exact State.does_eq_after ((Eng.selfTested_slot (e := s.eng.clear) h rfl rfl rfl rfl rfl rfl).trans (Eng.testSlot_eq _ n))
    · exact State.does_eq_after (Eng.selfTested_bank (e := s.eng.clear) h rfl rfl rfl rfl rfl rfl)
    · obtain ⟨hs, hctl, hpwr, hl⟩ := Eng.startDone_quiet (e := e) hw hp hc s.budget.credits
      obtain ⟨hphase, htrying, htrial⟩ := e.atReady_start
      have hthread (k : ThreadId) : (e.startDone s.budget.credits).thread k = e.atReady.thread k := by unfold Eng.thread; rw [hl]
      refine ⟨(congrArg StartSt.phase hs).trans hphase, (congrArg CtlSt.ready hctl).trans rfl, congrArg PwrSt.state hpwr,
        congrArg PwrSt.step hpwr, (congrArg StartSt.trying hs).trans htrying, (congrArg StartSt.trial hs).trans htrial, fun k hk hr => ?_⟩
      rw [hthread]
      exact Eng.atReady_threads hk hr

end Sys2Proof.Machine
end


section
/-! PROOF. The command set, and the admission of a request outside it (R46, R54, R509). -/
namespace Sys2Proof.Machine

/-! ### The opcodes -/

/-- Commands of each group, the opcodes of group `g` being `256 * g + 1` on (R509). -/
def groupSizes : List Nat := [7, 16, 14, 14, 5, 4, 2, 1, 7, 4, 7, 4]

/-- The opcodes of the command reference (R509). -/
def commandSet : List Nat := groupSizes.zipIdx.flatMap (fun x => (upTo x.1).map (fun i => 256 * x.2 + 1 + i))

theorem groupSizes_le {n : Nat} (h : n ∈ groupSizes) : n ≤ 16 := by revert n; decide

theorem mem_commandSet {op : Nat} :
    op ∈ commandSet ↔ ∃ n, groupSizes[op / 256]? = some n ∧ 1 ≤ op % 256 ∧ op % 256 ≤ n := by
  simp only [commandSet, List.mem_flatMap, List.mem_map, upTo, List.mem_range, Prod.exists, List.mem_zipIdx_iff_getElem?]
  constructor
  · rintro ⟨n, g, hg, i, hi, rfl⟩
    have hn : n ≤ 16 := groupSizes_le (List.mem_of_getElem? hg)
    have hdiv : (256 * g + 1 + i) / 256 = g := by omega
    exact ⟨n, by rw [hdiv]; exact hg, by omega, by omega⟩
  · rintro ⟨n, hg, h1, hn⟩
    exact ⟨n, op / 256, hg, op % 256 - 1, by omega, by omega⟩

/-- A choice by four lists gives something for the members of any of them. -/
theorem isSome_choice (a b c d : List Nat) (op : Nat) :
    (if a.contains op then some 0 else if b.contains op then some 1 else if c.contains op then some 2
      else if d.contains op then some 3 else none : Option Nat).isSome = true ↔ op ∈ a ++ b ++ c ++ d := by
  simp only [List.mem_append, List.contains_iff_mem]
  split_ifs <;> simp_all

theorem opClass_isSome (op : Nat) : (opClass op).isSome = true ↔ op ∈ commandSet :=
  (isSome_choice _ _ _ _ op).trans (List.Perm.mem_iff (by decide))

/-! ### MBX_GO -/

section
variable {f : Fn} {o : Nat} (h8 : o % 8 = 0) (ho : o < 2 ^ 22)

include h8 in
theorem csrOk_fnAcc (v : Nat) : csrOk (fnAcc f o v) = true := csrOk_f0Write h8 v

include h8 ho in
theorem csrReg_fnAcc (v : Nat) : csrReg (fnAcc f o v) = o := csrReg_f0Write h8 v ho

end

theorem csrVal_fnAcc (f : Fn) (o v : Nat) : csrVal (fnAcc f o v) = BitVec.ofNat 64 v := csrVal_f0Write o v

/-- No journal carries a GO (R434, R442). -/
theorem Eng.regChanges_go (e : Eng) (f : Fn) : e.regChanges (fnAcc f 0x11200 1) = [] := by
  have hreg : csrReg (fnAcc f 0x11200 1) = 0x11200 := csrReg_fnAcc (by decide) (by decide) 1
  have hwin : (fnAcc f 0x11200 1).win = false := rfl
  simp [Eng.regChanges, mirroredReg, hreg, hwin]

theorem Eng.regWrite_go {e : Eng} {f : Fn} (he : (e.fn f).enabled = true) (b : Budget) :
    e.regWrite b (fnAcc f 0x11200 1) = e.mbxGo f := by
  have hreg : csrReg (fnAcc f 0x11200 1) = 0x11200 := csrReg_fnAcc (by decide) (by decide) 1
  have hwrite : e.regWrite b (fnAcc f 0x11200 1) = e.fnWrite f 0x11200 1 0xFFFFFFFFFFFFFFFF true := by
    unfold Eng.regWrite
    rw [hreg, csrVal_fnAcc]
    exact (if_neg Bool.false_ne_true).trans (if_neg (by rw [show (fnAcc f 0x11200 1).fn = f from rfl, he]; decide))
  rw [hwrite]
  rfl

/-- MBX_GO in RUN on a member that is no standby. -/
theorem State.mbxGo_open {s : State} {f : Fn} (h : s.eng.Open f) (he : (s.eng.fn f).enabled = true)
    (hs : s.eng.standby = false) : exec (.mbxGo f) s = .next (s.after ((s.eng.touch f).mbxGo f)) := by
  have hen : ((s.eng.touch f).fn f).enabled = true := by simpa using he
  have halone : (s.eng.touch f).standby = false := by simpa using hs
  have hacc : exec (.mbxGo f) s = s.access true (fnAcc f 0x11200 1) := rfl
  have hrun : (s.eng.touch f).csrRun s.boot.runB s.budget true (fnAcc f 0x11200 1) = (s.eng.touch f).mbxGo f := by
    rw [Eng.csrRun_write _ _ (csrOk_fnAcc (by decide) 1) (by simp [fnAcc]), Eng.pairWrite_own _ _ halone (Eng.regChanges_go _ f),
      Eng.regWrite_go hen]
  rw [hacc, State.access_open (a := fnAcc f 0x11200 1) h, ← hrun]
  rfl

/-- A GO of a function without a command in flight finds a place. -/
theorem Eng.mbxGo_admits {e : Eng} {f : Fn} (hr : e.ctl.ready = true) (hc : (e.fn f).cmd = none)
    (hp : f = 0 ∨ e.sharedPlaces < 63) :
    e.mbxGo f = ((e.mbxAdmit f).tal { code := 0x701, fn := some f }).takeUp f := by
  refine (if_neg (by simp [hr, hc])).trans (if_neg ?_)
  rintro ⟨hf, hn⟩
  exact hp.elim hf (fun h => absurd hn (by omega))

/-- The command that an admitted request becomes. -/
def Eng.admitted (e : Eng) (f : Fn) : Cmd :=
  let c := reqCmd (e.fn f).req.toNat e.now
  { c with thread := some (fin 8 e.fresh.1), prods := if c.opcode = 0x0206 then e.prodsOf f else [] }

theorem Eng.fn_of_fns {e d : Eng} {f : Fn} {x : FnState} (h : d.fns = (e.setFn f x).fns) : d.fn f = x := by
  rw [Eng.fn, h]
  exact e.fn_setFn f x

theorem Eng.mbxAdmit_cmd (e : Eng) (f : Fn) : ((e.mbxAdmit f).fn f).cmd = some (e.admitted f) :=
  (congrArg FnState.cmd (Eng.fn_of_fns (e := e) rfl)).trans rfl

theorem Eng.admitted_opcode (e : Eng) (f : Fn) : (e.admitted f).opcode = (e.fn f).req.toNat % 65536 := by
  have hfld : (e.admitted f).opcode = fld (e.fn f).req.toNat 0 16 := rfl
  rw [hfld, fld, Nat.shiftRight_zero, show 2 ^ 16 = 65536 from rfl]

theorem Eng.mbxAdmit_pair (e : Eng) (f : Fn) : (e.mbxAdmit f).pair = e.pair := rfl

/-- A request outside the command set fails the first check. -/
theorem Eng.takeUp_unsupported {e : Eng} {f : Fn} {c : Cmd} (hc : (e.fn f).cmd = some c) (hs : e.standby = false)
    (hop : opClass c.opcode = none) : e.takeUp f = e.answer f stUnsupported 0 := by
  unfold Eng.takeUp
  rw [hc]
  exact (if_neg (by simp [hs])).trans (if_pos (by simp [hop]))

/-- Settles O6: the four classes together list the command set, and the first check of an admitted request is whether its
opcode is in it. -/
theorem unknownOpcodesAreUnsupported : Obligations.UnknownOpcodesAreUnsupported := by
  unfold Obligations.UnknownOpcodesAreUnsupported
  refine ⟨fun op => (opClass_isSome op).trans mem_commandSet, fun s f h he hs hr hc hp hop => ?_⟩
  rw [State.mbxGo_open h he hs, Eng.mbxGo_admits (by simpa using hr) (by simpa using hc) (by simpa [Eng.sharedPlaces] using hp),
    Eng.takeUp_unsupported (c := (s.eng.touch f).admitted f) ?_ ?_ (by rw [Eng.admitted_opcode]; simpa using hop)]
  · rfl
  · simpa using (s.eng.touch f).mbxAdmit_cmd f
  · simpa [Eng.standby, Eng.mbxAdmit_pair] using hs

end Sys2Proof.Machine
end


section
/-! PROOF. What a SET block that passes holds (R513, R515, R516). -/
namespace Sys2Proof.Machine

/-! ### The fields of a block -/

theorem maskSlots_append (mask : Nat) (l m : List Fld) (i : Nat) :
    maskSlots mask (l ++ m) i = maskSlots mask l i + maskSlots mask m (i + l.length) := by
  induction l generalizing i with
  | nil => simp [maskSlots]
  | cons s t ih =>
    have hlen : i + (s :: t).length = i + 1 + t.length := by simp only [List.length_cons]; omega
    rw [List.cons_append, maskSlots, ih, maskSlots, hlen]
    omega

theorem upTo_succ (n : Nat) : upTo (n + 1) = upTo n ++ [n] := List.range_succ

/-- The fields of `specs` that a MASK names. -/
def namedFlds (mask : Nat) (specs : List Fld) : List Nat := (upTo specs.length).filter (fun i => bitAt mask i)

theorem namedFlds_append_one (mask : Nat) (l : List Fld) (s : Fld) :
    namedFlds mask (l ++ [s]) = namedFlds mask l ++ (if bitAt mask l.length then [l.length] else []) := by
  rw [namedFlds, List.length_append, List.length_singleton, upTo_succ, List.filter_append, List.filter_singleton,
    cond_eq_ite, namedFlds]

/-- The test of a field's values one by one. -/
theorem vals_all {n : Nat} {g : Nat → Nat} {p : Nat → Nat → Bool} :
    (((upTo n).map g).zip (upTo n)).all (fun (v, j) => p j v) = true ↔ ∀ j, j < n → p j (g j) = true := by
  have hzip : ((upTo n).map g).zip ((upTo n).map id) = _ := List.zip_map'
  rw [List.map_id] at hzip
  rw [hzip, List.all_map]
  simp [upTo]

section
variable (c : Cmd) (mask : Nat) (specs : List Fld)

/-- The field stands in its place, its values in range. -/
def SetFld.Stands (x : SetFld) : Prop :=
  ∃ sp, specs[x.idx]? = some sp ∧
    (let k := maskSlots mask (specs.take x.idx) 0
     x.off = detOff (48 + 8 * k) ∧ x.vals = (upTo sp.slots).map (fun j => c.at_ (16 + 8 * (k + j)) 64) ∧
     ∀ j, j < sp.slots → sp.ok j (c.at_ (16 + 8 * (k + j)) 64) = true)

end

section
variable {c : Cmd} {mask : Nat} {specs : List Fld}

/-- The field after those of `l` stands where they end. -/
theorem SetFld.stands_next {l t : List Fld} {s : Fld} (h : specs = l ++ s :: t) {a : Nat}
    (ha : a = 16 + 8 * maskSlots mask l 0) (hok : ∀ j, j < s.slots → s.ok j (c.at_ (a + 8 * j) 64) = true) :
    SetFld.Stands c mask specs
      { idx := l.length, off := detOff (32 + a), vals := (upTo s.slots).map (fun j => c.at_ (a + 8 * j) 64) } := by
  have hat (j : Nat) : a + 8 * j = 16 + 8 * (maskSlots mask l 0 + j) := by omega
  have htake : specs.take l.length = l := by rw [h]; exact List.take_left' rfl
  refine ⟨s, by simp [h], ?_⟩
  simp only [htake, hat] at hok ⊢
  exact ⟨congrArg detOff (by omega), trivial, hok⟩

/-- Fields read from where those of `l` end: those read before and those that MASK names of the rest. -/
theorem parseFlds_good {l t : List Fld} (h : specs = l ++ t) {i a : Nat} (hi : i = l.length) (ha : a = 16 + 8 * maskSlots mask l 0)
    {acc fs : List SetFld} {z : Nat} (hp : parseFlds c mask t i a acc = .good (fs, z))
    (hidx : acc.reverse.map (·.idx) = namedFlds mask l) (hacc : ∀ x, x ∈ acc → x.Stands c mask specs) :
    fs.map (·.idx) = namedFlds mask specs ∧ z = 16 + 8 * maskSlots mask specs 0 ∧ ∀ x, x ∈ fs → x.Stands c mask specs := by
  induction t generalizing l i a acc with
  | nil =>
    rw [List.append_nil] at h
    subst h
    cases hp
    exact ⟨hidx, ha, fun x hx => hacc x (List.mem_reverse.mp hx)⟩
  | cons s t ih =>
    have hsplit : specs = (l ++ [s]) ++ t := by rw [h, List.append_assoc]; rfl
    have hlen : i + 1 = (l ++ [s]).length := by rw [hi, List.length_append, List.length_singleton]
    have hslots := maskSlots_append mask l [s] 0
    have hnamed := namedFlds_append_one mask l s
    simp only [maskSlots, Nat.zero_add, Nat.add_zero, ← hi] at hslots hnamed
    unfold parseFlds at hp
    split at hp
    next hb =>
      rw [if_neg (by simpa using hb)] at hslots hnamed
      exact ih hsplit hlen (by rw [hslots]; exact ha) hp (by rw [hnamed, List.append_nil]; exact hidx) hacc
    next hb =>
      rw [if_pos (by simpa using hb)] at hslots hnamed
      split at hp
      · cases hp
      dsimp only at hp
      split at hp
      next hok =>
        refine ih hsplit hlen (by rw [hslots]; omega) hp (by simp [hnamed, hidx]) fun x hx => ?_
        rcases List.mem_cons.mp hx with rfl | hx
        · subst hi
          exact SetFld.stands_next h ha (vals_all.mp hok)
        · exact hacc x hx
      · cases hp

/-! ### The block -/

variable {obj : Nat → Bool} {b : SetBlk}

theorem parseBlock_good {a : Nat} (h : parseBlock c specs obj a = .good b) :
    obj (c.at_ a 32) = true ∧ c.at_ (a + 4) 32 = 0 ∧ c.at_ (a + 8) 64 < 2 ^ specs.length ∧ b.object = c.at_ a 32 ∧
    ∃ z, parseFlds c (c.at_ (a + 8) 64) specs 0 (a + 16) [] = .good (b.flds, z) := by
  unfold parseBlock at h
  split at h
  · cases h
  split at h
  · cases h
  next hobj =>
    split at h
    · cases h
    next hhalf =>
      dsimp only at h
      split at h
      · cases h
      next hmask =>
        split at h
        · cases h
        next hflds =>
          cases h
          exact ⟨by simpa using hobj, not_not.mp hhalf, Nat.lt_of_not_le hmask, rfl, _, hflds⟩

theorem parseSeq_one {f : Nat → List Fld} {a : Nat} (h : parseSeq c f obj 1 a = .good [b]) :
    parseBlock c (f (c.at_ a 32)) obj a = .good b := by
  unfold parseSeq at h
  split at h
  · cases h
  split at h
  · cases h
  next hblk =>
    cases h
    exact hblk

/-- A request of one SET block is that block, and ends with it. -/
theorem Cmd.set_good {f : Nat → List Fld} (h : c.set f obj = .good b) :
    spansOk c f 1 0 = true ∧ parseBlock c (f (c.at_ 0 32)) obj 0 = .good b := by
  unfold Cmd.set parseBlocks at h
  split at h
  · cases h
  next hl =>
    cases h
    split at hl
    next hspan => exact ⟨hspan, parseSeq_one hl⟩
    · cases hl
  · cases h

/-- A single block whose MASK names no field beyond the last fills the request. -/
theorem spansOk_one {f : Nat → List Fld} (h : spansOk c f 1 0 = true) (hm : c.at_ 8 64 < 2 ^ (f (c.at_ 0 32)).length) :
    c.reqLen = 16 + 8 * maskSlots (c.at_ 8 64) (f (c.at_ 0 32)) 0 := by
  have hlen : blockLen c (f (c.at_ 0 32)) 0 = some (16 + 8 * maskSlots (c.at_ 8 64) (f (c.at_ 0 32)) 0) :=
    if_neg (Nat.not_le.mpr hm)
  unfold spansOk at h
  rw [if_neg (by omega)] at h
  split at h
  · cases h
  · rw [hlen] at h
    simp only [spansOk, Nat.zero_add, Bool.and_eq_true, beq_iff_eq] at h
    exact h.2.symm

end

/-- Settles O8, by induction on the fields still to be read, over those read before. -/
theorem setBlocksParse : Obligations.SetBlocksParse := by
  unfold Obligations.SetBlocksParse
  intro c specs obj b h mask
  obtain ⟨hspan, hblk⟩ := Cmd.set_good h
  obtain ⟨hobj, hhalf, hmask, hobject, z, hflds⟩ := parseBlock_good hblk
  obtain ⟨hidx, -, hstand⟩ := parseFlds_good (l := []) rfl rfl rfl hflds rfl nofun
  exact ⟨hobject, by rw [hobject]; exact hobj, hhalf, hmask, spansOk_one hspan hmask, hidx, hstand⟩

end Sys2Proof.Machine
end


section
/-! PROOF. The first-error capture: its release, and what it takes of an edge (R398, R399). -/
namespace Sys2Proof.Machine

/-- An event that the capture takes before another of its edge, or that other: of higher severity, or of a source no higher
(R398). -/
def Graded.Leads (g h : Graded) : Prop := h.sev < g.sev ∨ h.sev = g.sev ∧ g.ev.src ≤ h.ev.src

theorem Graded.Leads.refl (g : Graded) : g.Leads g := .inr ⟨rfl, le_refl _⟩

theorem Graded.Leads.trans {a b c : Graded} (h : a.Leads b) (k : b.Leads c) : a.Leads c := by
  unfold Graded.Leads at *
  omega

theorem Graded.leads_of_outranks {a b : Graded} (h : a.outranks b = true) : a.Leads b := by
  simp only [Graded.outranks, Bool.or_eq_true, Bool.and_eq_true, decide_eq_true_eq, beq_iff_eq] at h
  unfold Graded.Leads
  omega

theorem Graded.leads_of_not_outranks {a b : Graded} (h : ¬ a.outranks b = true) : b.Leads a := by
  simp only [Graded.outranks, Bool.or_eq_true, Bool.and_eq_true, decide_eq_true_eq, beq_iff_eq] at h
  unfold Graded.Leads
  omega

/-- Of the events of an edge the strongest is one that leads them all. -/
theorem strongest_leads {gs : List Graded} (h : gs ≠ []) : ∃ g, strongest gs = some g ∧ g ∈ gs ∧ ∀ k, k ∈ gs → g.Leads k := by
  induction gs with
  | nil => exact absurd rfl h
  | cons a t ih =>
    unfold strongest
    by_cases ht : t = []
    · subst ht
      exact ⟨a, rfl, List.mem_singleton_self a, fun k hk => List.mem_singleton.mp hk ▸ .refl a⟩
    · obtain ⟨b, hb, hmem, hlead⟩ := ih ht
      rw [hb]
      by_cases hab : b.outranks a = true
      · exact ⟨b, congrArg some (if_pos hab), List.mem_cons_of_mem a hmem,
          List.forall_mem_cons.mpr ⟨Graded.leads_of_outranks hab, hlead⟩⟩
      · exact ⟨a, congrArg some (if_neg hab), List.mem_cons_self,
          List.forall_mem_cons.mpr ⟨.refl a, fun k hk => (Graded.leads_of_not_outranks hab).trans (hlead k hk)⟩⟩

/-- A capture that is held stays (R399). -/
theorem FltSt.take_held {x : FltSt} (h : x.first.valid = true) (gs : List Graded) :
    x.take gs = { x with multi := x.multi || !gs.isEmpty } := if_pos h

/-- A free capture takes the strongest event (R398). -/
theorem FltSt.take_free {x : FltSt} (h : x.first.valid = false) {gs : List Graded} {g : Graded} (hg : strongest gs = some g) :
    x.take gs = { x with first := g.capture, multi := x.multi || decide (1 < gs.length) } := by
  unfold FltSt.take
  rw [h, hg]
  rfl

/-- Settles O9: the release by its write, the next event by what O36 says of an event graded alone, and an edge by the order
in which its events lead. -/
theorem firstErrorCapture : Obligations.FirstErrorCapture := by
  unfold Obligations.FirstErrorCapture
  obtain ⟨-, -, hgraded, -⟩ := faultEventsAreGraded
  refine ⟨fun s h hs => State.firstErrorRelease_open h hs,
    fun s v hcalm hcol hsrc hsh hcls hwin hf hw hirq hreact hfree => ?_, fun x gs => ⟨fun h => ?_, fun h hgs => ?_⟩⟩
  · refine ⟨_, hgraded s v hcalm hcol hsrc hcls hsh hwin hf hw hirq (hreact _), ?_⟩
    simp [hfree]
  · rw [FltSt.take_held h]
    exact ⟨rfl, rfl⟩
  · obtain ⟨g, hg, hmem, hlead⟩ := strongest_leads hgs
    rw [FltSt.take_free h hg]
    exact ⟨rfl, g, hmem, rfl, hlead⟩

end Sys2Proof.Machine
end


section
/-! PROOF. POWER_SET, POWER_STATUS_GET and FAULT_INFO_GET (R414 to R416, R433, R532). -/
namespace Sys2Proof.Machine

/-! ### A request to leave RUN -/

section
variable {e : Eng} {t : PwrState} {n : Nat}

/-- A member of a pair leaves RUN only as a standby, and not for OFF (R415). -/
theorem Eng.entryRefused_member (hm : e.pair.state ≠ .unpaired)
    (h : t = .off ∨ e.pair.state ≠ .standby ∧ e.pair.state ≠ .standbyStale) : e.entryRefused t n = some stNotPermitted := by
  refine if_pos (Bool.and_eq_true_iff.mpr ⟨decide_eq_true hm, ?_⟩)
  rcases h with h | ⟨hs, ht⟩
  · simp [h]
  · simp [hs, ht]

section
variable (hm : e.pair.state = .unpaired)
include hm

/-- Of a member of no pair nothing but its own work refuses an entry. -/
theorem Eng.entryRefused_alone : e.entryRefused t n =
    if (e.anyPaused && decide (t ≠ .off)) || e.carryBusy then some stBusy else if n = 0 then some stBudget else none :=
  if_neg (by simp [hm])

theorem Eng.entryRefused_busy (h : e.anyPaused = true ∧ t ≠ .off ∨ e.carryBusy = true) : e.entryRefused t n = some stBusy :=
  (Eng.entryRefused_alone hm).trans (if_pos (by simpa using h))

theorem Eng.entryRefused_idle (hp : e.anyPaused = false ∨ t = .off) (hc : e.carryBusy = false) :
    e.entryRefused t n = if n = 0 then some stBudget else none :=
  (Eng.entryRefused_alone hm).trans (if_neg (by rcases hp with hp | hp <;> simp [hp, hc]))

end

variable {s : PwrSrc}

/-- The present state is asked for (R416). -/
theorem Eng.pwrAsk_present (hstep : e.pwr.step = .none) (h : e.pwr.state = t) : e.pwrAsk t s n = e.pwrAnswer s 0x00 0 :=
  if_pos (by simp [hstep, h])

section
variable (hrun : e.pwr.state = .run) (ht : t ≠ .run)
include hrun ht

theorem Eng.pwrAsk_refused {st : Nat} (h : e.entryRefused t n = some st) : e.pwrAsk t s n = e.pwrAnswer s st 0 := by
  unfold Eng.pwrAsk
  simp [hrun, ht.symm, ht, h]

theorem Eng.pwrAsk_enters (hstep : e.pwr.step = .none) (h : e.entryRefused t n = none) : e.pwrAsk t s n = e.startEntry t s := by
  unfold Eng.pwrAsk
  simp [hstep, hrun, ht.symm, ht, h]

end

end

/-- Without a WAKE_AT an entry begins at E1 (R416, R417). -/
theorem Eng.startEntry_eq {e : Eng} (h : e.pwr.wakeAt = 0) (t : PwrState) (s : PwrSrc) : e.startEntry t s =
    { e with pwr := { e.pwr with step := .e1, target := t, waiters := [s], abort := none, runWaiters := [], begun := false } } :=
  if_neg (fun hw => hw.1 h)

/-! ### The commands -/

section
variable {e : Eng} {f : Fn} {c : Cmd}

theorem Eng.powerSet_asks (h : e.Asks f 0x0601 1 c) (hf : f = 0) (hv : c.slot 0 < 4) (credits : Nat) : e.powerSet credits f =
    ((e.working f).pwrAsk (.ofCode (c.slot 0)) .powerSet credits).journalCmd f c :=
  Eng.mbxArgs_eq h (by simp [firstBad, hv]) (by simp [f0Only, hf]) rfl

section
variable (h : e.Asks f 0x0602 1 c) (hv : c.slot 0 < 2) (b : Budget)
include h hv

theorem Eng.powerStatusGet_denied (hf : f ≠ 0) (h1 : c.slot 0 = 1) :
    e.powerStatusGet b f = (e.answer f 0x05 0).journalCmd f c :=
  Eng.mbxArgs_denied h (by simp [firstBad, flagOk, hv]) (by simp [hf, h1]) _

/-- What POWER_STATUS_GET answers to any issuer. -/
def Eng.powerRegs (e : Eng) (b : Budget) : List Nat := [e.pwr.statusReg, b.reg e.now, e.pwr.last.reg, e.pwr.last.time]

/-- Function `f`'s lost objects have been read. -/
def Eng.lostRead (e : Eng) (f : Fn) : Eng := e.modFn f (fun y => { y with lost := [0, 0, 0, 0, 0, 0, 0, 0] })

theorem Eng.powerStatusGet_own (hf : f ≠ 0) (h0 : c.slot 0 = 0) : e.powerStatusGet b f =
    ((e.lostRead f).respond f 0x00 0 (slotBytes (e.powerRegs b ++ (e.fn f).lost))).journalCmd f c := by
  refine Eng.mbxArgs_eq h (by simp [firstBad, flagOk, hv]) (by simp [hf, h0]) ?_
  simp only [hf, if_false, false_and, List.append_nil]
  rfl

theorem Eng.powerStatusGet_all (hf : f = 0) : e.powerStatusGet b f =
    ((if c.slot 0 = 1 then (e.lostRead f).modPwr (fun x => { x with cnt := [0, 0, 0, 0, 0, 0] }) else e.lostRead f).respond f 0x00 0
      (slotBytes (e.powerRegs b ++ (e.fn f).lost ++ e.pwr.retReg :: e.pwr.cnt))).journalCmd f c := by
  refine Eng.mbxArgs_eq h (by simp [firstBad, flagOk, hv]) (by simp [hf]) ?_
  simp only [hf, if_true, true_and]
  rfl

end

theorem Eng.faultInfoGet_asks (h : e.Asks f 0x0701 0 c) (hf : f = 0) : e.faultInfoGet f =
    (e.respond f 0x00 0 (slotBytes ([e.flt.status.toNat, b2n e.flt.multi, e.flt.lasting.toNat, e.flt.pbRetired.toNat,
      e.flt.shadowReg, e.flt.conseqStatus.toNat] ++ e.flt.first.regs))).journalCmd f c :=
  Eng.mbxArgs_eq h rfl (by simp [f0Only, hf]) rfl

end

/-- A POWER_SET of a value that is a state's. -/
theorem State.powerSet_asks {s : State} {f : Fn} {c : Cmd} (h : s.eng.clear.Asks f 0x0601 1 c) (hf : f = 0) (hv : c.slot 0 < 4)
    {d : Eng} (hd : (s.eng.clear.working f).pwrAsk (.ofCode (c.slot 0)) .powerSet s.budget.credits = d) :
    exec (.powerSet f) s = .next (s.done f c d) := by
  refine State.does_eq_after ?_
  rw [Eng.powerSet_asks h hf hv, hd]

/-- Settles O57: a request to leave RUN by what refuses it first, and the registers answered by the issuer. -/
theorem powerAndFaultCommands : Obligations.PowerAndFaultCommands := by
  unfold Obligations.PowerAndFaultCommands
  intro s f c e
  refine ⟨fun h hf hv => ⟨fun hstep hst => ?_, fun hstep hrun ht => ⟨fun hm hp => ?_, fun hm hp => ?_, fun hm hp hc =>
      ⟨fun hn => ?_, fun hn hw => ?_⟩⟩⟩, fun h hv => ⟨fun hf h0 => ?_, fun hf => ?_, fun hf h1 => ?_⟩, fun h hf => ?_⟩
  · exact State.powerSet_asks h hf hv (Eng.pwrAsk_present hstep hst)
  · exact State.powerSet_asks h hf hv (Eng.pwrAsk_refused hrun ht (Eng.entryRefused_member hm hp))
  · exact State.powerSet_asks h hf hv (Eng.pwrAsk_refused hrun ht (Eng.entryRefused_busy hm hp))
  · exact State.powerSet_asks h hf hv (Eng.pwrAsk_refused hrun ht ((Eng.entryRefused_idle hm hp hc).trans (if_pos hn)))
  · exact State.powerSet_asks h hf hv ((Eng.pwrAsk_enters hrun ht hstep
      ((Eng.entryRefused_idle hm hp hc).trans (if_neg (Nat.ne_of_gt hn)))).trans (Eng.startEntry_eq hw _ _))
  · exact State.does_eq_after (Eng.powerStatusGet_own h hv _ hf h0)
  · exact State.does_eq_after (Eng.powerStatusGet_all h hv _ hf)
  · exact State.does_eq_after (Eng.powerStatusGet_denied h hv _ hf h1)
  · exact State.does_eq_after (Eng.faultInfoGet_asks h hf)

end Sys2Proof.Machine
end


section
/-! PROOF. The pair group's commands (R435, R437, R447 to R454, R532). -/
namespace Sys2Proof.Machine

section
variable {e : Eng} {f : Fn} {c : Cmd} (hf : f = 0)
include hf

theorem f0Only_of (e : Eng) (c : Cmd) : f0Only f e c = true := decide_eq_true hf

/-! ### PAIR_CONFIG -/

section
variable {b : SetBlk} (h : e.Sets f 0x0801 (fun _ => pairFlds) (fun v => v == objEngine) c b)
include h

theorem Eng.pairConfig_locked {l : SetFld}
    (hl : lockedChange pairFlds b (fun i => nth e.pair.cfg i []) (fun _ => e.paired) = some l) :
    e.pairConfig f = ((e.reject f 0x0801 false l.idx).answer f 0x02 l.off).journalCmd f c := by
  refine Eng.mbxSet_eq h rfl (decide_eq_true hf) ?_
  simp only [hl]
  exact Eng.lockedAt_of_opcode e f h.opcode l.idx l.off

/-- The pair's fields as a SET block leaves them (R435). -/
def PairSt.config (x : PairSt) (b : SetBlk) : PairSt :=
  let l := b.list 2 x.lease.slots
  { x with
    pairId := b.val 0 x.pairId, roleActive := !b.bool 1 (!x.roleActive)
    lease := if nth l 0 0 = 1 then .host (nth l 1 0) (nth l 2 0) else .chip
    failPorts := BitVec.ofNat 16 (b.val 3 x.failPorts.toNat), autoResync := b.bool 4 x.autoResync
    wakeSev := b.val 5 x.wakeSev }

theorem Eng.pairConfig_writes
    (hl : lockedChange pairFlds b (fun i => nth e.pair.cfg i []) (fun _ => e.paired) = none) :
    e.pairConfig f = ((e.modPair (fun x => x.config b)).answer f 0x00 0).journalCmd f c := by
  refine Eng.mbxSet_eq h rfl (decide_eq_true hf) ?_
  simp only [hl]
  rfl

end

/-! ### PAIR_FORM and PAIR_LEAVE -/

section
variable (h : e.Asks f 0x0802 0 c)
include h

theorem Eng.pairForm_busy (hp : e.paired = true) : e.pairForm f = (e.answer f 0x01 0).journalCmd f c :=
  Eng.mbxArgs_eq h rfl (f0Only_of hf e c) (if_pos hp)

/-- A member of no pair as it begins to form one (R437). -/
def PairSt.formed (x : PairSt) : PairSt :=
  { x with
    state := .forming, formStep := 1, resync := false, copyAgain := false, changes := [], unacked := [], held := [], heldIrq := []
    buffered := [], hbLast := none, lostLink := false, seenAt := none, sent := 0, acked := 0, applied := 0, tries := 0
    partnerGated := false, wakeSent := false, handover := none }

theorem Eng.pairForm_begins (hp : e.paired = false) :
    e.pairForm f = (((e.working f).modPair PairSt.formed).fastStartAll).journalCmd f c :=
  Eng.mbxArgs_eq h rfl (f0Only_of hf e c) (if_neg (by simp [hp]))

end

theorem Eng.pairLeave_asks (h : e.Asks f 0x0803 0 c) :
    e.pairLeave f = ((if e.paired then e.leavePair else e).answer f 0x00 0).journalCmd f c :=
  Eng.mbxArgs_eq h rfl (f0Only_of hf e c) rfl

/-! ### PAIR_SWITCHOVER -/

section
variable (h : e.Asks f 0x0804 0 c)
include h

theorem Eng.pairSwitchover_busy (hb : e.handing = true ∨ e.pair.resync = true ∨ e.pair.state = .forming) :
    e.pairSwitchover f = (e.answer f 0x01 0).journalCmd f c :=
  Eng.mbxArgs_eq h rfl (f0Only_of hf e c) (if_pos hb)

section
variable (hr : e.pair.resync = false) (hh : e.handing = false)
include hr hh

theorem Eng.pairSwitchover_begins (hs : e.pair.state = .active) :
    e.pairSwitchover f = ((e.working f).beginHandover false).journalCmd f c :=
  Eng.mbxArgs_eq h rfl (f0Only_of hf e c) ((if_neg (by simp [hr, hh, hs])).trans (by rw [hs]))

theorem Eng.pairSwitchover_denied (hs : e.pair.state = .unpaired ∨ e.pair.state = .activeAlone ∨ e.pair.state = .fenced) :
    e.pairSwitchover f = (e.answer f 0x05 0).journalCmd f c := by
  refine Eng.mbxArgs_eq h rfl (f0Only_of hf e c) ?_
  rcases hs with hs | hs | hs <;> exact (if_neg (by simp [hr, hh, hs])).trans (by rw [hs]; rfl)

end

end

/-! ### PAIR_RESYNC and PAIR_WAKE -/

section
variable (h : e.Asks f 0x0805 0 c)
include h

theorem Eng.pairResync_begins (hs : e.pair.state = .activeAlone ∨ e.pair.state = .standbyStale) (hr : e.pair.resync = false)
    (hstep : e.pair.formStep = 0) :
    e.pairResync f = (if e.heartsLost then e.answer f 0x0D 0 else (e.working f).startResync).journalCmd f c := by
  have hfree : ¬ (e.pair.resync = true ∨ 0 < e.pair.formStep) := by simp [hr, hstep]
  refine Eng.mbxArgs_eq h rfl (f0Only_of hf e c) ?_
  rcases hs with hs | hs <;> rw [hs] <;> exact if_neg hfree

theorem Eng.pairResync_needless (hs : e.pair.state = .unpaired ∨ e.pair.state = .active ∨ e.pair.state = .fenced)
    (hh : e.handing = false) : e.pairResync f = (e.answer f 0x00 0).journalCmd f c := by
  have hidle : ¬ e.handing = true := by simp [hh]
  refine Eng.mbxArgs_eq h rfl (f0Only_of hf e c) ?_
  rcases hs with hs | hs | hs <;> rw [hs] <;> exact if_neg hidle

end

theorem Eng.pairWakeCmd_asks (h : e.Asks f 0x0806 0 c) : e.pairWakeCmd f = (e.sendWake.answer f 0x00 0).journalCmd f c :=
  Eng.mbxArgs_eq h rfl (f0Only_of hf e c) rfl

end

/-! ### PAIR_STATUS_GET -/

/-- What PAIR_STATUS_GET answers to any issuer (R454). -/
def Eng.pairRegs (e : Eng) : List Nat :=
  [e.pair.state.code, e.pairRole - 1, e.pair.epoch.toNat, e.pair.pairId, e.pair.partnerId, e.journalLag, e.pair.sent.toNat,
    e.pair.acked.toNat, unsigned 64 e.pair.offset]

section
variable {e : Eng} {f : Fn} {c : Cmd} (h : e.Asks f 0x0807 1 c) (hv : c.slot 0 < 2)
include h hv

theorem Eng.pairStatusGet_own (hf : f ≠ 0) (h0 : c.slot 0 = 0) :
    e.pairStatusGet f = (e.respond f 0x00 0 (slotBytes e.pairRegs)).journalCmd f c := by
  refine Eng.mbxArgs_eq h (by simp [firstBad, flagOk, hv]) (by simp [h0]) ?_
  simp only [hf, if_false, false_and, List.append_nil]
  rfl

theorem Eng.pairStatusGet_denied (hf : f ≠ 0) (h1 : c.slot 0 = 1) : e.pairStatusGet f = (e.answer f 0x05 0).journalCmd f c :=
  Eng.mbxArgs_denied h (by simp [firstBad, flagOk, hv]) (by simp [hf, h1]) _

theorem Eng.pairStatusGet_all (hf : f = 0) : e.pairStatusGet f =
    ((if c.slot 0 = 1 then e.modPair (fun x => { x with cnt := [0, 0, 0, 0, 0, 0] }) else e).respond f 0x00 0
      (slotBytes (e.pairRegs ++ e.pair.cnt))).journalCmd f c := by
  refine Eng.mbxArgs_eq h (by simp [firstBad, flagOk, hv]) (by simp [hf]) ?_
  simp only [hf, if_true, true_and]
  rfl

end

/-- Settles O58: each command by what it finds the pair to be. -/
theorem pairCommands : Obligations.PairCommands := by
  unfold Obligations.PairCommands
  intro s f c e x
  refine ⟨fun b hf h => ⟨fun l hl => ?_, fun hl => ?_⟩, fun hf h => ⟨fun hp => ?_, fun hp => ?_⟩, fun hf h => ?_,
    fun hf h => ⟨fun hs hr hh => ?_, fun hb => ?_, fun hs hr hh => ?_⟩, fun hf h => ⟨fun hs hr hstep => ?_, fun hs hh => ?_⟩,
    fun hf h => ?_, fun h hv => ⟨fun hf h0 => ?_, fun hf h1 => ?_, fun hf => ?_⟩⟩
  · exact State.does_eq_after (Eng.pairConfig_locked hf h hl)
  · exact State.does_eq_after (Eng.pairConfig_writes hf h hl)
  · exact State.does_eq_after (Eng.pairForm_busy hf h hp)
  · exact State.does_eq_after (Eng.pairForm_begins hf h hp)
  · exact State.does_eq_after (Eng.pairLeave_asks hf h)
  · exact State.does_eq_after (Eng.pairSwitchover_begins hf h hr hh hs)
  · exact State.does_eq_after (Eng.pairSwitchover_busy hf h hb)
  · exact State.does_eq_after (Eng.pairSwitchover_denied hf h hr hh hs)
  · exact State.does_eq_after (Eng.pairResync_begins hf h hs hr hstep)
  · exact State.does_eq_after (Eng.pairResync_needless hf h hs hh)
  · exact State.does_eq_after (Eng.pairWakeCmd_asks hf h)
  · exact State.does_eq_after (Eng.pairStatusGet_own h hv hf h0)
  · exact State.does_eq_after (Eng.pairStatusGet_denied h hv hf h1)
  · exact State.does_eq_after (Eng.pairStatusGet_all h hv hf)

end Sys2Proof.Machine
end


section
/-! PROOF. How a pair forms, and the records of its journal and copy (R437, R442, R443, R449, R451). -/
namespace Sys2Proof.Machine

/-! ### Formation -/

section
variable {e : Eng}

theorem Eng.helloTimer_sends (hs : e.pair.state = .forming) (hstep : e.pair.formStep ≤ 2) (hctl : e.pwr.ctlOn = true) :
    e.helloTimer = (e.modPair (fun x => { x with helloSeq := x.helloSeq + 1 })).emit (.pairHello (e.pair.helloSeq + 1)) :=
  if_pos ⟨hs, hstep, hctl⟩

theorem Eng.helloTimer_idle (h : e.pair.state ≠ .forming ∨ 2 < e.pair.formStep ∨ e.pwr.ctlOn = false) : e.helloTimer = e := by
  refine if_neg fun ⟨hs, hstep, hctl⟩ => ?_
  rcases h with h | h | h
  · exact h hs
  · exact absurd hstep (by omega)
  · exact absurd (h.symm.trans hctl) Bool.false_ne_true

theorem Eng.formTimeout_fails (hs : e.pair.state = .forming) (hstep : e.pair.formStep ≤ 1) : e.formTimeout = e.formFail 0x08 0 :=
  if_pos ⟨hs, hstep⟩

theorem Eng.formTimeout_idle (h : e.pair.state ≠ .forming ∨ 1 < e.pair.formStep) : e.formTimeout = e :=
  if_neg fun ⟨hs, hstep⟩ => h.elim (· hs) (fun h => absurd hstep (by omega))

/-! ### HELLO -/

variable {fw : BitVec 32} {h : Hello}

/-- A HELLO of another pair, or one that reaches no controller (R437). -/
theorem Eng.rxHello_foreign (hid : h.pairId.toNat ≠ e.pair.pairId ∨ e.pwr.ctlOn = false) : e.rxHello fw h = e := if_pos hid

/-- A member that is in step, or of no pair, forms none. -/
theorem Eng.rxHello_settled (hs : e.pair.state = .active ∨ e.pair.state = .standby ∨ e.pair.state = .unpaired) :
    e.rxHello fw h = e := by
  by_cases hid : h.pairId.toNat ≠ e.pair.pairId ∨ e.pwr.ctlOn = false
  · exact Eng.rxHello_foreign hid
  · refine (if_neg hid).trans ?_
    rcases hs with hs | hs | hs <;> rw [hs]

section
variable (hid : h.pairId.toNat = e.pair.pairId) (hctl : e.pwr.ctlOn = true) (hs : e.pair.state = .forming)
  (hstep : e.pair.formStep ≤ 2)
include hid hctl hs hstep

/-- What a forming member makes of a HELLO of its pair: it ends the formation where the members do not agree. -/
theorem Eng.rxHello_forming : e.rxHello fw h =
    if !e.agrees fw h then (e.fresh.2.linkFail 3).formFail stInvalid (e.fresh.1 % 65536)
    else if e.pair.roleActive then (e.modPair (fun y => { y with partnerId := h.engineId.toNat, formStep := 2 })).leaseInit
    else e.modPair (fun y => { y with partnerId := h.engineId.toNat, formStep := 5 }) := by
  refine (if_neg (by simp [hid, hctl])).trans ?_
  rw [hs]
  exact if_neg (by omega)

theorem Eng.rxHello_disagrees (ha : e.agrees fw h = false) :
    e.rxHello fw h = (e.fresh.2.linkFail 3).formFail 0x03 (e.fresh.1 % 65536) :=
  (Eng.rxHello_forming hid hctl hs hstep).trans (if_pos (by simp [ha]))

section
variable (ha : e.agrees fw h = true)
include ha

theorem Eng.rxHello_standby (hr : e.pair.roleActive = false) :
    e.rxHello fw h = e.modPair (fun y => { y with partnerId := h.engineId.toNat, formStep := 5 }) :=
  (Eng.rxHello_forming hid hctl hs hstep).trans ((if_neg (by simp [ha])).trans (if_neg (by simp [hr])))

theorem Eng.rxHello_active (hr : e.pair.roleActive = true) :
    e.rxHello fw h = (e.modPair (fun y => { y with partnerId := h.engineId.toNat, formStep := 2 })).leaseInit :=
  (Eng.rxHello_forming hid hctl hs hstep).trans ((if_neg (by simp [ha])).trans (if_pos hr))

end

end

/-! ### Copied banks acknowledged -/

section
variable {b : BankId}

/-- Nothing of a copy, or a bank that is not the next one. -/
theorem Eng.copyAck_other (h : e.pair.formStep ≠ 5 ∨ b.val ≠ e.pair.copyNext) : e.copyAck b = e :=
  if_pos (h.elim .inl (fun h => .inr (.inr (.inr h))))

variable (h5 : e.pair.formStep = 5) (hs : e.pair.state = .activeAlone ∨ e.pair.state = .forming ∧ e.pair.roleActive = true)
  (hb : b.val = e.pair.copyNext)
include h5 hs hb

/-- The acknowledgement that the copying member waits for. -/
theorem Eng.copyAck_awaited : e.copyAck b =
    if b.val = 24 then (e.modPair (fun y => { y with copyAcked := y.copyAcked ++ [b] })).synced
    else (e.modPair (fun y => { y with copyNext := b.val + 1, copyAcked := y.copyAcked ++ [b] })).emit (.pairCopy (fin 28 (b.val + 1))) := by
  refine if_neg ?_
  rcases hs with hs | ⟨hs, hr⟩
  · simp [h5, hb, hs, Eng.standby]
  · simp [h5, hb, hs, hr, Eng.standby]

theorem Eng.copyAck_next (hne : b.val ≠ 24) : e.copyAck b =
    (e.modPair (fun y => { y with copyNext := b.val + 1, copyAcked := y.copyAcked ++ [b] })).emit (.pairCopy (fin 28 (b.val + 1))) :=
  (Eng.copyAck_awaited h5 hs hb).trans (if_neg hne)

theorem Eng.copyAck_last (h24 : b.val = 24) :
    e.copyAck b = (e.modPair (fun y => { y with copyAcked := y.copyAcked ++ [b] })).synced :=
  (Eng.copyAck_awaited h5 hs hb).trans (if_pos h24)

end

/-! ### The journal's sending side -/

/-- A period without a change, and without a write that waits for its record (R442, R443). -/
theorem Eng.journalPeriod_idle (h : e.journals = false ∨ e.pair.changes = [] ∧ e.pair.held = [] ∧ e.pair.heldIrq = []) :
    e.journalPeriod = e := by
  refine if_pos ?_
  rcases h with h | ⟨hc, hh, hi⟩
  · exact .inl (by simp [h])
  · exact .inr (by simp [hc, hh, hi])

theorem Eng.journalPeriod_sends (h : e.journals = true) (hc : e.pair.changes ≠ []) : e.journalPeriod =
    (e.modPair (fun y => { y with
      sent := e.pair.sent + 1, changes := [], unacked := y.unacked ++ [(e.pair.sent + 1, e.now)] })).emit
        (.pairJournal (e.pair.sent + 1) e.pair.changes) :=
  if_neg (by simp [h, hc])

theorem Eng.journalTimeout_fails (hs : e.pair.state = .active) (hu : e.pair.unacked ≠ []) :
    e.journalTimeout = (e.linkFail 2).goAlone := if_pos ⟨hs, hu⟩

theorem Eng.journalTimeout_idle (h : e.pair.state ≠ .active ∨ e.pair.unacked = []) : e.journalTimeout = e :=
  if_neg fun ⟨hs, hu⟩ => h.elim (· hs) hu

theorem Eng.journalAck_other {n : BitVec 32} (h : e.journals = false ∨ ∀ r ∈ e.pair.unacked, r.1 ≠ n) : e.journalAck n = e := by
  refine if_pos ?_
  rcases h with h | h
  · exact .inl (by simp [h])
  · exact .inr (by simpa using h)

theorem Eng.journalAck_awaited {n : BitVec 32} (h : e.journals = true) (hn : ∃ r ∈ e.pair.unacked, r.1 = n) : e.journalAck n =
    (e.modPair (fun x => { x with
      acked := n, unacked := x.unacked.filter (fun r => !decide ((n - r.1).toNat < 2147483648)) })).releaseHeld n := by
  have hany : e.pair.unacked.any (fun r => decide (r.1 = n)) = true := by simpa using hn
  exact if_neg (by simp [h, hany])

/-! ### The journal's receiving side -/

section
variable {b : Budget} {n : BitVec 32} {l : List JChange}

/-- A member that applies no records takes none. -/
theorem Eng.rxJournal_other (h : e.pair.state = .active ∨ e.pair.state = .activeAlone ∨ e.pair.state = .unpaired) :
    e.rxJournal b n l = e := by
  unfold Eng.rxJournal
  rcases h with h | h | h <;> simp [Eng.copying, h]

/-- A record after the last one. -/
theorem BitVec.toNat_next_sub (x : BitVec 32) : (x + 1 - x).toNat = 1 := by bv_omega

variable (hbuf : e.pair.buffered = [])
include hbuf

/-- A record that has been applied already. -/
theorem Eng.rxJournal_again (hn : n = e.pair.applied) : e.rxJournal b n l = e := by
  refine if_pos (.inr (.inl ?_))
  rw [hbuf, hn]
  exact congrArg BitVec.toNat (BitVec.sub_self e.pair.applied)

section
variable (hctl : e.pwr.ctlOn = true)
include hctl

/-- A record after those applied, none being buffered. -/
theorem Eng.rxJournal_new (h0 : (n - e.pair.applied).toNat ≠ 0) (hlt : (n - e.pair.applied).toNat < 2147483648) :
    e.rxJournal b n l =
      if e.copying then
        if (n - e.pair.applied).toNat ≠ 1 ∨ Config.journalRoom ≤ 0 then e.copyOverflow n
        else e.modPair (fun x => { x with buffered := x.buffered ++ [(n, l)] })
      else if e.pair.state = .standby then
        if (n - e.pair.applied).toNat = 1 then e.applyRecord b n l else e.goStale
      else e := by
  unfold Eng.rxJournal
  simp only [hbuf]
  refine if_neg ?_
  rintro (hoff | h | h)
  · exact Bool.false_ne_true (hoff.symm.trans hctl)
  · exact h0 h
  · exact Nat.not_le.mpr hlt h

theorem Eng.rxJournal_next (hn : n = e.pair.applied + 1) :
    e.rxJournal b n l =
      if e.copying then
        if Config.journalRoom ≤ 0 then e.copyOverflow n else e.modPair (fun x => { x with buffered := x.buffered ++ [(n, l)] })
      else if e.pair.state = .standby then e.applyRecord b n l else e := by
  have h1 : (n - e.pair.applied).toNat = 1 := hn ▸ BitVec.toNat_next_sub _
  rw [Eng.rxJournal_new hbuf hctl (by omega) (by omega)]
  simp only [h1, ne_eq, not_true_eq_false, false_or, if_true]

theorem Eng.rxJournal_applies (hs : e.pair.state = .standby) (hn : n = e.pair.applied + 1) :
    e.rxJournal b n l = e.applyRecord b n l :=
  (Eng.rxJournal_next hbuf hctl hn).trans ((if_neg (by simp [Eng.copying, hs])).trans (if_pos hs))

theorem Eng.rxJournal_gap (hs : e.pair.state = .standby) (h1 : 1 < (n - e.pair.applied).toNat)
    (hlt : (n - e.pair.applied).toNat < 2147483648) : e.rxJournal b n l = e.goStale :=
  (Eng.rxJournal_new hbuf hctl (by omega) hlt).trans
    ((if_neg (by simp [Eng.copying, hs])).trans ((if_pos hs).trans (if_neg (by omega))))

theorem Eng.rxJournal_buffers (hc : e.copying = true) (hn : n = e.pair.applied + 1) : e.rxJournal b n l =
    if Config.journalRoom = 0 then e.copyOverflow n else e.modPair (fun x => { x with buffered := [(n, l)] }) := by
  rw [Eng.rxJournal_next hbuf hctl hn, if_pos hc]
  simp only [Nat.le_zero, Eng.modPair, hbuf, List.nil_append]

end

end

/-! ### Banks copied -/

section
variable {b : Budget} {k : BankId} {l : List JChange}

theorem Eng.rxCopy_other {last : Bool} (h : e.copying = false ∨ k.val < 4 ∨ 24 < k.val) : e.rxCopy b k l last = e :=
  if_pos (.inr h)

variable (hc : e.copying = true) (hctl : e.pwr.ctlOn = true) (h4 : 4 ≤ k.val) (h24 : k.val ≤ 24)
include hc hctl h4 h24

theorem Eng.rxCopy_goes_on : e.rxCopy b k l false = e.applyAll b l :=
  (if_neg (by simp [hc, hctl]; omega)).trans (if_pos rfl)

theorem Eng.rxCopy_ends (hk : k.val ≠ 24) : e.rxCopy b k l true = (e.applyAll b l).emit (.pairCopyAck k) :=
  (if_neg (by simp [hc, hctl]; omega)).trans ((if_neg (by simp)).trans (if_pos hk))

end

end

/-- Settles O45: each message and timer by what the pair is doing. -/
theorem pairsFormAndJournal : Obligations.PairsFormAndJournal := by
  unfold Obligations.PairsFormAndJournal
  refine ⟨fun s => ?_, fun s => ?_⟩
  · intro e x failed fw
    refine ⟨fun hs hstep hctl => ?_, fun h => ?_, fun hs hstep => ?_, fun h => ?_, fun h => ⟨fun hid => ?_, fun hid hctl hs hstep =>
      ⟨fun ha => ?_, fun ha hr => ?_, fun ha hr => ?_⟩, fun hs => ?_⟩, fun b => ⟨fun h5 hs hb hne hlt => ?_,
        fun h5 hs hb h24 => ?_, fun h => ?_⟩⟩
    · exact State.does_eq_after (Eng.helloTimer_sends (e := s.eng.clear) hs hstep hctl)
    · exact State.does_eq_after (Eng.helloTimer_idle (e := s.eng.clear) h)
    · exact State.does_eq_after (Eng.formTimeout_fails (e := s.eng.clear) hs hstep)
    · exact State.does_eq_after (Eng.formTimeout_idle (e := s.eng.clear) h)
    · exact State.does_eq_after (Eng.rxHello_foreign (e := s.eng.clear) hid)
    · exact State.does_eq_after (Eng.rxHello_disagrees (e := s.eng.clear) hid hctl hs hstep ha)
    · exact State.does_eq_after (Eng.rxHello_standby (e := s.eng.clear) hid hctl hs hstep ha hr)
    · exact State.does_eq_after (Eng.rxHello_active (e := s.eng.clear) hid hctl hs hstep ha hr)
    · exact State.does_eq_after (Eng.rxHello_settled (e := s.eng.clear) hs)
    · exact State.does_eq_after (Eng.copyAck_next (e := s.eng.clear) h5 hs hb hne)
    · exact State.does_eq_after (Eng.copyAck_last (e := s.eng.clear) h5 hs (h24.trans hb.symm) h24)
    · exact State.does_eq_after (Eng.copyAck_other (e := s.eng.clear) h)
  · intro e x
    refine ⟨fun h => ?_, fun h hc => ?_, fun hs hu => ?_, fun h => ?_, fun n => ⟨fun h => ?_, fun h hn => ?_⟩,
      fun n ep l hs hctl hbuf => ⟨fun hn => ?_, fun hn => ?_, fun h1 hlt => ?_⟩, fun n ep l hc hctl hbuf hn => ?_,
      fun n ep l hs => ?_, fun k l last h => ?_, fun k l hc hctl h4 h24 => ⟨?_, fun hk => ?_⟩⟩
    · exact State.does_eq_after (Eng.journalPeriod_idle (e := s.eng.clear) h)
    · exact State.does_eq_after (Eng.journalPeriod_sends (e := s.eng.clear) h hc)
    · exact State.does_eq_after (Eng.journalTimeout_fails (e := s.eng.clear) hs hu)
    · exact State.does_eq_after (Eng.journalTimeout_idle (e := s.eng.clear) h)
    · exact State.does_eq_after (Eng.journalAck_other (e := s.eng.clear) h)
    · exact State.does_eq_after (Eng.journalAck_awaited (e := s.eng.clear) h hn)
    · exact State.does_eq_after (Eng.rxJournal_applies (e := s.eng.clear) hbuf hctl hs hn)
    · exact State.does_eq_after (Eng.rxJournal_again (e := s.eng.clear) hbuf hn)
    · exact State.does_eq_after (Eng.rxJournal_gap (e := s.eng.clear) hbuf hctl hs h1 hlt)
    · exact State.does_eq_after (Eng.rxJournal_buffers (e := s.eng.clear) hbuf hctl hc hn)
    · exact State.does_eq_after (Eng.rxJournal_other (e := s.eng.clear) hs)
    · exact State.does_eq_after (Eng.rxCopy_other (e := s.eng.clear) h)
    · exact State.does_eq_after (Eng.rxCopy_goes_on (e := s.eng.clear) hc hctl h4 h24)
    · exact State.does_eq_after (Eng.rxCopy_ends (e := s.eng.clear) hc hctl h4 h24 hk)

end Sys2Proof.Machine
end


section
/-! PROOF. Heartbeats and their loss, and the lease of a pair (R421, R437, R439 to R441, R444, R447 to R450, R454, R503,
R504). -/
namespace Sys2Proof.Machine

/-! ### Heartbeats -/

section
variable {e : Eng}

/-- A member that does not run heartbeats does nothing (R504). -/
theorem Eng.heartbeat_silent (hb : e.beats = false) :
    e.heartbeat = e ∧ e.heartbeatLoss = e ∧ ∀ h, e.rxHeartbeat h = e := by
  have hno : (!e.beats) = true := by simp [hb]
  exact ⟨if_pos hno, if_pos hno, fun _ => if_pos hno⟩

theorem Eng.heartbeat_sends (hb : e.beats = true) : e.heartbeat =
    (e.modPair (fun x => { x with hbSeq := e.pair.hbSeq + 1 })).emit
      (.pairHeartbeat (e.pair.hbSeq + 1) e.pair.epoch (e.pair.hbLast.map (fun h => h.1))) :=
  if_neg (by simp [hb])

/-- Heartbeats missed between the last one and the one that arrives. -/
def PairSt.missed (x : PairSt) (h : Heartbeat) : Nat :=
  match x.hbLast with
  | some (q, _) => ((h.seq - q).toNat - 1) % 2147483648
  | none => 0

/-- A heartbeat is noted, before which some were missed (R448, R449). -/
def Eng.noted (e : Eng) (h : Heartbeat) (missed : Nat) : Eng :=
  e.modPair (fun x => { x with
    hbLast := some (h.seq, e.now), lostLink := false, partnerId := h.engineId.toNat
    offset := ((h.tb0.sec * 1000000000 + h.tb0.ns + h.delay : Nat) : Int) - (e.tb0 : Int)
    partnerGated := false, wakeSent := false, staleTold := false, cnt := addCnt x.cnt 3 missed })

/-- The bases follow the active's (R448). -/
def Eng.follow (e : Eng) (h : Heartbeat) : Eng :=
  (((e.modTb 0 (fun t => t.steer h.tb0 h.delay)).modTb 1 (fun t => t.steer h.tb1 h.delay)).modTb 2
    (fun t => t.steer h.tb2 h.delay)).modTb 3 (fun t => t.steer h.tb3 h.delay)

/-- The heartbeats return to a member that has lost them. -/
def PairSt.back (x : PairSt) : Bool := x.lostLink && !x.resync

section
variable (hb : e.beats = true) (h : Heartbeat)
include hb

/-- What becomes of a heartbeat that arrives (R448, R449). -/
theorem Eng.rxHeartbeat_eq : e.rxHeartbeat h =
    (let d := if e.standby then (e.noted h (e.pair.missed h)).follow h else e.noted h (e.pair.missed h)
     if !e.pair.back ∨ (e.pair.state ≠ .activeAlone ∧ e.pair.state ≠ .standbyStale) then d
     else if e.pair.autoResync ∨ e.pair.wakeSent then d.startResync
     else if e.pair.partnerGated then (if d.fresh.1 % 2 = 1 then d.fresh.2.startResync else d.fresh.2)
     else d) :=
  if_neg (by simp [hb])

theorem Eng.rxHeartbeat_going (hl : e.pair.lostLink = false ∨ e.pair.resync = true) : e.rxHeartbeat h =
    if e.standby then (e.noted h (e.pair.missed h)).follow h else e.noted h (e.pair.missed h) := by
  rw [Eng.rxHeartbeat_eq hb]
  exact if_pos (.inl (by rcases hl with hl | hl <;> simp [PairSt.back, hl]))

section
variable (hs : e.pair.state = .activeAlone) (hl : e.pair.lostLink = true) (hr : e.pair.resync = false)
  (hn : e.pair.hbLast = none)
include hs hl hr hn

/-- Heartbeats return to an active that has gone on alone (R449). -/
theorem Eng.rxHeartbeat_back : e.rxHeartbeat h =
    if e.pair.autoResync ∨ e.pair.wakeSent then (e.noted h 0).startResync
    else if e.pair.partnerGated then
      (if (e.noted h 0).fresh.1 % 2 = 1 then (e.noted h 0).fresh.2.startResync else (e.noted h 0).fresh.2)
    else e.noted h 0 := by
  have halone : ¬ e.standby = true := by simp [Eng.standby, hs]
  have hmissed : e.pair.missed h = 0 := by simp [PairSt.missed, hn]
  rw [Eng.rxHeartbeat_eq hb, if_neg halone, hmissed]
  exact if_neg (by simp [PairSt.back, hl, hr, hs])

theorem Eng.rxHeartbeat_resyncs (ha : e.pair.autoResync = true ∨ e.pair.wakeSent = true) :
    e.rxHeartbeat h = (e.noted h 0).startResync :=
  (Eng.rxHeartbeat_back hb h hs hl hr hn).trans (if_pos ha)

theorem Eng.rxHeartbeat_waits (ha : e.pair.autoResync = false) (hw : e.pair.wakeSent = false) (hg : e.pair.partnerGated = false) :
    e.rxHeartbeat h = e.noted h 0 :=
  (Eng.rxHeartbeat_back hb h hs hl hr hn).trans ((if_neg (by simp [ha, hw])).trans (if_neg (by simp [hg])))

end

end

/-- The active's resynchronisation begins with a copy (R449). -/
theorem Eng.startResync_active (hs : e.pair.state = .activeAlone) : e.startResync =
    (e.modPair (fun x => { x with resync := true, buffered := [], copyAgain := false })).startCopy := by
  simp only [Eng.startResync, Eng.modPair, hs]

/-! ### The loss of heartbeats -/

/-- The pair's link once its heartbeats are lost, of a member that is not forming (R449, R450). -/
def PairSt.lost (x : PairSt) (gated : Bool) : PairSt :=
  { x with lostLink := true, hbLast := none, resync := false, formStep := 0, partnerGated := gated, cnt := addCnt x.cnt 3 16 }

section
variable (hb : e.beats = true)
include hb

theorem Eng.heartbeatLoss_active (hs : e.pair.state = .active) :
    e.heartbeatLoss = ((e.modPair (fun x => x.lost true)).linkFail 1).goAlone := by
  simp [Eng.heartbeatLoss, Eng.modPair, Eng.pairCnt, PairSt.lost, PairSt.isActive, hb, hs]

theorem Eng.heartbeatLoss_standby (hs : e.pair.state = .standby) :
    e.heartbeatLoss = ((e.modPair (fun x => x.lost false)).linkFail 1).goStale := by
  simp [Eng.heartbeatLoss, Eng.modPair, Eng.pairCnt, PairSt.lost, PairSt.isActive, hb, hs]

theorem Eng.heartbeatLoss_alone (hs : e.pair.state = .activeAlone) : e.heartbeatLoss = e.modPair (fun x => x.lost true) := by
  simp [Eng.heartbeatLoss, Eng.modPair, Eng.pairCnt, PairSt.lost, PairSt.isActive, hb, hs]

theorem Eng.heartbeatLoss_stale (hs : e.pair.state = .standbyStale) : e.heartbeatLoss = e.modPair (fun x => x.lost false) := by
  simp [Eng.heartbeatLoss, Eng.modPair, Eng.pairCnt, PairSt.lost, PairSt.isActive, hb, hs]

end

end

/-! ### The lease renewed, fenced and handed over -/

section
variable {e : Eng}

theorem Eng.leaseRenew_swaps (hs : e.pair.state = .active ∨ e.pair.state = .activeAlone) (hctl : e.pwr.ctlOn = true)
    (hop : e.pair.op = none) : e.leaseRenew = e.leaseSend .renew (leaseWord e.pair.epoch (e.pair.count + 1) e.off.engineId) :=
  if_neg (by rcases hs with hs | hs <;> simp [PairSt.isActive, hs, hctl, hop])

theorem Eng.leaseRenew_idle (h : e.pair.op.isSome = true ∨ e.pair.state = .standby ∨ e.pair.state = .unpaired ∨ e.pwr.ctlOn = false) :
    e.leaseRenew = e := by
  refine if_pos ?_
  rcases h with h | h | h | h <;> simp [PairSt.isActive, h]

theorem Eng.leaseFence_fences (h : e.pair.state = .active ∨ e.pair.state = .activeAlone) :
    e.leaseFence = (e.leaseFail 1).fence :=
  if_pos (by simpa [PairSt.isActive] using h)

theorem Eng.leaseFence_idle (h : e.pair.state ≠ .active) (ha : e.pair.state ≠ .activeAlone) : e.leaseFence = e :=
  if_neg (by simp [PairSt.isActive, h, ha])

theorem Eng.rxHandover_takes (h : e.pair.state = .standby) (ep : BitVec 32) : e.rxHandover ep =
    ((((e.takeOver (leaseWord ep 0 e.off.engineId)).pairCnt 1 1).pairEventAll 3).pairAnswer 0x0804 0x00 0) := if_pos h

theorem Eng.rxHandover_other (h : e.pair.state ≠ .standby) (ep : BitVec 32) : e.rxHandover ep = e := if_neg h

/-- A WAKE message in DOZE or WATCH (R421, R503). -/
theorem Eng.pairWakeMsg_wakes (ha : e.armed 7 = true) (hstep : e.pwr.step = .none)
    (hs : e.pwr.state = .doze ∨ e.pwr.state = .watch) : e.wakeEvent 7 0 0 = e.beginWake 7 0 0 := by
  refine (if_pos ha).trans ?_
  unfold Eng.wake
  rcases hs with hs | hs <;> rw [hstep, hs]

/-! ### LEASE_CAS_DONE -/

/-- The swap that was outstanding is over. -/
def Eng.casBack (e : Eng) : Eng := e.modPair (fun x => { x with op := none })

/-- No swap is outstanding. -/
theorem Eng.leaseDone_none (hop : e.pair.op = none) (r : CasResult) : e.leaseDone r = e := by
  simp only [Eng.leaseDone, hop]

/-- The member's word is the one it has swapped in (R439). -/
def PairSt.kept (x : PairSt) : PairSt := { x with op := none, word := x.opWord, epoch := wEpoch x.opWord, count := wCount x.opWord }

section
variable (hop : e.pair.op = some .renew)
include hop

theorem Eng.leaseDone_renewed : e.leaseDone (.old e.pair.word) =
    { e with pair := if e.passed e.pair.opAt 10000 then e.pair.kept else { e.pair.kept with renewed := e.now } } := by
  simp only [Eng.leaseDone, hop, decide_true, if_true]
  by_cases hp : e.passed e.pair.opAt 10000 = true
  · rw [if_pos hp]
    exact if_pos hp
  · rw [if_neg hp]
    exact if_neg hp

theorem Eng.leaseDone_renew_lost {w : BitVec 64} (hw : w ≠ e.pair.word) :
    e.leaseDone (.old w) = (e.casBack.leaseFail 2).fence := by
  simp only [Eng.leaseDone, hop, decide_eq_true_eq, if_neg hw]
  rfl

theorem Eng.leaseDone_renew_error : e.leaseDone .error = e.casBack.leaseFail 5 := by
  simp only [Eng.leaseDone, hop]
  rfl

end

section
variable (hop : e.pair.op = some .claim)
include hop

theorem Eng.leaseDone_claimed : e.leaseDone (.old e.pair.word) =
    (((e.casBack.takeOver e.pair.opWord).leaseFail 3).pairCnt 0 1).pairEventAll 2 := by
  simp only [Eng.leaseDone, hop, decide_true, if_true]
  rfl

theorem Eng.leaseDone_claim_lost {w : BitVec 64} (hw : w ≠ e.pair.word) :
    e.leaseDone (.old w) = (e.modPair (fun x => { x with op := none, word := w })).goStale := by
  simp only [Eng.leaseDone, hop, decide_eq_true_eq, if_neg hw]
  rfl

end

/-! ### LEASE_POLL -/

/-- A member that is no standby, or whose controller is gated, polls nothing. -/
theorem Eng.leasePoll_idle (h : e.standby = false ∨ e.pwr.ctlOn = false) (w : BitVec 64) : e.leasePoll w = e :=
  if_pos (h.imp_left (by simp [·]))

/-- The lease word is read, which Tally counts (R439, R441). -/
def Eng.leaseRead (e : Eng) : Eng := (e.tal (e.pair.leaseEvent 0x208 1)).tal (e.pair.leaseEvent 0x203 8)

theorem Eng.leaseRead_pair (e : Eng) : e.leaseRead.pair = e.pair := by simp [Eng.leaseRead]
theorem Eng.leaseRead_pwr (e : Eng) : e.leaseRead.pwr = e.pwr := by simp [Eng.leaseRead]
theorem Eng.leaseRead_off (e : Eng) : e.leaseRead.off = e.off := by simp [Eng.leaseRead]
theorem Eng.leaseRead_now (e : Eng) : e.leaseRead.now = e.now := by simp [Eng.leaseRead]

theorem Eng.leaseRead_passed (e : Eng) (t n : Nat) : e.leaseRead.passed t n = e.passed t n := by
  simp only [Eng.passed, Eng.leaseRead_now]

theorem Eng.leaseRead_heartsLost (e : Eng) : e.leaseRead.heartsLost = e.heartsLost := by
  simp only [Eng.heartsLost, Eng.leaseRead_pair, Eng.leaseRead_passed]

/-- The word read is the one the member knows. -/
def PairSt.Stands (x : PairSt) (w : BitVec 64) : Prop := wEpoch w = wEpoch x.word ∧ wCount w = wCount x.word

/-- The member has seen the word at an edge. -/
def PairSt.sees (x : PairSt) (w : BitVec 64) (t : Nat) : PairSt :=
  { x with word := w, epoch := wEpoch w, count := wCount w, seenAt := some t, staleTold := false, tries := 0 }

section
variable (hs : e.standby = true) (hctl : e.pwr.ctlOn = true) {w : BitVec 64}
include hs hctl

/-- A word that is not the one known. -/
theorem Eng.leasePoll_new (h : e.pair.seenAt = none ∨ ¬ e.pair.Stands w) : e.leasePoll w =
    if wEpoch w = e.pair.epoch then { e.leaseRead with pair := e.pair.sees w e.now }
    else ({ e.leaseRead with pair := e.pair.sees w e.now } : Eng).fastStartAll := by
  have hd : e.leaseRead.modPair (fun y => y.sees w e.leaseRead.now) = { e.leaseRead with pair := e.pair.sees w e.now } := by
    rw [Eng.modPair, Eng.leaseRead_pair, Eng.leaseRead_now]
  rw [← hd]
  refine (if_neg (by simp [hs, hctl])).trans (if_pos ?_)
  rcases h with h | h
  · simp [h]
  · rw [PairSt.Stands] at h
    simp [h]

section
variable {t : Nat} (hseen : e.pair.seenAt = some t) (hst : e.pair.Stands w)
include hseen hst

/-- A lease that has not expired, or heartbeats that go on. -/
theorem Eng.leasePoll_waits (h : e.passed t 50000 = false ∨ e.heartsLost = false) : e.leasePoll w = e.leaseRead := by
  refine (if_neg (by simp [hs, hctl])).trans ((if_neg ?_).trans (if_pos ?_))
  · rw [PairSt.Stands] at hst
    simp [hseen, hst]
  · have hp := e.leaseRead_passed t 50000
    have hh := e.leaseRead_heartsLost
    rw [Eng.leaseRead] at hp hh
    rcases h with h | h <;> simp [hseen, hp, hh, h]

/-- The lease has expired and the heartbeats are lost: the standby claims the word (R444). -/
theorem Eng.leasePoll_claims (hp : e.passed t 50000 = true) (hh : e.heartsLost = true) (hstate : e.pair.state = .standby)
    (hstep : e.pwr.step = .none) (hop : e.pair.op = none) (htries : e.pair.tries = 0) :
    e.leasePoll w = e.leaseRead.leaseSend .claim (leaseWord (e.pair.epoch + 1) 0 e.off.engineId) := by
  have hpassed := e.leaseRead_passed t 50000
  have hlost := e.leaseRead_heartsLost
  have hidle : e.leaseRead.pwr.step = .none := by rw [Eng.leaseRead_pwr, hstep]
  rw [PairSt.Stands] at hst
  rw [← e.leaseRead_off]
  rw [Eng.leaseRead] at hpassed hlost hidle ⊢
  refine (if_neg (by simp [hs, hctl])).trans ((if_neg (by simp [hseen, hst])).trans
    ((if_neg (by simp [hseen, hpassed, hlost, hp, hh])).trans ((if_neg (by simp [hstate])).trans ?_)))
  rw [hidle]
  exact if_neg (by simp [hop, htries])

end

end

theorem Eng.leaseSend_read (op : LeaseOp) (new : BitVec 64) : e.leaseRead.leaseSend op new =
    (({ e.leaseRead with pair := { e.pair with op := some op, opWord := new, opAt := e.now } } : Eng).tal
      (e.pair.leaseEvent 0x204 8)).emit (.leaseCas e.pair.word new) := by
  simp only [Eng.leaseSend, Eng.modPair, Eng.leaseRead_pair, Eng.leaseRead_now]

end

/-- Settles O44: each timer, message and swap by the state of the pair. -/
theorem heartbeatsAndLease : Obligations.HeartbeatsAndLease := by
  unfold Obligations.HeartbeatsAndLease
  refine ⟨fun s => ?_, fun s => ?_⟩
  · intro e x alone stale
    refine ⟨fun hb => ?_, fun hb => ?_, fun h hb hl => ⟨fun hs => ?_, fun hs => ?_⟩, fun h hb hs hl hr hn => ⟨fun ha => ?_, fun ha hw hg => ?_⟩,
      fun hb => ⟨fun hs => ?_, fun hs => ?_, fun hs => ?_, fun hs => ?_⟩⟩
    · exact State.does_eq_after (Eng.heartbeat_sends (e := s.eng.clear) hb)
    · obtain ⟨htimer, hloss, hrx⟩ := Eng.heartbeat_silent (e := s.eng.clear) hb
      exact ⟨State.does_eq_after htimer, State.does_eq_after hloss, fun h => State.does_eq_after (hrx h)⟩
    · exact State.does_eq_after ((Eng.rxHeartbeat_going (e := s.eng.clear) hb h hl).trans (if_neg (by simpa using hs)))
    · exact State.does_eq_after ((Eng.rxHeartbeat_going (e := s.eng.clear) hb h hl).trans (if_pos (by simpa using hs)))
    · exact State.does_eq_after ((Eng.rxHeartbeat_resyncs (e := s.eng.clear) hb h hs hl hr hn ha).trans (Eng.startResync_active hs))
    · exact State.does_eq_after (Eng.rxHeartbeat_waits (e := s.eng.clear) hb h hs hl hr hn ha hw hg)
    · exact State.does_eq_after (Eng.heartbeatLoss_active (e := s.eng.clear) hb hs)
    · exact State.does_eq_after (Eng.heartbeatLoss_standby (e := s.eng.clear) hb hs)
    · exact State.does_eq_after (Eng.heartbeatLoss_alone (e := s.eng.clear) hb hs)
    · exact State.does_eq_after (Eng.heartbeatLoss_stale (e := s.eng.clear) hb hs)
  · intro e x swap fault
    refine ⟨fun hs hctl hop => ?_, fun h => ?_, fun hs => ?_, fun hs ha => ?_, fun r hop => ?_, fun hop => ⟨?_, fun w hw => ?_, ?_⟩,
      fun hop => ⟨?_, fun w hw => ?_⟩, fun w h => ?_, fun w hs hctl => ⟨fun h => ⟨fun hep => ?_, fun hep => ?_⟩,
        fun t hseen hst hp => ?_, fun t hseen hst hp hh hstate hstep hop htries => ?_, fun t hseen hst hh => ?_⟩,
      fun ep hs => ?_, fun ep hs => ?_, fun ha => ?_, fun ha hstep hs => ?_⟩
    · exact State.does_eq_after (Eng.leaseRenew_swaps (e := s.eng.clear) hs hctl hop)
    · exact State.does_eq_after (Eng.leaseRenew_idle (e := s.eng.clear) h)
    · exact State.does_eq_after (Eng.leaseFence_fences (e := s.eng.clear) hs)
    · exact State.does_eq_after (Eng.leaseFence_idle (e := s.eng.clear) hs ha)
    · exact State.does_eq_after (Eng.leaseDone_none (e := s.eng.clear) hop r)
    · exact State.does_eq_after (Eng.leaseDone_renewed (e := s.eng.clear) hop)
    · exact State.does_eq_after (Eng.leaseDone_renew_lost (e := s.eng.clear) hop hw)
    · exact State.does_eq_after (Eng.leaseDone_renew_error (e := s.eng.clear) hop)
    · exact State.does_eq_after (Eng.leaseDone_claimed (e := s.eng.clear) hop)
    · exact State.does_eq_after (Eng.leaseDone_claim_lost (e := s.eng.clear) hop hw)
    · exact State.does_eq_after (Eng.leasePoll_idle (e := s.eng.clear) h w)
    · exact State.does_eq_after ((Eng.leasePoll_new (e := s.eng.clear) hs hctl h).trans (if_pos hep))
    · exact State.does_eq_after ((Eng.leasePoll_new (e := s.eng.clear) hs hctl h).trans (if_neg hep))
    · exact State.does_eq_after (Eng.leasePoll_waits (e := s.eng.clear) hs hctl hseen hst (.inl hp))
    · exact State.does_eq_after ((Eng.leasePoll_claims (e := s.eng.clear) hs hctl hseen hst hp hh hstate hstep hop htries).trans
        (Eng.leaseSend_read _ _))
    · exact State.does_eq_after (Eng.leasePoll_waits (e := s.eng.clear) hs hctl hseen hst (.inr hh))
    · exact State.does_eq_after (Eng.rxHandover_takes (e := s.eng.clear) hs ep)
    · exact State.does_eq_after (Eng.rxHandover_other (e := s.eng.clear) hs ep)
    · exact State.does_eq_after (Eng.wakeEvent_unarmed (e := s.eng.clear) ha 0 0)
    · exact State.does_eq_after (Eng.pairWakeMsg_wakes (e := s.eng.clear) ha hstep hs)

end Sys2Proof.Machine
end

section
/-! PROOF. What one step runs, and what release of BLK_RST_N leaves (R67, R68, R92, R120, R153, R205, R243, R359, R430, R435,
R473). -/
namespace Sys2Proof.Machine

/-- Settles O1: both clauses are `step` on a queue of each shape. -/
theorem stepRunsTheFrontCommand : Obligations.StepRunsTheFrontCommand := by
  unfold Obligations.StepRunsTheFrontCommand
  refine ⟨fun c rest s => rfl, fun s h => ?_⟩
  unfold step
  rw [h]

/-! ### Reset: no table holds an entry, so each object is read at its reset value -/

theorem portOf_reset (p : PortId) : State.reset.eng.portOf p = p := by
  revert p; decide

theorem port_reset (p : PortId) : State.reset.eng.port p = Port.reset p.val := rfl

/-- The cage that a slot's port has is the slot's own (R67). -/
theorem Port.reset_cage (p : PortId) : (Port.reset p.val).cage.val = p.val := Nat.mod_eq_of_lt p.isLt

theorem fn_reset_zero : State.reset.eng.fn 0 = FnState.reset 0 := rfl

theorem fn_reset_other {f : Fn} (h : f ≠ 0) : State.reset.eng.fn f = {} :=
  if_neg fun hv => h (Fin.ext hv)

/-- Settles O2: the fields of the engine at reset, then those of a port, of F0 and of another function. -/
theorem resetState : Obligations.ResetState := by
  unfold Obligations.ResetState
  refine ⟨rfl, rfl, rfl, rfl, rfl, rfl, rfl, rfl, rfl, rfl, rfl, rfl, rfl, rfl, rfl, rfl, rfl, rfl, rfl, rfl, rfl, rfl, rfl,
    fun p => ?_, fun f => ?_⟩
  · rw [port_reset]
    exact ⟨portOf_reset p, rfl, rfl, Port.reset_cage p, rfl, rfl, rfl, rfl, rfl, rfl, rfl, rfl, rfl, rfl, rfl, rfl, rfl, rfl, rfl, rfl⟩
  · by_cases hf : f = 0
    · subst hf
      rw [fn_reset_zero]
      exact ⟨rfl, rfl, rfl, rfl, rfl, rfl, rfl, rfl, rfl⟩
    · rw [fn_reset_other hf]
      simp [hf]

end Sys2Proof.Machine
end

section
/-! PROOF. A function's accesses of its own window in RUN: doorbells, head updates, quench and the mailbox's registers (R31, R33,
R35 to R37, R42, R47, R49, R158, R183 to R185). -/
namespace Sys2Proof.Machine

/-! ### Writes of a function's own registers -/

/-- A write in a function's window in RUN on a member that is no standby, of any register but MBX_IRQ, the one of a function's
that the journal carries. -/
theorem State.access_window {s : State} {a : Csr} (hw : a.win = false) (ha : csrOk a = true) (hreg : csrReg a ≠ 0x11210)
    (h : s.eng.Open a.fn) (he : (s.eng.fn a.fn).enabled = true) (hs : s.eng.standby = false) :
    s.access true a = .next (s.after
      ((s.eng.touch a.fn).fnWrite a.fn (csrReg a) (csrVal a) (csrMask a) (!csrHigh a))) := by
  have hc : (s.eng.touch a.fn).regChanges a = [] := by simp [Eng.regChanges, mirroredReg, hw, hreg]
  rw [State.access_open h, Eng.csrRun_write _ _ ha (by simp [hw]), Eng.pairWrite_own _ _ (by simpa using hs) hc]
  simp [Eng.regWrite, hw, he]

/-- The word that a doorbell writes carries the index in its low 16 bits. -/
theorem ofNat_word_toNat (p : BitVec 16) : BitVec.ofNat 16 (BitVec.ofNat 64 p.toNat).toNat = p := by
  apply BitVec.eq_of_toNat_eq
  simp only [BitVec.toNat_ofNat]
  omega

/-- HEAD and ARM of a word written to DBL_EQ (R183, R185). -/
theorem dblEq_head (p : BitVec 16) (arm : Bool) :
    BitVec.ofNat 16 (BitVec.ofNat 64 (p.toNat + 65536 * b2n arm)).toNat = p := by
  have := b2n_lt_two arm
  apply BitVec.eq_of_toNat_eq
  simp only [BitVec.toNat_ofNat]
  omega

theorem dblEq_arm (p : BitVec 16) (arm : Bool) : bitAt (BitVec.ofNat 64 (p.toNat + 65536 * b2n arm)).toNat 16 = arm := by
  have hfld : (BitVec.ofNat 64 (p.toNat + 65536 * b2n arm)).toNat >>> 16 % 2 = b2n arm := by
    have := b2n_lt_two arm
    rw [Nat.shiftRight_eq_div_pow, BitVec.toNat_ofNat]
    omega
  rw [bitAt, hfld]
  cases arm <;> rfl

section
variable {s : State} {f : Fn} (h : s.eng.Open f) (he : (s.eng.fn f).enabled = true) (hs : s.eng.standby = false)
include h he hs

/-- A 64-bit write of a function's register. -/
theorem State.access_fnAcc {o : Nat} (h8 : o % 8 = 0) (ho : o < 2 ^ 22) (hne : o ≠ 0x11210) (v : Nat) :
    s.access true (fnAcc f o v) = .next (s.after ((s.eng.touch f).fnWrite f o (BitVec.ofNat 64 v) 0xFFFFFFFFFFFFFFFF true)) := by
  have hreg : csrReg (fnAcc f o v) = o := csrReg_fnAcc h8 ho v
  rw [State.access_window rfl (csrOk_fnAcc h8 v) (by rwa [hreg]) h he hs, hreg, csrVal_fnAcc]
  rfl

theorem State.txDoorbell_open (n : Fin 4096) (p : BitVec 16) :
    exec (.txDoorbell f n p) s = .next (s.after ((s.eng.touch f).txBell f n.val p)) := by
  have hacc : exec (.txDoorbell f n p) s = s.access true (fnAcc f (8 * n.val) p.toNat) := rfl
  rw [hacc, State.access_fnAcc h he hs (by omega) (by omega) (by omega), Eng.fnWrite, if_pos (by omega), if_pos rfl,
    Nat.mul_div_cancel_left _ (by decide), ofNat_word_toNat]

theorem State.rxDoorbell_open (n : Fin 4096) (p : BitVec 16) :
    exec (.rxDoorbell f n p) s = .next (s.after ((s.eng.touch f).rxBell f n.val p)) := by
  have hacc : exec (.rxDoorbell f n p) s = s.access true (fnAcc f (0x8000 + 8 * n.val) p.toNat) := rfl
  rw [hacc, State.access_fnAcc h he hs (by omega) (by omega) (by omega), Eng.fnWrite, if_neg (by omega), if_pos (by omega),
    if_pos rfl, Nat.add_sub_cancel_left, Nat.mul_div_cancel_left _ (by decide), ofNat_word_toNat]

/-- A write of DBL_EQ, with ARM as it is given. -/
theorem State.access_dblEq (n : Fin 512) (p : BitVec 16) (arm : Bool) :
    s.access true (fnAcc f (0x10000 + 8 * n.val) (p.toNat + 65536 * b2n arm)) =
      .next (s.after ((s.eng.touch f).eqWrite f n.val p arm)) := by
  rw [State.access_fnAcc h he hs (by omega) (by omega) (by omega), Eng.fnWrite, if_neg (by omega), if_neg (by omega),
    if_pos (by omega), if_pos rfl, Nat.add_sub_cancel_left, Nat.mul_div_cancel_left _ (by decide), dblEq_head, dblEq_arm]

theorem State.eqHeadUpdate_open (n : Fin 512) (p : BitVec 16) :
    exec (.eqHeadUpdate f n p) s = .next (s.after ((s.eng.touch f).eqWrite f n.val p false)) :=
  State.access_dblEq h he hs n p false

theorem State.eqArm_open (n : Fin 512) (p : BitVec 16) :
    exec (.eqArm f n p) s = .next (s.after ((s.eng.touch f).eqWrite f n.val p true)) :=
  State.access_dblEq h he hs n p true

theorem State.quench_open (on : Bool) :
    exec (.quench f on) s = .next (s.after ((s.eng.touch f).quenchTo f on (s.eng.fn f).admin)) := by
  have hacc : exec (.quench f on) s = s.access true (fnAcc f 0x11400 (b2n on)) := rfl
  have hbit : bitAt (BitVec.ofNat 64 (b2n on)).toNat 0 = on := by cases on <;> rfl
  rw [hacc, State.access_fnAcc h he hs (by decide) (by decide) (by decide)]
  simp [Eng.fnWrite, hbit, -BitVec.toNat_ofNat]

end

/-- F0's write of a function's QCH_ADMIN in RUN. -/
theorem State.adminQuench_open {s : State} {f : Fn} (h : s.eng.Open 0) (hs : s.eng.standby = false) (hf : f ≠ 0) (on : Bool) :
    exec (.adminQuench f on) s = .next (s.after ((s.eng.touch 0).quenchTo f (s.eng.fn f).quench on)) := by
  have hacc : exec (.adminQuench f on) s = s.access true (f0Write (0x100000 + 8 * f.val) (b2n on)) := rfl
  have hpos : 0 < f.val := Nat.pos_of_ne_zero fun hv => hf (Fin.ext hv)
  have h8 : (0x100000 + 8 * f.val) % 8 = 0 := by omega
  have hreg : csrReg (f0Write (0x100000 + 8 * f.val) (b2n on)) = 0x100000 + 8 * f.val := csrReg_f0Write h8 _ (by omega)
  have hc (e : Eng) : e.regChanges (f0Write (0x100000 + 8 * f.val) (b2n on)) = [] := by
    have hwin : (f0Write (0x100000 + 8 * f.val) (b2n on)).win = true := rfl
    have hm : mirroredReg (f0Write (0x100000 + 8 * f.val) (b2n on)) = false := by
      simp only [mirroredReg, hreg, hwin, if_true, Bool.or_eq_false_iff, decide_eq_false_iff_not, beq_eq_false_iff_ne]
      omega
    simp only [Eng.regChanges, hm, hreg, hwin, Bool.false_eq_true, if_false]
    exact if_neg (by omega)
  have hfn : fin 2048 ((0x100000 + 8 * f.val - 0x100000) / 8) = f := by
    rw [Nat.add_sub_cancel_left, Nat.mul_div_cancel_left _ (by decide), fin_val]
  have hbit : bitAt (BitVec.ofNat 64 (b2n on)).toNat 0 = on := by cases on <;> rfl
  rw [hacc, State.access_f0Write h8 h hs _ (.inr hc), Eng.regWrite_f0Write h8 (by omega), Eng.engineWrite, if_neg (by omega),
    if_neg (by omega), if_neg (by simp [h.ready]), if_neg (by omega), if_neg (by omega), if_pos (by omega), hfn, hbit]
  simp

/-! ### Doorbells -/

section
variable {e : Eng} {f : Fn} {n : Nat} (p : BitVec 16)

theorem bellOk_iff {cons prod : BitVec 16} {size : Nat} :
    bellOk p cons prod size = true ↔ (p - cons).toNat ≤ size - 1 ∧ (prod - cons).toNat ≤ (p - cons).toNat := by
  simp [bellOk]

theorem Eng.txBell_none (hq : e.txqOf f n = none) : e.txBell f n p = e.badAccess f (8 * n) := by
  unfold Eng.txBell
  rw [hq]

theorem Eng.rxBell_none (hq : e.rxqOf f n = none) : e.rxBell f n p = e.badAccess f (0x8000 + 8 * n) := by
  unfold Eng.rxBell
  rw [hq]

section
variable {q : TxqId} {x : Txq} (hq : e.txqOf f n = some q) (hx : e.txq q = some x)
include hq hx

theorem Eng.txBell_accepts (hok : bellOk p x.cons x.prod x.size = true) : e.txBell f n p =
    (let d := e.tal { code := 0x201, dir := some .tx, fn := some f, orig := some .host }
     if p = x.prod then d else (d.setTxq q (some { x with prod := p, bells := x.bells ++ [(p, e.now)] })).txFetch q) := by
  simp only [Eng.txBell, hq, hx, hok, if_true, Eng.tal_reads]

theorem Eng.txBell_rejects (hok : ¬ bellOk p x.cons x.prod x.size = true) : e.txBell f n p =
    (e.setTxq q (some { x with rejects := sat64 (x.rejects + 1) })).badAccess f (8 * n) := by
  simp only [Eng.txBell, hq, hx, if_neg hok]

end

section
variable {q : RxqId} {x : Rxq} (hq : e.rxqOf f n = some q) (hx : e.rxq q = some x)
include hq hx

theorem Eng.rxBell_accepts (hok : bellOk p x.cons x.prod x.size = true) : e.rxBell f n p =
    (let d := e.tal { code := 0x201, dir := some .rx, fn := some f, orig := some .host }
     if p = x.prod then d else (d.setRxq q (some { x with prod := p })).rxFetch q) := by
  simp only [Eng.rxBell, hq, hx, hok, if_true]

theorem Eng.rxBell_rejects (hok : ¬ bellOk p x.cons x.prod x.size = true) : e.rxBell f n p =
    (e.setRxq q (some { x with rejects := sat64 (x.rejects + 1) })).badAccess f (0x8000 + 8 * n) := by
  simp only [Eng.rxBell, hq, hx, if_neg hok]

end

end

/-- Settles O10: an index is accepted where `bellOk` holds, and the queue named decides whether there is one to accept it. -/
theorem doorbellsAcceptAnIndexInRange : Obligations.DoorbellsAcceptAnIndexInRange := by
  unfold Obligations.DoorbellsAcceptAnIndexInRange
  intro s f n p h he hs
  rw [State.txDoorbell_open h he hs, State.rxDoorbell_open h he hs]
  refine ⟨fun q x hq hx => ?_, fun hq => ?_, fun q x hq hx => ?_, fun hq => ?_⟩
  · have hq' : (s.eng.touch f).txqOf f n.val = some q := by simpa using hq
    have hx' : (s.eng.touch f).txq q = some x := by simpa using hx
    refine ⟨fun hn hne => ?_, fun hn heq => ?_, fun hn => ?_⟩
    · rw [Eng.txBell_accepts p hq' hx' ((bellOk_iff p).mpr hn), if_neg hne]
      simp
    · rw [Eng.txBell_accepts p hq' hx' ((bellOk_iff p).mpr hn), if_pos heq]
    · rw [Eng.txBell_rejects p hq' hx' (mt (bellOk_iff p).mp hn)]
  · rw [Eng.txBell_none p (by simpa using hq)]
  · have hq' : (s.eng.touch f).rxqOf f n.val = some q := by simpa using hq
    have hx' : (s.eng.touch f).rxq q = some x := by simpa using hx
    refine ⟨fun hn hne => ?_, fun hn heq => ?_, fun hn => ?_⟩
    · rw [Eng.rxBell_accepts p hq' hx' ((bellOk_iff p).mpr hn), if_neg hne]
    · rw [Eng.rxBell_accepts p hq' hx' ((bellOk_iff p).mpr hn), if_pos heq]
    · rw [Eng.rxBell_rejects p hq' hx' (mt (bellOk_iff p).mp hn)]
  · rw [Eng.rxBell_none p (by simpa using hq)]

/-! ### Head updates -/

section
variable {e : Eng} {i : EqId} {q : Evq} (hx : e.eq_ i = some q) (h : BitVec 16)
include hx

/-- The events up to a head accepted are consumed; what follows is due only where the head moves. -/
theorem Eng.moveHead_eq : e.moveHead i h =
    (let k := (h - q.head).toNat
     let d := e.setEq i (some { q with head := h, evs := q.evs.filter (fun v => decide (k ≤ (v.pos - q.head).toNat)) })
     if 0 < k then (if q.overflow = true ∧ d.waitOf (.eq i) = none then d.leaveOverflow i
       else foldEng (q.evs.filter (fun v => !decide (k ≤ (v.pos - q.head).toNat))) (fun e v => e.headPast v) d) else d) := by
  unfold Eng.moveHead
  rw [hx]
  simp [Nat.pos_iff_ne_zero, ite_not]

/-- The head written again consumes nothing. -/
theorem Eng.moveHead_same : e.moveHead i q.head = e.setEq i (some q) := by
  rw [Eng.moveHead_eq hx]
  simp

theorem Eng.armEq_unarmed (ha : q.armed = none) : e.armEq i = (e.setEq i (some { q with armed := some e.now })).evRaise i := by
  unfold Eng.armEq
  simp [hx, ha]

end

theorem Eng.setEq_setEq (e : Eng) (i : EqId) (v w : Evq) : (e.setEq i (some v)).setEq i (some w) = e.setEq i (some w) := by
  unfold Eng.setEq
  simp only [Tab.put_put _ _ _ (Option.some_ne_none v) (Option.some_ne_none w)]

section
variable {e : Eng} {f : Fn} {n : Nat} {i : EqId} {q : Evq} (hi : e.eqOf f n = some i) (hx : e.eq_ i = some q) (h : BitVec 16)
include hi hx

theorem Eng.eqWrite_accepts (hok : (h - q.head).toNat ≤ (q.tail - q.head).toNat) (arm : Bool) :
    e.eqWrite f n h arm = if arm then (e.moveHead i h).armEq i else e.moveHead i h := by
  unfold Eng.eqWrite
  rw [hi]
  simp only [hx]
  exact if_pos (decide_eq_true hok)

theorem Eng.eqWrite_refuses (hbad : (q.tail - q.head).toNat < (h - q.head).toNat) (arm : Bool) :
    e.eqWrite f n h arm = e.badAccess f (0x10000 + 8 * n) := by
  unfold Eng.eqWrite
  rw [hi]
  simp only [hx]
  exact if_neg fun hok => absurd (of_decide_eq_true hok) (Nat.not_le.mpr hbad)

end

/-- Settles O11: a head in range moves the head, and ARM then arms; any other is refused, whatever ARM is. -/
theorem headUpdatesConsumeAndArm : Obligations.HeadUpdatesConsumeAndArm := by
  unfold Obligations.HeadUpdatesConsumeAndArm
  intro s f n h i q ho he hs hi hx
  rw [State.eqHeadUpdate_open ho he hs, State.eqArm_open ho he hs]
  have hi' : (s.eng.touch f).eqOf f n.val = some i := by simpa using hi
  have hx' : (s.eng.touch f).eq_ i = some q := by simpa using hx
  refine ⟨fun hk => ⟨?_, ?_, fun hh ha => ?_⟩, fun hk => ⟨?_, ?_⟩⟩
  · rw [Eng.eqWrite_accepts hi' hx' h hk, Eng.moveHead_eq hx' h]
    rfl
  · rw [Eng.eqWrite_accepts hi' hx' h hk, Eng.moveHead_eq hx' h]
    rfl
  · subst hh
    rw [Eng.eqWrite_accepts hi' hx' _ hk, if_pos rfl, Eng.moveHead_same hx',
      Eng.armEq_unarmed (Eng.eq__setEq _ _ _) ha, Eng.setEq_setEq]
    simp
  · rw [Eng.eqWrite_refuses hi' hx' h hk]
  · rw [Eng.eqWrite_refuses hi' hx' h hk]

/-! ### Quench -/

/-- What a write of a function's bits does: the function is quenched while either is 1 (R36). -/
theorem Eng.quenchTo_eq (e : Eng) (f : Fn) (own admin : Bool) : e.quenchTo f own admin =
    (let x := e.fn f
     let d := e.setFn f { x with quench := own, admin := admin }
     if (own || admin) && !(x.quench || x.admin) then d.quenchOn f
     else if (x.quench || x.admin) && !(own || admin) then d.quenchOff f else d) := by
  unfold Eng.quenchTo
  simp only [Eng.fn_modFn, FnState.quenched]
  rfl

/-- Settles O12: either command writes one of the two bits and leaves the other. -/
theorem quenchBits : Obligations.QuenchBits := by
  unfold Obligations.QuenchBits
  refine fun s f on hs => ⟨fun h he => ?_, fun h hf => ?_⟩
  · rw [State.quench_open h he hs, Eng.quenchTo_eq]
    simp
  · rw [State.adminQuench_open h hs hf, Eng.quenchTo_eq]
    simp

/-! ### MBX_REQ -/

/-- A word put into a register area at bit `i`. -/
def atBit (n i : Nat) (v : BitVec 64) : BitVec n := v.setWidth n <<< i

section
variable {n : Nat} (i : Nat)

theorem ofNat_mul_two_pow (v : BitVec 64) : BitVec.ofNat n (v.toNat * 2 ^ i) = atBit n i v := by
  apply BitVec.eq_of_toNat_eq
  simp [atBit, Nat.shiftLeft_eq]

theorem getLsbD_atBit (v : BitVec 64) (j : Nat) : (atBit n i v).getLsbD j = (decide (j < n) && (!decide (j < i) && v.getLsbD (j - i))) := by
  simp only [atBit, BitVec.getLsbD_shiftLeft, BitVec.getLsbD_setWidth]
  by_cases hj : j < n
  · have : j - i < n := by omega
    simp [hj, this]
  · simp [hj]

/-- The bits of `m` of the word at bit `i` are written within the word as it is: the area's other bits stay. -/
theorem atBit_mix (r : BitVec n) (w m : BitVec 64) :
    (r &&& ~~~ atBit n i (BitVec.allOnes 64)) ||| atBit n i ((BitVec.ofNat 64 (fld r.toNat i 64) &&& ~~~m) ||| w) =
      (r &&& ~~~ atBit n i m) ||| atBit n i w := by
  have hpart : BitVec.ofNat 64 (fld r.toNat i 64) = r.extractLsb' i 64 := by
    apply BitVec.eq_of_toNat_eq
    simp [fld]
  rw [hpart]
  refine BitVec.eq_of_getLsbD_eq fun j hj => ?_
  simp only [BitVec.getLsbD_or, BitVec.getLsbD_and, BitVec.getLsbD_not, getLsbD_atBit, BitVec.getLsbD_allOnes,
    BitVec.getLsbD_extractLsb', hj, decide_true, Bool.true_and]
  by_cases hi : j < i
  · simp [hi]
  by_cases h64 : j - i < 64
  · have hsum : i + (j - i) = j := by omega
    simp [hi, h64, hsum]
  · have hge : 64 ≤ j - i := by omega
    simp [hi, h64, BitVec.getLsbD_of_ge _ _ hge]

/-- A word's low half 32 bits further up is the word's low half put 32 bits further on. -/
theorem atBit_high (v : BitVec 64) : atBit n i ((v &&& 0xFFFFFFFF) <<< 32) = atBit n (i + 32) (v &&& 0xFFFFFFFF) := by
  refine BitVec.eq_of_getLsbD_eq fun j hj => ?_
  have hlow (k : Nat) : (0xFFFFFFFF : BitVec 64).getLsbD k = decide (k < 32) := by
    have hones : (0xFFFFFFFF : BitVec 64) = (BitVec.allOnes 32).setWidth 64 := rfl
    rw [hones, BitVec.getLsbD_setWidth, BitVec.getLsbD_allOnes, Bool.and_eq_right_iff_imp]
    simp only [decide_eq_true_eq]
    omega
  simp only [getLsbD_atBit, BitVec.getLsbD_shiftLeft, BitVec.getLsbD_and, hlow, Nat.sub_sub]
  by_cases h1 : j < i
  · have : j < i + 32 := by omega
    simp [h1, this]
  · by_cases h2 : j < i + 32
    · have : j - i < 32 := by omega
      simp [h2, this]
    · by_cases h3 : j - i < 64
      · have : ¬ j - i < 32 := by omega
        simp [hj, h1, h2, h3, this]
      · have : ¬ j - (i + 32) < 32 := by omega
        simp [hj, h1, h2, h3, this]

end

/-- The bits that an access of `size` bytes writes. -/
def sizeMask (size : Nat) : BitVec 64 := if size = 8 then -1 else 0xFFFFFFFF

/-- An access of the upper half of a register. -/
theorem csr_upper {a : Csr} (hs : a.size = 4) (ho : a.off.toNat % 8 = 4) :
    csrMask a = (BitVec.allOnes 64 &&& 0xFFFFFFFF) <<< 32 ∧ csrVal a = (a.data &&& 0xFFFFFFFF) <<< 32 := by
  have hhigh : csrHigh a = true := by simp [csrHigh, hs, ho]
  have hm : csrMask a = (BitVec.allOnes 64 &&& 0xFFFFFFFF) <<< 32 := by
    unfold csrMask
    rw [if_neg (by omega), if_pos hhigh]
    rfl
  refine ⟨hm, ?_⟩
  rw [csrVal, if_pos hhigh, hm, BitVec.allOnes_and, BitVec.shiftLeft_and_distrib]

/-- An access of a register, or of its lower half. -/
theorem csr_lower {a : Csr} (h : ¬ (a.size = 4 ∧ a.off.toNat % 8 = 4)) :
    csrMask a = sizeMask a.size ∧ csrVal a = a.data &&& sizeMask a.size := by
  have hhigh : csrHigh a = false := by simpa [csrHigh] using h
  have hm : csrMask a = sizeMask a.size := by
    simp only [csrMask, sizeMask, hhigh, Bool.false_eq_true, if_false]
    rfl
  refine ⟨hm, ?_⟩
  rw [csrVal, if_neg (by simp [hhigh]), hm]

/-- The access of MBX_REQ_WRITE. -/
def reqAcc (f : Fn) (off : Fin 256) (size : Nat) (data : BitVec 64) : Csr :=
  { fn := f, win := false, off := BitVec.ofNat 22 (0x11000 + off.val), size := size, data := data }

section
variable (f : Fn) {off : Fin 256} {size : Nat} (data : BitVec 64) (ha : size = 8 ∧ off.val % 8 = 0 ∨ size = 4 ∧ off.val % 4 = 0)

theorem off_reqAcc : (reqAcc f off size data).off.toNat = 0x11000 + off.val := by
  simp only [reqAcc, BitVec.toNat_ofNat]
  omega

theorem csrReg_reqAcc : csrReg (reqAcc f off size data) = 0x11000 + off.val / 8 * 8 := by
  rw [csrReg, off_reqAcc]
  omega

include ha

theorem csrOk_reqAcc : csrOk (reqAcc f off size data) = true := by
  have hsize : (reqAcc f off size data).size = size := rfl
  simp only [csrOk, hsize, off_reqAcc, Bool.or_eq_true, Bool.and_eq_true, beq_iff_eq, decide_eq_true_eq]
  omega

/-- The word that the access writes, and its mask, where they stand in MBX_REQ. -/
theorem atBit_reqAcc (n : Nat) :
    atBit n (8 * (csrReg (reqAcc f off size data) - 0x11000)) (csrMask (reqAcc f off size data)) = atBit n (8 * off.val) (sizeMask size) ∧
    atBit n (8 * (csrReg (reqAcc f off size data) - 0x11000)) (csrVal (reqAcc f off size data)) =
      atBit n (8 * off.val) (data &&& sizeMask size) := by
  have hsize : (reqAcc f off size data).size = size := rfl
  have hdata : (reqAcc f off size data).data = data := rfl
  have hoff := off_reqAcc (size := size) f (off := off) data
  rw [csrReg_reqAcc, Nat.add_sub_cancel_left]
  by_cases hhigh : size = 4 ∧ off.val % 8 = 4
  · have hi : 8 * off.val = 8 * (off.val / 8 * 8) + 32 := by omega
    obtain ⟨hm, hv⟩ := csr_upper (a := reqAcc f off size data) (by omega) (by omega)
    have hones : (BitVec.allOnes 64 &&& 0xFFFFFFFF) = sizeMask size := by rw [hhigh.1]; rfl
    have hmask : sizeMask size = 0xFFFFFFFF := by rw [hhigh.1]; rfl
    rw [hm, hv, hdata, atBit_high, atBit_high, ← hi, hones, hmask]
    exact ⟨rfl, rfl⟩
  · have hi : 8 * (off.val / 8 * 8) = 8 * off.val := by omega
    obtain ⟨hm, hv⟩ := csr_lower (a := reqAcc f off size data) (by omega)
    rw [hm, hv, hdata, hsize, hi]
    exact ⟨rfl, rfl⟩

end

/-- MBX_REQ takes the bits written while no command is in flight (R47). -/
theorem Eng.fnWrite_req {e : Eng} {f : Fn} {o : Nat} (hlo : 0x11000 ≤ o) (hhi : o < 0x11100) (hc : (e.fn f).cmd = none)
    (w m : BitVec 64) (lo : Bool) : e.fnWrite f o w m lo = e.setFn f { e.fn f with
      req := ((e.fn f).req &&& ~~~ atBit 2048 (8 * (o - 0x11000)) m) ||| atBit 2048 (8 * (o - 0x11000)) w } := by
  rw [Eng.fnWrite, if_neg (by omega), if_neg (by omega), if_neg (by omega), if_pos hhi, if_neg (by simp [hc]), ← atBit_mix,
    ← ofNat_mul_two_pow, ← ofNat_mul_two_pow]
  rfl

/-- While a command is in flight MBX_REQ is read-only to the function (R47). -/
theorem Eng.fnWrite_req_busy {e : Eng} {f : Fn} {o : Nat} (hlo : 0x11000 ≤ o) (hhi : o < 0x11100) {c : Cmd} (hc : (e.fn f).cmd = some c)
    (w m : BitVec 64) (lo : Bool) : e.fnWrite f o w m lo = (e.setFn f { e.fn f with overrun := true }).badMailbox f o := by
  rw [Eng.fnWrite, if_neg (by omega), if_neg (by omega), if_neg (by omega), if_pos hhi, if_pos (by simp [hc])]
  simp [Eng.overrun, hc, Eng.modFn]

/-- MBX_RSP is read-only (R47). -/
theorem Eng.fnWrite_rsp {e : Eng} {f : Fn} {o : Nat} (hlo : 0x11100 ≤ o) (hhi : o < 0x11200) (w m : BitVec 64) (lo : Bool) :
    e.fnWrite f o w m lo = e := by
  rw [Eng.fnWrite, if_neg (by omega), if_neg (by omega), if_neg (by omega), if_neg (by omega), if_pos hhi]

/-! ### MBX_GO -/

section
variable {e : Eng} {f : Fn}

/-- The 63 places that F1 to F2047 share are taken (R49). -/
theorem Eng.mbxGo_full (hr : e.ctl.ready = true) (hc : (e.fn f).cmd = none) (hf : f ≠ 0) (hp : 63 ≤ e.sharedPlaces) :
    e.mbxGo f = ((e.mbxAdmit f).tal { code := 0x702, fn := some f }).answer f stBusy 0 :=
  (if_neg (by simp [hr, hc])).trans (if_pos ⟨hf, hp⟩)

theorem Eng.mbxGo_unready (hr : e.ctl.ready = false) (hc : (e.fn f).cmd = none) :
    e.mbxGo f = e.setFn f { e.fn f with overrun := true } := by
  refine (if_pos (.inr hr)).trans ?_
  simp [Eng.overrun, hc, Eng.modFn]

theorem Eng.mbxGo_busy {c : Cmd} (hc : (e.fn f).cmd = some c) :
    e.mbxGo f = (e.setFn f { e.fn f with overrun := true }).badMailbox f 0x11200 := by
  refine (if_pos (.inl (by simp [hc]))).trans ?_
  simp [Eng.overrun, hc, Eng.modFn]

end

/-- Settles O13: a write of MBX_REQ by whether a command is in flight, GO by what `Eng.mbxGo` finds, and MBX_RSP read-only. -/
theorem mailboxRequests : Obligations.MailboxRequests := by
  unfold Obligations.MailboxRequests
  refine ⟨fun s f off size data h he hs ha => ?_, fun s f h he hs => ⟨fun hc hr hp => ?_, fun hc hr hf hp => ?_, fun hc hr => ?_,
    fun c hc => ?_, fun a hf hw hlo hhi ha hj => ?_⟩⟩
  · have hacc : exec (.mbxReqWrite f off size data) s = s.access true (reqAcc f off size data) := rfl
    have hreg := csrReg_reqAcc (size := size) f (off := off) data
    rw [hacc, State.access_window (a := reqAcc f off size data) rfl (csrOk_reqAcc f data ha) (by omega) h he hs]
    obtain ⟨hm, hv⟩ := atBit_reqAcc f data ha 2048
    refine ⟨fun hc => ?_, fun c hc => ?_⟩
    · have hc' : ((s.eng.touch f).fn f).cmd = none := by simpa using hc
      rw [Eng.fnWrite_req (by omega) (by omega) (by exact hc'), hm, hv]
      simp [atBit, sizeMask, reqAcc]
    · have hc' : ((s.eng.touch f).fn f).cmd = some c := by simpa using hc
      rw [Eng.fnWrite_req_busy (by omega) (by omega) (by exact hc'), hreg]
      simp [reqAcc]
  · rw [State.mbxGo_open h he hs, Eng.mbxGo_admits (by simpa using hr) (by simpa using hc) (by simpa [Eng.sharedPlaces] using hp)]
  · rw [State.mbxGo_open h he hs, Eng.mbxGo_full (by simpa using hr) (by simpa using hc) hf (by simpa [Eng.sharedPlaces] using hp)]
    rfl
  · rw [State.mbxGo_open h he hs, Eng.mbxGo_unready (by simpa using hr) (by simpa using hc)]
    simp
  · rw [State.mbxGo_open h he hs, Eng.mbxGo_busy (c := c) (by simpa using hc)]
    simp
  · subst hf
    have hok : csrOk a = true := by
      simp only [csrOk, Bool.or_eq_true, Bool.and_eq_true, beq_iff_eq, decide_eq_true_eq]
      omega
    have hreg : csrReg a = a.off.toNat / 8 * 8 := rfl
    rw [exec_registerWrite, State.access_window hw hok (by omega) h he hs, Eng.fnWrite_rsp (by omega) (by omega)]

end Sys2Proof.Machine
end

section
/-! PROOF. What becomes of a mailbox request at GO, and of its response (R43, R44, R46, R47, R50). -/
namespace Sys2Proof.Machine

/-! ### The command that a request becomes -/

theorem fld_eq (v lo w : Nat) : fld v lo w = v / 2 ^ lo % 2 ^ w := by
  rw [fld, Nat.shiftRight_eq_div_pow]

/-- The header and the parameters of MBX_REQ, field by field (R46). -/
theorem Eng.admitted_fields (e : Eng) (f : Fn) :
    let r := (e.fn f).req
    let c := e.admitted f
    c.tag = r.toNat / 65536 % 65536 ∧ c.indReq = r.getLsbD 32 ∧ c.indRsp = r.getLsbD 33 ∧ c.reqLen = r.toNat / 2 ^ 64 % 2 ^ 32 ∧
      c.rspMax = r.toNat / 2 ^ 96 % 2 ^ 32 ∧ c.params = r.toNat / 2 ^ 256 % 2 ^ 1792 :=
  ⟨fld_eq _ 16 16, bitAt_toNat _ _, bitAt_toNat _ _, fld_eq _ 64 32, fld_eq _ 96 32, fld_eq _ 256 1792⟩

/-- CLASS is the opcode's class (R50). -/
theorem Eng.mbxAdmit_cls (e : Eng) (f : Fn) {k : Nat} (hk : opClass (e.admitted f).opcode = some k) :
    ((e.mbxAdmit f).fn f).cls = BitVec.ofNat 2 k := by
  refine (congrArg FnState.cls (Eng.fn_of_fns (e := e) (d := e.mbxAdmit f) rfl)).trans ?_
  dsimp only
  split
  · next j hj => exact congrArg (BitVec.ofNat 2) (Option.some.inj (hj.symm.trans hk))
  · next hn => cases hn.symm.trans hk

/-! ### The response -/

section
variable {e : Eng} {f : Fn} {c : Cmd} (hr : e.ctl.restarting = false) (hc : (e.fn f).cmd = some c)

/-- The function once the response to its command `c` stands in MBX_RSP (R46, R47). -/
def FnState.answered (x : FnState) (c : Cmd) (status detail len flags : Nat) (bs : List Byte) : FnState :=
  { x with cmd := none, done := true, lastTag := BitVec.ofNat 16 c.tag
           rsp := rspArea c.opcode c.tag status flags detail len 0 bs }

/-- The engine once a response has ended its command, before the interrupt that may tell of it. -/
def Eng.answerStands (e : Eng) (f : Fn) (x : FnState) : Eng :=
  { e.setFn f x with ctl := { e.ctl with inflight := e.ctl.inflight.filter (fun g => !decide (g = f)) } }

include hr hc in
theorem Eng.finishMbx_eq (status detail len flags : Nat) (bs : List Byte) :
    e.finishMbx f status detail len flags bs =
      (let d := e.answerStands f ((e.fn f).answered c status detail len flags bs)
       if (e.fn f).irqDone then d.irq f (e.fn f).irqVec.toNat else d) := by
  unfold Eng.finishMbx
  simp only [hc, hr, Bool.false_eq_true, if_false]
  rfl

include hc in
/-- A response that MBX_RSP holds ends the command at once. -/
theorem Eng.respond_short {bs : List Byte} (hlen : bs.length ≤ 240) (status detail : Nat) :
    e.respond f status detail bs = e.finishMbx f status detail bs.length 0 bs := by
  unfold Eng.respond
  simp only [hc, if_pos hlen]

end

section
variable {e : Eng} {f : Fn} {x : FnState}

theorem Eng.fn_answerStands : (e.answerStands f x).fn f = x := Eng.fn_of_fns (e := e) rfl

theorem Eng.fn_answerStands_other {g : Fn} (h : g ≠ f) : (e.answerStands f x).fn g = e.fn g := Eng.fn_setFn_other e x h

end

/-- What an interrupt leaves alone, function by function. -/
theorem Eng.irq_reads {e : Eng} (h : e.pair.state ≠ .active) (f : Fn) (v : Nat) :
    (∀ g, (e.irq f v).fn g = e.fn g) ∧ (e.irq f v).ctl = e.ctl := by
  obtain ⟨hfns, hctl, -⟩ := Eng.core_fields (Eng.irq_core h f v)
  exact ⟨fun g => by rw [Eng.fn, hfns]; rfl, hctl⟩

/-- Settles O14: MBX_REQ's fields by the command admitted, and the response by what ends the command. -/
theorem mailboxRequestAndResponse : Obligations.MailboxRequestAndResponse := by
  unfold Obligations.MailboxRequestAndResponse
  refine ⟨fun e f => ⟨e.admitted f, e.mbxAdmit_cmd f, e.admitted_opcode f, ?_⟩, fun e f c status detail bs hj hr hc hlen => ?_⟩
  · obtain ⟨htag, hreq, hrsp, hlen, hmax, hpar⟩ := e.admitted_fields f
    exact ⟨htag, hreq, hrsp, hlen, hmax, hpar, rfl, rfl, fun k hk => Eng.mbxAdmit_cls e f hk, rfl⟩
  · rw [Eng.respond_short hc hlen]
    have hother := Eng.finishMbx_other (Eng.not_active hj) f status detail bs.length 0 bs
    have hends := Eng.finishMbx_eq hr hc status detail bs.length 0 bs
    by_cases hd : (e.fn f).irqDone = true
    · obtain ⟨hfn, hctl⟩ := Eng.irq_reads (e := e.answerStands f ((e.fn f).answered c status detail bs.length 0 bs))
        (Eng.not_active hj) f (e.fn f).irqVec.toNat
      rw [hends.trans (if_pos hd)] at hother ⊢
      exact ⟨(hfn f).trans Eng.fn_answerStands, fun g hg => (hfn g).trans (Eng.fn_answerStands_other hg), by rw [hctl]; rfl, hother,
        fun h => absurd hd (by simp [h])⟩
    · rw [hends.trans (if_neg hd)] at hother ⊢
      exact ⟨Eng.fn_answerStands, fun g hg => Eng.fn_answerStands_other hg, rfl, hother, fun _ => ⟨rfl, rfl, rfl, rfl⟩⟩

end Sys2Proof.Machine
end

section
/-! PROOF. Reads of the time bases, the captures and 1PPS, and the operations of a time base (R39, R316, R318, R325, R326). -/
namespace Sys2Proof.Machine

/-! ### Reads in RUN -/

/-- A 64-bit read of F0's in the engine window. -/
theorem State.access_f0Read {s : State} (h : s.eng.Open 0) {o : Nat} (h8 : o % 8 = 0) (v : Nat) {n : Nat} {d : Eng}
    (hr : (s.eng.touch 0).regRead s.boot.runB s.budget (f0Write o v) = (n, d)) :
    s.access false (f0Write o v) = .next (s.after (d.emit (.csr 0 (BitVec.ofNat 64 n)))) := by
  rw [State.access_open (a := f0Write o v) h, Eng.csrRun_read _ _ (csrOk_f0Write h8 v) (by simp [f0Write])]
  have hr' : (s.eng.touch (f0Write o v).fn).regRead s.boot.runB s.budget (f0Write o v) = (n, d) := hr
  have hpart : csrPart (f0Write o v) n = BitVec.ofNat 64 n := congrArg (BitVec.ofNat 64) (if_pos rfl)
  rw [hr', hpart]
  rfl

/-- A 64-bit read of a function's in its own window. -/
theorem State.access_fnRead {s : State} {f : Fn} (h : s.eng.Open f) {o : Nat} (h8 : o % 8 = 0) (v : Nat) {n : Nat} {d : Eng}
    (hr : (s.eng.touch f).regRead s.boot.runB s.budget (fnAcc f o v) = (n, d)) :
    s.access false (fnAcc f o v) = .next (s.after (d.emit (.csr f (BitVec.ofNat 64 n)))) := by
  rw [State.access_open (a := fnAcc f o v) h, Eng.csrRun_read _ _ (csrOk_fnAcc h8 v) (by simp [fnAcc])]
  have hr' : (s.eng.touch (fnAcc f o v).fn).regRead s.boot.runB s.budget (fnAcc f o v) = (n, d) := hr
  have hpart : csrPart (fnAcc f o v) n = BitVec.ofNat 64 n := congrArg (BitVec.ofNat 64) (if_pos rfl)
  rw [hr', hpart]
  rfl

/-- The time block's registers are read through `Eng.tsuRead`. -/
theorem Eng.regRead_tsu {e d : Eng} (slotB : Bool) (b : Budget) {o n : Nat} (h8 : o % 8 = 0) (hlo : 0x40000 ≤ o) (hhi : o < 0x80000)
    (v : Nat) (hr : e.tsuRead (o - 0x40000) = some (n, d)) : e.regRead slotB b (f0Write o v) = (n, d) := by
  have hread (lo : Bool) : e.engineRead slotB b o lo = some (n, d) := by
    unfold Eng.engineRead
    dsimp only
    rw [if_neg (by omega), if_neg (by omega), if_neg (by omega), if_pos (by omega), hr]
  unfold Eng.regRead
  rw [csrReg_f0Write h8 _ (by omega)]
  exact congrArg (Option.getD · _) (hread _)

/-! ### The fast time, captures and 1PPS -/

section
variable {e : Eng} {f : Fn}

theorem Eng.fastTime_none (h : (e.fn f).timeBase = none) : e.fastTime f = (0, e) := by
  unfold Eng.fastTime
  rw [h]

/-- NS and SEC_LO are returned; SEC_HI, TB and DEGRADED are latched (R39). -/
theorem Eng.fastTime_reads {n : TbId} (h : (e.fn f).timeBase = some n) : e.fastTime f =
    (let t := e.tb n
     (t.ns % 2 ^ 32 + 2 ^ 32 * (t.sec % 2 ^ 32), e.setFn f { e.fn f with
       ftHi := BitVec.ofNat 64 (t.sec / 2 ^ 32 % 2 ^ 32 + 2 ^ 32 * n.val + if t.degraded then 2 ^ 34 else 0) })) := by
  have hhi (t : TimeBase) : pack [(t.sec / 2 ^ 32, 32), (n.val, 2), (b2n t.degraded, 1)] =
      t.sec / 2 ^ 32 % 2 ^ 32 + 2 ^ 32 * n.val + if t.degraded then 2 ^ 34 else 0 := by
    have hn := n.isLt
    unfold b2n
    simp only [pack]
    split <;> omega
  have hlo (t : TimeBase) : pack [(t.ns, 32), (t.sec, 32)] = t.ns % 2 ^ 32 + 2 ^ 32 * (t.sec % 2 ^ 32) := by
    simp only [pack]
    omega
  unfold Eng.fastTime
  rw [h]
  simp only [hhi, hlo]
  rfl

theorem Eng.capRead_nil {k : Fin 8} (h : (e.cap k).queue = []) : e.capRead k = (0, e) := by
  unfold Eng.capRead
  simp only [h]

/-- The oldest capture leaves the queue, its seconds latched (R325). -/
theorem Eng.capRead_cons {k : Fin 8} {c : CapEnt} {l : List CapEnt} (h : (e.cap k).queue = c :: l) : e.capRead k =
    (c.ns % 2 ^ 32 + 2 ^ 32 * (c.frac % 16) + (if c.rise then 2 ^ 36 else 0) + 2 ^ 37 + 2 ^ 38 * c.tb.val + 2 ^ 40 * (l.length % 32),
     e.setCap k { e.cap k with queue := l, hi := c.sec }) := by
  unfold Eng.capRead
  simp only [h]
  refine Prod.ext ?_ rfl
  have htb := c.tb.isLt
  unfold b2n
  simp only [pack]
  split <;> omega

/-- The offset from the whole second, signed (R326). -/
theorem Eng.ppsRead_eq (n : TbId) : e.ppsRead n =
    (let (sec, ns) := e.time.ppsAt.get (0, 0) n.val
     (ns + (if ns < 500000000 then ns else unsigned 32 ((ns : Int) - 1000000000)) * 2 ^ 32,
      { e with time := { e.time with ppsHi := e.time.ppsHi.put 0 n.val sec } })) := rfl

end

/-- FAST_TIME_READ in RUN. -/
theorem State.fastTimeRead_eq {s : State} {f : Fn} (h : s.eng.Open f) (he : (s.eng.fn f).enabled = true) {n : Nat} {d : Eng}
    (hr : (s.eng.touch f).fastTime f = (n, d)) : exec (.fastTimeRead f) s = .next (s.after (d.emit (.csr f (BitVec.ofNat 64 n)))) := by
  have hreg : csrReg (fnAcc f 0x12000 0) = 0x12000 := csrReg_fnAcc (by decide) (by decide) 0
  refine State.access_fnRead h (by decide) 0 ?_
  rw [Eng.regRead, hreg, ← hr]
  simp [fnAcc, Eng.windowRead, Eng.fnRead, he]

/-- CAPTURE_READ in RUN. -/
theorem State.captureRead_eq {s : State} (h : s.eng.Open 0) {k : Fin 8} {n : Nat} {d : Eng}
    (hr : (s.eng.touch 0).capRead k = (n, d)) : exec (.captureRead k) s = .next (s.after (d.emit (.csr 0 (BitVec.ofNat 64 n)))) := by
  refine State.access_f0Read h (o := 0x42008 + 0x40 * k.val) (by omega) 0
    (Eng.regRead_tsu _ _ (by omega) (by omega) (by omega) 0 ?_)
  have hk : fin 8 ((0x42008 + 0x40 * k.val - 0x40000 - 0x2000) / 0x40) = k := by
    rw [show (0x42008 + 0x40 * k.val - 0x40000 - 0x2000) / 0x40 = k.val by omega, fin_val]
  rw [Eng.tsuRead, if_neg (by omega), if_neg (by omega), if_pos (by omega), hk,
    show (0x42008 + 0x40 * k.val - 0x40000) % 0x40 = 8 by omega, ← hr]
  rfl

/-- PPS_READ in RUN. -/
theorem State.ppsRead_open {s : State} (h : s.eng.Open 0) {t : TbId} {n : Nat} {d : Eng}
    (hr : (s.eng.touch 0).ppsRead t = (n, d)) : exec (.ppsRead t) s = .next (s.after (d.emit (.csr 0 (BitVec.ofNat 64 n)))) := by
  refine State.access_f0Read h (o := 0x42208 + 0x10 * t.val) (by omega) 0
    (Eng.regRead_tsu _ _ (by omega) (by omega) (by omega) 0 ?_)
  have ht : fin 4 ((0x42208 + 0x10 * t.val - 0x40000 - 0x2200 - 8) / 16) = t := by
    rw [show (0x42208 + 0x10 * t.val - 0x40000 - 0x2200 - 8) / 16 = t.val by omega, fin_val]
  rw [Eng.tsuRead, if_neg (by omega), if_neg (by omega), if_neg (by omega), if_pos (by omega), Eng.ppsReg, if_neg (by omega),
    if_pos (by omega), ht, ← hr]
  exact if_pos (by omega)

/-! ### Operations of a time base -/

/-- A write of TSU_TB_CTRL in RUN on a member that is no standby and keeps no journal. -/
theorem State.access_tbCtrl {s : State} (h : s.eng.Open 0) (hs : s.eng.standby = false) (hj : s.eng.journals = false) (n : TbId)
    {v : Nat} (hv : v < 2 ^ 64) :
    s.access true (f0Write (0x40000 + 0x100 * n.val) v) = .next (s.after ((s.eng.touch 0).tbCtrl n v)) := by
  have hn := n.isLt
  have hfin : fin 4 ((0x40000 + 0x100 * n.val - 0x40000) / 0x100) = n := by
    rw [show (0x40000 + 0x100 * n.val - 0x40000) / 0x100 = n.val by omega, fin_val]
  have hmod : (0x40000 + 0x100 * n.val - 0x40000) % 0x100 = 0 := by omega
  have hval : (BitVec.ofNat 64 v).toNat = v := by rw [BitVec.toNat_ofNat, Nat.mod_eq_of_lt hv]
  rw [State.access_f0Write (by omega) h hs _ (.inl hj), Eng.regWrite_f0Write (by omega) (by omega), Eng.engineWrite,
    if_neg (by omega), if_neg (by omega), if_neg (by simp [h.ready]), if_pos (by omega), Eng.tsuWrite]
  dsimp only
  rw [if_pos (by omega), hfin, hmod, Eng.tbWrite]
  dsimp only
  rw [if_pos rfl, if_neg (by simp [hs]), hval]

/-- TSU_TB_CTRL's bits, each written alone (R316, R318). -/
theorem Eng.tbCtrl_bits (e : Eng) (n : TbId) :
    e.tbCtrl n 1 = e.tbSnap n ∧ e.tbCtrl n 2 = e.tbStep n ∧ e.tbCtrl n 4 = e.tbAdd n ∧ e.tbCtrl n 8 = e.slewGo n ∧
      e.tbCtrl n 16 = e.slewStop n := ⟨rfl, rfl, rfl, rfl, rfl⟩

section
variable {e : Eng} {n : TbId}

/-- The time that TB_ADD would give, in ns from the base's zero (R316). -/
def TimeBase.added (t : TimeBase) : Int := (t.sec * 1000000000 + t.ns : Nat) + t.offset

theorem Eng.tbAdd_below (h : (e.tb n).added < 0) : e.tbAdd n = e.badAccess 0 (tbOff n) := if_pos h

theorem Eng.tbAdd_adds (h : 0 ≤ (e.tb n).added) : e.tbAdd n =
    (e.setTb n ((e.tb n).jump ((e.tb n).added.toNat / 1000000000 % 2 ^ 64) ((e.tb n).added.toNat % 1000000000) (e.tb n).sub)).stepped n
      (satInt32 (e.tb n).offset) := if_neg (Int.not_lt.mpr h)

theorem Eng.slewGo_starts (h : (e.tb n).amount ≠ 0) :
    e.slewGo n = e.setTb n { e.tb n with left := (e.tb n).amount * 2 ^ 32, slewing := true } := if_neg h

theorem Eng.slewGo_done (h : (e.tb n).amount = 0) :
    e.slewGo n = (e.setTb n { e.tb n with left := 0, slewing := false }).ctlEvent 0 8 6 n.val 0 := if_pos h

end

/-- Settles O16: each read by what it finds, and each operation by the one bit of TSU_TB_CTRL that it writes. -/
theorem timeReadsAndControls : Obligations.TimeReadsAndControls := by
  unfold Obligations.TimeReadsAndControls
  refine ⟨fun s => ⟨fun f h he => ⟨fun n hn => ?_, fun hn => ?_⟩, fun h k => ⟨fun c l hc => ?_, fun hc => ?_⟩, fun h n => ?_⟩,
    fun s n h hs hj => ?_⟩
  · rw [State.fastTimeRead_eq h he (Eng.fastTime_reads (n := n) (by simpa using hn))]
    simp
  · rw [State.fastTimeRead_eq h he (Eng.fastTime_none (by simpa using hn))]
    rfl
  · have hcap : (s.eng.touch 0).cap k = s.eng.cap k := by simp [Eng.cap]
    rw [State.captureRead_eq h (Eng.capRead_cons (c := c) (l := l) (by rwa [hcap])), hcap]
  · have hcap : (s.eng.touch 0).cap k = s.eng.cap k := by simp [Eng.cap]
    rw [State.captureRead_eq h (Eng.capRead_nil (by rwa [hcap]))]
    rfl
  · have htime : (s.eng.touch 0).time = s.eng.time := by simp
    rw [State.ppsRead_open h (Eng.ppsRead_eq n), htime]
    rfl
  · intro e t jump v
    have ht : e.tb n = t := by simp [e, t]
    obtain ⟨hsnap, hstep, hadd, hgo, hstop⟩ := e.tbCtrl_bits n
    have hctrl {i : Instr} {w : Nat} (hw : w < 2 ^ 64) (hi : exec i s = s.access true (f0Write (0x40000 + 0x100 * n.val) w))
        {d : Eng} (hd : e.tbCtrl n w = d) : exec i s = .next (s.after d) := by
      rw [hi, State.access_tbCtrl h hs hj n hw, ← hd]
    refine ⟨hctrl (by decide) rfl ?_, hctrl (by decide) rfl ?_, fun hv => hctrl (by decide) rfl ?_, fun hv => hctrl (by decide) rfl ?_,
      fun ha => hctrl (by decide) rfl ?_, fun ha => hctrl (by decide) rfl ?_, hctrl (by decide) rfl ?_⟩
    · rw [hsnap, Eng.tbSnap, Eng.modTb, ht]
    · rw [hstep, Eng.tbStep, Eng.modTb, ht]
      rfl
    · rw [hadd, Eng.tbAdd_adds (by rw [ht]; exact hv), ht]
      rfl
    · rw [hadd, Eng.tbAdd_below (by rw [ht]; exact hv)]
      rfl
    · rw [hgo, Eng.slewGo_starts (by rwa [ht]), ht]
    · rw [hgo, Eng.slewGo_done (by rwa [ht]), ht]
    · rw [hstop, Eng.slewStop, Eng.modTb, ht]

end Sys2Proof.Machine
end

section
/-! PROOF. The checks of a mailbox command in their order: what each refusal leaves (R53, R54, R438, R510, R515). -/
namespace Sys2Proof.Machine

section
variable {e : Eng} {f : Fn} {op : Nat} {c : Cmd}

/-- A standby that does not serve a command refuses it before anything of it is read (R438). -/
theorem Eng.mbx_standby (h : e.mbxReady f op = some c) (hs : e.standby = true) (ha : e.pair.applying = false)
    (hserve : standbyServes f op = false) (body : Eng → Cmd → Eng) : e.mbx f op body = e.answer f 0x05 0 := by
  unfold Eng.mbx
  simp only [h, hs, ha, hserve, and_self, if_true]
  rfl

/-- A request of another length (R510). -/
theorem Eng.mbxSlots_length (h : e.Has f op c) (hb : c.statBuf op = true) {n : Nat} (hlen : c.reqLen ≠ 8 * n)
    (body : Eng → Cmd → Eng) : e.mbxSlots f op n body = (e.answer f 0x03 8).journalCmd f c := by
  unfold Eng.mbxSlots
  rw [Eng.mbx_has h]
  simp only [hb, Bool.not_true, Bool.false_eq_true, if_false, if_pos hlen]
  rfl

section
variable {specs : Nat → List Fld} {obj : Eng → Nat → Bool} {checks : Eng → SetBlk → List (Nat × Bool)} {may : Eng → SetBlk → Bool}
  (body : Eng → Cmd → SetBlk → Eng)

/-- A SET block that does not parse (R513, R515). -/
theorem Eng.mbxSet_bad (h : e.Has f op c) {d : Nat} (hd : c.set specs (obj e) = .bad d) :
    e.mbxSet f op specs obj checks may body = (e.answer f 0x03 d).journalCmd f c := by
  unfold Eng.mbxSet
  rw [Eng.mbx_has h]
  simp only [hd]
  rfl

section
variable {b : SetBlk} (h : e.Sets f op specs (obj e) c b)
include h

theorem Eng.mbxSet_invalid {d : Nat} (hd : firstBad (checks e b) = some d) :
    e.mbxSet f op specs obj checks may body = (e.answer f 0x03 d).journalCmd f c := by
  unfold Eng.mbxSet
  rw [Eng.mbx_has h.toHas]
  simp only [h.block, hd]
  rfl

theorem Eng.mbxSet_denied (hc : firstBad (checks e b) = none) (hm : may e b = false) :
    e.mbxSet f op specs obj checks may body = (e.answer f 0x05 0).journalCmd f c := by
  unfold Eng.mbxSet
  rw [Eng.mbx_has h.toHas]
  simp only [h.block, hc, hm, Bool.false_eq_true, if_false]
  rfl

end

end

end

/-- A port that OBJECT does not name is the first parameter that fails. -/
theorem firstBad_no_port {e : Eng} {c : Cmd} (h : e.portArg (c.slot 0) = false) : firstBad (portFirst e c) = some 32 := by
  simp [firstBad, portFirst, h]

section
variable {e : Eng} {f : Fn} {c : Cmd}

/-! ### PORT_STATE_GET -/

theorem Eng.portStateGet_standby (h : e.mbxReady f 0x0103 = some c) (hs : e.standby = true) (ha : e.pair.applying = false)
    (hf : f ≠ 0) : e.portStateGet f = e.answer f 0x05 0 := by
  unfold Eng.portStateGet Eng.mbxArgs Eng.mbxSlots
  exact Eng.mbx_standby h hs ha (by simp [standbyServes, hf]) _

section
variable (h : e.Has f 0x0103 c)
include h

theorem Eng.portStateGet_length (hlen : c.reqLen ≠ 8) : e.portStateGet f = (e.answer f 0x03 8).journalCmd f c := by
  unfold Eng.portStateGet Eng.mbxArgs
  exact Eng.mbxSlots_length (n := 1) h rfl hlen _

variable (hlen : c.reqLen = 8)
include hlen

theorem Eng.portStateGet_invalid (hp : e.portArg (c.slot 0) = false) :
    e.portStateGet f = (e.answer f 0x03 32).journalCmd f c :=
  Eng.mbxArgs_invalid { h with len := hlen, buffer := rfl } (firstBad_no_port hp) _ _

theorem Eng.portStateGet_denied (hp : e.portArg (c.slot 0) = true) (hf : f ≠ 0) (ho : e.ownsOn f c.port = false) :
    e.portStateGet f = (e.answer f 0x05 0).journalCmd f c :=
  Eng.mbxArgs_denied { h with len := hlen, buffer := rfl } (firstBad_port hp) (by simp [hf, ho]) _

end

/-! ### FC_CONFIG -/

section
variable (cf : Commit)

theorem Eng.fcConfig_bad (h : e.Has f 0x010B c) {d : Nat} (hd : c.set (fun _ => fcFlds) e.portArg = .bad d) :
    e.fcConfig f cf = (e.answer f 0x03 d).journalCmd f c :=
  Eng.mbxSet_bad _ h hd

section
variable {b : SetBlk} (h : e.Sets f 0x010B (fun _ => fcFlds) e.portArg c b)
include h

theorem Eng.fcConfig_invalid {d : Nat} (hd : firstBad (e.fcChecks b) = some d) :
    e.fcConfig f cf = (e.answer f 0x03 d).journalCmd f c :=
  Eng.mbxSet_invalid _ h hd

variable (hc : firstBad (e.fcChecks b) = none)
include hc

theorem Eng.fcConfig_denied (hf : f ≠ 0) : e.fcConfig f cf = (e.answer f 0x05 0).journalCmd f c :=
  Eng.mbxSet_denied _ h hc (decide_eq_false hf)

theorem Eng.fcConfig_locked (hf : f = 0) {l : SetFld}
    (hl : lockedChange fcFlds b (fun i => nth ((e.port (fin 16 b.object)).fcCfg e.start.oversub) i [])
      (fun _ => !decide ((e.port (fin 16 b.object)).state = .adminDown)) = some l) :
    e.fcConfig f cf = ((e.reject f 0x010B false l.idx).answer f 0x02 l.off).journalCmd f c := by
  refine Eng.mbxSet_eq h hc (decide_eq_true hf) ?_
  simp only [hl, Eng.lockedAt_of_opcode _ _ h.opcode]

end

end

end

/-- Settles O7: each check in turn is the first that fails. -/
theorem checksInOrder : Obligations.ChecksInOrder := by
  unfold Obligations.ChecksInOrder
  refine fun s f c => ⟨fun h hs ha hf => ?_, fun h => ⟨fun hlen => ?_, fun hlen hp => ?_, fun hlen hp hf ho => ?_⟩,
    fun cf h => ⟨fun d hd => ?_, fun b d hb hd => ?_, fun b hb hc hf => ?_, fun b l hb hc hf hl => ?_⟩⟩
  · exact State.does_eq_after (Eng.portStateGet_standby h hs ha hf)
  · exact State.does_eq_after (Eng.portStateGet_length h hlen)
  · exact State.does_eq_after (Eng.portStateGet_invalid h hlen hp)
  · exact State.does_eq_after (Eng.portStateGet_denied h hlen hp hf ho)
  · exact State.does_eq_after (Eng.fcConfig_bad cf h hd)
  · exact State.does_eq_after (Eng.fcConfig_invalid cf { h with block := hb } hd)
  · exact State.does_eq_after (Eng.fcConfig_denied cf { h with block := hb } hc hf)
  · exact State.does_eq_after (Eng.fcConfig_locked cf { h with block := hb } hc hf hl)

end Sys2Proof.Machine
end

section
/-! PROOF. The ports and modules group's reads, and its commands on LLDP, subscriptions, thinning and trailers (R75, R85, R89,
R151, R275, R278, R281, R523). -/
namespace Sys2Proof.Machine

section
variable {e : Eng} {f : Fn} {c : Cmd}

/-! ### Ports, subscriptions and LLDP -/

/-- The code that a partner's state is read with (R89). -/
def PartnerSt.code (k : PartnerSt) : Nat := if k = .none then 0 else if k = .present then 1 else 2

theorem Eng.portStateGet_reads (h : e.Asks f 0x0103 1 c) (hp : e.portArg (c.slot 0) = true) (hm : f = 0 ∨ e.ownsOn f c.port = true) :
    e.portStateGet f = (let x := e.port c.port
      e.respond f 0x00 0 (slotBytes [x.state.code, x.cause, x.changed, x.txLanes, x.rxLanes, optSlot x.ctNow.bytes?,
        b2n e.start.oversub, x.partner.st.code])).journalCmd f c := by
  refine Eng.mbxArgs_eq h (firstBad_port hp) (by simpa using hm) ?_
  cases hst : (e.port c.port).partner.st <;> simp [PartnerSt.code, hst, stOK]

/-- The subscription of a function to a port's events, replaced by `on` of it to its event queue `n` (R75). -/
def Port.subscribed (y : Port) (f : Fn) (n on : Nat) : Port :=
  { y with subs := y.subs.filter (fun k => !decide (k.1 = f)) ++ (if on = 1 then [(f, n)] else []) }

theorem Eng.portSubscribe_applies (h : e.Asks f 0x0104 3 c) (hmask : c.slot 0 < 65536)
    (hports : ∀ q, q < 16 → bitAt (c.slot 0) q = true → e.portArg q = true) (heq : (e.eqOf f (c.slot 1)).isSome = true)
    (hflag : c.slot 2 < 2) (hm : f = 0 ∨ ∀ q, q < 16 → bitAt (c.slot 0) q = true → e.ownsOn f (fin 16 q) = true) :
    e.portSubscribe f = ((foldEng ((upTo 16).filter (fun q => bitAt (c.slot 0) q)) (fun d q =>
      d.modPort (fin 16 q) (fun y => y.subscribed f (c.slot 1) (c.slot 2))) e).answer f 0x00 0).journalCmd f c := by
  have hall (ok : Nat → Bool) (hok : ∀ q, q < 16 → bitAt (c.slot 0) q = true → ok q = true) :
      (upTo 16).all (fun q => !bitAt (c.slot 0) q || ok q) = true := by
    rw [List.all_eq_true]
    intro q hq
    have := hok q (List.mem_range.mp hq)
    cases hb : bitAt (c.slot 0) q <;> simp_all
  refine Eng.mbxArgs_eq h ?_ ?_ ?_
  · simp [firstBad, hmask, hall _ hports, heq, flagOk, hflag]
  · rcases hm with hf | ho
    · simp [hf]
    · simp [hall _ ho]
  · have hsub (y : Port) : y.subscribed f (c.slot 1) (c.slot 2) = { y with
        subs := if c.slot 2 = 1 then y.subs.filter (fun k => !decide (k.1 = f)) ++ [(f, c.slot 1)]
          else y.subs.filter (fun k => !decide (k.1 = f)) } := by
      unfold Port.subscribed
      split <;> simp
    simp only [hsub]
    rfl

theorem Eng.lldpConfig_applies (h : e.Has f 0x0109 c) (hn : c.slot 1 ≤ 512) (hlen : c.reqLen = 16 + c.slot 1)
    (hp : e.portArg (c.slot 0) = true) (hf : f = 0) :
    e.lldpConfig f = (let x := e.port c.port
      let d := e.setPort c.port { x with lldpExtra := c.bytes 16 (c.slot 1) }
      (if x.lldpExtra = c.bytes 16 (c.slot 1) then d else d.fastStart c.port).answer f 0x00 0).journalCmd f c := by
  unfold Eng.lldpConfig
  rw [Eng.mbx_has h]
  simp only [hn, hlen, hp, hf, firstBad]
  simp
  rfl

theorem Eng.lldpPartnerGet_reads (h : e.Asks f 0x010A 1 c) (hp : e.portArg (c.slot 0) = true)
    (hm : f = 0 ∨ (e.port c.port).statsOwner = f) :
    e.lldpPartnerGet f = (let r := (e.port c.port).partner
      e.respond f 0x00 0 (slotBytes [r.st.code, r.count, r.ttl, r.time] ++
        (r.cap.map capBytes).getD (zeros 8) ++ (r.pair.map pairBytes).getD (zeros 16) ++ idBytes r.chassis ++
        idBytes r.portId)).journalCmd f c := by
  refine Eng.mbxArgs_eq h (firstBad_port hp) (Eng.mayStat_of hm) ?_
  generalize (e.port c.port).partner = r
  obtain ⟨st, chassis, portId, ttl, cap, pair, time, count⟩ := r
  cases st <;> cases cap <;> cases pair <;> rfl

theorem Eng.thinStatusGet_reads (h : e.Asks f 0x010D 2 c) (hp : e.portArg (c.slot 0) = true) (hflag : c.slot 1 < 2)
    (hm : f = 0 ∨ (e.port c.port).statsOwner = f) :
    e.thinStatusGet f = (let x := e.port c.port
      let t := x.thin
      (if c.slot 1 = 1 then e.setPort c.port { x with thin := {} } else e).respond f 0x00 0
        (slotBytes ([x.txLanes, x.rxLanes, x.lastSwitch] ++ (upTo 8).map (fun i => e.laneSlot (nth x.lanes i .cold)) ++
          [t.narrow, t.widen, t.rejects, t.failures, t.recoveries, t.malformed, t.hostDrops]))).journalCmd f c :=
  Eng.mbxArgs_eq h (firstBad_port_flag hp hflag 40) (Eng.mayStat_of hm) rfl

/-! ### Trailers -/

section
variable {b : SetBlk} (h : e.Sets f 0x010E trailerFlds (fun v => v == objEngine || e.portArg v) c b) (hf : f = 0)
include h hf

/-- The engine's own settings; a paired engine keeps its ENGINE_ID (R275). -/
theorem Eng.trailerConfig_engine (ho : b.object = objEngine) (hid : e.paired = false ∨ b.val 1 e.off.engineId = e.off.engineId) :
    e.trailerConfig f = (let id := b.val 1 e.off.engineId
      let d : Eng := { e with off := { e.off with trailerTb := fin 4 (b.val 0 e.off.trailerTb.val), engineId := id } }
      (if id = e.off.engineId then d else d.fastStartAll).answer f 0x00 0).journalCmd f c := by
  refine Eng.mbxSet_eq h ?_ ?_ ?_
  · simp [Eng.trailerChecks, ho, firstBad]
  · rcases hid with hp | hid
    · simp [hf, hp]
    · simp [hf, hid]
  · simp only [if_pos ho]
    rfl

/-- A port's trailers, with the ring that takes its reports where there is that ring (R278, R281). -/
theorem Eng.trailerConfig_port (ho : b.object ≠ objEngine)
    (hr : ∀ r, slotOpt (b.val 2 vNone) = some r → (e.off.rings.get none r).isSome = true) :
    e.trailerConfig f = (let q : PortId := fin 16 b.object
      let y := e.port q
      ((e.setPort q { y with
        trailerStrip := b.bool 0 y.trailerStrip
        trailerTcs := BitVec.ofNat 8 (b.val 1 y.trailerTcs.toNat)
        reportRing := (slotOpt (b.val 2 (optSlot (y.reportRing.map (·.val))))).map (fin 16) }).advertise q y).answer
          f 0x00 0).journalCmd f c := by
  refine Eng.mbxSet_eq h ?_ ?_ ?_
  · unfold Eng.trailerChecks
    rw [if_neg ho]
    cases hs : slotOpt (b.val 2 vNone) with
    | none => simp [firstBad]
    | some r => simp [firstBad, hr r hs]
  · simp [hf, ho]
  · simp only [if_neg ho]
    rfl

end

section
variable (hf : f = 0)

/-- The trailer rings there are. -/
def Eng.ringsInUse (e : Eng) : List Nat := (upTo 16).filter (fun r => (e.off.rings.get none r).isSome)

theorem Eng.pickFree_rings_full (h : ∀ r, r < 16 → (e.off.rings.get none r).isSome = true) : pickFree 5 16 e.ringsInUse = none := by
  have hfree : (upTo 16).filter (fun i => !e.ringsInUse.contains i) = [] := by
    rw [List.filter_eq_nil_iff]
    intro r hr
    simpa [Eng.ringsInUse, hr, Option.isSome_iff_ne_none] using h r (List.mem_range.mp hr)
  unfold pickFree
  rw [hfree]
  rfl

/-- The parameters of TRAILER_RING_CREATE are in range (R281). -/
theorem firstBad_ring (hfn : c.slot 0 < 2048) (hpasid : c.slot 1 < 2 ^ 20) (hbase : c.slot 2 % 4096 = 0)
    (hsize : sizeOk (c.slot 3) = true) :
    firstBad [(32, decide (c.slot 0 < 2048)), (40, decide (c.slot 1 < 2 ^ 20)), (48, baseOk (c.slot 2)), (56, sizeOk (c.slot 3))] =
      none := by
  rw [decide_eq_true hfn, decide_eq_true hpasid, hsize, baseOk, hbase]
  rfl

section
variable (h : e.Asks f 0x010F 4 c) (hfn : c.slot 0 < 2048) (hpasid : c.slot 1 < 2 ^ 20) (hbase : c.slot 2 % 4096 = 0)
  (hsize : sizeOk (c.slot 3) = true)
include hf h hfn hpasid hbase hsize

theorem Eng.trailerRingCreate_makes {r : Nat} (hr : pickFree 5 16 e.ringsInUse = some r) :
    e.trailerRingCreate f = (let ring : TeleRing := { fn := fin 2048 (c.slot 0), pasid := c.slot 1, base := c.slot 2, size := c.slot 3 }
      ({ e with off := { e.off with rings := e.off.rings.put none r (some ring) } } : Eng).respond f 0x00 0
        (slotBytes [r])).journalCmd f c := by
  refine Eng.mbxArgs_eq h (firstBad_ring hfn hpasid hbase hsize) (f0Only_of hf _ _) ?_
  unfold Eng.ringsInUse at hr
  simp only [hr]
  rfl

theorem Eng.trailerRingCreate_full (hr : ∀ r, r < 16 → (e.off.rings.get none r).isSome = true) :
    e.trailerRingCreate f = (e.answer f 0x04 0).journalCmd f c := by
  refine Eng.mbxArgs_eq h (firstBad_ring hfn hpasid hbase hsize) (f0Only_of hf _ _) ?_
  have hfull := Eng.pickFree_rings_full hr
  unfold Eng.ringsInUse at hfull
  simp only [hfull]
  rfl

end

section
variable (h : e.Asks f 0x0110 1 c)
include h

theorem Eng.trailerRingDestroy_removes (hf : f = 0) (hn : c.slot 0 < 16) (hr : (e.off.rings.get none (c.slot 0)).isSome = true)
    (hfree : ∀ q, q ∈ e.portList → (e.port q).reportRing ≠ some (fin 16 (c.slot 0))) :
    e.trailerRingDestroy f = (({ e with off := { e.off with rings := e.off.rings.put none (c.slot 0) none } } : Eng).answer
      f 0x00 0).journalCmd f c := by
  have hany : e.portList.any (fun p => decide ((e.port p).reportRing = some (fin 16 (c.slot 0)))) = false := by
    simpa using hfree
  exact Eng.mbxArgs_eq h (by simp [firstBad, hn, hr, hany]) (f0Only_of hf _ _) rfl

/-- A ring that some port reports to stays. -/
theorem Eng.trailerRingDestroy_named (hq : ∃ q, q ∈ e.portList ∧ (e.port q).reportRing = some (fin 16 (c.slot 0))) :
    e.trailerRingDestroy f = (e.answer f 0x03 32).journalCmd f c := by
  have hany : e.portList.any (fun p => decide ((e.port p).reportRing = some (fin 16 (c.slot 0)))) = true := by
    simpa using hq
  exact Eng.mbxArgs_invalid h (by simp [firstBad, hany]) _ _

end

end

end

/-- Settles O47: each command's request and issuer pass, and its own body gives the answer and the effect. -/
theorem portStatusCommands : Obligations.PortStatusCommands := by
  unfold Obligations.PortStatusCommands
  refine fun s f c => ⟨fun h hp hm => ?_, fun h hmask hports heq hflag hm => ?_, fun h hn hlen hp hf => ?_, fun h hp hm => ?_,
    fun h hp hflag hm => ?_, fun b h hf => ⟨fun ho hid => ?_, fun ho hr => ?_⟩,
    fun h hfn hpasid hbase hsize hf => ⟨fun r hr => ?_, fun hr => ?_⟩, fun h hn hr hf => ⟨fun hfree => ?_, fun hq => ?_⟩⟩
  · exact State.does_eq_after (Eng.portStateGet_reads h hp hm)
  · exact State.does_eq_after (Eng.portSubscribe_applies h hmask hports heq hflag hm)
  · exact State.does_eq_after (Eng.lldpConfig_applies h hn hlen hp hf)
  · exact State.does_eq_after (Eng.lldpPartnerGet_reads h hp hm)
  · exact State.does_eq_after (Eng.thinStatusGet_reads h hp hflag hm)
  · exact State.does_eq_after (Eng.trailerConfig_engine h hf ho hid)
  · exact State.does_eq_after (Eng.trailerConfig_port h hf ho hr)
  · exact State.does_eq_after (Eng.trailerRingCreate_makes hf h hfn hpasid hbase hsize hr)
  · exact State.does_eq_after (Eng.trailerRingCreate_full hf h hfn hpasid hbase hsize hr)
  · exact State.does_eq_after (Eng.trailerRingDestroy_removes h hf hn hr hfree)
  · exact State.does_eq_after (Eng.trailerRingDestroy_named h hq)

end Sys2Proof.Machine
end

section
/-! PROOF. The ports and modules group's commands on module cages (R76, R78, R79, R83, R84, R523, R525). -/
namespace Sys2Proof.Machine

section
variable {e : Eng} {f : Fn} {c : Cmd} (hf : f = 0)
include hf

theorem Eng.moduleConfig_applies {b : SetBlk} (h : e.Sets f 0x0105 (fun _ => cageFlds) (fun v => decide (v < 16)) c b) :
    e.moduleConfig f = (let i : Cage := fin 16 b.object
      (e.setCage i { e.cage i with speed := b.val 0 (e.cage i).speed }).answer f 0x00 0).journalCmd f c :=
  Eng.mbxSet_eq h rfl (decide_eq_true hf) rfl

section
variable (h : e.Asks f 0x0106 1 c)
include h

theorem Eng.moduleReset_begins (hg : c.slot 0 < 16) (hk : (e.cage c.cage).state = .fault ∨ (e.cage c.cage).state = .unsupported) :
    e.moduleReset f = (((((e.emit (.modPulse c.cage)).drivePins c.cage true true).modCage c.cage CageSt.unread).cageTo c.cage
      .mgmtInit 0).answer f 0x00 0).journalCmd f c :=
  Eng.mbxArgs_eq h (by simp [firstBad, hg, hk]) (f0Only_of hf _ _) rfl

omit hf in
theorem Eng.moduleReset_refused (hfault : (e.cage c.cage).state ≠ .fault) (hun : (e.cage c.cage).state ≠ .unsupported) :
    e.moduleReset f = (e.answer f 0x03 32).journalCmd f c :=
  Eng.mbxArgs_invalid h (by simp [firstBad, hfault, hun]) _ _

end

theorem Eng.moduleInfoGet_reads (h : e.Asks f 0x0107 2 c) (hg : c.slot 0 < 16) (hflag : c.slot 1 < 2) :
    e.moduleInfoGet f = (let k := e.cage c.cage
      (if c.slot 1 = 1 then e.setCage c.cage { k with flags := 0, laneFlags := 0 } else e).respond f 0x00 0 k.infoBytes).journalCmd
        f c :=
  Eng.mbxArgs_eq h (by simp [firstBad, hg, flagOk, hflag]) (f0Only_of hf _ _) rfl

end

/-! ### MODULE_ACCESS -/

/-- The request's slots are in range, and a write carries the bytes it writes (R84, R525). -/
structure Cmd.AccessOk (c : Cmd) : Prop where
  cage : c.slot 0 < 16
  bank : c.slot 1 < 256
  page : c.slot 2 < 256
  off : c.slot 3 < 256
  some : 1 ≤ c.slot 4
  most : c.slot 4 ≤ 128
  len : c.slot 5 = 0 ∧ c.reqLen = 48 ∨ c.slot 5 = 1 ∧ c.reqLen = 48 + c.slot 4

/-- A write needs every port of the cage ADMIN_DOWN (R84). -/
def Eng.accessOpen (e : Eng) (c : Cmd) : Prop :=
  c.slot 5 = 1 → ∀ p, p ∈ e.portList → (e.port p).cage = c.cage → (e.port p).state = .adminDown

/-- The transaction of the request on the cage's bus. -/
def Eng.accessSent (e : Eng) (c : Cmd) : Eng :=
  e.emit (.modAccess c.cage (c.slot 1) (c.slot 2) (c.slot 3) (c.slot 4)
    (if c.slot 5 = 1 then Option.some (c.bytes 48 (c.slot 4)) else none))

/-- What the transaction's end leaves: the bytes read are answered; a bus that fails faults a cage that was managed, unless its
module was out of it (R77, R79). -/
def Eng.accessEnd (e : Eng) (f : Fn) (c : Cmd) : ModBus → Eng
  | .done bs => if c.slot 5 = 1 then (e.accessSent c).answer f 0x00 0
    else (e.accessSent c).respond f 0x00 0 (slice (bs ++ zeros 128) 0 (c.slot 4))
  | .failed prsN =>
    let k := (e.cage c.cage).state
    (if prsN = false ∧ (k = .identify ∨ k = .powerUp ∨ k = .ready) then
      ((e.accessSent c).fail 44 c.cage.val mModule).cageFault c.cage cNoMgmt
     else e.accessSent c).answer f 0x0D (0x20 + c.cage.val)

theorem Eng.accessOpen_iff (e : Eng) (c : Cmd) : e.accessOpen c ↔
    ¬ (c.slot 5 = 1 ∧ (e.cagePorts c.cage).any (fun p => !decide ((e.port p).state = .adminDown)) = true) := by
  simp [Eng.accessOpen, Eng.cagePorts]

theorem Cmd.AccessOk.checks {c : Cmd} (h : c.AccessOk) : firstBad [(32, decide (c.slot 0 < 16)), (40, decide (c.slot 1 < 256)),
    (48, decide (c.slot 2 < 256)), (56, decide (c.slot 3 < 256)), (64, decide (1 ≤ c.slot 4 ∧ c.slot 4 ≤ 128)),
    (72, flagOk (c.slot 5))] = none := by
  have hflag : c.slot 5 < 2 := by have := h.len; omega
  simp [firstBad, h.cage, h.bank, h.page, h.off, h.some, h.most, flagOk, hflag]

theorem Cmd.AccessOk.length {c : Cmd} (h : c.AccessOk) :
    ¬ (c.reqLen < 48 ∨ c.reqLen ≠ if c.slot 5 = 1 ∧ c.slot 4 ≤ 128 then 48 + c.slot 4 else 48) := by
  have hmost := h.most
  rcases h.len with ⟨h0, hlen⟩ | ⟨h1, hlen⟩
  · simp [h0, hlen]
  · simp [h1, hlen, hmost]

section
variable {e : Eng} {f : Fn} {c : Cmd} (hf : f = 0) (h : e.Has f 0x0108 c) (hok : c.AccessOk)
include hf h hok

theorem Eng.moduleAccess_eq (bus : ModBus) : e.moduleAccess f bus =
    (if c.slot 5 = 1 ∧ (e.cagePorts c.cage).any (fun p => !decide ((e.port p).state = .adminDown)) = true then e.lockedAt f c 0 72
     else if (e.cage c.cage).state = .empty then e.answer f 0x0D (0x20 + c.cage.val) else e.accessEnd f c bus).journalCmd f c := by
  unfold Eng.moduleAccess
  rw [Eng.mbx_has h]
  simp only [if_neg hok.length, hok.checks, hf, ne_eq, not_true_eq_false, if_false]
  cases bus with
  | done bs => rfl
  | failed prsN =>
    cases hk : (e.cage c.cage).state <;> cases prsN <;> simp [Eng.accessEnd, Eng.accessSent, hk] <;> rfl

theorem Eng.moduleAccess_locked (bus : ModBus) (ho : ¬ e.accessOpen c) :
    e.moduleAccess f bus = ((e.reject f 0x0108 false 0).answer f 0x02 72).journalCmd f c := by
  rw [Eng.moduleAccess_eq hf h hok, if_pos (not_not.mp (mt (Eng.accessOpen_iff e c).mpr ho)), Eng.lockedAt_of_opcode _ _ h.opcode]

theorem Eng.moduleAccess_empty (bus : ModBus) (ho : e.accessOpen c) (hk : (e.cage c.cage).state = .empty) :
    e.moduleAccess f bus = (e.answer f 0x0D (0x20 + c.cage.val)).journalCmd f c := by
  rw [Eng.moduleAccess_eq hf h hok, if_neg ((Eng.accessOpen_iff e c).mp ho), if_pos hk]

theorem Eng.moduleAccess_ends (bus : ModBus) (ho : e.accessOpen c) (hk : (e.cage c.cage).state ≠ .empty) :
    e.moduleAccess f bus = (e.accessEnd f c bus).journalCmd f c := by
  rw [Eng.moduleAccess_eq hf h hok, if_neg ((Eng.accessOpen_iff e c).mp ho), if_neg hk]

end

/-- Settles O48: each command's request passes, and the cage's state decides between the refusal and the effect. -/
theorem moduleCommands : Obligations.ModuleCommands := by
  unfold Obligations.ModuleCommands
  refine fun s f c hf => ⟨fun b h => ?_, fun h hg => ⟨fun hk => ?_, fun hfault hun => ?_⟩, fun h hg hflag => ?_,
    fun h h0 h1 h2 h3 h4 h4' hlen => ⟨fun bus ho => ?_, fun bus ho hk => ?_, fun ho hk => ⟨fun bs => ?_, fun prsN => ?_⟩⟩⟩
  · exact State.does_eq_after (Eng.moduleConfig_applies hf h)
  · exact State.does_eq_after (Eng.moduleReset_begins hf h hg hk)
  · exact State.does_eq_after (Eng.moduleReset_refused h hfault hun)
  · exact State.does_eq_after (Eng.moduleInfoGet_reads hf h hg hflag)
  · exact State.does_eq_after (Eng.moduleAccess_locked hf h ⟨h0, h1, h2, h3, h4, h4', hlen⟩ bus ho)
  · exact State.does_eq_after (Eng.moduleAccess_empty hf h ⟨h0, h1, h2, h3, h4, h4', hlen⟩ bus ho hk)
  · exact State.does_eq_after (Eng.moduleAccess_ends hf h ⟨h0, h1, h2, h3, h4, h4', hlen⟩ (.done bs) ho hk)
  · exact State.does_eq_after (Eng.moduleAccess_ends hf h ⟨h0, h1, h2, h3, h4, h4', hlen⟩ (.failed prsN) ho hk)

end Sys2Proof.Machine
end

section
/-! PROOF. PORT_GROUP, PORT_CONFIG, FC_CONFIG and KITTY_CONFIG (R67, R68, R92, R120, R122, R523). -/
namespace Sys2Proof.Machine

/-! ### Folds that treat each object apart -/

section
variable {α β : Type} {m : Eng → β} {l : List α} {f : Eng → α → Eng} {a : α}

/-- A fold leaves alone what only the step of an object outside its list changes. -/
theorem foldEng_keep_of_notMem (hkeep : ∀ e b, b ≠ a → m (f e b) = m e) (ha : a ∉ l) (e : Eng) : m (foldEng l f e) = m e := by
  unfold foldEng
  induction l generalizing e with
  | nil => rfl
  | cons b l ih =>
    rw [List.mem_cons, not_or] at ha
    rw [List.foldl_cons, ih ha.2, hkeep _ _ (Ne.symm ha.1)]

/-- What an object's own step sets, whatever it finds, and no other's changes, the fold sets. -/
theorem foldEng_sets {v : β} (hset : ∀ e, m (f e a) = v) (hkeep : ∀ e b, b ≠ a → m (f e b) = m e) (ha : a ∈ l) (e : Eng) :
    m (foldEng l f e) = v := by
  unfold foldEng
  induction l generalizing e with
  | nil => cases ha
  | cons b l ih =>
    rw [List.foldl_cons]
    by_cases hl : a ∈ l
    · exact ih hl _
    · have hb : a = b := (List.mem_cons.mp ha).resolve_right hl
      subst hb
      exact (foldEng_keep_of_notMem hkeep hl _).trans (hset e)

end

/-! ### PORT_GROUP -/

theorem mem_allSlots (p : PortId) : p ∈ allSlots := by revert p; decide

/-- The slots are searched from the lowest up. -/
theorem find?_allSlots {P : PortId → Bool} {p : PortId} (hp : P p = true) (hlow : ∀ q, q < p → P q = false) :
    allSlots.find? P = some p := by
  have hget (i : Nat) (hi : i < allSlots.length) : allSlots[i] = fin 16 i := by
    simp [allSlots, upTo]
  refine List.find?_eq_some_iff_getElem.mpr ⟨hp, p.val, by simp [allSlots, upTo], ?_, fun j hj => ?_⟩
  · rw [hget, fin_val]
  · rw [hget, hlow]
    · rfl
    · simp only [fin, Fin.lt_def, Fin.val_ofNat]
      omega

/-- One slot given its port anew (R67). -/
def Eng.regroup (c : Cmd) (e : Eng) (p : PortId) : Eng :=
  let e := e.setSlot p { e.slot p with port := fin 16 (c.groupOf p.val) }
  let e := if c.groupOf p.val = p.val then e.setPort p (Port.created p (c.groupWidth p.val)) else e.setPort p (Port.reset p.val)
  let e := e.setRoot p {}
  { e with tally := { e.tally with
    slots := (e.tally.slots.put {} (2 * p.val) {}).put {} (2 * p.val + 1) {}
    bw := e.tally.bw.put {} p.val {} } }

theorem Eng.groupApply_eq (e : Eng) (c : Cmd) :
    e.groupApply c = foldEng (allSlots.filter (fun p => !e.groupKept c p)) (Eng.regroup c) e := rfl

/-- The port that a slot given anew has (R67, R68). -/
def Cmd.groupPort (c : Cmd) (p : PortId) : Port :=
  if c.groupOf p.val = p.val then Port.created p (c.groupWidth p.val) else Port.reset p.val

section
variable (e : Eng) (c : Cmd)

theorem Eng.regroup_tables (q : PortId) :
    (e.regroup c q).slots = (e.setSlot q { e.slot q with port := fin 16 (c.groupOf q.val) }).slots ∧
    (e.regroup c q).ports = (e.setPort q (c.groupPort q)).ports := by
  unfold Eng.regroup Cmd.groupPort
  split <;> exact ⟨rfl, rfl⟩

theorem Eng.slot_regroup (q p : PortId) :
    (e.regroup c q).slot p = (e.setSlot q { e.slot q with port := fin 16 (c.groupOf q.val) }).slot p :=
  congrArg (Tab.get · _ _) (e.regroup_tables c q).1

theorem Eng.port_regroup (q p : PortId) : (e.regroup c q).port p = (e.setPort q (c.groupPort q)).port p :=
  congrArg (Tab.get · _ _) (e.regroup_tables c q).2

/-- A slot whose port changes. -/
theorem Eng.groupApply_changed {p : PortId} (h : e.groupKept c p = false) :
    ((e.groupApply c).slot p).port = fin 16 (c.groupOf p.val) ∧ (e.groupApply c).port p = c.groupPort p := by
  have hp : p ∈ allSlots.filter (fun p => !e.groupKept c p) := by simp [mem_allSlots, h]
  rw [Eng.groupApply_eq]
  refine ⟨foldEng_sets (m := fun e => (e.slot p).port) (fun d => ?_) (fun d q hq => ?_) hp e,
    foldEng_sets (m := fun e => e.port p) (fun d => ?_) (fun d q hq => ?_) hp e⟩
  · simp [Eng.slot_regroup]
  · simp [Eng.slot_regroup, Eng.slot_setSlot_other _ _ hq.symm]
  · simp [Eng.port_regroup]
  · simp [Eng.port_regroup, Eng.port_setPort_other _ _ hq.symm]

/-- A slot that keeps its port. -/
theorem Eng.groupApply_kept {p : PortId} (h : e.groupKept c p = true) :
    (e.groupApply c).slot p = e.slot p ∧ (e.groupApply c).port p = e.port p := by
  have hp : p ∉ allSlots.filter (fun p => !e.groupKept c p) := by simp [h]
  rw [Eng.groupApply_eq]
  refine ⟨foldEng_keep_of_notMem (m := fun e => e.slot p) (fun d q hq => ?_) hp e,
    foldEng_keep_of_notMem (m := fun e => e.port p) (fun d q hq => ?_) hp e⟩
  · simp [Eng.slot_regroup, Eng.slot_setSlot_other _ _ hq.symm]
  · simp [Eng.port_regroup, Eng.port_setPort_other _ _ hq.symm]

end

section
variable {e : Eng} {f : Fn} {c : Cmd} (h : e.Has f 0x0101 c) (hlen : c.reqLen = 16) (hc : firstBad (e.groupChecks c) = none) (hf : f = 0)

/-- A slot whose change its port, not ADMIN_DOWN, locks (R67). -/
def Eng.groupLocks (e : Eng) (c : Cmd) (p : PortId) : Bool :=
  !e.groupKept c p && !decide ((e.port (e.portOf p)).state = .adminDown)

theorem Eng.find?_groupLocks (e : Eng) (c : Cmd) :
    (allSlots.filter (fun p => !e.groupKept c p)).find? (fun p => !decide ((e.port (e.portOf p)).state = .adminDown)) =
      allSlots.find? (e.groupLocks c) := by
  have hlocks : (fun p => decide ((!e.groupKept c p) = true ∧ (!decide ((e.port (e.portOf p)).state = .adminDown)) = true)) =
      e.groupLocks c := funext fun p => by simp [Eng.groupLocks]
  rw [List.find?_filter, hlocks]

include h hlen hc hf

theorem Eng.portGroup_groups {cf : Commit} (hcf : cf.fail = none)
    (hdown : ∀ p, e.groupKept c p = false → (e.port (e.portOf p)).state = .adminDown) :
    e.portGroup f cf = ((e.groupApply c).setOversub.answer f 0x00 0).journalCmd f c := by
  have hnone : allSlots.find? (e.groupLocks c) = none := by
    rw [List.find?_eq_none]
    intro p _
    by_cases hk : e.groupKept c p = true
    · simp [Eng.groupLocks, hk]
    · simp [Eng.groupLocks, hdown p (by simpa using hk)]
  unfold Eng.portGroup
  rw [Eng.mbx_has h]
  simp only [hlen, hc, hf, Eng.find?_groupLocks, hnone, Eng.twoPhase_commits _ _ hcf, ne_eq, not_true_eq_false, if_false]
  rfl

theorem Eng.portGroup_locked (cf : Commit) {p : PortId} (hk : e.groupKept c p = false) (hup : (e.port (e.portOf p)).state ≠ .adminDown)
    (hlow : ∀ q, q < p → e.groupKept c q = false → (e.port (e.portOf q)).state = .adminDown) :
    e.portGroup f cf = ((e.reject f 0x0101 false 0).answer f 0x02 (32 + p.val)).journalCmd f c := by
  have hsome : allSlots.find? (e.groupLocks c) = some p := by
    refine find?_allSlots (by simp [Eng.groupLocks, hk, hup]) fun q hq => ?_
    by_cases hkq : e.groupKept c q = true
    · simp [Eng.groupLocks, hkq]
    · simp [Eng.groupLocks, hlow q hq (by simpa using hkq)]
  unfold Eng.portGroup
  rw [Eng.mbx_has h]
  simp only [hlen, hc, hf, Eng.find?_groupLocks, hsome, ne_eq, not_true_eq_false, if_false, Eng.lockedAt_of_opcode _ _ h.opcode]

end

/-! ### PORT_CONFIG -/

/-- The port as PORT_CONFIG's fields leave it, before a change of THIN_AUTO takes effect (R68, R85, R134). -/
def Eng.portWritten (e : Eng) (p : PortId) (b : SetBlk) : Eng :=
  let x := e.port p
  let d := (e.setPort p (x.setCfg b)).setOversub
  (if b.has 0 then (if b.bool 0 false then d.adminUp p else d.adminDown p) else d).advertise p x

/-- THIN_AUTO written OFF ends what it began, and a port in UP that thins is widened, which the answer awaits (R134). -/
theorem Eng.portApply_eq (e : Eng) (f : Fn) (p : PortId) (b : SetBlk) : e.portApply f p b =
    (let d := e.portWritten p b
     let y := d.port p
     let d := if b.has 15 = true ∧ b.bool 15 true = false then d.thinOff p else d
     if b.has 15 = true ∧ b.bool 15 true = false ∧ y.state = .up ∧ (y.txLanes < y.width ∨ y.rxLanes < y.width) then
       (d.widen p false).answer f 0x0B 0
     else d.answer f 0x00 0) := by
  unfold Eng.portApply Eng.portWritten
  by_cases hoff : b.has 15 = true ∧ b.bool 15 true = false
  · simp only [hoff.1, hoff.2, Bool.not_false, Bool.and_self, Bool.true_and, true_and, and_self, if_true, decide_eq_true_eq,
      stPending, stOK]
  · have hoff' : (b.has 15 && !b.bool 15 true) = false := by
      rw [Bool.eq_false_iff]
      simpa using hoff
    have hno (q : Prop) : ¬ (b.has 15 = true ∧ b.bool 15 true = false ∧ q) := fun h => hoff ⟨h.1, h.2.1⟩
    simp only [hoff', Bool.false_and, Bool.false_eq_true, if_false, if_neg hoff, if_neg (hno _), stOK]

section
variable {e : Eng} {f : Fn} {c : Cmd} {b : SetBlk} (h : e.Sets f 0x0102 (fun _ => portFlds) e.portArg c b)
  (hc : firstBad (e.portChecks b) = none) (hf : f = 0)
include h hc hf

theorem Eng.portConfig_locked (cf : Commit) {l : SetFld}
    (hl : lockedChange portFlds b (fun i => nth (e.port (fin 16 b.object)).cfg i [])
      (fun _ => !decide ((e.port (fin 16 b.object)).state = .adminDown)) = some l) :
    e.portConfig f cf = ((e.reject f 0x0102 false l.idx).answer f 0x02 l.off).journalCmd f c := by
  refine Eng.mbxSet_eq h hc (decide_eq_true hf) ?_
  simp only [hl, Eng.lockedAt_of_opcode _ _ h.opcode]

theorem Eng.portConfig_applies {cf : Commit} (hcf : cf.fail = none)
    (hl : lockedChange portFlds b (fun i => nth (e.port (fin 16 b.object)).cfg i [])
      (fun _ => !decide ((e.port (fin 16 b.object)).state = .adminDown)) = none)
    (hfail : b.bool 0 false = false ∨ ∀ q, e.portOf q = fin 16 b.object → (e.slot q).failed = false) :
    e.portConfig f cf = (e.portApply f (fin 16 b.object) b).journalCmd f c := by
  refine Eng.mbxSet_eq h hc (decide_eq_true hf) ?_
  simp only [hl, Eng.twoPhase_commits _ _ hcf]
  cases hs : (e.slotsOf (fin 16 b.object)).find? (fun s => (e.slot s).failed) with
  | none => rfl
  | some q =>
    have hmem := List.mem_of_find?_eq_some hs
    have hq : (e.slot q).failed = true := by simpa using List.find?_some hs
    have hb : b.bool 0 false = false := hfail.resolve_right fun hall => by
      have hport : e.portOf q = fin 16 b.object := by simpa [Eng.slotsOf] using (List.mem_filter.mp hmem).2
      simp [hall q hport] at hq
    simp only [hb, Bool.false_eq_true, if_false]

end

/-! ### FC_CONFIG and KITTY_CONFIG -/

section
variable {e : Eng} {f : Fn} {c : Cmd} {b : SetBlk} (hf : f = 0)

section
variable (h : e.Sets f 0x010B (fun _ => fcFlds) e.portArg c b) (hc : firstBad (e.fcChecks b) = none)
  (hl : lockedChange fcFlds b (fun i => nth ((e.port (fin 16 b.object)).fcCfg e.start.oversub) i [])
    (fun _ => !decide ((e.port (fin 16 b.object)).state = .adminDown)) = none)
include hf h hc hl

/-- Headroom above KITTY_SIZE, and no OVERSUB_OK (R122). -/
theorem Eng.fcConfig_short (cf : Commit)
    (hroom : e.start.kittySize < (e.setPort (fin 16 b.object) ((e.port (fin 16 b.object)).setFc b)).headroom)
    (hover : b.bool 12 false = false) : e.fcConfig f cf = (e.answer f 0x04 0).journalCmd f c := by
  refine Eng.mbxSet_eq h hc (decide_eq_true hf) ?_
  simp only [hl]
  exact if_pos ⟨hroom, hover⟩

theorem Eng.fcConfig_applies {cf : Commit} (hcf : cf.fail = none)
    (hroom : (e.setPort (fin 16 b.object) ((e.port (fin 16 b.object)).setFc b)).headroom ≤ e.start.kittySize ∨
      b.bool 12 false = true) :
    e.fcConfig f cf = ((e.fcApply (fin 16 b.object) b).answer f 0x00 0).journalCmd f c := by
  refine Eng.mbxSet_eq h hc (decide_eq_true hf) ?_
  have hno : ¬ (e.start.kittySize < (e.setPort (fin 16 b.object) ((e.port (fin 16 b.object)).setFc b)).headroom ∧
      b.bool 12 false = false) := by
    rintro ⟨hlt, hover⟩
    exact hroom.elim (Nat.not_le.mpr hlt) (by simp [hover])
  simp only [hl]
  exact (if_neg hno).trans (Eng.twoPhase_commits _ _ hcf _ _ _ _)

end

section
variable (h : e.Sets f 0x010C (fun _ => kittyFlds) (fun v => v == objEngine) c b)
  (hl : lockedChange kittyFlds b (fun i => if i = 0 then [e.start.kittySize] else [])
    (fun _ => e.portList.any (fun p => !decide ((e.port p).state = .adminDown))) = none)
include hf h hl

theorem Eng.kittyConfig_short (hroom : b.val 0 e.start.kittySize < e.headroom) (hover : b.bool 1 false = false) :
    e.kittyConfig f = (e.answer f 0x04 0).journalCmd f c := by
  refine Eng.mbxSet_eq h rfl (decide_eq_true hf) ?_
  simp only [hl]
  exact if_pos ⟨hroom, hover⟩

theorem Eng.kittyConfig_applies (hroom : e.headroom ≤ b.val 0 e.start.kittySize ∨ b.bool 1 false = true) :
    e.kittyConfig f = (let size := b.val 0 e.start.kittySize
      ({ e with start := { e.start with kittySize := size, oversub := decide (size < e.headroom) } } : Eng).answer
        f 0x00 0).journalCmd f c := by
  refine Eng.mbxSet_eq h rfl (decide_eq_true hf) ?_
  have hno : ¬ (b.val 0 e.start.kittySize < e.headroom ∧ b.bool 1 false = false) := by
    rintro ⟨hlt, hover⟩
    exact hroom.elim (Nat.not_le.mpr hlt) (by simp [hover])
  simp only [hl]
  exact if_neg hno

end

end

/-- Settles O46: each command's request and issuer pass, and a LOCKED field, headroom that is short or neither decides. -/
theorem portSetCommands : Obligations.PortSetCommands := by
  unfold Obligations.PortSetCommands
  refine fun s f c cf hcf => ⟨fun h hlen hc hf => ⟨fun hdown => ?_, fun p hk hup hlow => ?_⟩,
    fun p hk => Eng.groupApply_changed _ _ hk, fun p hk => Eng.groupApply_kept _ _ hk,
    fun b h hc hf => ⟨fun l hl => ?_, fun hl hfail => ?_⟩, fun b h hc hf hl => ⟨fun hroom hover => ?_, fun hroom => ?_⟩,
    fun b h hf hl => ⟨fun hroom hover => ?_, fun hroom => ?_⟩⟩
  · exact State.does_eq_after (Eng.portGroup_groups h hlen hc hf hcf hdown)
  · exact State.does_eq_after (Eng.portGroup_locked h hlen hc hf cf hk hup hlow)
  · exact State.does_eq_after (Eng.portConfig_locked h hc hf cf hl)
  · exact State.does_eq_after ((Eng.portConfig_applies h hc hf hcf hl hfail).trans
      (congrArg (Eng.journalCmd · f c) (Eng.portApply_eq _ _ _ _)))
  · exact State.does_eq_after (Eng.fcConfig_short hf h hc hl cf hroom hover)
  · exact State.does_eq_after (Eng.fcConfig_applies hf h hc hl hcf hroom)
  · exact State.does_eq_after (Eng.kittyConfig_short hf h hl hroom hover)
  · exact State.does_eq_after (Eng.kittyConfig_applies hf h hl hroom)

end Sys2Proof.Machine
end

section
/-! PROOF. The general group's commands (R42, R58, R60, R153, R194, R477, R480, R520 to R522). -/
namespace Sys2Proof.Machine

section
variable {e : Eng} {f : Fn} {c : Cmd}

/-! ### FUNC_CONFIG and FUNC_RESET -/

section
variable {b : SetBlk} (hf : f = 0) (h : e.Sets f 0x0001 (fun _ => fnFlds) (fun v => decide (v < 2048)) c b)
  (hc : firstBad (e.fnChecks b) = none)
include hf h hc

theorem Eng.funcConfig_locked {l : SetFld} (hl : lockedChange fnFlds b (fun i => nth (e.fn (fin 2048 b.object)).cfg i [])
      (fun _ => (e.fn (fin 2048 b.object)).enabled) = some l) :
    e.funcConfig f = ((e.reject f 0x0001 false l.idx).answer f 0x02 l.off).journalCmd f c := by
  refine Eng.mbxSet_eq h hc (decide_eq_true hf) ?_
  simp only [hl, Eng.lockedAt_of_opcode _ _ h.opcode]

variable (hl : lockedChange fnFlds b (fun i => nth (e.fn (fin 2048 b.object)).cfg i [])
  (fun _ => (e.fn (fin 2048 b.object)).enabled) = none)
include hl

/-- A function that is disabled is reset first (R42). -/
theorem Eng.funcConfig_resets (hen : (e.fn (fin 2048 b.object)).enabled = true) (hoff : b.bool 0 true = false) :
    e.funcConfig f = ((e.working f).resetBegin (fin 2048 b.object)).journalCmd f c := by
  refine Eng.mbxSet_eq h hc (decide_eq_true hf) ?_
  simp only [hl]
  exact if_pos (by simp [hen, hoff])

theorem Eng.funcConfig_applies (hon : (e.fn (fin 2048 b.object)).enabled = false ∨ b.bool 0 true = true) :
    e.funcConfig f = ((e.fnApply (fin 2048 b.object) b).answer f 0x00 0).journalCmd f c := by
  refine Eng.mbxSet_eq h hc (decide_eq_true hf) ?_
  simp only [hl]
  exact if_neg (by rcases hon with h | h <;> simp [h])

end

section
variable (h : e.Asks f 0x0002 1 c)
include h

theorem Eng.funcReset_begins (hf : f = 0) (hlo : 1 ≤ c.slot 0) (hhi : c.slot 0 < 2048) :
    e.funcReset f = ((e.working f).resetBegin (fin 2048 (c.slot 0))).journalCmd f c :=
  Eng.mbxArgs_eq h (by simp [firstBad, hlo, hhi]) (f0Only_of hf _ _) rfl

/-- F0 is not reset. -/
theorem Eng.funcReset_zero (h0 : c.slot 0 = 0) : e.funcReset f = (e.answer f 0x03 32).journalCmd f c :=
  Eng.mbxArgs_invalid h (by simp [firstBad, h0]) _ _

end

/-! ### Reads and COMMIT -/

/-- A SET block of all of an object's fields (R58). -/
theorem setBytes_eq (object : Nat) (l : List (List Nat)) :
    setBytes object l = bytesLE 4 object ++ zeros 4 ++ bytesLE 8 (2 ^ l.length - 1) ++ slotBytes l.flatten := by
  rw [setBytes, List.flatMap_id']

section
variable {l : List (List Nat)} (h : e.Asks f 0x0003 2 c) (hop : setOps.contains (c.slot 0) = true)
  (hl : e.configOf f (c.slot 0) (c.slot 1) = some l)
include h hop hl

theorem Eng.configGet_denied (hm : configMay f (c.slot 0) (c.slot 1) = false) :
    e.configGet f = (e.answer f 0x05 0).journalCmd f c :=
  Eng.mbxArgs_denied h (by simp only [hop, hl, firstBad]; rfl) hm _

/-- The fields in effect, laid out as a SET block of them (R58). -/
theorem Eng.configGet_reads (hm : configMay f (c.slot 0) (c.slot 1) = true) : e.configGet f =
    (let bs := bytesLE 4 (c.slot 1) ++ zeros 4 ++ bytesLE 8 (2 ^ l.length - 1) ++ slotBytes l.flatten
     if c.fits bs.length then e.respond f 0x00 0 bs else e.answer f 0x03 4).journalCmd f c := by
  refine Eng.mbxArgs_eq h (by simp only [hop, hl, firstBad]; rfl) hm ?_
  simp only [hl, Option.getD_some, setBytes_eq]
  rfl

end

section
variable (hf : f = 0)
include hf

theorem Eng.rejectLogGet_reads (h : e.Asks f 0x0004 0 c) : e.rejectLogGet f =
    (let bs := (e.ctl.rejects.take (if c.indRsp then 64 else 7)).flatMap RejectEntry.bytes
     if c.fits bs.length then e.respond f 0x00 0 bs else e.answer f 0x03 4).journalCmd f c :=
  Eng.mbxArgs_eq h rfl (f0Only_of hf _ _) rfl

theorem Eng.commitCmd_answers (h : e.Asks f 0x0005 0 c) : e.commitCmd f = (e.answer f 0x00 0).journalCmd f c :=
  Eng.mbxArgs_eq h rfl (f0Only_of hf _ _) rfl

theorem Eng.resetInfo_reads (h : e.Asks f 0x0007 0 c) :
    e.resetInfo f = (e.respond f 0x00 0 (slotBytes e.start.info)).journalCmd f c :=
  Eng.mbxArgs_eq h rfl (f0Only_of hf _ _) rfl

/-! ### ENG_RESET -/

section
variable (h : e.Asks f 0x0006 1 c) (hflag : c.slot 0 < 2)
include h hflag

theorem Eng.engReset_active (hp : e.pair.state = .active) : e.engReset f = (e.answer f 0x05 0).journalCmd f c :=
  Eng.mbxArgs_eq h (by simp [firstBad, hflag]) (f0Only_of hf _ _) (if_pos hp)

theorem Eng.engReset_begins (hp : e.pair.state ≠ .active) : e.engReset f =
    (if c.slot 0 = 1 then (e.answer f 0x00 0).engineReset .command else (e.answer f 0x00 0).graceful).journalCmd f c :=
  Eng.mbxArgs_eq h (by simp [firstBad, hflag]) (f0Only_of hf _ _) (if_neg hp)

end

end

end

/-- Settles O55: each command's request and issuer pass, and a LOCKED field, the object's state or neither decides. -/
theorem generalCommands : Obligations.GeneralCommands := by
  unfold Obligations.GeneralCommands
  refine fun s f c => ⟨fun b hf h hc => ⟨fun l hl => ?_, fun hl => ⟨fun hen hoff => ?_, fun hon => ?_⟩⟩,
    fun hf h => ⟨fun hlo hhi => ?_, fun h0 => ?_⟩, fun l h hop hl => ⟨fun hm => ?_, fun hm => ?_⟩, fun hf h => ?_, fun hf h => ?_,
    fun hf h hflag => ⟨fun hp => ?_, fun hp => ?_⟩, fun hf h => ?_⟩
  · exact State.does_eq_after (Eng.funcConfig_locked hf h hc hl)
  · exact State.does_eq_after (Eng.funcConfig_resets hf h hc hl hen hoff)
  · exact State.does_eq_after (Eng.funcConfig_applies hf h hc hl hon)
  · exact State.does_eq_after (Eng.funcReset_begins h hf hlo hhi)
  · exact State.does_eq_after (Eng.funcReset_zero h h0)
  · exact State.does_eq_after (Eng.configGet_denied h hop hl hm)
  · exact State.does_eq_after (Eng.configGet_reads h hop hl hm)
  · exact State.does_eq_after (Eng.rejectLogGet_reads hf h)
  · exact State.does_eq_after (Eng.commitCmd_answers hf h)
  · exact State.does_eq_after (Eng.engReset_active hf h hflag hp)
  · exact State.does_eq_after (Eng.engReset_begins hf h hflag hp)
  · exact State.does_eq_after (Eng.resetInfo_reads hf h)

end Sys2Proof.Machine
end

section
/-! PROOF. Command time limits, progress reports and the firmware group's commands (R45, R51, R52, R188, R234, R382, R386 to
R390, R535, R536). -/
namespace Sys2Proof.Machine

/-! ### COMMAND_TIMEOUT -/

section
variable {e : Eng} {f : Fn} {c : Cmd}

/-- The status with which a command ends at its class limit (R45, R386). -/
def Eng.lapseStatus (e : Eng) (f : Fn) : Nat := if e.heldByDebug f then 0x09 else 0x08

theorem Eng.cmdTimeout_idle (h : (e.fn f).cmd = none ∨ e.ctl.ready = false) : e.cmdTimeout f = e := by
  unfold Eng.cmdTimeout
  cases hc : (e.fn f).cmd with
  | none => rfl
  | some c => exact if_pos (h.resolve_left (by simp [hc]))

section
variable (hc : (e.fn f).cmd = some c) (hr : e.ctl.ready = true) (hw : e.waitOf (.mbx f) = none)
include hc hr hw

/-- What a command at its limit comes to, by whether it is one that ends with PENDING. -/
theorem Eng.cmdTimeout_eq : e.cmdTimeout f =
    (if c.st = .working ∧ e.lapseStatus f = 0x08 ∧ c.opcode = 0x0304 then e.swapAnswer 0x0B
     else if c.st = .working ∧ e.lapseStatus f = 0x08 ∧ c.opcode = 0x0206 then e.answer f 0x0B 0
     else e.cmdLapse f c (e.lapseStatus f)) := by
  unfold Eng.cmdTimeout
  simp only [hc, hr, hw, Option.isSome_none, Bool.true_eq_false, Bool.false_eq_true, if_false]
  rfl

theorem Eng.cmdTimeout_swap (hop : c.opcode = 0x0304) (hst : c.st = .working) (hs : e.lapseStatus f = 0x08) :
    e.cmdTimeout f = e.swapAnswer 0x0B := by
  rw [Eng.cmdTimeout_eq hc hr hw, if_pos ⟨hst, hs, hop⟩]

theorem Eng.cmdTimeout_stop (hop : c.opcode = 0x0206) (hst : c.st = .working) (hs : e.lapseStatus f = 0x08) :
    e.cmdTimeout f = e.answer f 0x0B 0 := by
  rw [Eng.cmdTimeout_eq hc hr hw, if_neg (by simp [hop]), if_pos ⟨hst, hs, hop⟩]

/-- Any other command ends. -/
theorem Eng.cmdTimeout_lapses (hswap : c.opcode ≠ 0x0304) (hstop : c.opcode ≠ 0x0206) :
    e.cmdTimeout f = e.cmdLapse f c (e.lapseStatus f) := by
  rw [Eng.cmdTimeout_eq hc hr hw, if_neg (fun h => hswap h.2.2), if_neg (fun h => hstop h.2.2)]

end

/-! ### What a command that ends takes back -/

section
variable (hu : c.undo = none) (st : Nat)
include hu

/-- What is put back of a command that cleared no counters, by its opcode. -/
theorem Eng.cmdLapse_eq : e.cmdLapse f c st =
    (if c.st = .working ∧ c.opcode = 0x0802 then e.formFail st 0
     else (if c.opcode = 0x0601 then e.modPwr PwrSt.takeBack
       else if c.opcode = 0x0804 ∧ c.st = .working then e.handoverQuit
       else if c.opcode = 0x0805 ∧ c.st = .working then
         e.modPair (fun x => { x with resync := false, formStep := 0, changes := [], unacked := [], buffered := [] })
       else e).cmdEnd f st 0) := by
  unfold Eng.cmdLapse
  simp only [hu]

theorem Eng.cmdLapse_plain (hop : c.opcode ∉ [0x0601, 0x0802, 0x0804, 0x0805]) : e.cmdLapse f c st = e.cmdEnd f st 0 := by
  simp only [List.mem_cons, List.not_mem_nil, or_false, not_or] at hop
  obtain ⟨hset, hform, hover, hsync⟩ := hop
  rw [Eng.cmdLapse_eq hu, if_neg (by simp [hform]), if_neg hset, if_neg (by simp [hover]), if_neg (by simp [hsync])]

theorem Eng.cmdLapse_form (hop : c.opcode = 0x0802) (hst : c.st = .working) : e.cmdLapse f c st = e.formFail st 0 := by
  rw [Eng.cmdLapse_eq hu, if_pos ⟨hst, hop⟩]

theorem Eng.cmdLapse_switchover (hop : c.opcode = 0x0804) (hst : c.st = .working) :
    e.cmdLapse f c st = e.handoverQuit.cmdEnd f st 0 := by
  rw [Eng.cmdLapse_eq hu, if_neg (by simp [hop]), if_neg (by simp [hop]), if_pos ⟨hop, hst⟩]

theorem Eng.cmdLapse_resync (hop : c.opcode = 0x0805) (hst : c.st = .working) : e.cmdLapse f c st =
    (e.modPair (fun x => { x with resync := false, formStep := 0, changes := [], unacked := [], buffered := [] })).cmdEnd f st 0 := by
  rw [Eng.cmdLapse_eq hu, if_neg (by simp [hop]), if_neg (by simp [hop]), if_neg (by simp [hop]), if_pos ⟨hop, hst⟩]

theorem Eng.cmdLapse_powerSet (hop : c.opcode = 0x0601) :
    e.cmdLapse f c st = (e.modPwr PwrSt.takeBack).cmdEnd f st 0 := by
  rw [Eng.cmdLapse_eq hu, if_neg (by simp [hop]), if_pos hop]

end

/-- An entry that POWER_SET alone asked for is rolled back at its next abort point (R413). -/
theorem PwrSt.takeBack_eq (x : PwrSt) : x.takeBack =
    if (x.step = .e1 ∨ x.step = .e2 ∨ x.step = .e3 ∨ x.step = .e4) ∧ x.waiters = [.powerSet] then
      { x.dropSet with abort := some (x.dropSet.abort.getD { cause := 3 }) }
    else x.dropSet := by
  unfold PwrSt.takeBack
  cases x.step <;> simp

/-- A handover that is not at its lease write is given up (R447). -/
theorem Eng.handoverQuit_eq (e : Eng) : e.handoverQuit =
    if e.pair.handover = some false ∧ e.pair.state = .active ∧ e.pair.op = none then
      (e.modPair (fun x => { x with handover := none })).fetchAll
    else e := by
  unfold Eng.handoverQuit
  simp only [Option.isNone_iff_eq_none]

/-! ### PROGRESS_REPORT -/

section
variable (hc : (e.fn f).cmd = some c) (hr : e.ctl.ready = true) (hst : c.st = .working) (done total : Nat)
include hc hr hst

theorem Eng.progress_powerSet (hop : c.opcode = 0x0601) : e.progress f done total =
    e.progressMbx f (if e.pwr.step.code = 6 then 0 else 200 * (e.pwr.step.code - 1)) e.pwr.step.code := by
  unfold Eng.progress
  simp only [hc]
  rw [if_neg (by simp [hr, hst]), if_pos hop]

/-- Forming copies in its fifth step, which is two fifths of it (R536). -/
theorem Eng.progress_form (hop : c.opcode = 0x0802) (hstep : e.pair.formStep = 5) (ht : 0 < total) :
    e.progress f done total = e.progressMbx f (400 + min 400 (400 * done / total)) 5 := by
  unfold Eng.progress
  simp only [hc]
  rw [if_neg (by simp [hr, hst]), if_neg (by simp [hop]), if_pos hop, hstep, if_pos rfl, if_neg (Nat.ne_of_gt ht)]

theorem Eng.progress_update (hop : c.opcode = 0x0B02) (hd : 0 < done) (ht : done < total) :
    e.progress f done total = e.progressMbx f (100 + 800 * done / total) 2 := by
  have hshare : 800 * done / total ≤ 800 := Nat.div_le_of_le_mul (by nlinarith)
  unfold Eng.progress
  simp only [hc]
  rw [if_neg (by simp [hr, hst]), if_neg (by simp [hop]), if_neg (by simp [hop]), if_pos hop, if_pos ⟨hd, ht⟩,
    if_neg (by omega), Nat.min_eq_right hshare]

end

/-! ### The firmware group -/

theorem Eng.fwInfoGet_reads (h : e.Asks f 0x0B01 0 c) (b : Boot) : e.fwInfoGet b f = (e.respond f 0x00 0 (slotBytes
    [b.a.state.code, b.a.version.toNat, b.a.secVersion.toNat, b.b.state.code, b.b.version.toNat, b.b.secVersion.toNat,
      b2n b.runB])).journalCmd f c :=
  Eng.mbxArgs_eq h rfl rfl rfl

theorem Eng.fwRestartCmd_restarts (h : e.Asks f 0x0B03 0 c) (hf : f = 0) :
    e.fwRestartCmd f = ((e.answer f 0x00 0).lcpRestart 5).journalCmd f c :=
  Eng.mbxArgs_eq h rfl (f0Only_of hf _ _) rfl

section
variable (h : e.Asks f 0x0B04 1 c) (hflag : c.slot 0 < 2)
include h hflag

theorem Eng.fwDebugEnable_sets (hf : f = 0) (hp : e.lcp.policy = true) :
    e.fwDebugEnable f = ((e.dbgEnable (c.slot 0 == 1)).answer f 0x00 0).journalCmd f c :=
  Eng.mbxArgs_eq h (firstBad_flag hflag 32) (by simp [hf, hp]) rfl

/-- The policy forbids it (R386). -/
theorem Eng.fwDebugEnable_denied (hp : e.lcp.policy = false) : e.fwDebugEnable f = (e.answer f 0x05 0).journalCmd f c :=
  Eng.mbxArgs_denied h (firstBad_flag hflag 32) (by simp [hp]) _

end

/-! ### FW_UPDATE -/

/-- The slot that an image written leaves (R389). -/
def Cmd.imageSlot (c : Cmd) (writeOk : Bool) : ImgSlot :=
  if writeOk then { state := .pending, version := BitVec.ofNat 32 (c.at_ 0 32), secVersion := BitVec.ofNat 32 (c.at_ 8 32) } else {}

section
variable (h : e.Has f 0x0B02 c)
include h

/-- An image that passes is written to the slot that does not run. -/
theorem Eng.fwUpdate_writes {sigOk secOk : Bool} (hf : f = 0) (hc : firstBad (fwChecks c sigOk secOk) = none) (writeOk : Bool)
    (b : Boot) : e.fwUpdate b f sigOk secOk writeOk =
      (b.update (c.imageSlot writeOk), (e.answer f (if writeOk then 0x00 else 0x0D) 0).journalCmd f c) := by
  unfold Eng.fwUpdate
  simp only [Eng.mbxReady_has h, Eng.mbx_has h, hc, Option.isNone_none, decide_eq_true hf, Bool.and_self, if_true,
    if_neg (not_not_intro hf)]
  rfl

theorem Eng.fwUpdate_invalid {sigOk secOk : Bool} {d : Nat} (hc : firstBad (fwChecks c sigOk secOk) = some d) (writeOk : Bool)
    (b : Boot) : e.fwUpdate b f sigOk secOk writeOk = (b, (e.answer f 0x03 d).journalCmd f c) := by
  unfold Eng.fwUpdate
  simp only [Eng.mbxReady_has h, Eng.mbx_has h, hc, Option.isNone_some, Bool.false_and, Bool.false_eq_true, if_false]
  rfl

end

end

/-- FW_UPDATE by what it does to the boot store and the cleared engine. -/
theorem exec_fwUpdate_eq {f : Fn} {sigOk secOk writeOk : Bool} {s : State} {b : Boot} {d : Eng}
    (hboot : (s.eng.fwUpdate s.boot f sigOk secOk writeOk).1 = b) (hd : (s.eng.clear.fwUpdate s.boot f sigOk secOk writeOk).2 = d) :
    exec (.fwUpdate f sigOk secOk writeOk) s = .next { s.after d with boot := b } := by
  have hexec : exec (.fwUpdate f sigOk secOk writeOk) s =
      .next { s.run (fun e => (e.fwUpdate s.boot f sigOk secOk writeOk).2) with
        boot := (s.eng.fwUpdate s.boot f sigOk secOk writeOk).1 } := rfl
  rw [hexec, hboot, State.run_eq_after hd]

/-- Settles O56: a command at its limit by its opcode, a report by the command that it is of, and each firmware command by
its checks. -/
theorem firmwareCommands : Obligations.FirmwareCommands := by
  unfold Obligations.FirmwareCommands
  intro s f c
  refine ⟨fun h => ?_, fun hc hr hw hu => ⟨fun hop => ?_, fun hop hst hs => ?_, fun hop hst hs => ?_, fun hop hst => ?_,
    fun hop hst => ?_, fun hop hst => ?_, fun hop => ?_⟩, fun hc hr hst done total => ⟨fun hop => ?_, fun hop hstep ht => ?_,
    fun hop hd ht => ?_⟩, fun h => ?_, fun h hf => ⟨fun writeOk hreq hlen hmax => ?_, fun sigOk secOk writeOk d hd => ?_⟩,
    fun h hf => ?_, fun h hf hflag => ?_⟩
  · exact State.does_eq_after (Eng.cmdTimeout_idle h)
  · simp only [List.mem_cons, List.not_mem_nil, or_false, not_or] at hop
    obtain ⟨hstop, hswap, hrest⟩ := hop
    exact State.does_eq_after ((Eng.cmdTimeout_lapses hc hr hw hswap hstop).trans (Eng.cmdLapse_plain hu _ (by simpa using hrest)))
  · exact State.does_eq_after (Eng.cmdTimeout_stop hc hr hw hop hst hs)
  · exact State.does_eq_after (Eng.cmdTimeout_swap hc hr hw hop hst hs)
  · exact State.does_eq_after ((Eng.cmdTimeout_lapses hc hr hw (by simp [hop]) (by simp [hop])).trans
      (Eng.cmdLapse_form hu _ hop hst))
  · exact State.does_eq_after (((Eng.cmdTimeout_lapses hc hr hw (by simp [hop]) (by simp [hop])).trans
      (Eng.cmdLapse_switchover hu _ hop hst)).trans (by rw [Eng.handoverQuit_eq]; rfl))
  · exact State.does_eq_after ((Eng.cmdTimeout_lapses hc hr hw (by simp [hop]) (by simp [hop])).trans
      (Eng.cmdLapse_resync hu _ hop hst))
  · exact State.does_eq_after (((Eng.cmdTimeout_lapses hc hr hw (by simp [hop]) (by simp [hop])).trans
      (Eng.cmdLapse_powerSet hu _ hop)).trans (by simp only [Eng.modPwr, PwrSt.takeBack_eq]; rfl))
  · exact State.does_eq_after (Eng.progress_powerSet hc hr hst _ _ hop)
  · exact State.does_eq_after (Eng.progress_form hc hr hst _ _ hop hstep ht)
  · exact State.does_eq_after (Eng.progress_update hc hr hst _ _ hop hd ht)
  · exact State.does_eq_after (Eng.fwInfoGet_reads h s.boot)
  · have hchecks : firstBad (fwChecks c true true) = none := by simp [fwChecks, firstBad, hreq, hlen, hmax]
    have hs : s.eng.Has f 0x0B02 c := ⟨h.cmd, h.opcode, h.ready, h.runs, h.turn, h.alone⟩
    exact exec_fwUpdate_eq (congrArg Prod.fst (Eng.fwUpdate_writes hs hf hchecks writeOk s.boot))
      (congrArg Prod.snd (Eng.fwUpdate_writes h hf hchecks writeOk s.boot))
  · have hs : s.eng.Has f 0x0B02 c := ⟨h.cmd, h.opcode, h.ready, h.runs, h.turn, h.alone⟩
    refine (exec_fwUpdate_eq (congrArg Prod.fst (Eng.fwUpdate_invalid hs (sigOk := sigOk) (secOk := secOk) hd writeOk s.boot))
      (congrArg Prod.snd (Eng.fwUpdate_invalid h (sigOk := sigOk) (secOk := secOk) hd writeOk s.boot))).trans ?_
    exact congrArg Host.Outcome.next (State.after_with_boot _ _)
  · exact State.does_eq_after (Eng.fwRestartCmd_restarts h hf)
  · by_cases hp : s.eng.clear.lcp.policy = true
    · exact State.does_eq_after ((Eng.fwDebugEnable_sets h hflag hf hp).trans (by rw [if_pos hp]))
    · exact State.does_eq_after ((Eng.fwDebugEnable_denied h hflag (by simpa using hp)).trans (by rw [if_neg hp]))

end Sys2Proof.Machine
end

section
/-! PROOF. The LCP's restarts and the faults of its threads (O35): each of the five operations by the branch that its state
selects, then the commands. -/
namespace Sys2Proof.Machine

variable {e : Eng} {t : ThreadId}

/-! ### The watchdog and deadlocks -/

theorem Eng.lcpWatchdog_still (h : (e.thread 0).state = .haltedDebug ∨ e.pwr.ctlOn = false) : e.lcpWatchdog = e := if_pos h

section
variable (hh : (e.thread 0).state ≠ .haltedDebug) (hon : e.pwr.ctlOn = true)
include hh hon

theorem Eng.watches : ¬ ((e.thread 0).state = .haltedDebug ∨ e.pwr.ctlOn = false) := by simp [hh, hon]

/-- At the edge of a deadlock's restart the watchdog restarts nothing (R384). -/
theorem Eng.lcpWatchdog_edge (h : e.ctl.restarting = true ∧ e.lcp.lastCause = 1 ∧ e.lcp.lastRestart = e.tb0) :
    e.lcpWatchdog = e.fail 38 0 (mThread 0) := (if_neg (Eng.watches hh hon)).trans (if_pos h)

theorem Eng.lcpWatchdog_restarts (h : ¬ (e.ctl.restarting = true ∧ e.lcp.lastCause = 1 ∧ e.lcp.lastRestart = e.tb0)) :
    e.lcpWatchdog = (e.fail 38 0 (mThread 0)).lcpRestart 2 := (if_neg (Eng.watches hh hon)).trans (if_neg h)

end

theorem Eng.deadlocked_still (h : e.deadlock = false ∨ e.pwr.ctlOn = false) : e.deadlocked = e := by
  refine if_neg fun hd => ?_
  obtain h | h := h
  · exact Bool.false_ne_true (h.symm.trans hd.1)
  · exact Bool.false_ne_true (h.symm.trans hd.2)

theorem Eng.deadlocked_restarts (hd : e.deadlock = true) (hon : e.pwr.ctlOn = true) : e.deadlocked =
    (e.fail 37 (pack (allThreads.map (fun t => (b2n (decide ((e.thread t).state = .waitChannel)), 1)))) (mThread 0)).lcpRestart 1 :=
  if_pos ⟨hd, hon⟩

/-! ### A thread's fault and restart -/

theorem Eng.threadFault_still (h : ¬ (e.pwr.ctlOn = true ∧ (e.thread t).state ≠ .reset ∧ (e.thread t).state ≠ .faulted))
    (cause : Nat) : e.threadFault t cause = e := by
  refine if_pos ?_
  by_contra hno
  simp only [not_or, Bool.not_eq_false] at hno
  exact h hno

section
variable (h : e.pwr.ctlOn = true ∧ (e.thread t).state ≠ .reset ∧ (e.thread t).state ≠ .faulted)
include h

theorem Eng.mayFault : ¬ (e.pwr.ctlOn = false ∨ (e.thread t).state = .reset ∨ (e.thread t).state = .faulted) := by simp [h]

/-- A fault of T0 restarts the LCP. -/
theorem Eng.threadFault_master (ht : t = 0) (cause : Nat) :
    e.threadFault t cause = (e.fail 36 (t.val + 16 * (cause % 16)) (mThread t.val)).lcpRestart 3 :=
  (if_neg (Eng.mayFault h)).trans (if_pos ht)

/-- A fault of another thread stops it and leaves T0 a notice. -/
theorem Eng.threadFault_stops (ht : t ≠ 0) (cause : Nat) : e.threadFault t cause =
    (let x := ((e.fail 36 (t.val + 16 * (cause % 16)) (mThread t.val)).setThread t
       { (e.thread t).freeze e.now with state := .faulted, waitChn := none }).freePc t
     { x with lcp := { x.lcp with notices := e.lcp.notices ++ [t] } }) :=
  (if_neg (Eng.mayFault h)).trans (if_neg ht)

end

section
variable (ht : t ≠ 0) (hon : e.pwr.ctlOn = true)
include ht hon

theorem Eng.mayRestart : ¬ (t = 0 ∨ e.pwr.ctlOn = false) := by simp [ht, hon]

theorem Eng.threadRestart_releases (hy : (e.thread t).state = .reset) : e.threadRestart t = e.setThread t { state := .running } := by
  unfold Eng.threadRestart
  dsimp only
  rw [if_neg (Eng.mayRestart ht hon), hy]

theorem Eng.threadRestart_still (hr : (e.thread t).state ≠ .reset) (hf : (e.thread t).state ≠ .faulted) : e.threadRestart t = e := by
  unfold Eng.threadRestart
  dsimp only
  rw [if_neg (Eng.mayRestart ht hon)]
  cases hy : (e.thread t).state with
  | reset => exact absurd hy hr
  | faulted => exact absurd hy hf
  | running | waitChannel | waitEvent | haltedDebug => rfl

/-- The faulted thread T0 restarts: what it had is gone, and the commands it served end. -/
theorem Eng.threadRestart_restarts (hy : (e.thread t).state = .faulted) : e.threadRestart t =
    (let d := (e.dropPart t).setThread t { state := .running }
     let d : Eng := { d with lcp := { d.lcp with
       threadRestarts := d.lcp.threadRestarts + 1, notices := d.lcp.notices.filter (fun u => !decide (u = t)) } }
     foldEng d.ctl.inflight (fun e f => match (e.fn f).cmd with
       | some k => if k.thread = some t then e.cmdLapse f k 0x08 else e
       | none => e) d) := by
  unfold Eng.threadRestart
  dsimp only
  rw [if_neg (Eng.mayRestart ht hon), hy]
  rfl

end

/-! ### The end of a restart -/

theorem Eng.lcpReady_still (h : e.ctl.restarting = false) : e.lcpReady = e := if_pos (by rw [h]; rfl)

theorem Eng.lcpReady_ends (h : e.ctl.restarting = true) : e.lcpReady =
    (let d := foldEng e.ctl.inflight (fun e f => e.cmdEnd f 0x08 0) { e with ctl := { e.ctl with restarting := false } }
     let d := (foldEng d.enabledFns (fun e f => e.fwRestarted f) d).releaseThreads
     { d with ctl := { d.ctl with ready := true }, lcp := { d.lcp with readyAt := d.now } }) := if_neg (by simp [h])

/-- Settles O35: each operation by the condition that lets it act, and what it leaves where that condition fails. -/
theorem restartsAndThreadFaults : Obligations.RestartsAndThreadFaults := by
  unfold Obligations.RestartsAndThreadFaults
  intro s
  refine ⟨fun hh hon => ⟨fun hedge => ?_, fun hedge => ?_⟩, fun h => ?_, fun h => ?_, fun hd hon => ?_,
    fun t cause => ⟨fun h ht => ?_, fun h ht => ?_, fun h => ?_⟩,
    fun t ht hon => ⟨fun hy => ?_, fun hy => ?_, fun hr hf => ?_⟩, fun h => ?_, fun h => ?_⟩
  · exact State.does_eq_after (Eng.lcpWatchdog_restarts hh hon hedge)
  · exact State.does_eq_after (Eng.lcpWatchdog_edge hh hon hedge)
  · exact State.does_eq_after (Eng.lcpWatchdog_still h)
  · exact State.does_eq_after (Eng.deadlocked_still h)
  · exact State.does_eq_after (Eng.deadlocked_restarts hd hon)
  · exact State.does_eq_after (Eng.threadFault_master (e := s.eng.clear) h ht cause.toNat)
  · exact State.does_eq_after (Eng.threadFault_stops (e := s.eng.clear) h ht cause.toNat)
  · exact State.does_eq_after (Eng.threadFault_still (e := s.eng.clear) h cause.toNat)
  · exact State.does_eq_after (Eng.threadRestart_releases ht hon hy)
  · exact State.does_eq_after (Eng.threadRestart_restarts ht hon hy)
  · exact State.does_eq_after (Eng.threadRestart_still ht hon hr hf)
  · exact State.does_eq_after (Eng.lcpReady_ends h)
  · exact State.does_eq_after (Eng.lcpReady_still h)

end Sys2Proof.Machine
end

section
/-! PROOF. Module cages (O24): what a cage's monitors, timers and bus transactions make of it where no port follows it. -/
namespace Sys2Proof.Machine

/-! ### Writes of one cage -/

/-- A cage that is not as reset leaves it: in another state, with a module present, or with a cause. -/
def CageSt.Shown (k : CageSt) : Prop := k.state ≠ .empty ∨ k.prs = true ∨ k.cause ≠ 0

theorem CageSt.Shown.ne_reset {k : CageSt} (h : k.Shown) : k ≠ {} := by
  rintro rfl
  obtain h | h | h := h
  · exact h rfl
  · exact Bool.false_ne_true h
  · exact h rfl

variable {e : Eng} {c : Cage}

theorem Eng.setCage_setCage (e : Eng) (c : Cage) {x y : CageSt} (hx : x.Shown) (hy : y.Shown) :
    (e.setCage c x).setCage c y = e.setCage c y := by
  unfold Eng.setCage
  simp only [Tab.put_put _ _ _ hx.ne_reset hy.ne_reset]

theorem Eng.modCage_setCage (e : Eng) (c : Cage) {x : CageSt} {g : CageSt → CageSt} (hx : x.Shown) (hy : (g x).Shown) :
    (e.setCage c x).modCage c g = e.setCage c (g x) := by
  unfold Eng.modCage
  rw [Eng.cage_setCage, Eng.setCage_setCage e c hx hy]

/-- No port follows a cage that none is mapped to. -/
theorem Eng.cageTo_unmapped (hm : e.mapped c = []) (st : CageState) (cause : Nat) :
    e.cageTo c st cause = e.setCage c { e.cage c with state := st, cause := cause } := by
  have hmap : (e.modCage c (fun k => { k with state := st, cause := cause })).mapped c = [] := hm
  unfold Eng.cageTo
  simp only [hmap]
  rfl

theorem Eng.cageFault_unmapped (hm : e.mapped c = []) (hk : (e.cage c).state ≠ .empty) (cause : Nat) :
    e.cageFault c cause = e.setCage c { e.cage c with
      lpm := (e.cage c).lpm || decide (cause = cModFault), retries := 0, state := .fault, cause := cause } := by
  have hpins : CageSt.Shown { e.cage c with lpm := (e.cage c).lpm || decide (cause = cModFault) } := .inl hk
  have hquiet : CageSt.Shown { e.cage c with lpm := (e.cage c).lpm || decide (cause = cModFault), retries := 0 } := .inl hk
  have hfault : CageSt.Shown { e.cage c with
    lpm := (e.cage c).lpm || decide (cause = cModFault), retries := 0, state := .fault, cause := cause } := .inl (by simp)
  have hdrive : (e.drivePins c (e.cage c).rstN ((e.cage c).lpm || decide (cause = cModFault))).modCage c
      (fun k => { k with retries := 0 }) = e.setCage c { e.cage c with
        lpm := (e.cage c).lpm || decide (cause = cModFault), retries := 0 } := Eng.modCage_setCage e c hpins hquiet
  have hmap : (e.setCage c { e.cage c with
      lpm := (e.cage c).lpm || decide (cause = cModFault), retries := 0 }).mapped c = [] := hm
  unfold Eng.cageFault
  simp only [hdrive, Eng.cageTo_unmapped hmap, Eng.cage_setCage, Eng.setCage_setCage _ _ hquiet hfault]

/-! ### Presence -/

/-- In RUN nothing waits for a wake. -/
theorem Eng.Up.unarmed (h : e.Up) (code : Nat) : e.armed code = false := by simp [Eng.armed, Eng.sleepState, h.run, h.step]

theorem Eng.presenceSeen_up (h : e.Up) (b : Bool) :
    e.presenceSeen c b = (e.setCage c { e.cage c with prs := b }).presence c b := by
  have hup : (e.modCage c (fun k => { k with prs := b })).Up := ⟨h.ready, h.run, h.step, h.ctlOn, h.restOn⟩
  unfold Eng.presenceSeen
  simp only [Eng.wakeEvent_unarmed (hup.unarmed 5), hup.ctlOn, if_true]
  rfl

theorem Eng.presence_settled {b : Bool} (hk : (e.cage c).state = .empty ↔ b = false) : e.presence c b = e := by
  unfold Eng.presence
  cases b
  · simp [hk.mpr rfl]
  · simp [show (e.cage c).state ≠ .empty from fun h => Bool.noConfusion (hk.mp h)]

theorem Eng.presence_inserted (hm : e.mapped c = []) (hk : (e.cage c).state = .empty) (hp : (e.cage c).prs = true) :
    e.presence c true = e.setCage c { e.cage c with rstN := true, lpm := true, retries := 0, state := .mgmtInit, cause := 0 } := by
  have hpins : CageSt.Shown { e.cage c with rstN := true, lpm := true } := .inr (.inl hp)
  have hquiet : CageSt.Shown { e.cage c with rstN := true, lpm := true, retries := 0 } := .inr (.inl hp)
  have hstart : CageSt.Shown { e.cage c with rstN := true, lpm := true, retries := 0, state := .mgmtInit, cause := 0 } :=
    .inr (.inl hp)
  have hdrive : (e.drivePins c true true).modCage c (fun k => { k with retries := 0 }) =
      e.setCage c { e.cage c with rstN := true, lpm := true, retries := 0 } := Eng.modCage_setCage e c hpins hquiet
  have hmap : (e.setCage c { e.cage c with rstN := true, lpm := true, retries := 0 }).mapped c = [] := hm
  simp only [Eng.presence, if_true, if_pos hk, hdrive, Eng.cageTo_unmapped hmap, Eng.cage_setCage,
    Eng.setCage_setCage _ _ hquiet hstart]

theorem Eng.presence_removed (hm : e.mapped c = []) (hk : (e.cage c).state ≠ .empty) :
    e.presence c false = e.setCage c { e.cage c with
      rstN := false, lpm := true, ident := none, modState := none, dpActive := 0, laneApp := [], dpPending := false, retries := 0
      state := .empty, cause := 2 } := by
  have hpins : CageSt.Shown { e.cage c with rstN := false, lpm := true } := .inl hk
  have hunread : (CageSt.unread { e.cage c with rstN := false, lpm := true }).Shown := .inl hk
  have hgone : CageSt.Shown { e.cage c with
      rstN := false, lpm := true, ident := none, modState := none, dpActive := 0, laneApp := [], dpPending := false, retries := 0
      state := .empty, cause := 2 } := .inr (.inr (by decide : (2 : Nat) ≠ 0))
  have hdrive : (e.drivePins c false true).modCage c CageSt.unread =
      e.setCage c (CageSt.unread { e.cage c with rstN := false, lpm := true }) := Eng.modCage_setCage e c hpins hunread
  have hmap : (e.setCage c (CageSt.unread { e.cage c with rstN := false, lpm := true })).mapped c = [] := hm
  simp only [Eng.presence, Bool.false_eq_true, if_false, if_neg hk, hdrive, Eng.cageTo_unmapped hmap, Eng.cage_setCage]
  exact Eng.setCage_setCage e c hunread hgone

/-! ### Timers -/

theorem Eng.mgmtTimeout_late (hm : e.mapped c = []) (hk : (e.cage c).state = .mgmtInit) :
    e.mgmtTimeout c = (e.fail 44 c.val mModule).setCage c { e.cage c with retries := 0, state := .fault, cause := 3 } :=
  (if_pos hk).trans ((Eng.cageFault_unmapped (e := e.fail 44 c.val mModule) hm (fun h => nomatch hk.symm.trans h) 3).trans
    (by simp [cModFault]))

theorem Eng.mgmtTimeout_still (hk : (e.cage c).state ≠ .mgmtInit) : e.mgmtTimeout c = e := if_neg hk

theorem Eng.busRetry_fails (hm : e.mapped c = []) (hk : (e.cage c).state ≠ .empty) (h : 4 ≤ (e.cage c).retries) :
    e.busRetry c = (e.fail 44 c.val mModule).setCage c { e.cage c with retries := 0, state := .fault, cause := 3 } :=
  (if_pos h).trans ((Eng.cageFault_unmapped (e := e.fail 44 c.val mModule) hm hk 3).trans (by simp [cModFault]))

theorem Eng.busRetry_still (h : (e.cage c).retries < 4) : e.busRetry c = e := if_neg (by omega)

theorem Eng.moduleTimeout_faults (hm : e.mapped c = [])
    (h : (e.cage c).state = .powerUp ∨ (e.cage c).state = .ready ∧ (e.cage c).dpPending = true) :
    e.moduleTimeout c = e.setCage c { e.cage c with retries := 0, state := .fault, cause := 7 } := by
  have hk : (e.cage c).state ≠ .empty := by
    obtain h | ⟨h, -⟩ := h <;> exact fun he => nomatch h.symm.trans he
  exact (if_pos h).trans ((Eng.cageFault_unmapped hm hk 7).trans (by simp [cModFault]))

theorem Eng.moduleTimeout_still (hk : (e.cage c).state = .ready) (hd : (e.cage c).dpPending = false) : e.moduleTimeout c = e :=
  if_neg (by simp [hk, hd])

/-! ### Reads of a module -/

theorem Eng.modRead_unserved (hk : (e.cage c).state = .empty ∨ (e.cage c).state = .fault ∨ (e.cage c).state = .unsupported)
    (st : ModState) (dp : BitVec 8) : e.modRead c st dp = e := by
  unfold Eng.modRead
  obtain hk | hk | hk := hk <;> simp only [hk]

/-- Before POWER_UP what was read is kept. -/
theorem Eng.modRead_keeps (hk : (e.cage c).state = .mgmtInit ∨ (e.cage c).state = .identify) {st : ModState} (hst : st ≠ .fault)
    (dp : BitVec 8) : e.modRead c st dp = e.setCage c { e.cage c with
      modState := some st, dpActive := if (e.cage c).lanePages then dp else 0 } := by
  have hread : ∀ b : Prop, ¬ (st = .fault ∧ b) := fun b h => hst h.1
  unfold Eng.modRead
  obtain hk | hk := hk <;> simp only [hk, if_neg (hread _)]

theorem Eng.modIrq_unserved (hk : (e.cage c).state = .empty ∨ (e.cage c).state = .fault ∨ (e.cage c).state = .unsupported)
    (fl : BitVec 64) (lf : BitVec 512) (st : ModState) : e.modIrq c fl lf st = e := by
  unfold Eng.modIrq
  obtain hk | hk | hk := hk <;> simp only [hk]

theorem Eng.ctlEvent_none {f : Fn} (h : e.ctlEq f = none) (ty code object data : Nat) : e.ctlEvent f ty code object data = e := by
  unfold Eng.ctlEvent
  rw [h]

/-- Without an event queue of F0 the interrupt latches its flags and keeps the state read. -/
theorem Eng.modIrq_latches (hk : (e.cage c).state = .identify) {st : ModState} (hst : st ≠ .fault) (hq : e.ctlEq 0 = none)
    (fl : BitVec 64) (lf : BitVec 512) : e.modIrq c fl lf st = e.setCage c { e.cage c with
      modState := some st, flags := (e.cage c).flags ||| fl
      laneFlags := (e.cage c).laneFlags ||| (if (e.cage c).lanePages then lf else 0)
      dpActive := if (e.cage c).lanePages then (e.cage c).dpActive else 0 } := by
  unfold Eng.modIrq
  simp only [hk]
  rw [Eng.ctlEvent_none (e := e.setCage c _) hq, Eng.modRead_keeps (.inr (by rw [Eng.cage_setCage])) hst]
  rw [Eng.cage_setCage, Eng.setCage_setCage e c (.inl (by simp)) (.inl (by simp)), ← hk]
  rfl

theorem Eng.moduleIrq_up (h : e.Up) (fl : BitVec 64) (lf : BitVec 512) (st : ModState) :
    e.moduleIrq c fl lf st = e.modIrq c fl lf st := by
  unfold Eng.moduleIrq
  simp only [Eng.wakeEvent_unarmed (h.unarmed 5), h.ctlOn, if_true]

/-! ### Bus transactions -/

theorem Eng.busDone_failed_unserved
    (hk : (e.cage c).state = .empty ∨ (e.cage c).state = .fault ∨ (e.cage c).state = .unsupported) (n : Bool) :
    e.busDone c (.failed n) = e := by
  unfold Eng.busDone
  obtain hk | hk | hk := hk <;> simp only [hk]

/-- A failure counts, but for one found while the module is out (R77). -/
theorem Eng.busDone_failed (hk : (e.cage c).state = .identify ∨ (e.cage c).state = .powerUp ∨ (e.cage c).state = .ready) (n : Bool) :
    e.busDone c (.failed n) = if n then e else e.setCage c { e.cage c with retries := (e.cage c).retries + 1 } := by
  unfold Eng.busDone
  obtain hk | hk | hk := hk <;> simp only [hk]

section
variable (hm : e.mapped c = []) (hk : (e.cage c).state = .mgmtInit)
include hm hk

theorem Eng.busDone_lowerPage {st : ModState} (hst : st ≠ .fault) : e.busDone c (.lowerPage st) =
    e.setCage c { e.cage c with modState := some st, retries := 0, state := .identify, cause := 0 } := by
  have hread : CageSt.Shown { e.cage c with modState := some st, retries := 0 } :=
    .inl fun he => nomatch hk.symm.trans he
  have hnext : CageSt.Shown { e.cage c with modState := some st, retries := 0, state := .identify, cause := 0 } := .inl (by simp)
  have hmap : (e.modCage c (fun k => { k with modState := some st, retries := 0 })).mapped c = [] := hm
  unfold Eng.busDone
  simp only [if_pos hk, if_neg hst, Eng.cageTo_unmapped hmap, Eng.cage_modCage]
  exact Eng.setCage_setCage e c hread hnext

theorem Eng.busDone_lowerPage_fault : e.busDone c (.lowerPage .fault) =
    e.setCage c { e.cage c with modState := some .fault, retries := 0, lpm := true, state := .fault, cause := 8 } := by
  have hne : (e.cage c).state ≠ .empty := fun he => nomatch hk.symm.trans he
  have hread : CageSt.Shown { e.cage c with modState := some .fault } := .inl hne
  have hnext : CageSt.Shown { e.cage c with modState := some .fault, retries := 0, lpm := true, state := .fault, cause := 8 } :=
    .inl (by simp)
  have hmap : (e.modCage c (fun k => { k with modState := some .fault })).mapped c = [] := hm
  unfold Eng.busDone
  simp only [if_pos hk, if_true, Eng.cageFault_unmapped hmap (by rw [Eng.cage_modCage]; exact hne), Eng.cage_modCage, cModFault,
    decide_true, Bool.or_true]
  exact Eng.setCage_setCage e c hread hnext

end

/-! ### PRESENCE_CONFIRMED in RUN -/

/-- PRESENCE_CONFIRMED of a presence that the cage's state shows already: the level alone is kept. -/
theorem Eng.presenceSeen_settled (h : e.Up) {b : Bool} (hk : (e.cage c).state = .empty ↔ b = false) :
    e.presenceSeen c b = e.setCage c { e.cage c with prs := b } :=
  (Eng.presenceSeen_up h b).trans (Eng.presence_settled (by rw [Eng.cage_setCage]; exact hk))

theorem Eng.presenceSeen_inserted (h : e.Up) (hm : e.mapped c = []) (hk : (e.cage c).state = .empty) :
    e.presenceSeen c true = e.setCage c { e.cage c with
      rstN := true, lpm := true, retries := 0, state := .mgmtInit, cause := 0, prs := true } := by
  have hcage := Eng.cage_setCage e c { e.cage c with prs := true }
  rw [Eng.presenceSeen_up h, Eng.presence_inserted (e := e.setCage c _) hm (by rw [hcage]; exact hk) (by rw [hcage]), hcage]
  exact Eng.setCage_setCage e c (.inr (.inl rfl)) (.inr (.inl rfl))

theorem Eng.presenceSeen_removed (h : e.Up) (hm : e.mapped c = []) (hk : (e.cage c).state ≠ .empty) :
    e.presenceSeen c false = e.setCage c { e.cage c with
      rstN := false, lpm := true, ident := none, modState := none, dpActive := 0, laneApp := [], dpPending := false, retries := 0
      state := .empty, cause := 2, prs := false } := by
  have hcage := Eng.cage_setCage e c { e.cage c with prs := false }
  rw [Eng.presenceSeen_up h, Eng.presence_removed (e := e.setCage c _) hm (by rw [hcage]; exact hk), hcage]
  exact Eng.setCage_setCage e c (.inl hk) (.inr (.inr (by decide : (2 : Nat) ≠ 0)))

/-- Settles O24: presence and the three timers, then interrupts, polls and bus transactions, each by the cage's state. -/
theorem cagesAndModules : Obligations.CagesAndModules := by
  unfold Obligations.CagesAndModules
  refine ⟨fun s c => ⟨fun hup hm => ⟨fun hk => ?_, fun hk => ?_, fun hk => ?_, fun hk => ?_⟩,
    fun hm => ⟨fun hk => ?_, fun hk => ?_, fun hr hk => ?_⟩, fun hk => ?_, fun hr => ?_, fun hk hd => ?_⟩,
    fun s c st hup => ⟨fun hk => ⟨fun fl lf => ?_, fun dp => ?_, fun n => ?_⟩, fun hk hst dp => ?_, fun hk hst hq fl lf => ?_,
      fun hk => ⟨?_, ?_⟩, fun hk hst hm => ?_, fun hk hm => ?_⟩⟩
  · exact State.does_eq_after (Eng.presenceSeen_inserted hup.clear hm hk)
  · exact State.does_eq_after (Eng.presenceSeen_settled hup.clear (iff_of_true hk rfl))
  · exact State.does_eq_after (Eng.presenceSeen_settled hup.clear (iff_of_false hk Bool.noConfusion))
  · exact State.does_eq_after (Eng.presenceSeen_removed hup.clear hm hk)
  · exact State.does_eq_after (Eng.mgmtTimeout_late (e := s.eng.clear) hm hk)
  · exact State.does_eq_after (Eng.moduleTimeout_faults (e := s.eng.clear) hm hk)
  · exact State.does_eq_after (Eng.busRetry_fails (e := s.eng.clear) hm hk hr)
  · exact State.does_eq_after (Eng.mgmtTimeout_still (e := s.eng.clear) hk)
  · exact State.does_eq_after (Eng.busRetry_still (e := s.eng.clear) hr)
  · exact State.does_eq_after (Eng.moduleTimeout_still (e := s.eng.clear) hk hd)
  · exact State.does_eq_after ((Eng.moduleIrq_up hup.clear fl lf st).trans (Eng.modIrq_unserved (e := s.eng.clear) hk fl lf st))
  · exact State.does_eq_after (Eng.modRead_unserved (e := s.eng.clear) hk st dp)
  · exact State.does_eq_after (Eng.busDone_failed_unserved (e := s.eng.clear) hk n)
  · exact State.does_eq_after (Eng.modRead_keeps (e := s.eng.clear) hk hst dp)
  · exact State.does_eq_after ((Eng.moduleIrq_up hup.clear fl lf st).trans (Eng.modIrq_latches (e := s.eng.clear) hk hst hq fl lf))
  · exact State.does_eq_after (Eng.busDone_failed (e := s.eng.clear) hk false)
  · exact State.does_eq_after (Eng.busDone_failed (e := s.eng.clear) hk true)
  · exact State.does_eq_after (Eng.busDone_lowerPage (e := s.eng.clear) hm hk hst)
  · exact State.does_eq_after (Eng.busDone_lowerPage_fault (e := s.eng.clear) hm hk)

end Sys2Proof.Machine
end

section
/-! PROOF. Link states and the line block's answers (O23). -/
namespace Sys2Proof.Machine

/-! ### Events leave the ports as they are -/

theorem Eng.access_ports (e : Eng) (a : Acc) : (e.access a).ports = e.ports :=
  (congrArg Eng.ports (Eng.access_core e a) : (e.access a).core.ports = e.core.ports)

theorem Eng.writeRecord_ports (e : Eng) (o : Owner) (f : Fn) (pasid addr : Nat) (data : List Byte) :
    (e.writeRecord o f pasid addr data).2.ports = e.ports := by
  unfold Eng.writeRecord
  refine (foldEng_keep Eng.ports _ _ (fun d a => ?_) _).trans rfl
  split
  · rfl
  · exact Eng.access_ports d a

theorem Eng.event_ports (e : Eng) (i : EqId) (ty code object data : Nat) : (e.event i ty code object data).ports = e.ports := by
  unfold Eng.event Eng.writeEvent
  split
  · rfl
  split
  · rfl
  split
  · rfl
  split
  · simp
  · simp [Eng.writeRecord_ports]

theorem Eng.ctlEvent_ports (e : Eng) (f : Fn) (ty code object data : Nat) : (e.ctlEvent f ty code object data).ports = e.ports := by
  unfold Eng.ctlEvent
  split
  · exact Eng.event_ports e _ _ _ _ _
  · rfl

theorem Eng.locEvent_ports (e : Eng) (f : Fn) (n ty code object data : Nat) :
    (e.locEvent f n ty code object data).ports = e.ports := by
  unfold Eng.locEvent
  split
  · exact Eng.event_ports e _ _ _ _ _
  · rfl

theorem Eng.portEvent_ports (e : Eng) (p : PortId) (code data : Nat) : (e.portEvent p code data).ports = e.ports := by
  unfold Eng.portEvent
  refine (foldEng_keep Eng.ports _ _ (fun d r => Eng.locEvent_ports d _ _ _ _ _ _) _).trans ?_
  split
  · exact Eng.locEvent_ports e _ _ _ _ _ _
  · exact Eng.ctlEvent_ports e _ _ _ _ _

@[simp] theorem Eng.port_portEvent (e : Eng) (p q : PortId) (code data : Nat) : (e.portEvent p code data).port q = e.port q := by
  simp only [Eng.port, Eng.portEvent_ports]

/-- Where nobody listens a port's event is no write. -/
theorem Eng.portEvent_unheard {e : Eng} {p : PortId} (hq : e.ctlEq 0 = none) (hs : (e.port p).subs = []) (code data : Nat) :
    e.portEvent p code data = e := by
  unfold Eng.portEvent
  simp only [hs, List.find?_nil, List.filter_nil, Eng.ctlEvent_none hq]
  rfl

/-! ### Writes of one port -/

/-- Reset leaves a port in ADMIN_DOWN without a transmit gap. -/
theorem Port.ne_reset_of_state {x : Port} (h : x.state ≠ .adminDown) (n : Nat) : x ≠ Port.reset n := by
  rintro rfl
  exact h rfl

theorem Port.ne_reset_of_gap {x : Port} {g : Nat × Bool} (h : x.gap = some g) (n : Nat) : x ≠ Port.reset n := by
  rintro rfl
  exact nomatch h

theorem Eng.setPort_setPort (e : Eng) (p : PortId) {x y : Port} (hx : x ≠ Port.reset p.val) (hy : y ≠ Port.reset p.val) :
    (e.setPort p x).setPort p y = e.setPort p y := by
  unfold Eng.setPort
  simp only [Tab.put_put _ _ _ hx hy]

theorem Eng.modPort_setPort (e : Eng) (p : PortId) {x : Port} {g : Port → Port} (hx : x ≠ Port.reset p.val)
    (hy : g x ≠ Port.reset p.val) : (e.setPort p x).modPort p g = e.setPort p (g x) := by
  unfold Eng.modPort
  rw [Eng.port_setPort, Eng.setPort_setPort e p hx hy]

variable {e : Eng} {p : PortId}

/-! ### Link-up, its debounce and training -/

theorem Eng.linkUp_trains (hx : (e.port p).state = .training) :
    e.linkUp p = e.setPort p { e.port p with linkUp := true, debouncing := true } := if_pos hx

theorem Eng.linkUp_keeps (hx : (e.port p).state ≠ .training) : e.linkUp p = e.setPort p { e.port p with linkUp := true } := if_neg hx

theorem Eng.portState_setPort (e : Eng) {x : Port} (hx : x ≠ Port.reset p.val) {st : PState} (hst : st ≠ .adminDown) (cause : Nat) :
    (e.setPort p x).portState p st cause =
      (e.setPort p { x with state := st, cause := cause, changed := e.tb0 }).portEvent p 1 (st.code + 256 * cause) := by
  unfold Eng.portState
  rw [Eng.modPort_setPort e p hx (Port.ne_reset_of_state hst _)]
  rfl

/-- Without an agent and without pauses to send again the port is in UP, and that is all. -/
theorem Eng.debounced_enters (hx : (e.port p).state = .training) (hd : (e.port p).debouncing = true) (hu : (e.port p).linkUp = true)
    (hxoff : (e.port p).xoffSt = 0) (hrel : (e.port p).released = 0) (hagent : (e.port p).lldpAgent = false) :
    e.debounced p = (e.setPort p { e.port p with
      debouncing := false, state := .up, cause := 13, changed := e.tb0 }).portEvent p 1 (5 + 256 * 13) := by
  have hst : e.debounced p = e.enterUp p := if_pos ⟨hx, hd, hu⟩
  have hstate : (e.modPort p (fun x => { x with debouncing := false })).portState p .up cLinkUp = (e.setPort p { e.port p with
      debouncing := false, state := .up, cause := 13, changed := e.tb0 }).portEvent p 1 (5 + 256 * 13) :=
    Eng.portState_setPort e (Port.ne_reset_of_state (by simp [hx]) _) (by decide) cLinkUp
  rw [hst]
  unfold Eng.enterUp Eng.fastStart
  simp only [hstate, Eng.port_portEvent, Eng.port_setPort, hagent, hxoff, hrel, Bool.false_eq_true, and_false, if_false, ne_eq,
    not_true_eq_false, or_self]

theorem Eng.debounced_still (h : (e.port p).linkUp = false ∨ (e.port p).debouncing = false) : e.debounced p = e := by
  refine if_neg fun hn => ?_
  obtain ⟨-, hd, hu⟩ := hn
  obtain h | h := h
  · exact Bool.false_ne_true (h.symm.trans hu)
  · exact Bool.false_ne_true (h.symm.trans hd)

theorem Eng.mi_idle (e : Eng) {x : Port} (hx : x.state ≠ .adminDown) (hm : x.miCtl = none) (c : MiCmd) (arg : Nat) :
    (e.setPort p x).mi p c arg = (e.setPort p { x with miCtl := some (c, arg) }).emit (.miCtl p c arg) := by
  unfold Eng.mi
  simp only [Eng.port_setPort, hm]
  rw [Eng.setPort_setPort e p (Port.ne_reset_of_state hx _) (Port.ne_reset_of_state (by exact hx) _)]

theorem Eng.trainTimeout_retrains (hx : (e.port p).state = .training) (hm : (e.port p).miCtl = none) (hq : e.ctlEq 0 = none)
    (hs : (e.port p).subs = []) : e.trainTimeout p = (e.setPort p { e.port p with
      cause := 9, changed := e.tb0, miCtl := some (.retrain, 2 ^ (e.port p).width - 1) }).emit
        (.miCtl p .retrain (2 ^ (e.port p).width - 1)) := by
  have hstate : e.portState p .training cTrain =
      e.setPort p { e.port p with state := .training, cause := 9, changed := e.tb0 } :=
    Eng.portEvent_unheard (e := e.setPort p _) hq (by rw [Eng.port_setPort]; exact hs) _ _
  have htrain : e.trainTimeout p = (e.portState p .training cTrain).mi p .retrain (e.port p).laneMask := if_pos hx
  rw [htrain, hstate, Eng.mi_idle e (by simp) (by exact hm), ← hx]
  rfl

theorem Eng.trainTimeout_still (hx : (e.port p).state ≠ .training) : e.trainTimeout p = e := if_neg hx

/-! ### A lane's fault -/

theorem Eng.linkLost_up (hx : (e.port p).state = .up) (cause : Nat) :
    e.linkLost p cause = (e.downTo p .training cause).mi p .retrain (e.port p).laneMask := by simp only [Eng.linkLost, hx]

theorem Eng.linkLost_training (hx : (e.port p).state = .training) (cause : Nat) :
    e.linkLost p cause = e.modPort p (fun x => { x with debouncing := false }) := by simp only [Eng.linkLost, hx]

theorem Eng.linkLost_idle (hup : (e.port p).state ≠ .up) (ht : (e.port p).state ≠ .training) (cause : Nat) :
    e.linkLost p cause = e := by
  unfold Eng.linkLost
  cases hx : (e.port p).state with
  | up => exact absurd hx hup
  | training => exact absurd hx ht
  | adminDown | noModule | moduleInit | moduleFault | portFault => rfl

section
variable (hp : e.portOf p = p) (hw : 0 < (e.port p).txLanes) (hon : e.pwr.restOn = true) (hkept : e.laneKept p = false)
include hp hw hon hkept

theorem Eng.linkFault_lost (sig : Bool) :
    e.linkFault p sig = (e.setPort p { e.port p with linkUp := false }).linkLost p cLinkFault := by
  have hlane : p.val - p.val < max (e.port p).txLanes (e.port p).rxLanes := by omega
  have hmac : (e.modPort p (fun x => { x with linkUp := false })).macOn = true := hon
  unfold Eng.linkFault
  simp only [hp, if_pos hlane, hkept, hmac, Bool.false_eq_true, if_false, if_true]
  rfl

theorem Eng.linkFault_training (hx : (e.port p).state = .training) (sig : Bool) :
    e.linkFault p sig = e.setPort p { e.port p with linkUp := false, debouncing := false } := by
  have hne : (e.port p).state ≠ .adminDown := by simp [hx]
  rw [Eng.linkFault_lost hp hw hon hkept, Eng.linkLost_training (by rw [Eng.port_setPort]; exact hx)]
  exact Eng.modPort_setPort e p (Port.ne_reset_of_state (by exact hne) _) (Port.ne_reset_of_state (by exact hne) _)

theorem Eng.linkFault_up (hx : (e.port p).state = .up) (sig : Bool) : e.linkFault p sig =
    ((e.setPort p { e.port p with linkUp := false }).downTo p .training 10).mi p .retrain (2 ^ (e.port p).width - 1) := by
  rw [Eng.linkFault_lost hp hw hon hkept, Eng.linkLost_up (by rw [Eng.port_setPort]; exact hx), Eng.port_setPort]
  rfl

theorem Eng.linkFault_idle (hup : (e.port p).state ≠ .up) (ht : (e.port p).state ≠ .training) (sig : Bool) :
    e.linkFault p sig = e.setPort p { e.port p with linkUp := false } := by
  rw [Eng.linkFault_lost hp hw hon hkept]
  exact Eng.linkLost_idle (by rw [Eng.port_setPort]; exact hup) (by rw [Eng.port_setPort]; exact ht) _

end

/-! ### The line block's answers -/

/-- The command outstanding has failed: source 46, and the next one waiting leaves (R489). -/
def Eng.miGivenUp (e : Eng) (p : PortId) : Eng := (e.raiseEv (mkEv 46 .failure (p.val + 16 * p.val) (0x8020 + p.val) 0 0)).miNext p

@[simp] theorem Eng.miNext_state (e : Eng) (p : PortId) : ((e.miNext p).port p).state = (e.port p).state := by
  unfold Eng.miNext
  dsimp only
  split
  · rw [Eng.port_setPort]
  · simp only [Eng.emit_reads, Eng.port_setPort]

@[simp] theorem Eng.miNext_width (e : Eng) (p : PortId) : ((e.miNext p).port p).width = (e.port p).width := by
  unfold Eng.miNext
  dsimp only
  split
  · rw [Eng.port_setPort]
  · simp only [Eng.emit_reads, Eng.port_setPort]

theorem Eng.miGivenUp_state (e : Eng) (p : PortId) : ((e.miGivenUp p).port p).state = (e.port p).state := Eng.miNext_state _ p
theorem Eng.miGivenUp_width (e : Eng) (p : PortId) : ((e.miGivenUp p).port p).width = (e.port p).width := Eng.miNext_width _ p

theorem Eng.miFailed_quiet {c : MiCmd} (h : c = .disable ∨ c = .warm ∨ c = .cold ∨ c = .watchKeep) :
    e.miFailed p c = e.miGivenUp p := by
  obtain rfl | rfl | rfl | rfl := h <;> rfl

/-- A map that fails in UP is recovered by retraining (R148). -/
theorem Eng.miFailed_map {c : MiCmd} (h : c = .txMap ∨ c = .rxMap) (hx : (e.port p).state = .up) :
    e.miFailed p c = (e.miGivenUp p).thinRecover p := by
  have hup := (Eng.miGivenUp_state e p).trans hx
  obtain rfl | rfl := h <;> exact if_pos hup

theorem Eng.miFailed_train {c : MiCmd} (h : c = .enable ∨ c = .retrain) (hx : (e.port p).state = .training) :
    e.miFailed p c = ((e.miGivenUp p).portState p .training 9).mi p .retrain (2 ^ (e.port p).width - 1) := by
  have htrain := (Eng.miGivenUp_state e p).trans hx
  have hfail : e.miFailed p c = ((e.miGivenUp p).portState p .training 9).mi p .retrain ((e.miGivenUp p).port p).laneMask := by
    obtain rfl | rfl := h <;> exact if_pos htrain
  rw [hfail, Port.laneMask, Eng.miGivenUp_width]

section
variable (hm : (e.port p).miCtl = none)
include hm

theorem Eng.miAck_ignored (b : Bool) : e.miAck p b = e := by simp only [Eng.miAck, hm]
theorem Eng.miTimeout_ignored : e.miTimeout p = e := by simp only [Eng.miTimeout, hm]

end

section
variable {c : MiCmd} {arg : Nat} (hm : (e.port p).miCtl = some (c, arg))
include hm

theorem Eng.miTimeout_fails : e.miTimeout p = e.miFailed p c := by simp only [Eng.miTimeout, hm]
theorem Eng.miAck_fails : e.miAck p true = e.miFailed p c := by simp only [Eng.miAck, hm, if_true]

theorem Eng.miAck_quiet (h : c = .disable ∨ c = .warm ∨ c = .cold ∨ c = .watchKeep) : e.miAck p false = e.miNext p := by
  obtain rfl | rfl | rfl | rfl := h <;> simp only [Eng.miAck, hm, Bool.false_eq_true, if_false]

/-- The answer to TX_MAP lets the transmit gap end (R144). -/
theorem Eng.miAck_gap (hc : c = .txMap) (hq : (e.port p).miQueue = []) {b : Bool} (hg : (e.port p).gap = some (arg, b)) :
    e.miAck p false = e.setPort p { e.port p with miCtl := none, gap := some (arg, true) } := by
  have hnext : e.miNext p = e.setPort p { e.port p with miCtl := none } := by simp only [Eng.miNext, hq]
  subst hc
  simp only [Eng.miAck, hm, Bool.false_eq_true, if_false, hnext, Eng.port_setPort, hg, Option.map_some, if_true]
  exact Eng.setPort_setPort e p (Port.ne_reset_of_gap rfl _) (Port.ne_reset_of_gap rfl _)

end

/-- Settles O23: the link's signals by the port's state, then the line block's answers by the command outstanding. -/
theorem linkStates : Obligations.LinkStates := by
  unfold Obligations.LinkStates
  refine ⟨fun s p => ?_, fun s p => ?_⟩
  · refine ⟨fun hx => ?_, fun hx => ?_, fun hx hd hu hxoff hrel ha => ?_, fun h => ?_, fun hx hm hq hs => ?_, fun hx => ?_,
      fun sig hp hw hon hk => ⟨fun hx => ?_, fun hx => ?_, fun hup ht => ?_⟩⟩
    · exact State.does_eq_after (Eng.linkUp_trains (e := s.eng.clear) hx)
    · exact State.does_eq_after (Eng.linkUp_keeps (e := s.eng.clear) hx)
    · exact State.does_eq_after (Eng.debounced_enters (e := s.eng.clear) hx hd hu hxoff hrel ha)
    · exact State.does_eq_after (Eng.debounced_still (e := s.eng.clear) h)
    · exact State.does_eq_after (Eng.trainTimeout_retrains (e := s.eng.clear) hx hm hq hs)
    · exact State.does_eq_after (Eng.trainTimeout_still (e := s.eng.clear) hx)
    · exact State.does_eq_after (Eng.linkFault_training (e := s.eng.clear) hp hw hon hk hx sig)
    · exact State.does_eq_after (Eng.linkFault_up (e := s.eng.clear) hp hw hon hk hx sig)
    · exact State.does_eq_after (Eng.linkFault_idle (e := s.eng.clear) hp hw hon hk hup ht sig)
  · refine ⟨fun hm => ⟨fun b => ?_, ?_⟩, fun c arg hm => ⟨fun hc => ⟨?_, ?_, ?_⟩, fun hc hx => ⟨?_, ?_⟩, fun hc hq b hg => ?_,
      fun hc hx => ?_⟩⟩
    · exact State.does_eq_after (Eng.miAck_ignored (e := s.eng.clear) hm b)
    · exact State.does_eq_after (Eng.miTimeout_ignored (e := s.eng.clear) hm)
    · exact State.does_eq_after (Eng.miAck_quiet (e := s.eng.clear) hm hc)
    · exact State.does_eq_after ((Eng.miAck_fails (e := s.eng.clear) hm).trans (Eng.miFailed_quiet hc))
    · exact State.does_eq_after ((Eng.miTimeout_fails (e := s.eng.clear) hm).trans (Eng.miFailed_quiet hc))
    · exact State.does_eq_after ((Eng.miTimeout_fails (e := s.eng.clear) hm).trans (Eng.miFailed_map hc hx))
    · exact State.does_eq_after ((Eng.miAck_fails (e := s.eng.clear) hm).trans (Eng.miFailed_map hc hx))
    · exact State.does_eq_after (Eng.miAck_gap (e := s.eng.clear) hm hc hq hg)
    · exact State.does_eq_after ((Eng.miAck_fails (e := s.eng.clear) hm).trans (Eng.miFailed_train hc hx))

end Sys2Proof.Machine
end

section
/-! PROOF. LLDPDUs and the partner record (O22). -/
namespace Sys2Proof.Machine

variable {e : Eng} {p : PortId}

/-! ### An LLDPDU received -/

section
variable {r : RxFrame}

theorem Eng.rxLines_short (h : r.bytes.length ≤ (e.port (e.portOf r.port)).maxFrame) : e.rxLines r = linesOf r.bytes.length := by
  rw [Eng.rxLines, Nat.min_eq_left (by omega)]

theorem Eng.consume_lldp {bs : List Byte} {d : Lldpdu} (hd : lldpOf (slice bs 14 (bs.length - 18)) = some d) :
    e.consume p bs .lldp = e.lldpRx p d := by
  unfold Eng.consume
  dsimp only
  rw [hd]

theorem Eng.rxLldpdu_other (h : p ≠ e.portOf r.port ∨ (e.port (e.portOf r.port)).consumer r.bytes ≠ .lldp) :
    e.rxLldpdu p r = e := by
  refine if_neg fun hn => ?_
  obtain ⟨hp, hc⟩ := hn
  subst hp
  exact h.elim (fun h => h rfl) (fun h => h hc)

theorem Eng.rxLldpdu_frame (h : (e.port (e.portOf r.port)).consumer r.bytes = .lldp) :
    e.rxLldpdu (e.portOf r.port) r = e.rxFrame r := if_pos ⟨rfl, h⟩

/-- A good LLDPDU that is admitted reaches the agent, and then leaves the buffer or is steered (R88). -/
theorem Eng.rxFrame_lldp (hup : (e.port (e.portOf r.port)).state = .up) (hon : e.pwr.restOn = true) (hc : e.pwr.closed = false)
    (hb : r.badBeat = none) (he : r.err = false) (hk : r.cut = false) (hlen : 64 ≤ r.bytes.length)
    (hmax : r.bytes.length ≤ (e.port (e.portOf r.port)).maxFrame) (hgood : rxFcsOk r = true)
    (ha : (e.rxSeen r).admission (e.portOf r.port) (e.rxClass r) (e.rxLines r) = .inl .shared)
    (hcons : (e.port (e.portOf r.port)).consumer r.bytes = .lldp) {d : Lldpdu}
    (hd : lldpOf (slice r.bytes 14 (r.bytes.length - 18)) = some d) :
    e.rxFrame r = (
      let x := (e.rxOk ((e.rxSeen r).chargeRx (e.portOf r.port) (e.rxClass r) .shared (linesOf r.bytes.length)) r).lldpRx
        (e.portOf r.port) d
      if (e.port (e.portOf r.port)).lldpMirror
      then x.rxSteer r (e.portOf r.port) (e.rxClass r) (linesOf r.bytes.length) .shared false
        ((e.port (e.portOf r.port)).hasTrailer (e.rxClass r))
      else x.freeRx (e.portOf r.port) (e.rxClass r) .shared (linesOf r.bytes.length)) := by
  rw [Eng.rxFrame_admitted hup hon hb hc hlen ha, Eng.rxJudge_lldp _ _ hmax he hk hgood hcons, Eng.consume_lldp hd, Eng.rxDone,
    Eng.rxOnward, Eng.rxLines_short hmax]

end

/-! ### The record -/

theorem Eng.lldpRx_off (h : (e.port p).lldpAgent = false) (d : Lldpdu) : e.lldpRx p d = e := if_pos (by rw [h]; rfl)

section
variable {d : Lldpdu}

theorem Eng.partnerRx_unthins {k : CapTlv} (httl : d.ttl ≠ 0) (hst : (e.port p).partner.st = .present)
    (hch : (e.port p).partner.chassis = d.chassis) (hid : (e.port p).partner.portId = d.portId)
    (hcap : (e.port p).partner.cap = some k) (hthin : k.thin = true) (hno : (d.cap.map (·.thin)).getD false = false) :
    e.partnerRx p d = (true, e.setPort p { e.port p with partner :=
      { st := .present, chassis := d.chassis, portId := d.portId, ttl := d.ttl.toNat, cap := d.cap, pair := d.pair
        time := e.tb0, count := (e.port p).partner.count + 1 } }) := by
  simp only [Eng.partnerRx, if_neg httl, hst, hch, hid, and_self, decide_true, if_true, hcap, Option.map_some, Option.getD_some,
    hthin, hno, Bool.not_false, Bool.and_self]

theorem Eng.partnerRx_first (httl : d.ttl ≠ 0) (hst : (e.port p).partner.st = .none) :
    e.partnerRx p d = (false, e.setPort p { e.port p with partner :=
      { st := .present, chassis := d.chassis, portId := d.portId, ttl := d.ttl.toNat, cap := d.cap, pair := d.pair
        time := e.tb0, count := 1 } }) := by
  simp only [Eng.partnerRx, if_neg httl, hst]

theorem Eng.partnerRx_shutdown (httl : d.ttl = 0) (hst : (e.port p).partner.st ≠ .none) :
    e.partnerRx p d = (true, (e.setPort p { e.port p with partner := {} }).portEvent p 4 0) := by
  unfold Eng.partnerRx
  simp only [if_pos httl]
  cases h : (e.port p).partner.st with
  | none => exact absurd h hst
  | present | stale => rfl

end

/-! ### Timers -/

theorem Eng.lldpTimer_gated (h : e.pwr.ctlOn = false) : e.lldpTimer p = e := if_pos h

theorem Eng.lldpTimer_counts (h : e.pwr.ctlOn = true) :
    e.lldpTimer p = (e.setPort p { e.port p with fastStart := (e.port p).fastStart - 1 }).lldpSend p := if_neg (by simp [h])

theorem Eng.lldpSend_ready (h : (e.port p).state = .up ∧ (e.port p).lldpAgent = true) :
    e.lldpSend p = e.pushTrump p (.lldp (min (4 * (e.port p).lldpInterval) 65535)) := if_pos h

theorem Eng.lldpSend_none (h : (e.port p).state ≠ .up ∨ (e.port p).lldpAgent = false) : e.lldpSend p = e :=
  if_neg fun hn => h.elim (fun h => h hn.1) (fun h => Bool.false_ne_true (h.symm.trans hn.2))

theorem Eng.partnerLost_none (h : (e.port p).partner.st = .none) : e.partnerLost p = e := by simp only [Eng.partnerLost, h]

theorem Eng.partnerLost_clears (h : (e.port p).partner.st ≠ .none) :
    e.partnerLost p = ((e.setPort p { e.port p with partner := {} }).portEvent p 4 0).thinWithdraw p := by
  unfold Eng.partnerLost
  cases hst : (e.port p).partner.st with
  | none => exact absurd hst h
  | present | stale => rfl

theorem Eng.partnerExpiry_on (h : e.pwr.ctlOn = true) : e.partnerExpiry p = e.partnerLost p := if_pos h
theorem Eng.partnerExpiry_gated (h : e.pwr.ctlOn = false) : e.partnerExpiry p = e := if_neg (by simp [h])

theorem Eng.partnerExpiry_none (h : (e.port p).partner.st = .none) : e.partnerExpiry p = e := by
  cases hon : e.pwr.ctlOn with
  | false => exact Eng.partnerExpiry_gated hon
  | true => exact (Eng.partnerExpiry_on hon).trans (Eng.partnerLost_none h)

/-- Settles O22: an LLDPDU is a frame received with its own consumer; the record by what it held; and the two timers. -/
theorem partnerRecords : Obligations.PartnerRecords := by
  unfold Obligations.PartnerRecords
  refine ⟨fun s r => ⟨fun q h => ?_, fun hcons hup hon hc hb he hk hlen hmax hfcs hfc hcap hlim d hd => ?_⟩,
    fun e p d => ⟨fun h => ?_, fun k httl hst hch hid hcap hthin hno => ?_, fun httl hst => ?_, fun httl hst => ?_⟩,
    fun s p => ⟨fun hon hx ha => ?_, fun hon h => ?_, fun hoff => ⟨?_, ?_⟩, fun hon hst => ?_, fun hst => ?_⟩⟩
  · exact State.does_eq_after (Eng.rxLldpdu_other (e := s.eng.clear) h)
  · have hlines : s.eng.clear.rxLines r = linesOf r.bytes.length := Eng.rxLines_short (e := s.eng.clear) hmax
    have hadm := Eng.admission_rxSeen_lossy (e := s.eng.clear) (r := r) hfc (by rw [hlines]; exact hcap) hlim
    exact State.does_eq_after ((Eng.rxLldpdu_frame (e := s.eng.clear) hcons).trans
      (Eng.rxFrame_lldp (e := s.eng.clear) hup hon hc hb he hk hlen hmax (beq_iff_eq.mpr hfcs) hadm hcons hd))
  · exact Eng.lldpRx_off h d
  · exact Eng.partnerRx_unthins httl hst hch hid hcap hthin hno
  · exact Eng.partnerRx_first httl hst
  · exact Eng.partnerRx_shutdown httl hst
  · refine State.does_eq_after ((Eng.lldpTimer_counts (e := s.eng.clear) hon).trans ?_)
    rw [Eng.lldpSend_ready (by rw [Eng.port_setPort]; exact ⟨hx, ha⟩), Eng.port_setPort]
    rfl
  · refine State.does_eq_after ((Eng.lldpTimer_counts (e := s.eng.clear) hon).trans ?_)
    exact Eng.lldpSend_none (by rw [Eng.port_setPort]; exact h)
  · exact State.does_eq_after (Eng.lldpTimer_gated (e := s.eng.clear) hoff)
  · exact State.does_eq_after (Eng.partnerExpiry_gated (e := s.eng.clear) hoff)
  · exact State.does_eq_after ((Eng.partnerExpiry_on (e := s.eng.clear) hon).trans (Eng.partnerLost_clears (e := s.eng.clear) hst))
  · exact State.does_eq_after (Eng.partnerExpiry_none (e := s.eng.clear) hst)

end Sys2Proof.Machine
end

section
/-! PROOF. Register accesses that complete (O60): the wake time, a time base's seconds, and the engine's identity. -/
namespace Sys2Proof.Machine

/-! ### Writes -/

section
variable {e : Eng}

theorem Eng.pwrWrite_wakeAt (e : Eng) (b : Budget) (w : BitVec 64) :
    e.pwrWrite b 0x20 w 0xFFFFFFFFFFFFFFFF = { e with pwr := { e.pwr with wakeAt := w.toNat } } := by
  unfold Eng.pwrWrite
  dsimp only
  rw [if_neg (by decide), if_neg (by decide), if_pos rfl, mix_all]
  rfl

theorem Eng.regWrite_wakeAt (e : Eng) (b : Budget) (v : BitVec 64) :
    e.regWrite b (f0Write 0x20020 v.toNat) = { e with pwr := { e.pwr with wakeAt := v.toNat } } := by
  rw [Eng.regWrite_f0Write (by decide) (by decide), Eng.engineWrite, if_pos (by decide), BitVec.ofNat_toNat, BitVec.setWidth_eq]
  exact Eng.pwrWrite_wakeAt e b v

theorem Eng.tbWrite_setSec (e : Eng) (n : TbId) (w : BitVec 64) :
    e.tbWrite n 0x28 w 0xFFFFFFFFFFFFFFFF = e.setTb n { e.tb n with setSec := w.toNat } := by
  unfold Eng.tbWrite
  dsimp only
  rw [if_neg (by decide), if_neg (by decide), if_neg (by decide), if_pos rfl, mix_all]
  rfl

theorem Eng.regWrite_setSec (hr : e.start.phase = .ready) (b : Budget) (n : TbId) {v : Nat} (hv : v < 2 ^ 64) :
    e.regWrite b (f0Write (0x40028 + 0x100 * n.val) v) = e.setTb n { e.tb n with setSec := v } := by
  have hn := n.isLt
  have hfin : fin 4 ((0x40028 + 0x100 * n.val - 0x40000) / 0x100) = n := by
    rw [show (0x40028 + 0x100 * n.val - 0x40000) / 0x100 = n.val by omega, fin_val]
  have hmod : (0x40028 + 0x100 * n.val - 0x40000) % 0x100 = 0x28 := by omega
  rw [Eng.regWrite_f0Write (by omega) (by omega), Eng.engineWrite, if_neg (by omega), if_neg (by omega), if_neg (by simp [hr]),
    if_pos (by omega), Eng.tsuWrite]
  dsimp only
  rw [if_pos (by omega), hfin, hmod, Eng.tbWrite_setSec, BitVec.toNat_ofNat, Nat.mod_eq_of_lt hv]

end

section
variable {s : State} (h : s.eng.Open 0) (hs : s.eng.standby = false) (hj : s.eng.journals = false)
include h hs hj

theorem State.writeWakeAt_open (v : BitVec 64) : exec (.registerWrite (f0Write 0x20020 v.toNat)) s =
    .next (s.after { s.eng.touch 0 with pwr := { s.eng.pwr with wakeAt := v.toNat } }) := by
  have hpwr : (s.eng.touch 0).pwr = s.eng.pwr := by simp
  rw [← hpwr]
  exact (State.access_f0Write (by decide) h hs _ (.inl hj)).trans
    (congrArg (fun d => Host.Outcome.next (s.after d)) (Eng.regWrite_wakeAt (s.eng.touch 0) s.budget v))

theorem State.writeSetSec_open (n : TbId) (v : BitVec 64) :
    exec (.registerWrite (f0Write (0x40028 + 0x100 * n.val) v.toNat)) s =
      .next (s.after ((s.eng.touch 0).setTb n { s.eng.tb n with setSec := v.toNat })) := by
  have hready : (s.eng.touch 0).start.phase = .ready := by simp [h.ready]
  have htb : (s.eng.touch 0).tb n = s.eng.tb n := by simp
  rw [← htb]
  exact (State.access_f0Write (by omega) h hs _ (.inl hj)).trans
    (congrArg (fun d => Host.Outcome.next (s.after d)) (Eng.regWrite_setSec hready s.budget n v.isLt))

end

/-! ### Reads -/

section
variable {s : State} (h : s.eng.Open 0)
include h

theorem State.readEngId_open :
    exec (.registerRead (f0Write 0 0)) s = .next (s.after ((s.eng.touch 0).emit (.csr 0 (BitVec.ofNat 64 engId)))) := by
  refine State.access_f0Read h (by decide) 0 ?_
  unfold Eng.regRead
  rw [csrReg_f0Write (by decide) _ (by decide)]
  rfl

theorem State.readWakeAt_open : exec (.registerRead (f0Write 0x20020 0)) s =
    .next (s.after ((s.eng.touch 0).emit (.csr 0 (BitVec.ofNat 64 s.eng.pwr.wakeAt)))) := by
  have hpwr : (s.eng.touch 0).pwr = s.eng.pwr := by simp
  refine State.access_f0Read h (by decide) 0 ?_
  unfold Eng.regRead
  rw [csrReg_f0Write (by decide) _ (by decide), ← hpwr]
  rfl

end

/-! ### A stalled write -/

theorem Eng.stalledDone_setSec {e : Eng} (hup : e.Up) (hs : e.standby = false) (hj : e.journals = false) {v : Nat}
    {l : List (Bool × Csr)} (hl : e.ctl.stalled = (true, f0Write 0x40028 v) :: l) (hv : v < 2 ^ 64) (slotB : Bool) (b : Budget) :
    e.stalledDone slotB b = ({ e with ctl := { e.ctl with stalled := l } } : Eng).setTb 0 { e.tb 0 with setSec := v } := by
  have hgate : (e.csrGate true (f0Write 0x40028 v)).1 = .pass := congrArg Prod.fst (Eng.csrGate_up hup true _)
  rw [Eng.stalledDone_pass _ _ hl hgate, Eng.csrRun_write _ _ (csrOk_f0Write (by decide) v) (by simp [f0Write])]
  exact (Eng.pairWrite_alone (e := { e with ctl := { e.ctl with stalled := l } }) b _ hs hj).trans
    (Eng.regWrite_setSec (e := { e with ctl := { e.ctl with stalled := l } }) hup.ready b 0 hv)

end Sys2Proof.Machine
end

section
/-! PROOF. Frames that complete (O60): a frame that runs dry, a control frame that starts, a consumed MAC control frame, a
hold, and the threshold's fall. -/
namespace Sys2Proof.Machine

variable {e : Eng} {p : PortId}

/-! ### A frame that runs dry -/

theorem Eng.ctNow_stomp (e : Eng) (p : PortId) (w : WireFrame) : ((e.stomp p w).port p).ctNow = (e.port p).ctNow := by
  have hpop : (e.popWire p w).port p = { e.port p with wire := (e.port p).wire.drop 1 } :=
    Eng.port_modPort e p (fun y => { y with wire := y.wire.drop 1 })
  simp [Eng.stomp, hpop, Port.ctNow]

theorem Eng.ctNow_stat (e : Eng) (p : PortId) (i n : Nat) : ((e.stat p i n).port p).ctNow = (e.port p).ctNow := by
  simp [Eng.stat, Port.ctNow]

theorem Eng.ctRaise_doubles {n : Nat} (h : (e.port p).ctNow = .bytes n) (hn : n < 8192) :
    e.ctRaise p = (e.modPort p (fun y => { y with ct := .bytes (2 * n), ctFrames := 0 })).stat p 84 1 := by
  simp only [Eng.ctRaise, h, if_pos hn]

theorem Eng.underrun_doubles {w : WireFrame} {l : List WireFrame} (hw : (e.port p).wire = w :: l) (hfail : w.g.failed = 0)
    (ho : w.orphan = false) {n : Nat} (hn : w.g.data.length < w.g.need) (hct : (e.port p).ctNow = .bytes n) (hlt : n < 8192) :
    e.underrun p = (let d := ((e.stomp p w).stat p 70 1).modPort p (fun y => { y with ct := .bytes (2 * n), ctFrames := 0 })
      (d.stat p 84 1).retryFrame p w.g) := by
  have hnow : (((e.stomp p w).stat p 70 1).port p).ctNow = .bytes n := by rw [Eng.ctNow_stat, Eng.ctNow_stomp, hct]
  rw [Eng.underrun_dry hw hfail ho hn, Eng.ctRaise_doubles hnow hlt]

/-! ### A control frame that starts -/

/-- What a start of a control frame shows of a port: the outputs, the trump store and what waits for it. -/
def Eng.trumpView (e : Eng) (p : PortId) : List Out × List Trump × List Trump := (e.outs, (e.port p).trump, (e.port p).trumpWait)

@[simp] theorem Eng.trumpView_stat (e : Eng) (p : PortId) (i n : Nat) : (e.stat p i n).trumpView p = e.trumpView p := by
  simp [Eng.trumpView, Eng.stat]

@[simp] theorem Eng.trumpView_tal (e : Eng) (p : PortId) (t : TEvent) : (e.tal t).trumpView p = e.trumpView p := by
  simp [Eng.trumpView]

@[simp] theorem Eng.trumpView_modBw (e : Eng) (p : PortId) (d : TDir) (g : BwAcc → BwAcc) :
    (e.modBw p d g).trumpView p = e.trumpView p := by
  unfold Eng.modBw
  split <;> rfl

@[simp] theorem Eng.trumpView_slotFrame (e : Eng) (p : PortId) (d : TDir) (cls n : Nat) :
    (e.slotFrame p d cls n).trumpView p = e.trumpView p := by
  unfold Eng.slotFrame Eng.slotTime
  dsimp only
  split
  · rfl
  · exact Eng.trumpView_modBw _ p d _

@[simp] theorem Eng.trumpView_frameOk (e : Eng) (p : PortId) (d : TDir) (tc : Option Tc) (o : Option TOrig) (bs : List Byte)
    (len : Nat) : (e.frameOk p d tc o bs len).trumpView p = e.trumpView p := by
  simp [Eng.frameOk]

@[simp] theorem Eng.trumpView_addLoad (e : Eng) (p : PortId) (len : Nat) : (e.addLoad p len).trumpView p = e.trumpView p := by
  simp [Eng.trumpView, Eng.addLoad]

/-- The frame goes out, and the trump store is as it was. -/
theorem Eng.trumpView_sendTrump (e : Eng) (p : PortId) (t : Trump) : (e.sendTrump p t).trumpView p =
    (e.outs ++ [.trump p (e.trumpBytes p t ++ fcsBytes (e.trumpBytes p t))], (e.port p).trump, (e.port p).trumpWait) := by
  have hsent (o : Out) (bs : List Byte) (len : Nat) : (((((e.emit o).frameOk p .tx none (some .firmware) bs len).wireBytes p .tx
      none (some .firmware) len).tal { code := 0x007, port := some p, dir := some .tx, orig := some .firmware }).addLoad p len
        |>.slotFrame p .tx clRetired (len + 20)).trumpView p = (e.outs ++ [o], (e.port p).trump, (e.port p).trumpWait) := by
    simp [Eng.wireBytes]
    rfl
  unfold Eng.sendTrump
  dsimp only
  cases t with
  | thin ty m => exact hsent _ _ _
  | lldp ttl => exact hsent _ _ _
  | fc =>
    rw [← hsent]
    simp only [Eng.trumpView, Eng.modPort_frame, Eng.port_modPort]
    split
    · exact (Eng.trumpView_stat _ p 33 1).trans (Eng.trumpView_tal _ p _)
    all_goals
      refine (foldEng_keep (fun e => e.trumpView p) _ _ (fun e c => ?_) _).trans (Eng.trumpView_tal _ p _)
      split
      · exact Eng.trumpView_stat _ p _ 1
      · rfl

theorem Eng.trumpRefill_none (h : (e.port p).trumpWait = []) (n : Nat) : Eng.trumpRefill p n e = e := by
  cases n with
  | zero => rfl
  | succ n =>
    unfold Eng.trumpRefill
    simp only [h]
    rfl

/-- The frame of the highest precedence at the store's front is the next. -/
theorem firstTrump_front {t : Trump} {l : List Trump} (h : ∀ u ∈ l, t.rank ≤ u.rank) : firstTrump (t :: l) = some (t, l) := by
  have hnone (k : Nat) (hk : k < t.rank) : takeFirst (fun u : Trump => u.rank == k) (t :: l) = none := by
    refine takeFirst_eq_none fun u hu => beq_eq_false_iff_ne.mpr ?_
    obtain rfl | hu := List.mem_cons.mp hu
    · omega
    · have := h u hu
      omega
  unfold firstTrump
  cases t with
  | fc => rfl
  | thin ty m => rw [hnone 0 Nat.zero_lt_one]; rfl
  | lldp ttl => rw [hnone 0 Nat.zero_lt_two, hnone 1 Nat.one_lt_two]; rfl

/-- A flow-control frame is never held by a pause, and no frame is on a port that is not in PAUSE mode. -/
theorem Port.trumpFree_of {x : Port} {t : Trump} (h : t = .fc ∨ x.fcMode ≠ .pause) : x.trumpFree t = true := by
  cases t with
  | fc => rfl
  | thin ty m | lldp ttl =>
    have hm : x.fcMode ≠ .pause := h.elim (fun h => nomatch h) id
    unfold Port.trumpFree
    cases hx : x.fcMode with
    | pause => exact absurd hx hm
    | none | pfc => rfl

theorem Port.nextTrump_front {x : Port} {t : Trump} {l : List Trump} (hx : x.trump = t :: l) (hr : ∀ u ∈ l, t.rank ≤ u.rank)
    (hf : t = .fc ∨ x.fcMode ≠ .pause) : x.nextTrump = some t := by
  have hfilter : x.trump.filter x.trumpFree = t :: l.filter x.trumpFree := by
    rw [hx, List.filter_cons_of_pos (Port.trumpFree_of hf)]
  unfold Port.nextTrump
  rw [hfilter, firstTrump_front (fun u hu => hr u (List.mem_of_mem_filter hu))]
  rfl

/-- A start position taken and a store written change nothing that a control frame's bytes are made of. -/
theorem Eng.trumpBytes_started (e : Eng) (p : PortId) (n : Nat) (l : List Trump) (t : Trump) :
    ((e.takeNext p n).modPort p (fun y => { y with trump := l })).trumpBytes p t = e.trumpBytes p t := by
  have hport : ∃ k, ((e.takeNext p n).modPort p (fun y => { y with trump := l })).port p =
      { e.port p with trump := l, freeAt := k } := by
    unfold Eng.takeNext Eng.takePos
    simp only [Eng.port_modPort]
    exact ⟨_, rfl⟩
  obtain ⟨k, hk⟩ := hport
  cases t with
  | fc =>
    unfold Eng.trumpBytes
    rw [hk]
    rfl
  | thin ty m =>
    unfold Eng.trumpBytes
    rw [hk]
  | lldp ttl =>
    unfold Eng.trumpBytes Eng.lldpBytes
    rw [hk]
    rfl

/-- The frame at the store's front starts: it leaves the store and goes out with its FCS (R112, R113). -/
theorem Eng.trumpStart_front {t : Trump} {l : List Trump} (hm : e.mayStart p = true) (hx : (e.port p).trump = t :: l)
    (hr : ∀ u ∈ l, t.rank ≤ u.rank) (ht : t = .fc ∨ (∃ ttl, t = .lldp ttl) ∨ ∃ ty m, t = .thin ty m ∧ ty < 4)
    (hf : t = .fc ∨ (e.port p).fcMode ≠ .pause) (hw : (e.port p).trumpWait = []) :
    ((e.trumpStart p).port p).trump = l ∧
      Out.trump p (e.trumpBytes p t ++ fcsBytes (e.trumpBytes p t)) ∈ (e.trumpStart p).outs := by
  have htake : takeFirst (fun u => decide (u = t)) (t :: l) = some (t, l) := if_pos (decide_eq_true rfl)
  have hsend : e.trumpStart p = Eng.trumpRefill p 4
      (((e.takeNext p ((e.trumpBytes p t).length + 4)).modPort p (fun y => { y with trump := l })).sendTrump p t) := by
    unfold Eng.trumpStart
    simp only [hm, Bool.not_true, Bool.false_eq_true, if_false, Port.nextTrump_front hx hr hf, hx, htake]
    obtain rfl | ⟨ttl, rfl⟩ | ⟨ty, m, rfl, hty⟩ := ht
    · rfl
    · rfl
    · interval_cases ty <;> rfl
  have hview := Eng.trumpView_sendTrump ((e.takeNext p ((e.trumpBytes p t).length + 4)).modPort p (fun y => { y with trump := l })) p t
  rw [Eng.trumpBytes_started] at hview
  unfold Eng.trumpView at hview
  simp only [Eng.port_modPort, Prod.mk.injEq] at hview
  obtain ⟨houts, htrump, hwait⟩ := hview
  have hwait' : (((e.takeNext p ((e.trumpBytes p t).length + 4)).port p)).trumpWait = [] := by
    simp [Eng.takeNext, Eng.takePos, hw]
  rw [hsend, Eng.trumpRefill_none (hwait.trans hwait')]
  exact ⟨htrump, by rw [houts]; exact List.mem_append_right _ (List.mem_singleton.mpr rfl)⟩

/-! ### A MAC control frame of another kind, holds and the threshold -/

theorem Eng.consume_mac_unknown {bs : List Byte} (hpause : u16 bs 14 ≠ 0x0001) (hpfc : u16 bs 14 ≠ 0x0101) :
    e.consume p bs .mac = e.stat p 51 1 := (if_neg hpause).trans (if_neg hpfc)

/-- Below the ceiling of SAF the threshold falls by half, down to its floor (R108). -/
theorem Eng.ctLower_halves {n : Nat} (hs : (e.port p).ctSaf = false) (hf : 1000000 ≤ (e.port p).ctFrames)
    (hct : (e.port p).ct = .bytes n) (hn : (e.port p).ctFloor < n) :
    e.ctLower p = e.setPort p { e.port p with ct := .bytes (max (e.port p).ctFloor (n / 2)), ctFrames := 0 } := by
  have hnow : (e.port p).ctNow.down (e.port p).ctFloor = .bytes (max (e.port p).ctFloor (n / 2)) := by
    simp [Port.ctNow, hs, hct, CtLevel.down, Nat.not_le.mpr hn]
  refine (if_neg ?_).trans (by rw [hnow])
  simp [hs, hf]

end Sys2Proof.Machine
end

section
/-! PROOF. The rings' timers that write a record (O60): what the ring is left with. -/
namespace Sys2Proof.Machine

/-- A record written is a write on the DMA ports, or one held for the partner: the rings and the time stand. -/
theorem Eng.writeRecord_rings (e : Eng) (o : Owner) (f : Fn) (pasid addr : Nat) (data : List Byte) :
    (e.writeRecord o f pasid addr data).2.txqs = e.txqs ∧ (e.writeRecord o f pasid addr data).2.rxqs = e.rxqs ∧
      (e.writeRecord o f pasid addr data).2.time = e.time := by
  have hkeep : (fun d : Eng => (d.txqs, d.rxqs, d.time)) (e.writeRecord o f pasid addr data).2 = (e.txqs, e.rxqs, e.time) := by
    unfold Eng.writeRecord
    refine (foldEng_keep (fun d : Eng => (d.txqs, d.rxqs, d.time)) _ _ (fun d a => ?_) _).trans rfl
    split
    · rfl
    · exact congrArg (fun d : Eng => (d.txqs, d.rxqs, d.time)) (a₁ := (d.access a).core) (a₂ := d.core) (Eng.access_core d a)
  simpa only [Prod.mk.injEq] using hkeep

variable {e : Eng}

/-- A record of a transmit queue is counted, written now or held. -/
theorem Eng.txRecord_counts {q : TxqId} {x : Txq} (hx : e.txq q = some x) (hs : x.state ≠ .error)
    (ty status idx count flags detail tsId : Nat) :
    ∃ h, (e.txRecord q ty status idx count flags detail tsId).txq q = some { x with cqCount := x.cqCount + 1, held := h } := by
  unfold Eng.txRecord
  simp only [hx, if_neg hs]
  split
  · exact ⟨_, Eng.txq_setTxq _ _ _⟩
  · refine ⟨x.held, ?_⟩
    simp only [Eng.tal_reads]
    rw [Eng.txq, (Eng.writeRecord_rings _ _ _ _ _ _).1]
    exact Eng.txq_setTxq e q _

theorem Eng.txBatchOut_counts {q : TxqId} {x : Txq} {b : Batch} (hx : e.txq q = some x) (hb : x.batch = some b) (hs : x.state ≠ .error) :
    ∃ y, (e.txBatchOut q).txq q = some y ∧ y.batch = none ∧ y.cqCount = x.cqCount + 1 := by
  obtain ⟨h, hy⟩ := Eng.txRecord_counts (Eng.txq_setTxq e q (some { x with batch := none })) hs 0 0 (b.last % 65536) b.count 0 0 0
  rw [Eng.txBatchOut_writes hx hb]
  exact ⟨_, hy, rfl, rfl⟩

/-- An entry of a receive ring is counted, written now or held. -/
theorem Eng.rxEntry_counts {q : RxqId} {x : Rxq} (hx : e.rxq q = some x) (hs : x.state ≠ .error) (b : Nat → List Byte) :
    ∃ h, (e.rxEntry q b).rxq q = some { x with cqCount := x.cqCount + 1, held := h } := by
  unfold Eng.rxEntry
  simp only [hx, if_neg hs]
  split
  · exact ⟨_, Eng.rxq_setRxq _ _ _⟩
  · refine ⟨x.held, ?_⟩
    simp only [Eng.tal_reads]
    rw [Eng.rxq, (Eng.writeRecord_rings _ _ _ _ _ _).2.1]
    exact Eng.rxq_setRxq e q _

theorem Eng.rxEntry_now (e : Eng) (q : RxqId) (b : Nat → List Byte) : (e.rxEntry q b).now = e.now := by
  unfold Eng.rxEntry
  split
  · rfl
  split
  · rfl
  dsimp only
  split
  · rfl
  · simp only [Eng.tal_reads]
    exact congrArg TimeSt.clk (Eng.writeRecord_rings _ _ _ _ _ _).2.2

theorem Eng.packClose_counts {q : RxqId} {x : Rxq} {o : OpenBuf} (hx : e.rxq q = some x) (hc : x.cur = some o)
    (ht : x.packTimeout ≠ 0) (hp : x.placed = []) (hs : x.state ≠ .error) :
    ∃ y, (e.packClose q).rxq q = some y ∧ y.cur = none ∧ y.cons = o.buf.idx + 1 ∧ y.cqCount = x.cqCount + 1 := by
  have hset := Eng.rxq_setRxq e q (some { x with cur := none })
  obtain ⟨h, hy⟩ := Eng.rxEntry_counts hset hs (fun ph => closeBytes { x with cur := none } ph 2 o.buf.idx.toNat)
  rw [Eng.packClose_closes hx hc ht hp, Eng.rxClose]
  simp only [hset, Eng.rxq_modRxq, hy]
  exact ⟨_, rfl, rfl, rfl, rfl⟩

theorem Eng.anchorTimer_counts {q : RxqId} {x : Rxq} {b : TbId} (hx : e.rxq q = some x) (ht : x.rxTs = true)
    (ha : x.anchorAt.isSome = true) (hl : x.anchorLast = false) (hs : x.state = .running) (hb : (e.fn x.fn).timeBase = some b) :
    ∃ y, (e.anchorTimer q).rxq q = some y ∧ y.anchorLast = true ∧ y.anchorAt = some e.now ∧ y.cqCount = x.cqCount + 1 := by
  obtain ⟨h, hy⟩ := Eng.rxEntry_counts hx (by simp [hs]) (fun ph => anchorBytes x ph b.val (e.tb b).sec (e.tb b).ns)
  rw [Eng.anchorTimer_due hx ht ha hl hs, Eng.rxAnchor]
  simp only [hx, hb, Eng.rxq_modRxq, hy]
  exact ⟨_, rfl, rfl, congrArg some (Eng.rxEntry_now e q _), rfl⟩

end Sys2Proof.Machine
end

section
/-! PROOF. Answers on the DMA ports, invalidations and gates (O60). -/
namespace Sys2Proof.Machine

variable {e : Eng}

/-! ### A request ends, and none waits -/

/-- The engine once the front request has ended: no invalidation waits for it any more. -/
def Eng.endedFront (e : Eng) (m : Fin 4) (tag : Fin 1024) (l : List Outst) : Eng :=
  { e with dma := { e.dma with outst := l, invals := e.dma.invals.map (fun i =>
    { i with waits := i.waits.filter (fun k => !decide (k = (m.val, tag.val))) }) } }

theorem Eng.issueNext_empty (h : e.dma.queue = []) : e.issueNext = e := by
  unfold Eng.issueNext
  rw [h]
  rfl

theorem Eng.ended_front (hq : e.dma.queue = []) (m : Fin 4) (tag : Fin 1024) (l : List Outst) :
    e.ended m tag l = e.endedFront m tag l := Eng.issueNext_empty (e := e.endedFront m tag l) hq

/-- A beat of which the second operand has not come is not compared yet. -/
theorem Eng.carryCompare_waits {c : ChId} {b : CBeat} {r : List CBeat} (hb : (e.chan c).buf = b :: r) (hs : b.b = none) (n : Nat) :
    Eng.carryCompare c n e = e := by
  cases n with
  | zero => rfl
  | succ n =>
    unfold Eng.carryCompare
    simp only [hb, hs]
    split
    case h_1 h => exact nomatch h
    case h_2 => rfl

/-- A beat's answer is kept with its place in the buffer: the first operand's of a beat at an even position. -/
theorem Eng.carryData_first {c : ChId} {a : Acc} {b : CBeat} {bs : List Byte} (hg : a.grp ≠ 0) (hgrp : a.grp = (e.chan c).grp)
    (hb : (e.chan c).buf = [b]) (hpos : a.pos = 2 * b.pos) (hs : b.b = none) (hlen : bs.length = 64) :
    e.carryData c a bs = e.setChan c { e.chan c with buf := [{ b with a := some bs }] } := by
  have hstale : ¬ (a.grp ≠ (e.chan c).grp ∨ a.grp = 0) := by simp [hgrp.symm, hg]
  have hdata : bs.take 64 ++ zeros (64 - (bs.take 64).length) = bs := by
    rw [List.take_of_length_le (by omega), hlen]
    exact List.append_nil bs
  have hbeat : (if b.pos = a.pos / 2 then (if a.pos % 2 = 1 then { b with b := some bs } else { b with a := some bs })
      else b) = { b with a := some bs } := by
    rw [if_pos (by omega), if_neg (by omega)]
  unfold Eng.carryData
  simp only [if_neg hstale, hdata, hb, List.map_cons, List.map_nil, hbeat]
  exact Eng.carryCompare_waits (r := []) (by rw [Eng.chan_setChan]) (by exact hs) 17

/-- A beat written is a write fewer to wait for, on a request that is not ending (R364). -/
theorem Eng.carryWritten_runs {c : ChId} {a : Acc} (hg : a.grp ≠ 0) (hgrp : a.grp = (e.chan c).grp) (hend : (e.chan c).ending = none) :
    e.carryWritten c a = e.setChan c { e.chan c with writes := (e.chan c).writes.filter (fun p => p != a.pos % 2 ^ 48) } := by
  have hstale : ¬ (a.grp = 0 ∨ a.grp ≠ (e.chan c).grp) := by simp [hgrp.symm, hg]
  simp only [Eng.carryWritten, if_neg hstale, Eng.carryEnding, Eng.chan_setChan, hend]

section
variable {o : Outst} {l : List Outst} {m : Fin 4} {tag : Fin 1024} {c : ChId} (ho : e.dma.outst = o :: l) (hm : o.port = m)
  (ht : o.tag = tag) (hq : e.dma.queue = [])
include ho hm ht

theorem takeFirst_outst_front {p : Outst → Bool} (hp : p o = true) :
    takeFirst (fun o : Outst => decide (o.port = m ∧ o.tag = tag) && p o) e.dma.outst = some (o, l) := by
  rw [ho]
  exact if_pos (by simp [hm, ht, hp])

include hq

theorem Eng.readData_beat {b : CBeat} {bs : List Byte} (hw : o.acc.owner = .carryRead c) (hk : o.acc.kind = .read)
    (hg : o.acc.grp ≠ 0) (hgrp : o.acc.grp = (e.chan c).grp) (hb : (e.chan c).buf = [b]) (hpos : o.acc.pos = 2 * b.pos)
    (hsec : b.b = none) (hlen : bs.length = 64) :
    (e.readData m tag bs).dma.outst = l ∧ ((e.readData m tag bs).chan c).buf = [{ b with a := some bs }] := by
  have htake := takeFirst_outst_front ho hm ht (p := fun o => o.acc.kind.isRead) (by rw [hk]; rfl)
  have hlat : (e.endedFront m tag l).readLatency o = e.endedFront m tag l := if_pos (by rw [hw]; rfl)
  rw [Eng.readData_carryRead htake bs hg hw, Eng.ended_front hq, hlat,
    Eng.carryData_first (e := e.endedFront m tag l) hg hgrp hb hpos hsec hlen]
  exact ⟨rfl, by rw [Eng.chan_setChan]⟩

theorem Eng.writeDone_beat (hw : o.acc.owner = .carryWrite c) (hk : o.acc.kind = .write) (hg : o.acc.grp ≠ 0)
    (hgrp : o.acc.grp = (e.chan c).grp) (hend : (e.chan c).ending = none) :
    e.writeDone m tag = (e.endedFront m tag l).setChan c { e.chan c with
      writes := (e.chan c).writes.filter (fun p => p != o.acc.pos % 2 ^ 48) } := by
  have htake := takeFirst_outst_front ho hm ht (p := fun o => !o.acc.kind.isRead) (by rw [hk]; rfl)
  have hwritten : e.writeDone m tag = (e.ended m tag l).carryWritten c o.acc := by
    simp only [Eng.writeDone, Eng.takeOutst_ends (p := fun k => !k.isRead) htake, hg, if_false, hw]
  rw [hwritten, Eng.ended_front hq]
  exact Eng.carryWritten_runs (e := e.endedFront m tag l) hg hgrp hend

end

/-! ### Gates without a list -/

/-- Without a list every gate is open (R340). -/
theorem Eng.gatesNow_none {p : PortId} (hs : (e.port p).deck.st = .none) (ho : (e.port p).deck.oper = none) :
    e.gatesNow p = 0xFF := by
  have hopen (c : Nat) (t : Int) : (Sched.allOpen.at c t).1 = true := rfl
  unfold Eng.gatesNow
  simp only [Eng.sched_bare hs ho, hopen]
  decide

end Sys2Proof.Machine
end

section
/-! PROOF. Carry's requests that complete (O60): what a channel is left with. -/
namespace Sys2Proof.Machine

variable {e : Eng} {c : ChId}

/-! ### The list's next line is read past the channels -/

theorem Eng.access_carry (e : Eng) (a : Acc) : (e.access a).carry = e.carry :=
  (congrArg Eng.carry (Eng.access_core e a) : (e.access a).core.carry = e.core.carry)

theorem Eng.carryList_carry (e : Eng) (c : ChId) : (e.carryList c).carry = e.carry := by
  unfold Eng.carryList
  dsimp only
  split
  · rfl
  · split
    · exact Eng.access_carry e _
    · rfl

@[simp] theorem Eng.chan_carryList (e : Eng) (c d : ChId) : (e.carryList c).chan d = e.chan d := by
  simp only [Eng.chan, Eng.carryList_carry]

@[simp] theorem Eng.chan_access (e : Eng) (a : Acc) (d : ChId) : (e.access a).chan d = e.chan d := by
  simp only [Eng.chan, Eng.access_carry]

@[simp] theorem Eng.chan_carryCnt (e : Eng) (i n : Nat) (d : ChId) : (e.carryCnt i n).chan d = e.chan d := rfl

/-! ### GO and DISABLE -/

theorem Eng.carryValidate_starts (e : Eng) (c : ChId) : ((e.carryValidate c).chan c).curReq = (e.chan c).curReq ∧
    ((e.carryValidate c).chan c).state = if (e.fn (e.chan c).owner).quenched then .suspended else .validate := by
  simp [Eng.carryValidate]

/-- GO names its request, and validates it unless Carry stands or its function is quenched (R361, R370). -/
theorem Eng.carryGo_starts (e : Eng) (c : ChId) : ((e.carryGo c).chan c).curReq = (e.chan c).reqId ∧
    ((e.carryGo c).chan c).state = if e.carry.stopped then .wait
      else if (e.fn (e.chan c).owner).quenched then .suspended else .validate := by
  have hnew : e.newGrp.2.chan c = e.chan c := rfl
  by_cases hs : e.carry.stopped = true
  · have hstop : (((e.newGrp.2.setChan c { e.chan c with curReq := (e.chan c).reqId, grp := e.newGrp.1, ending := none }).carryCnt 0
        1).carry.stopped) = true := hs
    simp [Eng.carryGo, hnew, hstop, hs]
  · have hrun : ¬ (((e.newGrp.2.setChan c { e.chan c with curReq := (e.chan c).reqId, grp := e.newGrp.1, ending := none }).carryCnt 0
        1).carry.stopped) = true := hs
    have hstart := Eng.carryValidate_starts ((e.newGrp.2.setChan c { e.chan c with
      curReq := (e.chan c).reqId, grp := e.newGrp.1, ending := none }).carryCnt 0 1) c
    rw [Eng.chan_carryCnt, Eng.chan_setChan] at hstart
    rw [if_neg hs, Eng.carryGo]
    simp only [hnew, if_neg hrun]
    exact hstart

theorem Eng.carryDisable_idle (h : (e.chan c).state = .idle) : e.carryDisable c = e.setChan c { e.chan c with enable := false } := by
  simp only [Eng.carryDisable, h]

/-! ### RESUME of idle channels -/

theorem Eng.carryResume_idle (hs : e.carry.stopped = true) (h : ∀ c, (e.chan c).state = .idle ∧ (e.chan c).heldRec = none) :
    e.carryResume = { e with carry := { e.carry with stopped := false } } := by
  have hd (c : ChId) : (({ e with carry := { e.carry with stopped := false } } : Eng).chan c).state = .idle ∧
      (({ e with carry := { e.carry with stopped := false } } : Eng).chan c).heldRec = none := h c
  unfold Eng.carryResume
  simp only [hs, Bool.not_true, Bool.false_eq_true, if_false]
  refine (congrArg (foldEng allChans _) (foldEng_fix _ _ _ fun c => ?_)).trans (foldEng_fix _ _ _ fun c => ?_)
  · simp only [hd c]
  · exact if_neg (by simp [hd c])

/-! ### The end of a request -/

theorem Eng.solo_of_journals (h : e.journals = false) : e.pair.state ≠ .active := by
  intro hp
  simp [Eng.journals, hp] at h

/-- The channel of a request that has ended, its record written (R364, R373). -/
def Chan.ended (x : Chan) (status elem done : Nat) : Chan := { x with
  state := .idle, result := status, elemIdx := elem, doneBytes := done, buf := [], elems := [], ending := none, words := []
  lines := [], linesRead := 0, quenched := false, rdElem := 0, rdOff := 0, rdPos := 0, rdSecond := false, writes := [], done := true }

theorem Eng.abortAnswer_none (h : e.ctl.inflight = []) (c : ChId) : e.abortAnswer c = e := by
  unfold Eng.abortAnswer
  rw [h]
  rfl

/-- A channel's record written, and its interrupt where the request asks for one (R373). -/
def Eng.recorded (e : Eng) (c : ChId) (x : Chan) (rcd : List Byte) : Eng :=
  let d := (e.writeRecord (.carryRecord c) x.owner x.dstPasid x.compl rcd).2
  if x.doneIrq then d.irqOpt x.owner x.doneVec else d

/-- The record and the interrupt leave the channels and the commands in flight as they are. -/
theorem Eng.recorded_core (h : e.pair.state ≠ .active) (c : ChId) (x : Chan) (rcd : List Byte) : (e.recorded c x rcd).core = e.core := by
  have hw := Eng.writeRecord_core h (.carryRecord c) x.owner x.dstPasid x.compl rcd
  unfold Eng.recorded
  dsimp only
  split
  · exact (Eng.irqOpt_core (by rw [Eng.core_pair hw]; exact h) x.owner x.doneVec).trans hw
  · exact hw

theorem Eng.carryEnd_running (hs : e.carry.stopped = false) (status elem done : Nat) : e.carryEnd c status elem done =
    (((e.abandon (.carry c)).setChan c ((e.chan c).ended status elem done)).recorded c ((e.chan c).ended status elem done)
      (carryRecord (e.chan c).curReq status (e.chan c).fence elem done)).abortAnswer c := by
  have hstop : (e.abandon (.carry c)).carry.stopped = false := hs
  unfold Eng.carryEnd
  simp only [hstop, Bool.false_eq_true, if_false]
  rfl

theorem Eng.carryEnd_done (hs : e.carry.stopped = false) (hj : e.journals = false) (hi : e.ctl.inflight = []) (status elem done : Nat) :
    (e.carryEnd c status elem done).chan c = (e.chan c).ended status elem done := by
  have hcore := Eng.recorded_core (e := (e.abandon (.carry c)).setChan c ((e.chan c).ended status elem done))
    (Eng.solo_of_journals hj) c ((e.chan c).ended status elem done)
    (carryRecord (e.chan c).curReq status (e.chan c).fence elem done)
  rw [Eng.carryEnd_running hs]
  generalize Eng.recorded _ _ _ _ = d at hcore ⊢
  have hinflight : d.ctl.inflight = [] := (congrArg (fun e : Eng => e.ctl.inflight) (a₁ := d.core) (a₂ := Eng.core _) hcore).trans hi
  have hcarry : d.carry = ((e.abandon (.carry c)).setChan c ((e.chan c).ended status elem done)).carry :=
    congrArg Eng.carry (a₁ := d.core) (a₂ := Eng.core _) hcore
  rw [Eng.abortAnswer_none hinflight, Eng.chan, hcarry]
  exact Eng.chan_setChan _ c _

end Sys2Proof.Machine
end

section
/-! PROOF. Edges of Tally, and the drain of an entry (O60). -/
namespace Sys2Proof.Machine

variable {e : Eng}

/-! ### One CLK_CTL edge of Tally -/

/-- What an edge counts with: the events of the edge and the counters. -/
def Eng.counting (e : Eng) : List TEvent × Tab TCnt := (e.tally.queue, e.tally.cnts)

@[simp] theorem Eng.counting_modBw (e : Eng) (p : PortId) (d : TDir) (g : BwAcc → BwAcc) : (e.modBw p d g).counting = e.counting := by
  unfold Eng.modBw
  split <;> rfl

@[simp] theorem Eng.counting_slotTime (e : Eng) (p : PortId) (d : TDir) (cls n : Nat) :
    (e.slotTime p d cls n).counting = e.counting := by
  unfold Eng.slotTime
  split
  · rfl
  · exact Eng.counting_modBw _ p d _

/-- Slot accounting counts nothing else. -/
theorem Eng.counting_slotEdge (e : Eng) (p : PortId) (d : TDir) : (e.slotEdge p d).counting = e.counting := by
  unfold Eng.slotEdge
  dsimp only
  split
  · exact Eng.counting_slotTime e p d _ _
  · split
    · exact Eng.counting_slotTime e p d _ _
    · exact (Eng.counting_slotTime _ p d _ _).trans (Eng.counting_slotTime e p d _ _)

/-- The events that every edge drives itself: the edge, and each port up whose root waits for its pace. -/
def Eng.edgeEvents (e : Eng) : List TEvent := { code := 0xF01 } ::
  (e.portList.filter (fun p => decide ((e.port p).state = .up) && e.elig 10 (.root p) && !e.pacingOk p)).map
    (fun p => { code := 0x105, port := some p })

/-- An edge counts its events; the accounts of slots and bandwidth are others. -/
theorem Eng.tallyCount_counts (hon : e.pwr.ctlOn = true) : e.tallyCount.counting = (e.countEvents e.edgeEvents none).counting := by
  unfold Eng.tallyCount
  simp only [hon, Bool.not_true, Bool.false_eq_true, if_false]
  have hslots (d : Eng) : (foldEng d.portList (fun e p => (e.slotEdge p .tx).slotEdge p .rx) d).counting = d.counting :=
    foldEng_keep Eng.counting _ _ (fun e p => (Eng.counting_slotEdge _ p .rx).trans (Eng.counting_slotEdge e p .tx)) d
  split
  · refine (foldEng_keep Eng.counting _ _ (fun d p => ?_) _).trans (hslots _)
    split <;> rfl
  · exact hslots _

/-- While counting is frozen the events of an edge are lost (R461). -/
theorem Eng.countEvents_frozen (h : e.tally.freeze = true) (ts : List TEvent) :
    (e.countEvents ts none).counting = ([], e.tally.cnts) := by
  unfold Eng.countEvents
  exact congrArg Eng.counting (if_pos h)

/-! ### A counter of edges -/

/-- A counter of every edge, its filters open. -/
structure TCnt.CountsEdges (c : TCnt) : Prop where
  enable : c.enable = true
  event : c.event = 0xF01
  ports : c.portMask = 0xFFFF
  tcs : c.tcMask = 0xFF
  dir : c.dir = 0
  funcs : c.funcEn = false
  origin : c.origin = 0
  addr : c.addrEn = false

section
variable {c : TCnt} (h : c.CountsEdges)
include h

theorem TCnt.passes_open (t : TEvent) : c.passes t = true := by
  simp [TCnt.passes, attrOk, h.ports, h.tcs, h.dir, h.funcs, h.origin, h.addr]

theorem TCnt.inc_edge : c.inc { code := 0xF01 } = 1 := by simp [TCnt.inc, TCnt.passes_open h, h.event]

theorem TCnt.inc_pace (p : PortId) : c.inc { code := 0x105, port := some p } = 0 := by
  simp [TCnt.inc, TCnt.passes_open h, h.event]

/-- It counts an edge once, whatever waits for its pace. -/
theorem TCnt.incs_edge (l : List PortId) :
    c.incs ({ code := 0xF01 } :: l.map (fun p => { code := 0x105, port := some p })) = 1 := by
  have hpace (n : Nat) : (l.map (fun p => ({ code := 0x105, port := some p } : TEvent))).foldl (fun s t => s + c.inc t) n = n := by
    induction l generalizing n with
    | nil => rfl
    | cons p l ih => rw [List.map_cons, List.foldl_cons, TCnt.inc_pace h, Nat.add_zero, ih]
  rw [TCnt.incs, List.foldl_cons, TCnt.inc_edge h, hpace]

end

theorem Eng.tcntAdd_off {k : Nat} (h : (e.tcnt k).enable = false) (n : Nat) (b : Bool) : e.tcntAdd k n b = (e, 0) :=
  if_pos (.inl (by rw [h]; rfl))

/-- An increment that does not wrap. -/
theorem Eng.tcntAdd_small {k : Nat} (h : (e.tcnt k).enable = true) (hv : (e.tcnt k).value.toNat + 1 < 2 ^ 48) (b : Bool) :
    e.tcntAdd k 1 b = (e.setTcnt k { e.tcnt k with value := (e.tcnt k).value + 1 }, 0) := by
  have hval : BitVec.ofNat 48 ((e.tcnt k).value.toNat + 1) = (e.tcnt k).value + 1 := by
    apply BitVec.eq_of_toNat_eq
    simp
  unfold Eng.tcntAdd
  simp only [h, Bool.not_true, Bool.false_eq_true, Nat.one_ne_zero, or_self, if_false, Nat.div_eq_of_lt hv, if_true, hval]

theorem Eng.tcnt_setTcnt (e : Eng) (k : Nat) (c : TCnt) : (e.setTcnt k c).tcnt k = c := Tab.get_put_same _ _ _ _

theorem Eng.tcnt_setTcnt_other (e : Eng) {j k : Nat} (c : TCnt) (h : j ≠ k) : (e.setTcnt k c).tcnt j = e.tcnt j :=
  Tab.get_put_other _ _ _ c h

/-- Of a pair of which the second is at reset the first counts the edge. -/
theorem Eng.tcntPair_edge {k : Nat} (hc : (e.tcnt (2 * k)).CountsEdges) (hodd : e.tcnt (2 * k + 1) = {})
    (hv : (e.tcnt (2 * k)).value.toNat + 1 < 2 ^ 48) {ts : List TEvent} (hi : (e.tcnt (2 * k)).incs ts = 1) :
    e.tcntPair k ts none = e.setTcnt (2 * k) { e.tcnt (2 * k) with value := (e.tcnt (2 * k)).value + 1 } := by
  have hoff (x : TCnt) (n : Nat) : (e.setTcnt (2 * k) x).tcntAdd (2 * k + 1) n false = (e.setTcnt (2 * k) x, 0) :=
    Eng.tcntAdd_off (by rw [Eng.tcnt_setTcnt_other e x (by omega), hodd]) n false
  unfold Eng.tcntPair
  simp only [hodd, hi, reduceCtorEq, if_false, Eng.tcntAdd_small hc.enable hv, hoff]

/-- The only counter set up, an even one, counts the edge (R456, R457). -/
theorem Eng.countEvents_edge {k : Nat} {c : TCnt} (hf : e.tally.freeze = false) (hq : e.tally.queue = [])
    (hr : e.tally.cnts.rows = [(2 * k, c)]) (hc : c.CountsEdges) (hv : c.value.toNat + 1 < 2 ^ 48) :
    ((e.countEvents e.edgeEvents none).tcnt (2 * k)).value = c.value + 1 := by
  have heven : e.tcnt (2 * k) = c := by simp [Eng.tcnt, Tab.get, hr, Tab.look]
  have hodd : e.tcnt (2 * k + 1) = {} := by simp [Eng.tcnt, Tab.get, hr, Tab.look]
  have hpairs : e.tcntPairs = [k] := by
    unfold Eng.tcntPairs
    rw [hr, List.map_cons, List.map_nil, Nat.mul_div_cancel_left k Nat.zero_lt_two]
    rfl
  have hcount : e.countEvents e.edgeEvents none =
      ({ e with tally := { e.tally with queue := [] } } : Eng).tcntPair k e.edgeEvents none := by
    have hfold : e.countEvents e.edgeEvents none = foldEng e.tcntPairs (fun d j => d.tcntPair j (e.tally.queue ++ e.edgeEvents) none)
      { e with tally := { e.tally with queue := [] } } := if_neg (by simp [hf])
    rw [hfold, hpairs, hq]
    rfl
  subst heven
  have hedge : (e.tcnt (2 * k)).incs e.edgeEvents = 1 := TCnt.incs_edge hc _
  rw [hcount, Eng.tcntPair_edge (e := { e with tally := { e.tally with queue := [] } }) hc hodd hv hedge,
    Eng.tcnt_setTcnt]
  rfl

/-! ### A bandwidth window's end -/

theorem Eng.bwBoundary_next (hon : e.pwr.ctlOn = true) (hb : e.tally.bwEn = true) : e.bwBoundary.tally.bw = {} ∧
    e.bwBoundary.tally.bwMaskNow = e.bwBoundary.tally.bwMask ∧ e.bwBoundary.tally.bwWindowNow = e.bwBoundary.tally.bwWindow := by
  unfold Eng.bwBoundary
  rw [if_neg (by simp [hon, hb])]
  exact ⟨rfl, rfl, rfl⟩

/-! ### The drain of an entry -/

theorem Eng.ringDrained_ends (hd : e.drained = true) (hdue : e.start.due = none) (hs : e.pwr.step = .e2) (hl : e.txqList = [])
    (ha : e.pwr.abort = none) (credits : Nat) : e.ringDrained credits = { e with pwr := { e.pwr with step := .e3 } } := by
  have hflush : e.flushBatches = e := by
    unfold Eng.flushBatches
    rw [hl]
    rfl
  unfold Eng.ringDrained
  rw [if_neg (by simp [hd]), if_neg (by simp [hdue]), if_neg (by simp [hs]), hflush]
  dsimp only
  split
  case h_1 a h => exact nomatch ha.symm.trans h
  case h_2 => rfl

theorem Eng.readRange_pwr (e : Eng) (o : Owner) (f : Fn) (pasid g addr len pos : Nat) :
    (e.readRange o f pasid g addr len pos).pwr = e.pwr :=
  congrArg Eng.pwr (a₁ := (e.readRange o f pasid g addr len pos).core) (a₂ := e.core) (Eng.readRange_core e o f pasid g addr len pos)

theorem Eng.txFetch_pwr (e : Eng) (q : TxqId) : (e.txFetch q).pwr = e.pwr := by
  unfold Eng.txFetch
  split
  · rfl
  dsimp only
  split
  · rfl
  · exact Eng.readRange_pwr _ _ _ _ _ _ _ _

theorem Eng.rxFetch_pwr (e : Eng) (q : RxqId) : (e.rxFetch q).pwr = e.pwr := by
  unfold Eng.rxFetch
  split
  · rfl
  dsimp only
  split
  · rfl
  · exact Eng.readRange_pwr _ _ _ _ _ _ _ _

theorem Eng.fetchAll_pwr (e : Eng) : e.fetchAll.pwr = e.pwr := by
  unfold Eng.fetchAll
  exact (foldEng_keep Eng.pwr _ _ (fun d _ => Eng.rxFetch_pwr d _) _).trans
    (foldEng_keep Eng.pwr _ _ (fun d _ => Eng.txFetch_pwr d _) e)

theorem Eng.pushTrump_pwr (e : Eng) (p : PortId) (t : Trump) : (e.pushTrump p t).pwr = e.pwr := by
  unfold Eng.pushTrump
  dsimp only
  split
  · rfl
  split
  · rfl
  split
  · split <;> rfl
  · rfl

theorem Eng.fcReady_pwr (e : Eng) (p : PortId) : (e.fcReady p).pwr = e.pwr := by
  unfold Eng.fcReady
  split
  · exact Eng.pushTrump_pwr e p .fc
  · rfl

/-- What an entry had closed opens again (R418). -/
theorem Eng.reopen_pwr (e : Eng) : e.reopen.pwr = { e.pwr with closed := false, begun := false } := by
  unfold Eng.reopen
  refine (foldEng_keep Eng.pwr _ _ (fun d p => ?_) _).trans ?_
  · split
    · exact Eng.fcReady_pwr d p
    · rfl
  · rw [Eng.fetchAll_pwr, (Eng.rcircTopUp_frame _).2.2.1]
    rfl

/-- An entry from RUN rolled back, with nobody waiting (R419). -/
theorem Eng.rollback_alone (hs : e.pwr.state = .run) (hw : e.pwr.waiters = []) (hr : e.pwr.runWaiters = []) (hp : e.pwr.pend = none)
    (n : Nat) (a : Abort) (credits : Nat) : (e.rollback n a credits).pwr.step = .none ∧ (e.rollback n a credits).pwr.target = .run ∧
      (e.rollback n a credits).pwr.closed = false := by
  have hback : e.rollback n a credits = (((e.modPwr (fun x => { x with
      step := .none, target := .run, waiters := [], runWaiters := [], abort := none })).pwrCnt 1 1).reopen).pwrNext credits := by
    unfold Eng.rollback
    simp only [hs, hw, hr, reduceCtorEq, if_false, false_and]
    rfl
  have hpend : (((e.modPwr (fun x => { x with
      step := .none, target := .run, waiters := [], runWaiters := [], abort := none })).pwrCnt 1 1).reopen).pwr.pend = none := by
    rw [Eng.reopen_pwr]
    exact hp
  rw [hback, Eng.pwrNext, hpend]
  dsimp only
  rw [Eng.reopen_pwr]
  exact ⟨rfl, rfl, rfl⟩

theorem Eng.drainTimeout_backs (hdue : e.start.due = none) (hs : e.pwr.step = .e2) (hst : e.pwr.state = .run) (hw : e.pwr.waiters = [])
    (hr : e.pwr.runWaiters = []) (hp : e.pwr.pend = none) (credits : Nat) : (e.drainTimeout credits).pwr.step = .none ∧
      (e.drainTimeout credits).pwr.target = .run ∧ (e.drainTimeout credits).pwr.closed = false := by
  have hback : e.drainTimeout credits =
      (e.fail 39 e.pwr.target.code mPower).rollback 1 (e.pwr.abort.getD { cause := 3 }) credits := by
    unfold Eng.drainTimeout
    simp only [hdue, hs, reduceCtorEq, if_false, ne_eq, not_true_eq_false]
    rfl
  rw [hback]
  exact Eng.rollback_alone (e := e.fail 39 e.pwr.target.code mPower) hst hw hr hp 1 _ credits

end Sys2Proof.Machine
end

section
/-! PROOF. The commands that complete (O60): each from the settled statement on its unit, or from the rule proved for it
above. -/
namespace Sys2Proof.Machine

/-! ### Three cases that the statements on their units leave open -/

/-- The debugger reads its ENABLE through its port (R391). -/
theorem State.dbgRead_enable {s : State} (h : s.eng.Up) (v : BitVec 64) : exec (.dbgPortAccess 0 false v) s =
    .next (s.after (s.eng.clear.emit (.dbg 0 (BitVec.ofNat 64 (b2n s.eng.lcp.enable))))) := by
  have hread : (s.eng.clear.regRead s.boot.runB s.budget (f0Write (0x200000 + 0) v.toNat)).1 = b2n s.eng.lcp.enable := by
    unfold Eng.regRead
    rw [csrReg_f0Write (by decide) _ (by decide)]
    rfl
  refine State.does_eq_after ((Eng.dbgPort_read _ _ v.toNat h.clear (o := 0) rfl (by decide)).trans ?_)
  rw [hread]
  rfl

theorem Eng.holdEnd_none {e : Eng} (h : e.time.holdover = none) : e.holdEnd = e := by
  unfold Eng.holdEnd
  rw [h]

theorem takeFirst_front {α : Type} {p : α → Bool} {a : α} (l : List α) (h : p a = true) : takeFirst p (a :: l) = some (a, l) :=
  if_pos h

/-- After the drain the reset is done anew from S3, where time has not been held over (R480). -/
theorem Eng.aonOnly_restarted {e : Eng} (hh : e.time.holdover = none) {d : Eng} (hd : ({ e.aonOnly with
      pwr := { e.aonOnly.pwr with state := .run, ctlOn := true, restOn := true, retOn := true, pll := true }
      start := { e.aonOnly.start with phase := .s3 } } : Eng).holdEnd = d) :
    d.start.phase = .s3 ∧ d.pwr.state = .run ∧ d.pwr.ctlOn = true ∧ d.pwr.restOn = true ∧ d.pwr.retOn = true ∧ d.fns = {} ∧
      d.ports = {} ∧ d.txqs = {} ∧ d.rxqs = {} := by
  obtain ⟨hfns, htxqs, hrxqs, -, -, hports, -, -, -, -, -, -, -, -, -, -, -, -, -, -, -, -, -, hhold⟩ := resetsAndTheirDrain.2.2 e
  subst hd
  rw [Eng.holdEnd_none (by exact hhold.trans hh)]
  exact ⟨rfl, rfl, rfl, rfl, rfl, hfns, hports, htxqs, hrxqs⟩

/-- Settles O60: a case of each command, from what is settled of its unit. -/
theorem commandsComplete : Obligations.CommandsComplete := by
  unfold Obligations.CommandsComplete
  intro s
  refine ⟨fun h hs hj => ⟨fun v => ?_, fun n v => ?_, ?_, ?_⟩, fun v l hup hs hj hl hv => ?_,
    fun p c dp seg g l x f hd hm ht hf hg hn hx hfr hneed hpa hh hl hst ho => ?_,
    fun p w l hw hfail ho => ⟨fun hneed hon hts hlate => ?_, fun n hneed hct hlt => ?_⟩,
    fun p t l hm hx hr ht hf hw => ?_,
    fun r hup hon hb hc hlen hmax he hk hgood a ha => ⟨fun hcons => ?_, fun hcons hpause hpfc => ?_⟩,
    fun p on => ?_, fun p n hs hf hct hn => ?_, fun q x b hx hb hs => ?_, fun q x o hx hc ht hp hs => ?_,
    fun q x b hx ht ha hl hs hb => ?_, fun i v hv ha hm hev => ?_,
    fun m tag o l ho hm ht hq => ⟨fun hg => ?_, fun c b bs hw hk hg hgrp hb hpos hsec hlen => ?_, fun c hw hk hg hgrp hend => ?_⟩,
    fun tag x hx hb hw => ?_, fun g x ok hx hw hb => ?_, fun tag sc hq ho => ?_, fun tag i r hi ht hw => ?_,
    fun p => ⟨fun hs ho => ?_, fun a ha ho => ?_, fun hs => ?_⟩,
    fun h hs hj => ⟨fun c hcl hp h4 hst hen => ⟨?_, ?_⟩, fun hstop hidle => ?_⟩, fun hauto hstop hidle => ?_,
    fun c => ⟨fun l hst hend hch => ?_, fun hst hw hend hstop hj hi => ?_,
      fun k hstop hon hst hother hend hen hp hsec hwait hb hx hop hlt => ?_⟩, fun v hup => ?_,
    fun hon => ⟨fun hf => ?_, fun k c hf hq hr hen hev hpm htm hd hfn ho ha hv => ?_, fun hb => ?_⟩,
    fun hd hdue hs hl ha => ?_, fun hdue hs hst hw hr hp => ?_, fun h => ?_, fun h => ?_, fun h => ?_, ?_, fun h hh => ?_,
    fun h ht hw hp hc => ?_, fun p hs => ?_, fun ep l hst hon hb => ?_, fun k l hc hon h4 h24 => ?_⟩
  -- registers
  · exact State.writeWakeAt_open h hs hj v
  · exact State.writeSetSec_open h hs hj n v
  · exact State.readEngId_open h
  · exact State.readWakeAt_open h
  · exact State.does_eq_after (Eng.stalledDone_setSec (e := s.eng.clear) hup.clear hs hj hl hv _ _)
  -- frames
  · obtain ⟨d, w, hexec, -, hlist, hwire, hwg, hwf, -, -, hout, -⟩ :=
      (framesStartEndAndArrive.1.1 s p dp seg hd).2.1 hm ht hf c g l x f hg hn hx hfr hneed hpa hh hl hst ho
    exact ⟨d, w, hexec, hlist, hwire, hwg, hwf, hout⟩
  · exact (framesStartEndAndArrive.1.2 s p w l hw).1 hfail hneed hon hts hlate ho
  · exact State.does_eq_after (congrArg (·.stompAll p) (Eng.underrun_doubles (e := s.eng.clear) hw hfail ho hneed hct hlt))
  · exact ⟨_, State.does_eq_after rfl, Eng.trumpStart_front (e := s.eng.clear) hm hx hr ht hf hw⟩
  · exact ((((framesStartEndAndArrive.2 s r).2 hup hon hb hc).2.2.2 hlen a ha).2.2 hmax he hk).2 (beq_iff_eq.mpr hgood) |>.1 hcons
  · have hexec := (((((framesStartEndAndArrive.2 s r).2 hup hon hb hc).2.2.2 hlen a ha).2.2 hmax he hk).2
      (beq_iff_eq.mpr hgood)).2.2 (.inl hcons)
    rw [hcons, Eng.consume_mac_unknown hpause hpfc] at hexec
    exact hexec
  · exact State.does_eq_after rfl
  · exact State.does_eq_after (Eng.ctLower_halves (e := s.eng.clear) hs hf hct hn)
  -- the rings' timers
  · exact ⟨_, Exists.imp (fun _ h => ⟨State.does_eq_after rfl, h⟩) (Eng.txBatchOut_counts (e := s.eng.clear) hx hb hs)⟩
  · exact ⟨_, Exists.imp (fun _ h => ⟨State.does_eq_after rfl, h⟩) (Eng.packClose_counts (e := s.eng.clear) hx hc ht hp hs)⟩
  · exact ⟨_, Exists.imp (fun _ h => ⟨State.does_eq_after rfl, h⟩) (Eng.anchorTimer_counts (e := s.eng.clear) hx ht ha hl hs hb)⟩
  · exact (ringTimersAndStops.1.2.2 s i v hv).1 ha hm hev
  -- the DMA ports and translation
  · have htake : takeFirst (fun o : Outst => decide (o.port = m ∧ o.tag = tag)) s.eng.dma.outst = some (o, l) := by
      rw [ho]
      exact takeFirst_front l (decide_eq_true ⟨hm, ht⟩)
    have hended := Eng.ended_front (e := s.eng.clear) hq m tag l
    refine exec_dmaFailure htake ?_ ?_
    · rw [Eng.accFailed_forgotten _ _ hg, Eng.failedReq, hended]
      rfl
    · rw [Eng.accFailed_forgotten _ _ hg, Eng.failedReq, hended]
      rfl
  · exact ⟨_, State.does_eq_after rfl, Eng.readData_beat (e := s.eng.clear) ho hm ht hq hw hk hg hgrp hb hpos hsec hlen⟩
  · exact State.does_eq_after (Eng.writeDone_beat (e := s.eng.clear) ho hm ht hq hw hk hg hgrp hend)
  · obtain ⟨hsuccess, -, -, htimeout⟩ := (translationAndInvalidation.1 s).2.2.2.1 tag x hx hb hw
    exact ⟨hsuccess, htimeout⟩
  · exact ((translationAndInvalidation.1 s).2.2.2.2 g x hx).2.1 hw hb ok
  · have hexec := (translationAndInvalidation.2 s).1 tag sc (by rw [hq]; exact fun a ha => nomatch ha)
    rw [ho] at hexec
    simpa using hexec
  · refine ((translationAndInvalidation.2 s).2.1 tag).1 i r ?_
    rw [hi]
    exact takeFirst_front r (by simp [ht, hw])
  -- Decks
  · have hgates : s.eng.clear.gatesNow p = 0xFF := Eng.gatesNow_none (e := s.eng.clear) hs ho
    have hexec := (deckEvents s p).1
    rw [hgates] at hexec
    exact hexec
  · refine ⟨_, (deckEvents s p).2.2.1 a ha ho, ?_⟩
    rw [Eng.gateUpdate_eq, Eng.port_setPort, Eng.port_setPort]
    exact ⟨rfl, rfl, rfl, rfl, rfl⟩
  · exact (deckEvents s p).2.2.2.1 hs
  -- Carry
  · have hgo := ((carryEventsAndRegisters.2 s h hs hj).1 c hcl hp h4).1 hst hen
    have hstop : ((s.eng.touch 0).setChan c (s.eng.chan c)).carry.stopped = s.eng.carry.stopped := by simp [Eng.setChan]
    have hstart := Eng.carryGo_starts ((s.eng.touch 0).setChan c (s.eng.chan c)) c
    simp only [Eng.chan_setChan, hstop, Eng.setChan_reads, Eng.touch_reads] at hstart
    exact ⟨_, hgo, hstart⟩
  · have hdis := ((carryEventsAndRegisters.2 s h hs hj).1 c hcl hp h4).2.2.2.1 hen
    refine ⟨_, hdis, ?_⟩
    rw [Eng.carryDisable_idle (by rw [Eng.chan_setChan]; exact hst), Eng.chan_setChan, Eng.chan_setChan]
  · have hcarry : (s.eng.touch 0).carry = s.eng.carry := by simp
    rw [← hcarry]
    exact ((carryEventsAndRegisters.2 s h hs hj).2.2.2 hstop).trans (congrArg (fun d => Host.Outcome.next (s.after d))
      (Eng.carryResume_idle (e := s.eng.touch 0) (by rw [hcarry]; exact hstop) (fun c => by simpa using hidle c)))
  · exact ((carryEventsAndRegisters.1 s).2.1 hauto).trans (congrArg (fun d => Host.Outcome.next (s.after d))
      (Eng.carryResume_idle (e := s.eng.clear) hstop hidle))
  · refine ⟨_, ((carryEventsAndRegisters.1 s).2.2.2.2.2.2 c).2 hst hend |>.2.2.2.1 l hch, ?_⟩
    simp
  · refine ⟨_, ((carryEventsAndRegisters.1 s).1 c).1 hst hw hend hstop, ?_⟩
    rw [Eng.carryEnd_done (e := s.eng.clear) hstop hj hi]
    exact ⟨rfl, rfl, rfl, rfl, rfl⟩
  · refine ⟨_, ((carryEventsAndRegisters.1 s).2.2.2.2.2.1 c hstop hon hst hother hend hen hp hsec hwait).2 k hb hx hop hlt, ?_⟩
    rw [Eng.chan_access, Eng.carryFill_copy (by rw [Eng.chan_setChan]; exact hst) (by rw [Eng.chan_setChan]; exact hsec)
      (by rw [Eng.chan_setChan]; exact hx) hop, Eng.chan_setChan, Eng.chan_setChan]
    exact ⟨rfl, rfl, rfl⟩
  -- the debugger's port
  · exact State.dbgRead_enable hup v
  -- Tally
  · have hcounting := (Eng.tallyCount_counts (e := s.eng.clear) hon).trans (Eng.countEvents_frozen (e := s.eng.clear) hf _)
    exact ⟨_, State.does_eq_after rfl, congrArg Prod.fst hcounting, fun k => congrArg (fun x => x.2.get {} k) hcounting⟩
  · have hcounting := congrArg (fun x => (x.2.get {} (2 * k)).value) (Eng.tallyCount_counts (e := s.eng.clear) hon)
    exact ⟨_, State.does_eq_after rfl, hcounting.trans
      (Eng.countEvents_edge (e := s.eng.clear) hf hq hr ⟨hen, hev, hpm, htm, hd, hfn, ho, ha⟩ hv)⟩
  · exact ⟨_, State.does_eq_after rfl, Eng.bwBoundary_next (e := s.eng.clear) hon hb⟩
  -- power and start-up
  · exact State.does_eq_after (Eng.ringDrained_ends (e := s.eng.clear) hd hdue hs hl ha _)
  · exact ⟨_, State.does_eq_after rfl, Eng.drainTimeout_backs (e := s.eng.clear) hdue hs hst hw hr hp _⟩
  · exact ((resetsAndTheirDrain.1 s).2.1 h).1
  · exact ((resetsAndTheirDrain.1 s).2.2.1 h).2
  · exact (resetsAndTheirDrain.1 s).2.2.2.1 (.inl h)
  · refine ⟨_, (resetsAndTheirDrain.1 s).1, ?_⟩
    simp only [State.after, and_self]
  · exact ⟨_, (resetsAndTheirDrain.2.1 s).2 h, Eng.aonOnly_restarted (e := s.eng.clear) hh rfl⟩
  · obtain ⟨-, -, -, hready, -, hfacts⟩ := imagesAndStartUp.2 s
    obtain ⟨hphase, hctl, hstate, hstep, -, -, -⟩ := hfacts h hw hp hc
    exact ⟨_, hready h ht, hphase, hctl, hstate, hstep⟩
  -- scrubbing
  · exact (((collectorAndScrubber.2 s (.dealerTree p)).2 hs).2.2.2.2.2.2.1 p rfl).1
  -- the journal
  · obtain ⟨-, -, -, -, -, hjournal, -⟩ := pairsFormAndJournal.2 s
    exact ⟨_, (hjournal _ ep l hst hon hb).1 rfl, rfl, List.mem_append_right _ (List.mem_singleton.mpr rfl)⟩
  · obtain ⟨-, -, -, -, -, -, -, -, -, hcopy⟩ := pairsFormAndJournal.2 s
    exact ⟨_, (hcopy k l hc hon h4 (by omega)).2 (by omega), List.mem_append_right _ (List.mem_singleton.mpr rfl)⟩

end Sys2Proof.Machine
end
